-- ==== Sys2Proof/Word.lean ====
section
/-! DEFINITION. The word types of the module and their plainest arithmetic (R5: little-endian, bit 0 least significant). -/

namespace Sys2Proof

/-- One byte. -/
abbrev Byte := BitVec 8

/-- Bits [115:0] of a tile instruction: PE, PN, CF and FIELDS of Table 2.3. CLASS and OPC are the row's. -/
abbrev TileFields := BitVec 116

/-- A whole tile instruction (R32). -/
abbrev TileWord := BitVec 128

/-- Bits [msb:lsb] of a word, as a number. -/
abbrev bits {n : Nat} (w : BitVec n) (msb lsb : Nat) : Nat := (w.toNat >>> lsb) % 2 ^ (msb + 1 - lsb)

/-- Bits [msb:lsb] of a number. -/
abbrev nbits (w msb lsb : Nat) : Nat := (w >>> lsb) % 2 ^ (msb + 1 - lsb)

/-- ⌈a / b⌉. -/
abbrev cdiv (a b : Nat) : Nat := (a + b - 1) / b

/-- A boolean as a bit of value 0 or 1. -/
abbrev bit (b : Bool) : Nat := if b then 1 else 0

end Sys2Proof
end

