-- ==== Sys2Proof/Syntax.lean ====
section
/-! DEFINITION. The commands of the block: one constructor per row of the opcode table, with the row's operands.
A tile instruction's row carries the logical core and bits [115:0] of the instruction (R32).
An event's row carries what its environment decides (a reading, a level, data the host returns, a packet). -/

namespace Sys2Proof

/-- Who performs a BAR0 or register-space access (R20, R26): a PCIe function (0 the PF, n VF n) or firmware. -/
inductive Agent where
  | host (fn : Nat)
  | firmware
  deriving DecidableEq, Repr

/-- The paths to the Umasel dictionary (Table 14.3). -/
inductive UmPath where
  | t1s
  | mbox
  | svc (c : Nat)
  | fabric (did : Nat)
  deriving DecidableEq, Repr

/-- Who asks in a request that writes one object: its path and its session, 0 for none (R330). -/
structure Req where
  path : UmPath
  session : Nat
  deriving DecidableEq, Repr

/-- What the host returns to a read of the module (R153, R161, R168). -/
inductive HostRead where
  | data (bs : List Byte)
  | error
  | poisoned
  deriving DecidableEq, Repr

/-- A command of a queue: context, queue (0-3 a ring, 15 the device queue) and index (Table 7.7). -/
structure CmdKey where
  c : Nat
  q : Nat
  idx : Nat
  deriving DecidableEq, Repr

/-- A running collective: its context and COLL_ID (R225). -/
structure CollKey where
  c : Nat
  id : Nat
  deriving DecidableEq, Repr

/-- What one member contributes to a collective: element values as FP32 words, shard version and whether the
shard could be sent (R234, R262), and its poison mask, a bit for 32 B of element data or for a block of an MX wire (R274). -/
structure MemberIn where
  elems : List (BitVec 32)
  version : BitVec 32
  failed : Bool
  mask : List Bool
  deriving DecidableEq, Repr

/-- One copy of a chunk that was sent (R237): the rank it went to and its number. -/
structure ChunkRef where
  rank : Nat
  chunk : Nat
  deriving DecidableEq, Repr

/-- Claims of one origin for one expert and choice (R243). -/
structure Claim where
  expert : Nat
  choice : Nat
  count : Nat
  deriving DecidableEq, Repr

/-- A grant for one expert and choice (R243). -/
structure Grant where
  expert : Nat
  choice : Nat
  count : Nat
  base : Nat
  deriving DecidableEq, Repr

/-- What a packet of a collective other than data says: an acknowledgement of a chunk (R237), T_REAL and the thermal-slow flag (R235), an abort
with its status and originating rank (R238), an origin's claims and an owner's grants of a round (R243), and the members' norms (R246). -/
inductive CollMsg where
  | ack (x : ChunkRef)
  | progress (tReal : Nat) (slow : Bool)
  | abort (st : BitVec 16) (rank : Nat)
  | claims (origin : Nat) (l : List Claim)
  | grants (owner : Nat) (l : List Grant)
  | sums (l : List (BitVec 64 × BitVec 64))
  deriving DecidableEq, Repr

/-- A collective packet (R225, R241): the device it comes from, the identifiers it carries, its sender, its chunk, its place in the
chunk and whether it is the last, whether it came on VC5 (R205), and its data as the sender read it with its poison mask (R274); a token row also carries its place
at the owner and its token and choice (R244). `again` marks a copy that is sent again over a new flowlet (R237); `msg` is what a packet
other than data says. -/
structure CollPkt where
  src : Nat
  c : Nat
  id : Nat
  epoch : BitVec 16
  chk : BitVec 16
  member : Nat
  chunk : Nat
  part : Nat
  last : Bool
  vc5 : Bool
  elems : List (BitVec 32)
  mask : List Bool
  loc : Nat
  slot : Nat
  token : Nat
  choice : Nat
  again : Bool
  msg : Option CollMsg
  deriving DecidableEq, Repr

/-- Where a packet of a collective other than data came in, from which device, and what every collective packet carries (R205, R225). -/
structure CollTag where
  port : Nat
  vc5 : Bool
  src : Nat
  c : Nat
  id : Nat
  epoch : BitVec 16
  chk : BitVec 16
  deriving DecidableEq, Repr

/-- The ends of bring-up steps (Table 16.6). -/
inductive BringStep where
  | s1 | s2 | s3 | s4 | s5a | s5b | s5c | s6
  deriving DecidableEq, Repr

/-- What a port's training measures (R198): channel within the SR limit, working lanes, the peer's identity and the reach mode
that its 0x6004 sets; no peer when the other end is dark. -/
structure TrainResult where
  srOk : Bool
  lanes : BitVec 2
  peer : Option (Nat × Nat)
  peerMode : Nat
  deriving DecidableEq, Repr

/-- The errors that a command's reads of stacks meet (R123, R131): the stacks whose on-die ECC returns a corrected or an
uncorrected severity, and those whose PHY reports an error after its retry. -/
structure ReadErrs where
  corr : List Nat
  uncorr : List Nat
  phy : List Nat
  deriving DecidableEq, Repr, Inhabited

/-- An operation of a home on one stripe, with the errors that its reads meet (R129, R131, R146). -/
structure StripeOp where
  stripe : Nat
  errs : ReadErrs
  deriving DecidableEq, Repr

/-- A rank map as it arrives, with the module that distributes it (R29). -/
structure RankMapMsg where
  src : Nat
  map : List (BitVec 32)
  deriving DecidableEq, Repr

/-- What reaches a spare for its cut state (R298): where firmware places its slot; the lost rank's record, from a holder; the image itself, where
a retiring module sends it (R278); else the slot images of members by index, and the held copies of the holders of shards 0 and 1. -/
structure RebuildIn where
  base : Nat
  record : List Byte
  direct : Option (List Byte)
  members : List (Nat × List Byte)
  shard0 : Option (List Byte)
  shard1 : Option (List Byte)
  deriving DecidableEq, Repr

/-- A failed check of a partition (R75, R78): the number of the instruction in flight that it failed on, and which check. -/
structure CheckFail where
  seq : Nat
  chk : Nat
  deriving DecidableEq, Repr

/-- Why a parity block is written (R267). -/
inductive FlushCause where
  | allSenders | timer | space
  deriving DecidableEq, Repr

/-- The functions with an enable or a mode object (R282, Table 14.9, R248). -/
inductive FuncId where
  | fetch | deadlock | collective | router | update | scrub | retrain | restripe | fabRetrain | tsAlign | recovery
  deriving DecidableEq, Repr

/-- The commands: one constructor per row of the opcode table. -/
inductive Instr where
  /-- COLD_RESET (R302). -/
  | coldReset (cool : Bool)
  /-- WARM_RESET (R378). -/
  | warmReset
  /-- CONTEXT_RESET (R302). -/
  | contextReset (c : Nat)
  /-- FLR (R302). -/
  | flr (fn : Nat)
  /-- VAUX3P3_RISE (R312). -/
  | vaux3p3Rise
  /-- VAUX3P3_LOSS (R368). -/
  | vaux3p3Loss
  /-- VIN48_RISE (R374). -/
  | vin48Rise
  /-- VIN48_LOSS (R367). -/
  | vin48Loss
  /-- MOD_RESET_N (R369). -/
  | modResetN (high : Bool) (did : BitVec 17) (node : BitVec 4) (test : Bool) (cool : Bool)
  /-- PERST_N (R369). -/
  | perstN (high : Bool) (us : Nat)
  /-- WAKE_N (R369). -/
  | wakeN (ns : Nat)
  /-- PCIE_LINK_TRAINING (R373). -/
  | pcieLinkTraining
  /-- SECURE_BOOT (R342). -/
  | secureBoot
  /-- BRING_UP_STEP_END (R374). -/
  | bringUpStepEnd (step : BringStep) (fails : List Nat)
  /-- REFCLK_RETRY (R374). -/
  | refclkRetry (ok : Bool)
  /-- MC_CLOCK_SWITCH (R312). -/
  | mcClockSwitch
  /-- PLL_LOCK_LOSS (R313). -/
  | pllLockLoss (die : Nat)
  /-- DIE_LINK_FAILURE (R12). -/
  | dieLinkFailure (cd iod : Nat)
  /-- REGISTER_WRITE (R6). -/
  | registerWrite (ag : Agent) (off width val : Nat)
  /-- MEM_PT_INVAL_GO (R26). -/
  | memPtInvalGo (ag : Agent) (val : BitVec 32)
  /-- PT_INVAL_DONE (R25). -/
  | ptInvalDone
  /-- BAR2_ACCESS (R21). -/
  | bar2Access (fn off len : Nat) (wr : Option (List Byte))
  /-- BAR2_RESIZE (R383). -/
  | bar2Resize (pf : Bool) (gib : Nat)
  /-- RBD_RANK_MAP (R29). -/
  | rbdRankMap (rq : Req) (m : List (BitVec 32))
  /-- RANK_MAP_INSTALL (R29). -/
  | rankMapInstall (m : RankMapMsg)
  /-- RANK_MAP_ACK (R29). -/
  | rankMapAck (did : Nat)
  /-- RANK_MAP_ACK_TIMEOUT (R29). -/
  | rankMapAckTimeout
  /-- RANK_MAP_REQUEST (R29). -/
  | rankMapRequest (port : Nat) (m : Option (List (BitVec 32)))
  /-- TASK_START (R52). -/
  | taskStart (core : Nat)
  /-- TASK_TIMEOUT (R55). -/
  | taskTimeout (core : Nat)
  /-- TASK_DRAIN_EXPIRY (R55). -/
  | taskDrainExpiry (core : Nat)
  /-- UNIT_INSTRUCTION_COMPLETE (R36). -/
  | unitInstructionComplete (core seq : Nat)
  /-- CTL_NOP (R38). -/
  | ctlNop (core : Nat) (f : TileFields)
  /-- CTL_END (R54). -/
  | ctlEnd (core : Nat) (f : TileFields)
  /-- CTL_JMP (R38). -/
  | ctlJmp (core : Nat) (f : TileFields)
  /-- CTL_LOOP (R38). -/
  | ctlLoop (core : Nat) (f : TileFields)
  /-- CTL_SETL (R38). -/
  | ctlSetl (core : Nat) (f : TileFields)
  /-- CTL_SETA (R38). -/
  | ctlSeta (core : Nat) (f : TileFields)
  /-- CTL_ADDA (R38). -/
  | ctlAdda (core : Nat) (f : TileFields)
  /-- CTL_ADDR (R38). -/
  | ctlAddr (core : Nat) (f : TileFields)
  /-- CTL_CMP (R39). -/
  | ctlCmp (core : Nat) (f : TileFields)
  /-- CTL_LDA (R40). -/
  | ctlLda (core : Nat) (f : TileFields)
  /-- CTL_STA (R40). -/
  | ctlSta (core : Nat) (f : TileFields)
  /-- CTL_FENCE (R41). -/
  | ctlFence (core : Nat) (f : TileFields)
  /-- CTL_SEED (R38). -/
  | ctlSeed (core : Nat) (f : TileFields)
  /-- CTL_MOVL (R38). -/
  | ctlMovl (core : Nat) (f : TileFields)
  /-- CTL_ENQ (R42). -/
  | ctlEnq (core : Nat) (f : TileFields)
  /-- ENQ_QUEUE_ACCEPT (R167). -/
  | enqQueueAccept (core : Nat)
  /-- MOV_COPY (R48). -/
  | movCopy (core : Nat) (f : TileFields)
  /-- MOV_FILL (R380). -/
  | movFill (core : Nat) (f : TileFields)
  /-- MOV_PUT (R216). -/
  | movPut (core : Nat) (f : TileFields)
  /-- MOV_GET (R216). -/
  | movGet (core : Nat) (f : TileFields)
  /-- MXU_MODE (R68). -/
  | mxuMode (core : Nat) (f : TileFields)
  /-- MXU_LDB (R64). -/
  | mxuLdb (core : Nat) (f : TileFields)
  /-- MXU_PASS (R59). -/
  | mxuPass (core : Nat) (f : TileFields)
  /-- MXU_SPCFG (R69). -/
  | mxuSpcfg (core : Nat) (f : TileFields)
  /-- MXU_SPILL (R69). -/
  | mxuSpill (core : Nat) (f : TileFields)
  /-- AUTO_SPILL (R69). -/
  | autoSpill (core part : Nat)
  /-- MXU_RESUME (R70). -/
  | mxuResume (core : Nat) (f : TileFields)
  /-- MXU_OUT (R72). -/
  | mxuOut (core : Nat) (f : TileFields)
  /-- PARTITION_FAULT (R75): check chk of Table 3.12 fails in instruction seq of the partition. -/
  | partitionFault (core part : Nat) (chk : CheckFail)
  /-- CORE_REBIND (R75). -/
  | coreRebind (core : Nat)
  /-- VEC_SETVL (R110). -/
  | vecSetvl (core : Nat) (f : TileFields)
  /-- VEC_LD (R112). -/
  | vecLd (core : Nat) (f : TileFields)
  /-- VEC_ST (R112). -/
  | vecSt (core : Nat) (f : TileFields)
  /-- VEC_LDR (R112). -/
  | vecLdr (core : Nat) (f : TileFields)
  /-- VEC_BCAST (R110). -/
  | vecBcast (core : Nat) (f : TileFields)
  /-- VEC_IOTA (R110). -/
  | vecIota (core : Nat) (f : TileFields)
  /-- VEC_ADD (R110). -/
  | vecAdd (core : Nat) (f : TileFields)
  /-- VEC_SUB (R110). -/
  | vecSub (core : Nat) (f : TileFields)
  /-- VEC_MUL (R110). -/
  | vecMul (core : Nat) (f : TileFields)
  /-- VEC_FMA (R97). -/
  | vecFma (core : Nat) (f : TileFields)
  /-- VEC_MAX (R88). -/
  | vecMax (core : Nat) (f : TileFields)
  /-- VEC_MIN (R88). -/
  | vecMin (core : Nat) (f : TileFields)
  /-- VEC_ABS (R110). -/
  | vecAbs (core : Nat) (f : TileFields)
  /-- VEC_NEG (R110). -/
  | vecNeg (core : Nat) (f : TileFields)
  /-- VEC_AND (R110). -/
  | vecAnd (core : Nat) (f : TileFields)
  /-- VEC_OR (R110). -/
  | vecOr (core : Nat) (f : TileFields)
  /-- VEC_XOR (R110). -/
  | vecXor (core : Nat) (f : TileFields)
  /-- VEC_SHL (R110). -/
  | vecShl (core : Nat) (f : TileFields)
  /-- VEC_SHR (R110). -/
  | vecShr (core : Nat) (f : TileFields)
  /-- VEC_SRA (R110). -/
  | vecSra (core : Nat) (f : TileFields)
  /-- VEC_SEL (R110). -/
  | vecSel (core : Nat) (f : TileFields)
  /-- VEC_CMP (R110). -/
  | vecCmp (core : Nat) (f : TileFields)
  /-- VEC_MAND (R110). -/
  | vecMand (core : Nat) (f : TileFields)
  /-- VEC_MOR (R110). -/
  | vecMor (core : Nat) (f : TileFields)
  /-- VEC_MXOR (R110). -/
  | vecMxor (core : Nat) (f : TileFields)
  /-- VEC_MNOT (R110). -/
  | vecMnot (core : Nat) (f : TileFields)
  /-- VEC_MPOP (R110). -/
  | vecMpop (core : Nat) (f : TileFields)
  /-- VEC_MFIRST (R110). -/
  | vecMfirst (core : Nat) (f : TileFields)
  /-- VEC_EXP2 (R116). -/
  | vecExp2 (core : Nat) (f : TileFields)
  /-- VEC_LOG2 (R116). -/
  | vecLog2 (core : Nat) (f : TileFields)
  /-- VEC_RSQRT (R116). -/
  | vecRsqrt (core : Nat) (f : TileFields)
  /-- VEC_RECIP (R116). -/
  | vecRecip (core : Nat) (f : TileFields)
  /-- VEC_TANH (R116). -/
  | vecTanh (core : Nat) (f : TileFields)
  /-- VEC_DIV (R97). -/
  | vecDiv (core : Nat) (f : TileFields)
  /-- VEC_SQRT (R97). -/
  | vecSqrt (core : Nat) (f : TileFields)
  /-- VEC_PERM (R113). -/
  | vecPerm (core : Nat) (f : TileFields)
  /-- VEC_PERM2 (R113). -/
  | vecPerm2 (core : Nat) (f : TileFields)
  /-- VEC_SHUF (R113). -/
  | vecShuf (core : Nat) (f : TileFields)
  /-- VEC_PACK (R113). -/
  | vecPack (core : Nat) (f : TileFields)
  /-- VEC_UNPACK (R113). -/
  | vecUnpack (core : Nat) (f : TileFields)
  /-- VEC_COMPRESS (R114). -/
  | vecCompress (core : Nat) (f : TileFields)
  /-- VEC_EXPAND (R114). -/
  | vecExpand (core : Nat) (f : TileFields)
  /-- VEC_CST (R114). -/
  | vecCst (core : Nat) (f : TileFields)
  /-- VEC_XLD (R114). -/
  | vecXld (core : Nat) (f : TileFields)
  /-- VEC_CVT (R115). -/
  | vecCvt (core : Nat) (f : TileFields)
  /-- RED_SUM (R119). -/
  | redSum (core : Nat) (f : TileFields)
  /-- RED_MAX (R118). -/
  | redMax (core : Nat) (f : TileFields)
  /-- RED_MIN (R118). -/
  | redMin (core : Nat) (f : TileFields)
  /-- RED_ARGMAX (R118). -/
  | redArgmax (core : Nat) (f : TileFields)
  /-- RED_SQNORM (R119). -/
  | redSqnorm (core : Nat) (f : TileFields)
  /-- RED_TOPK (R120). -/
  | redTopk (core : Nat) (f : TileFields)
  /-- SYN_HOIST (R184). -/
  | synHoist (core : Nat) (f : TileFields)
  /-- SYN_STRIKE (R181). -/
  | synStrike (core : Nat) (f : TileFields)
  /-- SYN_WATCH (R181). -/
  | synWatch (core : Nat) (f : TileFields)
  /-- SYN_TEST (R183). -/
  | synTest (core : Nat) (f : TileFields)
  /-- HOIST_OUTCOME (R185). -/
  | hoistOutcome (n : Nat)
  /-- PER_WAIT_TIMEOUT (R186). -/
  | perWaitTimeout (core : Nat)
  /-- MRK_RIBBON (R355). -/
  | mrkRibbon (core : Nat) (f : TileFields)
  /-- MRK_CSEL (R349). -/
  | mrkCsel (core : Nat) (f : TileFields)
  /-- MRK_CREAD (R350). -/
  | mrkCread (core : Nat) (f : TileFields)
  /-- MRK_TIME (R350). -/
  | mrkTime (core : Nat) (f : TileFields)
  /-- MEM_READ (R127). -/
  | memRead (src pa len : Nat) (erasures : ReadErrs)
  /-- MEM_REQUEST_TIMEOUT (R131). -/
  | memRequestTimeout (src pa len stack : Nat)
  /-- MEM_WRITE (R128). -/
  | memWrite (src pa : Nat) (bs : List Byte) (poison : Bool)
  /-- GATHER_WINDOW_EXPIRY (R128). -/
  | gatherWindowExpiry (stripe : StripeOp)
  /-- STRIPE_WRITE_ACK (R130). -/
  | stripeWriteAck (src stripe : Nat)
  /-- STACK_TEMP_READING (R138). -/
  | stackTempReading (stack : Nat) (t : BitVec 32)
  /-- CATCH_UP_STRIPE (R137). -/
  | catchUpStripe (stack : Nat)
  /-- RESTRIPE_START (R140). -/
  | restripeStart
  /-- MEM_RESTRIPE_START (R140). -/
  | memRestripeStart (rq : Req) (v : Nat)
  /-- RESTRIPE_STEP (R142). -/
  | restripeStep
  /-- SCRUB_STRIPE (R146). -/
  | scrubStripe (stripe : StripeOp)
  /-- STACK_RETRAIN (R147). -/
  | stackRetrain (stack : Nat)
  /-- RETRAIN_END (R147). -/
  | retrainEnd (stack : Nat) (ok : Bool)
  /-- DOORBELL (R152). -/
  | doorbell (c ring : Nat) (v : BitVec 32)
  /-- CPL_DOORBELL (R157). -/
  | cplDoorbell (c ring : Nat) (v : BitVec 32)
  /-- RING_FETCH (R153). -/
  | ringFetch (c ring : Nat) (r : HostRead)
  /-- RING_ENABLE (R155). -/
  | ringEnable (c ring : Nat) (v : BitVec 32)
  /-- RING_DISABLE (R171). -/
  | ringDisable (c ring : Nat) (v : BitVec 32)
  /-- RING_DRAIN_EXPIRY (R171). -/
  | ringDrainExpiry (c ring : Nat)
  /-- CFE_CTX_CFG (R155). -/
  | cfeCtxCfg (c : Nat) (v : BitVec 32)
  /-- COMMAND_START (R154). -/
  | commandStart (iod : Nat)
  /-- NOP (R156). -/
  | nop (k : CmdKey)
  /-- LAUNCH (R162). -/
  | launch (k : CmdKey) (ep : HostRead)
  /-- FOLIO_OPEN (R159). -/
  | folioOpen (k : CmdKey)
  /-- FOLIO_PATCH (R164). -/
  | folioPatch (k : CmdKey) (ep : HostRead)
  /-- FOLIO_PATCH_BEGIN (R165). -/
  | folioPatchBegin (k : CmdKey) (ep : HostRead)
  /-- FOLIO_CLOSE (R160). -/
  | folioClose (k : CmdKey)
  /-- COPY (R168). -/
  | copy (k : CmdKey) (src : HostRead)
  /-- HOIST (R190). -/
  | hoist (k : CmdKey)
  /-- WAIT (R190). -/
  | wait (k : CmdKey)
  /-- COLLECTIVE (R224). -/
  | collective (k : CmdKey)
  /-- COMMAND_COMPLETE (R157). -/
  | commandComplete (k : CmdKey) (wrOk : Bool)
  /-- COMMAND_TIMEOUT (R169). -/
  | commandTimeout (k : CmdKey)
  /-- COMMAND_DRAIN_EXPIRY (R169). -/
  | commandDrainExpiry (k : CmdKey)
  /-- FETCH_IDLE_ENTRY (R172). -/
  | fetchIdleEntry (iod : Nat) (db : Option Nat)
  /-- FETCH_WAKE (R172). -/
  | fetchWake (iod : Nat)
  /-- FETCH_GATE_REOPEN (R172). -/
  | fetchGateReopen (iod : Nat)
  /-- PENNANT_OPERATION (R181). -/
  | pennantOperation (n : Nat)
  /-- PEN_ALLOC (R178). -/
  | penAlloc (path : UmPath)
  /-- PEN_RELEASE (R178). -/
  | penRelease (path : UmPath)
  /-- PENNANT_QUARANTINE_END (R178). -/
  | pennantQuarantineEnd (n : Nat)
  /-- QUIESCENT_BLOCKED (R192). -/
  | quiescentBlocked (c : Nat)
  /-- STALL_CENSUS (R193). -/
  | stallCensus (c : Nat) (othersBlocked : Bool) (count : Nat)
  /-- PORT_TRAINING (R198). -/
  | portTraining (port : Nat) (r : TrainResult)
  /-- FLIT_RECEIVE (R199). -/
  | flitReceive (port : Nat) (bs : List Byte) (fecOk : Bool)
  /-- RETRY_REQUEST (R199). -/
  | retryRequest (port : Nat) (fseq : BitVec 12)
  /-- LINK_RETRY_TIMEOUT (R199). -/
  | linkRetryTimeout (port : Nat)
  /-- LANE_SPARE (R200). -/
  | laneSpare (port lane : Nat)
  /-- PORT_QUIET_ENTRY (R201). -/
  | portQuietEntry (port : Nat)
  /-- PORT_QUIET_WAKE (R201). -/
  | portQuietWake (port : Nat)
  /-- PACKET_FORWARD (R211). -/
  | packetForward (port : Nat) (pk : List Byte)
  /-- PACKET_RESIDENCE_TIMEOUT (R215). -/
  | packetResidenceTimeout (port n : Nat)
  /-- PORT_STATE (R214). -/
  | portState (did nb : Nat) (up : Bool)
  /-- PUT (R216). -/
  | put (port : Nat) (pk : List Byte)
  /-- GET (R216). -/
  | get (port : Nat) (pk : List Byte)
  /-- HOIST_PACKET (R217). -/
  | hoistPacket (port : Nat) (pk : List Byte)
  /-- REL_HOIST_RELEASE (R217). -/
  | relHoistRelease (port : Nat)
  /-- ATOMIC (R218). -/
  | atomic (port : Nat) (pk : List Byte)
  /-- ACK (R219). -/
  | ack (port : Nat) (pk : List Byte)
  /-- DATA (R216). -/
  | data (port : Nat) (pk : List Byte)
  /-- E2E_TIMEOUT (R219). -/
  | e2eTimeout (tag : Nat)
  /-- REDUCE_SCATTER (R229). -/
  | reduceScatter (k : CollKey) (ins : List MemberIn)
  /-- ALL_GATHER (R262). -/
  | allGather (k : CollKey) (ins : List MemberIn)
  /-- ALL_REDUCE (R229). -/
  | allReduce (k : CollKey) (ins : List MemberIn)
  /-- ALL_TO_ALL (R226). -/
  | allToAll (k : CollKey) (ins : List MemberIn)
  /-- ALL_TO_ALLV (R227). -/
  | allToAllv (k : CollKey) (ins : List MemberIn)
  /-- BROADCAST (R233). -/
  | broadcast (k : CollKey) (ins : List MemberIn)
  /-- ACCUMULATE (R228). -/
  | accumulate (k : CollKey)
  /-- DISPATCH (R243). -/
  | dispatch (k : CollKey)
  /-- COMBINE (R245). -/
  | combine (k : CollKey) (ins : List MemberIn)
  /-- RESHARD (R240). -/
  | reshard (k : CollKey)
  /-- FENCE_NOTICE (R240). -/
  | fenceNotice (k : CollKey) (member : Nat)
  /-- COLL (R241). -/
  | coll (port : Nat) (pk : CollPkt)
  /-- CHUNK_ACK (R237). -/
  | chunkAck (t : CollTag) (chunk : ChunkRef)
  /-- CHUNK_RESEND (R237). -/
  | chunkResend (k : CollKey) (chunk : ChunkRef)
  /-- CHUNK_TIMEOUT (R237). -/
  | chunkTimeout (k : CollKey) (chunk : ChunkRef)
  /-- PROGRESS_SEND (R235). -/
  | progressSend (k : CollKey)
  /-- PROGRESS_PACKET (R236). -/
  | progressPacket (t : CollTag) (tReal : Nat) (slow : Bool)
  /-- ABORT (R238). -/
  | abort (t : CollTag) (st : BitVec 16) (rank : Nat)
  /-- CLAIM_COUNT (R243). -/
  | claimCount (t : CollTag) (origin : Nat) (claims : List Claim)
  /-- GRANT (R243). -/
  | grant (t : CollTag) (owner : Nat) (grants : List Grant)
  /-- GN_EXCHANGE (R246). -/
  | gnExchange (t : CollTag) (sums : List (BitVec 64 × BitVec 64))
  /-- UPDATE_CHUNK (R257). -/
  | updateChunk (k : CollKey) (chunk : Nat)
  /-- UPDATE_HOLD_RELEASE (R251). -/
  | updateHoldRelease (k : CollKey)
  /-- PHASE1_DONE (R258). -/
  | phase1Done (k : CollKey)
  /-- NORM_EXCHANGE (R258). -/
  | normExchange (k : CollKey) (member : Nat) (norm : BitVec 64)
  /-- PHASE2_START (R258). -/
  | phase2Start (k : CollKey)
  /-- UPDATE_COMPLETE (R260). -/
  | updateComplete (k : CollKey)
  /-- PARITY_DELTA (R267). -/
  | parityDelta (port : Nat) (pk : List Byte)
  /-- PARITY_FLUSH (R267). -/
  | parityFlush (iod n : Nat) (why : FlushCause)
  /-- SHARD_HEADER_RELEASE (R262). -/
  | shardHeaderRelease (k : CollKey)
  /-- PRECONDITIONER_FALLBACK (R259). -/
  | preconditionerFallback (c group : Nat)
  /-- MGMT_WATCHDOG_EXPIRY (R281). -/
  | mgmtWatchdogExpiry
  /-- FUNCTION_DISABLE (R282). -/
  | functionDisable (rq : Req) (f : FuncId)
  /-- FUNCTION_ENABLE (R282). -/
  | functionEnable (rq : Req) (f : FuncId)
  /-- DISABLE_DRAIN_EXPIRY (R282). -/
  | disableDrainExpiry (f : FuncId)
  /-- FUNCTION_MODE (R339). -/
  | functionMode (rq : Req) (f : FuncId) (v : Nat)
  /-- RBD_SAFE_HOLD_ENTER (R283). -/
  | rbdSafeHoldEnter (rq : Req) (v : Nat)
  /-- RBD_SAFE_HOLD_EXIT (R285). -/
  | rbdSafeHoldExit (rq : Req) (v : Nat)
  /-- RBD_WARM_RESET (R302). -/
  | rbdWarmReset (rq : Req) (v : Nat)
  /-- RBD_COLD_RESET (R302). -/
  | rbdColdReset (rq : Req) (v : Nat) (cool : Bool)
  /-- RBD_CONTEXT_RESET (R302). -/
  | rbdContextReset (rq : Req) (v : Nat)
  /-- RBD_ROLE (R293). -/
  | rbdRole (rq : Req) (v : Nat)
  /-- RBD_HALT (R286). -/
  | rbdHalt (rq : Req) (v : Nat)
  /-- EMERGENCY_HALT (R286). -/
  | emergencyHalt (mask : BitVec 17)
  /-- RBD_EPOCH_STOP (R287). -/
  | rbdEpochStop (rq : Req) (v : Nat)
  /-- RBD_RESUME (R286). -/
  | rbdResume (rq : Req) (v : Nat)
  /-- RBD_CUT_CTL (R289). -/
  | rbdCutCtl (c : Nat) (v : BitVec 32)
  /-- CUT_COPY_COMPLETE (R289). -/
  | cutCopyComplete (c : Nat)
  /-- STEP_MARKER (R289). -/
  | stepMarker (c sender : Nat) (step : BitVec 32) (record : List Byte)
  /-- STEP_MARKER_ACK (R290). -/
  | stepMarkerAck (c holder : Nat)
  /-- CUT_GLOBAL_SEAL (R291). -/
  | cutGlobalSeal (c : Nat) (step : BitVec 32) (mismatch : Bool)
  /-- PLANNED_RANK_MOVE (R278). -/
  | plannedRankMove (rank spare : Nat)
  /-- HEARTBEAT_SEND (R294). -/
  | heartbeatSend
  /-- HEARTBEAT (R294). -/
  | heartbeat (did : Nat)
  /-- HEARTBEAT_TIMEOUT (R294). -/
  | heartbeatTimeout (did : Nat)
  /-- SUSPICION (R294). -/
  | suspicion (watcher did : Nat)
  /-- PROBE_TIMEOUT (R294). -/
  | probeTimeout (did : Nat)
  /-- RECOVERY_HALT_REBIND (R297). -/
  | recoveryHaltRebind (c rank : Nat) (spare : Option Nat) (short : Bool)
  /-- RECOVERY_STATE_REBUILD (R298). -/
  | recoveryStateRebuild (c : Nat) (inp : RebuildIn)
  /-- RECOVERY_RESUME (R299). -/
  | recoveryResume (c : Nat)
  /-- RBD_RECOVERY_CONFIRM (R304). -/
  | rbdRecoveryConfirm (rq : Req) (v : Nat)
  /-- TRANSIENT_LOSS (R301). -/
  | transientLoss (c rank : Nat)
  /-- CORE_GATE_ENTRY (R308). -/
  | coreGateEntry (core : Nat) (acc : Option Nat)
  /-- CORE_WAKE (R307). -/
  | coreWake (core : Nat)
  /-- ENGINE_GATE_ENTRY (R310). -/
  | engineGateEntry (iod : Nat)
  /-- ENGINE_WAKE (R310). -/
  | engineWake (iod : Nat)
  /-- STACK_SELF_REFRESH_ENTRY (R311). -/
  | stackSelfRefreshEntry (stack : Nat)
  /-- STACK_WAKE (R311). -/
  | stackWake (stack : Nat)
  /-- STANDBY_ENTRY (R315). -/
  | standbyEntry
  /-- PWR_STANDBY_REQUEST (R314). -/
  | pwrStandbyRequest (rq : Req) (v : Nat)
  /-- PWR_WAKE_REQUEST (R317). -/
  | pwrWakeRequest (rq : Req) (v : Nat)
  /-- STANDBY_WAKE (R316). -/
  | standbyWake (code : Nat)
  /-- CLK_CORE_DIV (R318). -/
  | clkCoreDiv (rq : Req) (v : Nat)
  /-- POWER_SAMPLE (R319). -/
  | powerSample (watts : Nat)
  /-- LIMITER_STEP (R320). -/
  | limiterStep
  /-- LIMITER_RESTORE_STEP (R320). -/
  | limiterRestoreStep
  /-- DIE_TEMP_READING (R321). -/
  | dieTempReading (die : Nat) (t : BitVec 32)
  /-- DIE_THROTTLE_STEP (R321). -/
  | dieThrottleStep (die : Nat)
  /-- READ (R336). -/
  | read (path : UmPath)
  /-- WRITE (R336). -/
  | write (path : UmPath)
  /-- READ_SEG (R334). -/
  | readSeg (path : UmPath)
  /-- WRITE_SEG (R334). -/
  | writeSeg (path : UmPath)
  /-- SEGMENT_TIMEOUT (R334). -/
  | segmentTimeout (obj : Nat)
  /-- DESCRIBE (R382). -/
  | describe (path : UmPath)
  /-- NEXT (R328). -/
  | next (path : UmPath)
  /-- SESSION_OPEN (R331). -/
  | sessionOpen (path : UmPath)
  /-- SESSION_AUTH (R331). -/
  | sessionAuth (path : UmPath)
  /-- SESSION_CLOSE (R332). -/
  | sessionClose (path : UmPath)
  /-- SESSION_IDLE_TIMEOUT (R332). -/
  | sessionIdleTimeout (n : Nat)
  /-- AUTH_BLOCK_EXPIRY (R332). -/
  | authBlockExpiry (path : UmPath)
  /-- EVENT (R358). -/
  | event (dest : Nat)
  /-- MAP (R345). -/
  | map (path : UmPath)
  /-- UNMAP (R345). -/
  | unmap (path : UmPath)
  /-- CORE_SET (R345). -/
  | coreSet (path : UmPath)
  /-- MGMT_MBOX_GO (R337). -/
  | mgmtMboxGo (v : BitVec 32)
  /-- MGMT_SVC_GO (R346). -/
  | mgmtSvcGo (c : Nat) (v : BitVec 32)
  /-- T1S_FRAME (R330). -/
  | t1sFrame (bs : List Byte) (bcast : Bool)
  /-- FORWARD (R338). -/
  | forward (path : UmPath)
  /-- FORWARD_TIMEOUT (R338). -/
  | forwardTimeout (n : Nat)
  /-- MGMT_CONFIG_STORE (R329). -/
  | mgmtConfigStore (rq : Req) (v : Nat)
  /-- MGMT_CONFIG_CLEAR (R329). -/
  | mgmtConfigClear (rq : Req) (v : Nat)
  /-- MGMT_FW_ACTIVATE (R344). -/
  | mgmtFwActivate (rq : Req) (v : Nat)
  /-- MGMT_FW_COMMIT (R344). -/
  | mgmtFwCommit (rq : Req) (v : Nat)
  /-- WEAR_MANAGEMENT (R340). -/
  | wearManagement (aged : List (Nat × Nat)) (bad : List (Nat × Nat))
  /-- HANG_DUMP_TRIGGER (R359). -/
  | hangDumpTrigger (cause : Nat)
  /-- HANG_DUMP_COMPLETE (R360). -/
  | hangDumpComplete
  /-- OBS_DUMP_REQUEST (R359). -/
  | obsDumpRequest (rq : Req) (v : Nat)
  /-- OBS_DUMP_RELEASE (R359). -/
  | obsDumpRelease (rq : Req) (v : Nat)
  /-- OBS_TS_MEASURE (R357). -/
  | obsTsMeasure (rq : Req) (v : Nat)
  /-- TS_EXCHANGE (R356). -/
  | tsExchange (port : Nat) (t1 t2 t3 t4 : Nat)
  /-- CONTROL_CHECK_FAILURE (R283). -/
  | controlCheckFailure (unit : Nat) (lost : Bool)
  /-- HELD_PARITY_REBUILD (R298). -/
  | heldParityRebuild (c : Nat) (image : List (Nat × List Byte))
  /-- FORWARD_RESPONSE (R338). -/
  | forwardResponse (n : Nat) (bs : List Byte)
  /-- SRIOV_NUMVFS (R17). -/
  | sriovNumvfs (n : Nat)
  /-- UNDEFINED_INSTRUCTION (R33). -/
  | undefinedInstruction (core : Nat) (w : TileWord)
  deriving DecidableEq, Repr

end Sys2Proof
end

