-- ==== Sys2Proof/Config.lean ====
section
/-! DEFINITION. What the spec leaves open and the model leaves free: opaque constants, of which nothing can be proved.
Each is applied to the operands it depends on, or to the draw counter of State (log 7). -/

namespace Sys2Proof.Config

/-- A fresh free number for each draw (log 7). -/
opaque freeNat : Nat → Nat

/-- A fresh free byte for each draw and position (log 14). -/
opaque freeByte : Nat → Nat → Byte

/-- The rounded column sum that the array forms of these products, as sign, magnitude and exponent of two (R60, R92; log 8). -/
opaque columnSum : List (Bool × Nat × Int) → Bool × Nat × Int

/-- Whether the accumulator path replaces this subnormal value by zero (R91; log 10). -/
opaque flushSubnormal : BitVec 32 → Bool

/-- The approximations of Table 5.6 and of R72 (log 9). -/
opaque exp2 : BitVec 32 → BitVec 32
/-- See exp2. -/
opaque log2 : BitVec 32 → BitVec 32
/-- See exp2. -/
opaque rsqrt : BitVec 32 → BitVec 32
/-- See exp2. -/
opaque recip : BitVec 32 → BitVec 32
/-- See exp2. -/
opaque tanh : BitVec 32 → BitVec 32
/-- See exp2. -/
opaque gelu : BitVec 32 → BitVec 32
/-- See exp2. -/
opaque silu : BitVec 32 → BitVec 32

/-- The errors that an access's reads of stacks meet, by the draw: on-die severities, PHY errors and timeouts (R123, R131; log 18). -/
opaque readErrs : Nat → ReadErrs

/-- The order in which the results of a reduction land among the reads of its rows, by the operands (R121; log 14). -/
opaque rowOrder : List Nat → Nat

/-- What another module's timestamp offset is at a measurement: its device identifier, the reference module's and the time (R356; log 14). -/
opaque peerOffset : Nat → Nat → Nat → Int

/-- The role of another module, by its device identifier and the time (R29; log 22). -/
opaque peerRole : Nat → Nat → Nat

/-- Whether a context of another module has a started command, by its device identifier and the time (R29; log 22). -/
opaque peerBusy : Nat → Nat → Bool

/-- Whether another module has drained a context's traffic, by its device identifier, the context and the time (R287; log 21). -/
opaque peerDrained : Nat → Nat → Nat → Bool

/-- The PAR_ registers of the module that holds a rank, by rank, context and register: 0 CFG, 1 and 2 the holders, 3 the image base (R297;
log 21). -/
opaque parReg : Nat → Nat → Nat → Nat

/-- A byte of the protected image that the module of a rank has copied for a cut, by rank, context, step and parity offset (R289; log 21). -/
opaque peerImage : Nat → Nat → Nat → Nat → Byte

/-- The hash of a flow and its flowlet count (R213; log 12). -/
opaque flowHash : Nat → Nat → Nat

/-- The key of a level that the part was provisioned with, until one is written through 0x8010 (R331; log 15). -/
opaque partKey : Nat → List Byte

/-- The checks of R341 on an image's part name and digest, whose places the spec does not give (log 15). -/
opaque imageSound : List Byte → Bool
/-- Whether an image's signature verifies against the public key whose hash is fused as key n, 0 or 1 (R341; log 15). -/
opaque imageSigned : List Byte → Nat → Bool
/-- The security version in an image's header (R341; log 15). -/
opaque imageSecVersion : List Byte → Nat
/-- The version in an image's header (Table 14.15; log 15). -/
opaque imageVersion : List Byte → BitVec 32

/-- The 16-bit check of a collective's description that its packets carry (R225; log 16). -/
opaque collCheck : List Byte → BitVec 16

/-- The bytes that module-network traffic takes out of (5) or into (6) die d during a count of the timestamp: the spec gives its messages no
lengths (Table 15.1; log 20). -/
opaque netBytes : Nat → Nat → Nat → Nat

/-- The context for which a unit of an I/O die accesses striped memory at a timestamp, if any (R348; log 24). -/
opaque unitCtx : Nat → Nat → Option (Fin 16)

/-- Whether background activity i of Table 14.10 cannot finish its period within its share, at a timestamp (R340; log 17). -/
opaque bgDeferred : Nat → Nat → Bool

/-- The detail of an event that names two things, or a thing that the spec does not number: its code and the two (R358; log 17). -/
opaque eventDetail : Nat → Nat → Nat → Nat

/-- The entry of RBD_LOG of a rebinding: timestamp, unit kind, logical and physical identity (R276; log 17). -/
opaque rebindEntry : BitVec 64 → Nat → Nat → Nat → List Byte

/-- Byte i of the part's serial number (Table 14.15; log 14). -/
opaque serial : Nat → BitVec 8
/-- Whether a range written to MEM_SCRUB_RANGE holds a stripe (Table 14.9; log 18). -/
opaque scrubRange : List Byte → Nat → Bool
/-- The states of the contexts and of the module as PEN_DLD_STATES reports them (Table 14.9; log 17). -/
opaque dldStates : List Bool → Bool → List Byte

/-- The MAC address fused into the part (Table 14.15; log 14). -/
opaque mac : BitVec 48

/-- What the fuse readout object returns (Table 14.8; log 14). -/
opaque fuses : List (BitVec 8)

/-- What a sensor of the supplies reads at a timestamp, as FP32: 0 watts of the auxiliary supply, 1 volts of the input (Table 13.9; log 14). -/
opaque sensor : Nat → Nat → BitVec 32

/-- Blocks of 32 elements in one chunk of a block format's wire data, less one (R224; log 16). -/
opaque mxChunk : Nat → Nat

/-- The start of member m's reduced block among `count` elements of an ALL_REDUCE over n members (R246; log 16). -/
opaque reducedStart : Nat → Nat → Nat → Nat

/-- The operation, in 0x40-0x5F, of each kind of module-to-module message, which the spec does not number (log 20). -/
opaque mgOp : Nat → BitVec 5

/-- The 16 type-specific bytes of a collective packet, of what it carries, as numbers (R225; log 16). -/
opaque collHead : List Nat → List (BitVec 8)

/-- The bytes of elements, as FP32 words, in an MX wire format, whose block scales the spec does not place (R232; log 16). -/
opaque mxData : Nat → List Nat → List (BitVec 8)

/-- The bytes of an entry of a hang dump's section, of its kind and what it holds, to which the spec gives no layout (R361; log 14). -/
opaque dumpRecord : Nat → List Nat → List (BitVec 8)

end Sys2Proof.Config
end

