-- ==== Sys2Proof/Machine/State.lean ====
section
/-! DEFINITION. The state of the module (R1): everything the spec gives it, as plain data, and its value at reset.
INVENTORY.md lists each field with the rule that names it and its reset value. -/

namespace Sys2Proof.Machine
open Sys2Proof

/-- Why the module's model stops on a command: the command names a unit that the module does not have (Table 1.1, R13,
R17). Raised by the meaning that would act on the unit; safe: the hardware has no such unit and receives no such command. -/
inductive Fault where
  /-- A logical core above 319. Safe. -/
  | noSuchCore (n : Nat)
  /-- A context above 15. Safe. -/
  | noSuchContext (n : Nat)
  /-- A stack above 23. Safe. -/
  | noSuchStack (n : Nat)
  /-- A number that names no fabric port (R10): above 75, or above 76 for a packet that arrives, 76 being the module itself (log 20). Safe. -/
  | noSuchPort (n : Nat)
  /-- A die above 11, or an I/O die above 3. Safe. -/
  | noSuchDie (n : Nat)
  /-- A command ring above 3. Safe. -/
  | noSuchRing (n : Nat)
  deriving DecidableEq, Repr

/-- Why a command has no meaning in the model. -/
inductive Refusal where
  /-- The command's row has not been given its meaning: raised by exec's arm alone. Safe: nothing is claimed of it. -/
  | notModelled (mnemonic : String)
  deriving DecidableEq, Repr

/-- What a collective packet carries beside its header (R225, R234, R237, R244, R274): its kind (Ck), context, COLL_ID, EPOCH and check,
the sender's place, its chunk and place in the chunk, the version of a gathered shard, a row's place at the owner with its token and
choice, and the poison mask. -/
structure CollHead where
  kind : Nat
  c : Nat
  id : Nat
  epoch : BitVec 16
  check : BitVec 16
  member : Nat
  chunk : Nat
  part : Nat
  last : Bool
  shard : Nat
  version : Nat
  loc : Nat
  slot : Nat
  token : Nat
  choice : Nat
  mask : List Bool
  deriving DecidableEq, Repr

/-- What leaves the module (the outside of the block, log 4). -/
inductive Out where
  /-- A PCIe memory write by function fn (R151, R157, R168). -/
  | hostWrite (fn : Nat) (addr : Nat) (bs : List Byte)
  /-- An MSI-X message of function fn (R157, R337). -/
  | msix (fn : Nat) (vector : Nat)
  /-- The data of a BAR2 read (R20). -/
  | bar2Data (bs : List Byte)
  /-- An Unsupported Request completion (R21, R315). -/
  | unsupported
  /-- A Umasel frame on the 10BASE-T1S port (R333). -/
  | t1s (bs : List Byte)
  /-- A packet queued on fabric port p, on virtual channel vc (R205). -/
  | packet (p vc : Nat) (bs : List Byte)
  /-- A management packet's data to a device identifier (R338): a Umasel frame or a module-to-module message, by its kind (Mg). -/
  | mgmt (did : Nat) (op : Nat) (bs : List Byte)
  /-- A collective packet to a device identifier, as what it carries (R225): the packet itself leaves as .packet. -/
  | coll (did : Nat) (h : CollHead) (bs : List Byte)
  /-- What a striped-memory read returns to its source: bytes, poison marks and the outcome (R127, R131). -/
  | readData (src : Nat) (bs : List Byte) (pois : List Bool) (st : BitVec 16)
  /-- A flit of type FTYPE on a port (Table 9.3), with its sequence number. -/
  | flit (p ftype seq : Nat)
  /-- What a port sends during training: this module's device identifier and the port's number (R198). -/
  | train (p did : Nat)
  /-- The answer to a request that a command carries as its operand (R335): its DETAIL, 0 for OK. -/
  | answer (path : UmPath) (detail : Nat)
  deriving DecidableEq, Repr

/-- Reset, power and bring-up (13, 14, 16). -/
structure Sys where
  vaux : Bool
  vin48 : Bool
  modResetN : Bool
  perstN : Bool
  thermtripN : Bool
  alertN : Bool
  strapTest : Bool
  strapDid : BitVec 17
  strapNode : BitVec 4
  ready : Nat
  step : Nat
  fillDone : Bool
  trainDone : Bool
  fabDone : Bool
  warmUp : Bool
  regulators : Bool
  mcOnPll : Bool
  pllLock : BitVec 13
  everReady : Bool
  perstSeenHigh : Bool
  booting : Bool
  recoveryBoot : Bool
  activeSlot : Nat
  slotImage : Tab (List Byte)
  revoked : NSet
  antiRollback : Nat
  runSecVer : Nat
  eventLog : List (Nat × Bool)
  cfgStore : Tab Nat
  cfgDoms : Tab (List Byte)
  linkUp : Bool
  pcieConfigured : Bool
  numVfs : Nat
  bar2Pf : Nat
  bar2Vf : Nat
  ts : BitVec 64
  tsCd : BitVec 64
  rootRem : Nat
  dieLinks : Tab NSet
  dieLinkEvents : Nat
  deriving DecidableEq, Repr

/-- A held translation: context, page number (VA[47:30] with level 1, VA[47:21] with level 2) and the entry (R25). -/
structure TlbEntry where
  c : Nat
  level : Nat
  page : Nat
  entry : BitVec 64
  deriving DecidableEq, Repr

/-- A queued Umasel request (R336). -/
structure UmReq where
  path : UmPath
  bs : List Byte
  deriving DecidableEq, Repr

/-- Address translation, host windows and the rank map (01). A load of the rank map that waits for acknowledgements keeps the
map, the modules that have acknowledged and the request; a request that a command carries as its operand has no frame. -/
structure Xl where
  ptRoot : Tab (BitVec 64)
  penRoot : Tab (BitVec 64)
  ptInvalCtx : BitVec 4
  ptInvalAll : Bool
  ptInvalPage : BitVec 27
  ptInvalDone : Bool
  ptInvalLen : BitVec 27
  bar2Base : BitVec 64
  vfBar2Base : Tab (BitVec 64)
  tlb : List TlbEntry
  discards : Nat
  bar2Refused : Nat
  rankMap : Tab (BitVec 32)
  rankLoad : Option (List (BitVec 32) × NSet)
  rankLoadReq : Option UmReq
  deriving DecidableEq, Repr

/-- The unit queues of a core (R35), and the sequencer itself for late results. -/
inductive TUnit where
  | mxu | vec | mov | syn | mrk | seq
  deriving DecidableEq, Repr

/-- Where a range of bytes lies: tile memory, accumulator memory, or striped memory by physical address. -/
inductive Space where
  | tm | am | pa
  deriving DecidableEq, Repr

/-- A stationary set of a partition (R63): element format, MX, per-tensor scale, elements by k·32 + column as codes of
the format, block scales by block·32 + column, poisoned columns. -/
structure StatSet where
  fmt : Nat
  mx : Bool
  ts : Option (BitVec 32)
  elems : Tab Nat
  scales : Tab Nat
  poison : NSet
  deriving DecidableEq, Repr

/-- A spill window (R69). -/
structure Window where
  buf : Nat
  row : Nat
  rows : Nat
  s : Nat
  fresh : Bool
  deriving DecidableEq, Repr

/-- A partition of the matrix unit (R63, R69, R78). -/
structure Part where
  front : Option StatSet
  back : Option StatSet
  win : Option Window
  passCount : Nat
  spillDue : Bool
  faulted : Bool
  faultSrc : Nat
  deriving DecidableEq, Repr

def Part.reset : Part := ⟨none, none, none, 0, false, false, 0⟩

/-- What an MXU instruction found and did: its partition, the bytes of the ranges it writes with their marks (accumulator memory or
not, address, bytes), the flags and conditions it raised, what it added to the counters, and the seed before and after it. It is what a
partition fault takes back from an instruction that is discarded (R75). -/
structure Undo where
  part : Part
  saved : List (Bool × Nat × List (Byte × Bool))
  sticky : BitVec 6
  conds : List (BitVec 16)
  ctr : Tab (BitVec 64)
  evCtr : Tab (BitVec 48)
  seed : BitVec 32 × BitVec 32
  deriving DecidableEq, Repr

/-- An issued instruction that is not complete (R35, R36): its unit, the scoreboard blocks (0-1535 tile memory,
1536-1663 accumulator tiles) it reads and writes, the A register and the P it has pending, its partition (R62), the
ranges it writes (R55), whether it is held at a wait or for an outcome, whether it is a strike or a
watch, and what a partition fault takes back. -/
structure InFlight where
  seq : Nat
  pc : Nat
  unit : TUnit
  rd : NSet
  wr : NSet
  aDst : Option Nat
  pDst : Bool
  part : Option Nat
  dst : List (Space × Nat × Nat)
  waiting : Bool
  blocks : Bool
  acq : Bool
  undo : Option Undo
  deriving DecidableEq, Repr

/-- A task entry on its way to a core or running there (Table 2.9, R162): the launch it belongs to and the fields it uses. -/
structure TaskInfo where
  key : CmdKey
  recNo : Nat
  handle : Nat
  gen : Nat
  codeOff : Nat
  codeLen : Nat
  argVa : Nat
  timeout : Nat
  seedInit : BitVec 32
  opId : BitVec 32
  depth : Nat
  deriving DecidableEq, Repr

/-- Power gating of a domain (R306, R310). -/
inductive Gate where
  | on
  | gated
  deriving DecidableEq, Repr

/-- A logical core (02, 03, 05, 15). `firm` and `firmConds` are the sticky flags and the conditions that do not rest on MXU instructions
in flight alone: a partition fault takes none of them back (R75). -/
structure CoreState where
  a : Tab (BitVec 48)
  aPoison : NSet
  l : Tab (BitVec 32)
  p : Bool
  pc : Nat
  seed : BitVec 32
  code : Tab TileWord
  imemErr : Tab Nat
  task : Option TaskInfo
  queue : List TaskInfo
  ended : Option (BitVec 16)
  conds : List (BitVec 16)
  firmConds : List (BitVec 16)
  inflight : List InFlight
  seqNo : Nat
  drain : Bool
  enqHold : Bool
  hoistsOut : Nat
  putsOut : List Nat
  stallQueue : Bool
  stallScore : Bool
  stallEnq : Bool
  stallFence : Bool
  sticky : BitVec 6
  firm : BitVec 6
  tm : Memory
  am : Memory
  tmPoison : NSet
  amPoison : NSet
  tmErr : Tab Nat
  amErr : Tab Nat
  mode : Nat
  parts : Tab Part
  suspect : Bool
  v : Tab (BitVec 2048)
  vPoison : Tab (BitVec 64)
  vErr : Tab Nat
  m : Tab (BitVec 256)
  mPoison : Tab (BitVec 256)
  vl : Nat
  lastOpc : BitVec 8
  lastRed : Bool
  physIdx : Nat
  rebindCount : Nat
  failed : Bool
  rebindDue : Bool
  gate : Gate
  evSel : Tab (BitVec 8)
  evCtr : Tab (BitVec 48)
  ctr : Tab (BitVec 64)
  wakes : Nat
  deriving DecidableEq, Repr

/-- Core L after cold reset (R13, R14, Table 2.10, R108; the sequencer registers before a first task: log 6). -/
def CoreState.init (L : Nat) : CoreState where
  a := []
  aPoison := []
  l := []
  p := false
  pc := 0
  seed := 0
  code := []
  imemErr := []
  task := none
  queue := []
  ended := none
  conds := []
  firmConds := []
  inflight := []
  seqNo := 0
  drain := false
  enqHold := false
  hoistsOut := 0
  putsOut := []
  stallQueue := false
  stallScore := false
  stallEnq := false
  stallFence := false
  sticky := 0
  firm := 0
  tm := []
  am := []
  tmPoison := []
  amPoison := []
  tmErr := []
  amErr := []
  mode := 0
  parts := []
  suspect := false
  v := []
  vPoison := []
  vErr := []
  m := []
  mPoison := []
  vl := 64
  lastOpc := 0
  lastRed := false
  physIdx := L % 40
  rebindCount := 0
  failed := false
  rebindDue := false
  gate := .on
  evSel := []
  evCtr := []
  ctr := []
  wakes := 0

/-- A stack (06). -/
structure Stack where
  st : Nat
  refresh2x : Bool
  throttled : Bool
  suspended : Bool
  temp : Option (BitVec 32)
  odCorr : Bool
  odUncorr : Bool
  trainFail : Bool
  stale : NSet
  wrLog : List (Nat × Nat)
  errLog : List Nat
  selfRef : Bool
  wakes : Nat
  catchNext : Nat
  ctr : Tab (BitVec 64)
  deriving DecidableEq, Repr

def Stack.reset : Stack := ⟨0, false, false, false, none, false, false, false, [], [], [], false, 0, 0, []⟩

/-- A stripe being gathered at its home (R128): the bytes that arrived by offset in the stripe, poisoned bytes apart. -/
structure Gather where
  stripe : Nat
  bytes : Memory
  present : NSet
  poison : NSet
  srcs : List Nat
  deriving DecidableEq, Repr

/-- An access that its source holds back: a read while the source has an unacknowledged write to one of its units (R130), and a
write, with its bytes and their marks, behind a held access to one of its units (R11). -/
structure HeldRead where
  src : Nat
  pa : Nat
  len : Nat
  errs : ReadErrs
  wr : Option (List (Byte × Bool))
  deriving DecidableEq, Repr

/-- Striped memory (06). `retrainDue` tells that a retraining waits for R135, `retrainNext` which stack is the next in order
(R147). `errFree` is the model's own: while it is set no read of a stack meets an error of its own; clear, as at reset, each access
draws the errors that it meets (R131; log 18). -/
structure Mem where
  units : Memory
  stack : Tab Stack
  layout21 : Bool
  removed : Option Nat
  watermark : Nat
  journal : Option (Nat × List (Byte × Bool))
  restripe : Nat
  poisonTab : Tab (Tab (BitVec 8))
  gather : List Gather
  portWait : List (Nat × Nat × List (Byte × Bool))
  acks : List (Nat × Nat)
  readWait : List HeldRead
  retrainDue : Bool
  retrainNext : Nat
  undecodable : Nat
  scrubFixes : Nat
  errFree : Bool
  deriving DecidableEq, Repr

/-- A command ring of a context (07). `fetchStop` and `cplStop` say that a failed fetch, or a failed record write, has stopped
its fetches or its starts (R153, Table 7.3); the W1C flags beside them do not. -/
structure Ring where
  base : BitVec 64
  cplBase : BitVec 64
  log2 : Nat
  cplLog2 : Nat
  enable : Bool
  vector : BitVec 11
  dbErr : Bool
  fetchFault : Bool
  cplFault : Bool
  fetchStop : Bool
  cplStop : Bool
  draining : Bool
  killed : Bool
  cfgErr : Bool
  head : BitVec 32
  tail : BitVec 32
  cplHead : BitVec 32
  cplTail : BitVec 32
  phase : Bool
  dbErrs : Nat
  fetched : List (BitVec 32 × List Byte)
  deriving DecidableEq, Repr

def Ring.reset : Ring := ⟨0, 0, 0, 0, false, 0, false, false, false, false, false, false, false, false, 0, 0, 0, 0, false, 0, []⟩

/-- A generation of a folio (R164, R165): the addresses of its signatures, and how many started launches have bound it. -/
structure Generation where
  sigs : List Nat
  bound : Nat
  deriving DecidableEq, Repr

/-- An open folio (R159). -/
structure Folio where
  spineVa : Nat
  poolVa : Nat
  poolSigs : Nat
  gens : Tab Generation
  current : Nat
  closing : Option CmdKey
  patchers : List CmdKey
  deriving DecidableEq, Repr

/-- A started command (R154, R168). `penGen` is the generation of the pennant that a HOIST or WAIT names, as its start found it (R190). -/
structure Cmd where
  key : CmdKey
  desc : List Byte
  tStart : BitVec 64
  depth : Nat
  gen : Nat
  penGen : Option (BitVec 8)
  handle : Nat
  conds : List (BitVec 16 × BitVec 32)
  tasksLeft : Nat
  cores : NSet
  arena : List Nat
  flags : BitVec 3
  begun : Bool
  finished : Bool
  draining : Bool
  bound : Bool
  patch : Option (List Nat)
  cplMap : BitVec 30
  coreStart : List (Nat × Nat × Nat)
  dieStart : List (Nat × Nat × Nat)
  deriving DecidableEq, Repr

/-- A service or management mailbox (Table 14.7, Table 14.13). -/
structure Mbox where
  go : Bool
  irq : Bool
  vector : BitVec 11
  done : Bool
  busy : Bool
  req : List Byte
  rsp : List Byte
  bulk : Memory
  deriving DecidableEq, Repr

def Mbox.reset : Mbox := ⟨false, false, 0, false, false, [], [], []⟩

/-- A cut being taken (R289, R290): its step, its slot, whether the copy is complete, the holders that have acknowledged, and
whether it is locally sealed. -/
structure Cut where
  step : Nat
  slot : Nat
  copied : Bool
  acked : NSet
  sealed : Bool
  image : Nat
  steps : List (Nat × Nat × Nat)
  deriving DecidableEq, Repr

/-- Where a sealed cut lies: the device virtual address of its slot, its slot number, the group table that laid it out, and
the parity image that its slot holds a copy of, 0 for none (R288, R298). -/
structure Seal where
  va : Nat
  slot : Nat
  gtab : Nat
  par : Nat
  deriving DecidableEq, Repr

/-- A context (07, 08, 10, 11, 12, 15). `groupCount` is the COUNT of each group's last update, `heldBytes` the extent of the
parity image that it holds, `marks` the step markers that have come in: step, sender, record (R265, R289). `quiesceAt` says where its tasks stood when it became quiescent-blocked
(R192). -/
structure CtxState where
  rings : Tab Ring
  dq : List (BitVec 32 × Nat × List Byte)
  dqNext : BitVec 32
  dqHead : BitVec 32
  cfgTimeout : Nat
  dqCplRing : Nat
  resetSeen : Bool
  ctxCfgErr : Bool
  arenaBase : BitVec 64
  arenaSize : Nat
  arenaUsed : NSet
  folios : Tab Folio
  started : List Cmd
  coreSet : NSet
  halted : Bool
  epochStop : Option Nat
  stopped : Bool
  overrun : Bool
  countOvf : Bool
  staleRx : Bool
  staleTx : Bool
  qblocked : Bool
  lastId : BitVec 20
  epoch : BitVec 16
  fence : Option CmdKey
  epochMismatch : Bool
  ceSlow : Bool
  ueGtab : BitVec 64
  ueNset : BitVec 64
  ueStatus : BitVec 4
  parCfg : BitVec 32
  parHolder0 : BitVec 17
  parHolder1 : BitVec 17
  parImage : BitVec 64
  cutBase : BitVec 64
  cutSize : BitVec 32
  cutState : Nat
  cutGlobal : Bool
  cutHeld : Bool
  cutRefused : Bool
  cutMismatch : Bool
  cutStepGlobal : BitVec 32
  cutStepLocal : BitVec 32
  sealGlobal : Option Seal
  sealLocal : Option Seal
  cut : Option Cut
  groupCount : Tab Nat
  heldBytes : Nat
  heldShard : Bool
  marks : List (Nat × Nat × List Byte)
  cplMap : BitVec 30
  traceBase : BitVec 64
  traceLog : Nat
  traceIndex : BitVec 32
  svc : Mbox
  vaPages : Tab Nat
  quiesce : List Nat
  quiesceAt : List Nat
  deriving DecidableEq, Repr

/-- Context c after cold reset. -/
def CtxState.init (c : Nat) : CtxState where
  rings := []
  dq := []
  dqNext := 0
  dqHead := 0
  cfgTimeout := 10000
  dqCplRing := 0
  resetSeen := false
  ctxCfgErr := false
  arenaBase := 0
  arenaSize := 0
  arenaUsed := []
  folios := []
  started := []
  coreSet := if c = 0 then List.range 320 else []
  halted := false
  epochStop := none
  stopped := false
  overrun := false
  countOvf := false
  staleRx := false
  staleTx := false
  qblocked := false
  lastId := 0
  epoch := 0
  fence := none
  epochMismatch := false
  ceSlow := false
  ueGtab := 0
  ueNset := 0
  ueStatus := 0
  parCfg := 0
  parHolder0 := 0
  parHolder1 := 0
  parImage := 0
  cutBase := 0
  cutSize := 0
  cutState := 0
  cutGlobal := false
  cutHeld := false
  cutRefused := false
  cutMismatch := false
  cutStepGlobal := 0
  cutStepLocal := 0
  sealGlobal := none
  sealLocal := none
  cut := none
  groupCount := []
  heldBytes := 0
  heldShard := false
  marks := []
  cplMap := 0x3FFFFFFF
  traceBase := 0
  traceLog := 0
  traceIndex := 0
  svc := Mbox.reset
  vaPages := []
  quiesce := []
  quiesceAt := []

/-- The command front end of an I/O die (07). -/
structure FrontEnd where
  rrCtx : Nat
  rrQueue : Tab Nat
  gated : Bool
  dbSeen : Bool
  waking : Bool
  deriving DecidableEq, Repr

def FrontEnd.reset : FrontEnd := ⟨0, [], false, false, false⟩

/-- Who sent a pennant message (R177): a core's SYN instruction, a command, a remote module by packet, or the module's
own engines for a context, with the collective whose update waits (R258). -/
inductive PenSrc where
  | core (L seq : Nat) (chk : Bool)
  | cmd (k : CmdKey)
  | remote (port did unit tag cong ctx : Nat)
  | engine (c : Nat) (run : Option CollKey)
  deriving DecidableEq, Repr

/-- What a pennant message asks for (Table 8.4); `send` is a hoist for another module (R189). -/
inductive PenOp where
  | hoist (v : BitVec 48) (rel : Bool)
  | strike (n : Nat) (wr : Option Nat) (tmo : Nat)
  | watch (n : Nat) (wr : Option Nat) (tmo : Nat)
  | test (n : Nat) (wr : Option Nat)
  | send (rank : Nat) (v : BitVec 48) (rel : Bool)
  deriving DecidableEq, Repr

/-- A pennant message (R177): context, identifier, generation (none: that of the entry, R190), sender and operation. -/
structure PenMsg where
  c : Nat
  id : Nat
  gen : Option (BitVec 8)
  src : PenSrc
  op : PenOp
  deriving DecidableEq, Repr

/-- A waiter recorded at a slot (R182), and when it came (Table 15.9). -/
structure Waiter where
  src : PenSrc
  strike : Bool
  n : Nat
  wr : Option Nat
  c : Nat
  id : Nat
  tmo : Nat
  came : BitVec 64
  deriving DecidableEq, Repr

/-- A pennant slot (Table 8.1) with its waiters in order of arrival; `own` is the context and identifier that PEN_ALLOC gave
it to (R178, R195). -/
structure Slot where
  value : BitVec 48
  gen : BitVec 8
  k : Bool
  f : Bool
  own : Option (Nat × Nat)
  waiters : List Waiter
  deriving DecidableEq, Repr

def Slot.reset : Slot := ⟨0, 0, false, false, none, []⟩

/-- The outcome of a hoist on its way to its sender (R185). -/
structure PenOutcome where
  src : PenSrc
  status : BitVec 16
  id : Nat
  deriving DecidableEq, Repr

/-- Pennants (08). A slot's key is home · 2^14 + index. `modBlocked` is the module's own quiescent-blocked state (R192); `emptyRounds`
and `txCount` are, by context, the census rounds in a row that found no progress and the transactions since the last round, and `suspects` the
contexts of a suspected cross-module deadlock (R193). -/
structure Pen where
  slots : Tab Slot
  msgs : List PenMsg
  outcomes : List PenOutcome
  quarantine : List (Nat × Nat × Nat)
  stale : Nat
  refused : Nat
  dldEvents : BitVec 32
  modBlocked : Bool
  suspects : NSet
  emptyRounds : Tab Nat
  txCount : Tab Nat
  deriving DecidableEq, Repr

/-- A packet held in a port's output queue (R205): virtual channel, bytes, and, for a forwarded packet, the port and
virtual channel whose buffer it holds until it has left (R207). -/
structure QPacket where
  vc : Nat
  bs : List Byte
  src : Option (Nat × Nat)
  deriving DecidableEq, Repr

/-- A fabric port (09). `skipping`: the receiver waits for the flit that it asked for; `retrying`: the transmitter has sent its retry
buffer again up to `resentTo` (R199). By virtual channel: `credits` the peer's, `used` the units that packets hold here, `due` the
units to return, `granted` the shared units given beyond the reserved minimum (R206). -/
structure Port where
  st : Nat
  lr : Bool
  spared : BitVec 2
  retrying : Bool
  peerDid : BitVec 17
  peerPort : Nat
  crcErr : Bool
  laneFail : Bool
  linkDown : Bool
  lanes : BitVec 2
  txSeq : BitVec 12
  rxSeq : BitVec 12
  skipping : Bool
  resentTo : BitVec 12
  retry : List (BitVec 12 × List Byte)
  credits : Tab Nat
  used : Tab Nat
  due : Tab Nat
  granted : Tab Nat
  outq : List QPacket
  ctr : Tab (BitVec 64)
  deriving DecidableEq, Repr

def Port.reset : Port where
  st := 0
  lr := false
  spared := 0
  retrying := false
  peerDid := 0
  peerPort := 0
  crcErr := false
  laneFail := false
  linkDown := false
  lanes := 0
  txSeq := 0
  rxSeq := 0
  skipping := false
  resentTo := 0
  retry := []
  credits := []
  used := []
  due := []
  granted := []
  outq := []
  ctr := []

/-- A flow (R212): context, source unit, destination rank; its route, bundle selector, outstanding count, flowlets
started and the last CONG_ECHO. -/
structure Flow where
  c : Nat
  unit : Nat
  rank : Nat
  route : BitVec 24
  bsel : Nat
  count : Nat
  flowlets : Nat
  echo : BitVec 4
  deriving DecidableEq, Repr

/-- What an outstanding request of this module is (R219); a PUT of a core keeps its instruction's place in the code, since the
instruction may have completed before the outcome comes (R56). -/
inductive TransKind where
  | put (L pc : Nat)
  | get (L seq tmOff len : Nat)
  | hoist (src : PenSrc) (id : Nat)
  | delta (k : CollKey) (group : Nat)
  | coll (k : CollKey)
  | other
  deriving DecidableEq, Repr

/-- An outstanding request: its tag, source unit, context, kind, destination rank and device. -/
structure Trans where
  tag : BitVec 16
  unit : Nat
  c : Nat
  kind : TransKind
  rank : Nat
  did : Nat
  deriving DecidableEq, Repr

/-- A PUT at an ingress port whose write is not yet acknowledged: its number in order of arrival, port, packet, the stripe whose
gathering it has joined, none while it waits at the port (R128), and the status of its ACK (R216, R217). -/
structure PutIn where
  no : Nat
  port : Nat
  pk : List Byte
  stripe : Option Nat
  st : BitVec 16
  deriving DecidableEq, Repr

/-- A REL HOIST held at its ingress port for the PUTs that arrived before it (R217). -/
structure RelIn where
  port : Nat
  pk : List Byte
  after : Nat
  deriving DecidableEq, Repr

/-- The fabric (09). `did` is the device identifier that bring-up took before the links trained (R208). -/
structure Fab where
  did : Option Nat
  ports : Tab Port
  sparesUsed : Tab NSet
  flows : List Flow
  trans : List Trans
  nextTag : BitVec 16
  relHeld : List RelIn
  putsIn : List PutIn
  putNo : Nat
  dims : List Nat
  width : List Nat
  unusable : List (Nat × Nat)
  retrainReq : NSet
  deriving DecidableEq, Repr

/-- The common part of a collective descriptor (Table 10.1) and its operation-specific bytes. -/
structure CollDesc where
  op : Nat
  redOp : Nat
  mtype : Nat
  wtype : Nat
  dtype : Nat
  epoch : BitVec 16
  id : Nat
  done : BitVec 28
  doneEn : Bool
  srcVa : Nat
  dstVa : Nat
  count : Nat
  groupVa : Nat
  g : List Nat
  spec : List Byte
  deriving DecidableEq, Repr

/-- Where an update stands with its strike of PRE_READY (R258): not yet struck, a recorded striker, struck, or ended as stale. -/
inductive Strike where
  | none
  | waits
  | done
  | stale
  deriving DecidableEq, Repr

/-- An update in progress (11): its group, the snapshot of its entry (R250), its program, where it stands, the deltas that
are outstanding or wait to be sent, and whether it has written a tensor (R264). -/
structure UpdRun where
  group : Nat
  entry : List Byte
  prog : List (BitVec 32)
  phase : Nat
  held : Bool
  chunks : NSet
  norms : Tab (BitVec 64)
  members : Tab (BitVec 64)
  p1Done : Bool
  gnorm : Option (BitVec 32)
  p2 : Bool
  wrote : Bool
  deltas : Nat
  deltaQ : List (Nat × Nat × Nat × List Byte)
  strike : Strike
  deriving DecidableEq, Repr

/-- A dispatch in progress (R243): the expert map and the candidate list as read at its start. As origin: the round, the claims of this round as token, choice and candidate position,
the grants received, each token's next candidate, and the experts each token holds. As owner: its round, the claims
received, what is granted per expert, and the granted rows not yet written. -/
structure DispRun where
  emap : List Nat
  cand : List Nat
  round : Nat
  mine : List (Nat × Nat × Nat)
  grants : List (Nat × List Grant)
  cursor : Tab Nat
  got : List (Nat × Nat)
  drops : Nat
  falls : Nat
  ownRound : Nat
  claims : List (Nat × List Claim)
  granted : Tab Nat
  rowsIn : Nat
  ownerDone : Bool
  deriving DecidableEq, Repr

/-- A chunk, or a token row, that this member has sent and keeps until it is acknowledged (R237): the rank it goes to, its number,
the shard it is of with its version (R234), its place and its token and choice for a row (R244), and its elements as FP32 words with
their poison marks. -/
structure SentChunk where
  dest : Nat
  chunk : Nat
  shard : Nat
  version : Nat
  loc : Nat
  slot : Nat
  token : Nat
  choice : Nat
  elems : List (Nat × Bool)
  deriving DecidableEq, Repr

/-- A running collective (R224 to R241): its command and descriptor, the rank list and this module's place in it, its
progress, whether it is held, its unacknowledged chunks, the flowlets it has begun (R237), the chunks received and the packets of those not yet whole (member, chunk,
part, whether the last), the contributions held in the pool with their ports (R230), and what its operation still owes. -/
structure CollRun where
  key : CmdKey
  d : CollDesc
  ranks : List Nat
  me : Nat
  check : BitVec 16
  held : Bool
  tReal : Nat
  sentProg : Nat
  slow : Bool
  slowTx : Bool
  unacked : List SentChunk
  flowlets : Nat
  recvd : List (Nat × Nat)
  parts : List (Nat × Nat × Nat × Bool)
  pool : List (Nat × CollPkt)
  dataDone : Bool
  sent : Nat
  grad : List (BitVec 32 × Bool)
  gn : Option (BitVec 64 × BitVec 64)
  gnWait : Bool
  shardWait : Bool
  disp : Option DispRun
  upd : Option UpdRun
  fenceStage : Nat
  notices : NSet
  deriving DecidableEq, Repr

/-- The last collective of a key that has ended here (R237, R238): its check and this module's place in it, the chunks it received (member,
chunk) that its members may still send again, and whether a member has begun another one of the key. -/
structure EndedRun where
  k : CollKey
  check : BitVec 16
  me : Nat
  recvd : List (Nat × Nat)
  anew : Bool
  deriving DecidableEq, Repr

/-- A parity block in a combine buffer (R267): context, parity shard, block address, the combined bytes, the number of
deltas of each byte, and the packets to acknowledge. -/
structure ParBlock where
  c : Nat
  block : Nat
  bytes : Memory
  counts : Tab Nat
  first : BitVec 64
  packets : List (List Byte)
  deriving DecidableEq, Repr

/-- Collective engines, token routers and update engines (10, 11). `early` is the early traffic with its ports, `stuck`
the packets left in their port and VC buffers, `claims` the claims for a DISPATCH whose table reads have not begun here, `ended` the
collectives that have ended here, `notices` the fence notices of
a RESHARD that has not started here: context, COLL_ID, member (R240, R241). `counters` are the layer counts that wait for a flow entry:
context, rank, address, value (R212, R244). -/
structure Coll where
  runs : List CollRun
  early : List (Nat × CollPkt)
  stuck : List (Nat × CollPkt)
  claims : List (CollKey × Nat × List Claim)
  ended : List EndedRun
  counters : List (Nat × Nat × Nat × Nat)
  notices : List (Nat × Nat × Nat)
  overflow : NSet
  abortRx : NSet
  epochDrop : NSet
  abortRank : Tab (BitVec 17)
  ueOverflow : NSet
  uePoison : NSet
  lastPgroup : Tab (BitVec 12)
  combine : Tab (List ParBlock)
  fallbacks : Nat
  deriving DecidableEq, Repr

/-- A report that cut `step` of context c is locally sealed on the module of a rank, with the layout epoch of its cut (R291). -/
structure SealReport where
  c : Nat
  step : Nat
  rank : Nat
  epoch : Nat
  deriving DecidableEq, Repr

/-- A rank lost in the recovery in progress: its context, the device that held it, and whether a spare is bound to it (R297). -/
structure Loss where
  c : Nat
  rank : Nat
  did : Nat
  bound : Bool
  deriving DecidableEq, Repr

/-- Resilience (12). -/
structure Rbd where
  role : Nat
  rank : BitVec 18
  log : List (BitVec 64 × Nat × Nat × Nat)
  safeHold : Bool
  cause : BitVec 32
  time : BitVec 64
  wdExpiries : BitVec 32
  wdLast : Option (BitVec 64)
  recState : Nat
  lastLost : BitVec 17
  recTimes : Tab Nat
  recConfirm : Bool
  recWait : Option Nat
  recTs : BitVec 64
  recRank : Option Nat
  suspicions : List (Nat × Nat)
  probes : List Nat
  beats : Tab (BitVec 64)
  lostDids : NSet
  disable : Tab Nat
  reenable : NSet
  seals : List SealReport
  losses : List Loss
  declared : NSet
  moveDue : Bool
  retiring : Bool
  deriving DecidableEq, Repr

/-- Power, clocks and temperature (13). -/
structure Pwr where
  state : Nat
  duty : Nat
  effDiv : Nat
  cdThrottle : NSet
  iodThrottle : NSet
  thermTrip : Bool
  limitHit : Bool
  dieDuty : Tab Nat
  dieTemp : Tab (BitVec 32)
  engines : Tab Gate
  engineWakes : Tab Nat
  limiterSteps : Nat
  samples : List Nat
  wakeSource : Nat
  wakeTime : BitVec 64
  standbyTime : BitVec 64
  deriving DecidableEq, Repr

/-- A Umasel session (R331, R332). -/
structure Session where
  level : Nat
  path : UmPath
  opened : Bool
  cnonce : List Byte
  mnonce : List Byte
  key : List Byte
  mseqIn : Nat
  mseqOut : Nat
  deriving DecidableEq, Repr

/-- A segmented write in progress (R334). -/
structure SegLock where
  path : UmPath
  session : Nat
  bytes : List Byte
  deriving DecidableEq, Repr

/-- An event waiting at a destination (R358): code, timestamp and detail. -/
structure UmEvent where
  code : Nat
  time : BitVec 64
  detail : BitVec 64
  deriving DecidableEq, Repr

/-- The Umasel dictionary (14). Object values are numbers in the object's encoding, by index · 256 + subindex; an
unlisted object has its default. -/
structure Um where
  vals : Tab Nat
  doms : Tab (List Byte)
  sessions : Tab Session
  authFails : List (Nat × Nat)
  authBlock : NSet
  authFailures : Nat
  locks : Tab SegLock
  queues : Tab (List UmReq)
  mbox : Mbox
  fwd : List (UmPath × List Byte)
  fwdTags : List (BitVec 16)
  keys : Tab (List Byte)
  drops : Nat
  events : Tab (List UmEvent)
  eventDrops : Tab Nat
  bg : Tab Nat
  ptTables : Nat
  mboxDiscards : Nat
  deriving DecidableEq, Repr

/-- Observation (15). -/
structure Obs where
  dieSel : Tab (BitVec 8)
  dieCtr : Tab (BitVec 48)
  priv : Tab (BitVec 48)
  dieAlways : Tab (BitVec 64)
  dumpState : Nat
  dumpMissed : BitVec 32
  dumpCause : Nat
  dumpTrigger : BitVec 64
  dumpOffset : BitVec 64
  traceFaults : BitVec 32
  tsOffset : BitVec 64
  tsError : BitVec 32
  tsMeasure : BitVec 64
  linkOff : Tab Int
  linkN : Tab Nat
  measuring : Bool
  recoveryMode : Bool
  stopTs : Tab (BitVec 64)
  deriving DecidableEq, Repr

/-- The state of the module. -/
structure State where
  pending : List Instr
  freeCtr : Nat
  out : List Out
  sys : Sys
  xl : Xl
  cores : Tab CoreState
  spares : Tab NSet
  mem : Mem
  ctxs : Tab CtxState
  fes : Tab FrontEnd
  pen : Pen
  fab : Fab
  coll : Coll
  rbd : Rbd
  pwr : Pwr
  um : Um
  obs : Obs
  deriving DecidableEq, Repr

/-! ## Reset -/

def Sys.reset : Sys where
  vaux := true
  vin48 := true
  modResetN := true
  perstN := true
  thermtripN := true
  alertN := true
  strapTest := false
  strapDid := 0
  strapNode := 0
  ready := 0
  step := 1
  fillDone := false
  trainDone := false
  fabDone := false
  warmUp := false
  regulators := false
  mcOnPll := false
  pllLock := 0
  everReady := false
  perstSeenHigh := false
  booting := true
  recoveryBoot := false
  activeSlot := 0
  slotImage := []
  revoked := []
  antiRollback := 0
  runSecVer := 0
  eventLog := []
  cfgStore := []
  cfgDoms := []
  linkUp := false
  pcieConfigured := false
  numVfs := 0
  bar2Pf := 1
  bar2Vf := 1
  ts := 0
  tsCd := 0
  rootRem := 0
  dieLinks := []
  dieLinkEvents := 0

def Xl.reset : Xl where
  ptRoot := []
  penRoot := []
  ptInvalCtx := 0
  ptInvalAll := false
  ptInvalPage := 0
  ptInvalDone := true
  ptInvalLen := 1
  bar2Base := 0
  vfBar2Base := []
  tlb := []
  discards := 0
  bar2Refused := 0
  rankMap := []
  rankLoad := none
  rankLoadReq := none

def Mem.reset : Mem where
  units := []
  stack := []
  layout21 := false
  removed := none
  watermark := 0
  journal := none
  restripe := 0
  poisonTab := []
  gather := []
  portWait := []
  acks := []
  readWait := []
  retrainDue := false
  retrainNext := 0
  undecodable := 0
  scrubFixes := 0
  errFree := false

def Pen.reset : Pen := ⟨[], [], [], [], 0, 0, 0, false, [], [], []⟩

def Fab.reset : Fab where
  did := none
  ports := []
  sparesUsed := []
  flows := []
  trans := []
  nextTag := 0
  relHeld := []
  putsIn := []
  putNo := 0
  dims := [16, 1, 1, 1]
  width := [5, 1, 1, 1]
  unusable := []
  retrainReq := []

def Coll.reset : Coll := ⟨[], [], [], [], [], [], [], [], [], [], [], [], [], [], [], 0⟩

def Rbd.reset : Rbd where
  role := 0
  rank := 0x20000
  log := []
  safeHold := false
  cause := 0
  time := 0
  wdExpiries := 0
  wdLast := none
  recState := 0
  lastLost := 0
  recTimes := []
  recConfirm := false
  recWait := none
  recTs := 0
  recRank := none
  suspicions := []
  probes := []
  beats := []
  lostDids := []
  disable := []
  reenable := []
  seals := []
  losses := []
  declared := []
  moveDue := false
  retiring := false

def Pwr.reset : Pwr where
  state := 0
  duty := 16
  effDiv := 0
  cdThrottle := []
  iodThrottle := []
  thermTrip := false
  limitHit := false
  dieDuty := []
  dieTemp := []
  engines := []
  engineWakes := []
  limiterSteps := 0
  samples := []
  wakeSource := 0
  wakeTime := 0
  standbyTime := 0

def Um.reset : Um where
  vals := []
  doms := []
  sessions := []
  authFails := []
  authBlock := []
  authFailures := 0
  locks := []
  queues := []
  mbox := Mbox.reset
  fwd := []
  fwdTags := []
  keys := []
  drops := 0
  events := []
  eventDrops := []
  bg := []
  ptTables := 0
  mboxDiscards := 0

def Obs.reset : Obs where
  dieSel := []
  dieCtr := []
  priv := []
  dieAlways := []
  dumpState := 0
  dumpMissed := 0
  dumpCause := 0
  dumpTrigger := 0
  dumpOffset := 0
  traceFaults := 0
  tsOffset := 0
  tsError := 0
  tsMeasure := 0
  linkOff := []
  linkN := []
  measuring := false
  recoveryMode := false
  stopTs := []

/-- The module right after a cold reset, powered, at step 1 of bring-up (Table 16.6). -/
def State.reset : State where
  pending := []
  freeCtr := 0
  out := []
  sys := Sys.reset
  xl := Xl.reset
  cores := []
  spares := []
  mem := Mem.reset
  ctxs := []
  fes := []
  pen := Pen.reset
  fab := Fab.reset
  coll := Coll.reset
  rbd := Rbd.reset
  pwr := Pwr.reset
  um := Um.reset
  obs := Obs.reset

end Sys2Proof.Machine
end

