-- ==== Sys2Proof/Machine/Objects.lean ====
section
/-! DEFINITION. The objects of the Umasel dictionary: Tables 6.12, 8.7, 9.11, 10.12, 11.13, 12.12, 13.9, 14.15 and 15.10,
the counters of Table 15.1, and the objects that Tables 14.8 to 14.10 and R282 name (log 17: their levels). -/

namespace Sys2Proof.Machine

/-- Types of Table 14.1. -/
inductive ObjTy where
  | u8 | u16 | u32 | u64 | i32 | f32 | str | domain
  deriving DecidableEq, Repr

/-- TCODE of Table 14.1. -/
def ObjTy.code : ObjTy → Nat
  | .u8 => 1
  | .u16 => 2
  | .u32 => 3
  | .u64 => 4
  | .i32 => 5
  | .f32 => 6
  | .str => 7
  | .domain => 8

/-- Length in bytes of a scalar type. -/
def ObjTy.len : ObjTy → Nat
  | .u8 => 1
  | .u16 => 2
  | .u32 => 4
  | .u64 => 8
  | .i32 => 4
  | .f32 => 4
  | .str => 0
  | .domain => 0

/-- The stated range of an object's values (R335). -/
inductive ObjRange where
  | any
  | nat (lo hi : Nat)
  | oneOf (vs : List Nat)
  | fp (lo hi : Nat)
  deriving DecidableEq, Repr

/-- One row of an object table (R326, R382): indices lo to hi, subindices sLo to sHi. A level of none is a dash. -/
structure ObjRow where
  lo : Nat
  hi : Nat
  sLo : Nat
  sHi : Nat
  name : String
  ty : ObjTy
  rd : Option Nat
  wr : Option Nat
  dflt : List Nat
  noDefault : Bool
  fixed : Bool
  expert : Bool
  range : ObjRange
  deriving DecidableEq, Repr

/-- Rows of the dictionary, in order of index; part 0. -/
def objRows0 : List ObjRow := [
  ⟨0x1000, 0x1000, 0, 0, "MGMT_PART", .str, (some 0), none, [57390480054100], false, true, false, .any⟩,
  ⟨0x1001, 0x1001, 0, 0, "MGMT_SERIAL", .str, (some 0), none, [0], true, true, false, .any⟩,
  ⟨0x1002, 0x1002, 0, 0, "MGMT_STEPPING", .u8, (some 0), none, [160], false, true, false, .any⟩,
  ⟨0x1003, 0x1003, 1, 2, "MGMT_FW_VERSION", .u32, (some 0), none, [0], true, false, false, .any⟩,
  ⟨0x1004, 0x1004, 0, 0, "MGMT_READY", .u8, (some 0), none, [0], false, false, false, .any⟩,
  ⟨0x1011, 0x1011, 1, 1, "MGMT_T1S_MAC", .u64, (some 0), none, [0], true, true, false, .any⟩,
  ⟨0x1011, 0x1011, 2, 2, "MGMT_T1S_NODE", .u8, (some 0), (some 2), [0], true, false, false, .nat 1 16⟩,
  ⟨0x1011, 0x1011, 3, 3, "MGMT_T1S_OPERATOR", .u8, (some 0), (some 2), [1], false, false, false, .nat 0 1⟩,
  ⟨0x1012, 0x1012, 1, 4, "MGMT_EVENT_DEST", .u32, (some 0), (some 1), [0], false, false, false, .any⟩,
  ⟨0x1020, 0x1020, 1, 1, "MGMT_CONFIG_STORE", .u8, none, (some 2), [0], true, false, false, .nat 1 1⟩,
  ⟨0x1020, 0x1020, 2, 2, "MGMT_CONFIG_CLEAR", .u8, none, (some 2), [0], true, false, false, .nat 1 1⟩,
  ⟨0x1030, 0x1030, 1, 1, "MGMT_FW_IMAGE", .domain, none, (some 2), [0], true, false, false, .any⟩,
  ⟨0x1030, 0x1030, 2, 2, "MGMT_FW_ACTIVATE", .u8, none, (some 2), [0], true, false, false, .nat 1 1⟩,
  ⟨0x1030, 0x1030, 3, 3, "MGMT_FW_ACTIVE_SLOT", .u8, (some 0), none, [0], false, false, false, .any⟩,
  ⟨0x1030, 0x1030, 4, 4, "MGMT_FW_COMMIT", .u8, none, (some 2), [0], true, false, false, .nat 1 1⟩,
  ⟨0x2100, 0x2100, 1, 1, "CFE_HANG_POLICY", .u8, (some 0), (some 2), [0], false, false, false, .nat 0 1⟩,
  ⟨0x2100, 0x2100, 2, 2, "CFE_FETCH_MODE", .u8, (some 0), (some 2), [0], false, false, false, .nat 0 2⟩,
  ⟨0x2100, 0x2100, 3, 3, "CFE_GATE_REQUEST", .u8, none, (some 2), [0], true, false, true, .nat 1 1⟩,
  ⟨0x2200, 0x2200, 1, 1, "PEN_DLD_ENABLE", .u8, (some 0), (some 1), [1], false, false, false, .nat 0 1⟩,
  ⟨0x2200, 0x2200, 2, 2, "PEN_DLD_MODE", .u8, (some 0), (some 2), [0], false, false, false, .nat 0 2⟩,
  ⟨0x2200, 0x2200, 3, 3, "PEN_DLD_WINDOW", .u32, (some 0), (some 2), [100], false, false, true, .nat 10 1000000⟩,
  ⟨0x2200, 0x2200, 4, 4, "PEN_DLD_EVENTS", .u32, (some 0), none, [0], false, false, false, .any⟩,
  ⟨0x2200, 0x2200, 5, 5, "PEN_DLD_STATES", .domain, (some 0), none, [0], true, false, true, .any⟩,
  ⟨0x2200, 0x2200, 15, 15, "DISABLE_STATE", .u8, (some 0), none, [0], false, false, false, .any⟩]

/-- Rows of the dictionary, in order of index; part 1. -/
def objRows1 : List ObjRow := [
  ⟨0x2201, 0x2201, 1, 1, "PEN_CENSUS_ENABLE", .u8, (some 0), (some 1), [1], false, false, false, .nat 0 1⟩,
  ⟨0x2201, 0x2201, 2, 2, "PEN_CENSUS_PERIOD", .u32, (some 0), (some 2), [250], false, false, true, .nat 50 10000⟩,
  ⟨0x2201, 0x2201, 3, 3, "PEN_CENSUS_STATE", .u8, (some 0), none, [0], false, false, false, .any⟩,
  ⟨0x2202, 0x2202, 0, 0, "PEN_QUARANTINE", .u32, (some 0), none, [64], false, true, true, .any⟩,
  ⟨0x2300, 0x2300, 1, 1, "CE_ENABLE", .u8, (some 0), (some 1), [1], false, false, false, .nat 0 1⟩,
  ⟨0x2300, 0x2300, 2, 2, "CE_MODE", .u8, (some 0), (some 2), [0], false, false, false, .nat 0 2⟩,
  ⟨0x2300, 0x2300, 15, 15, "DISABLE_STATE", .u8, (some 0), none, [0], false, false, false, .any⟩,
  ⟨0x2301, 0x2301, 1, 1, "CE_PROGRESS_INTERVAL", .u32, (some 0), (some 2), [1000], false, false, true, .nat 100 100000⟩,
  ⟨0x2301, 0x2301, 2, 2, "CE_CHUNK_RESEND", .u32, (some 0), none, [1000], false, true, true, .any⟩,
  ⟨0x2302, 0x2302, 0, 0, "CE_EPOCH_HOLD_SHARE", .u32, (some 0), (some 2), [65536], false, false, true, .nat 0 242688⟩,
  ⟨0x2303, 0x2303, 0, 0, "CE_ACTIVE", .u16, (some 0), none, [0], false, false, false, .any⟩,
  ⟨0x2310, 0x2310, 1, 1, "TR_ENABLE", .u8, (some 0), (some 1), [1], false, false, false, .nat 0 1⟩,
  ⟨0x2310, 0x2310, 2, 2, "TR_MODE", .u8, (some 0), (some 2), [0], false, false, false, .nat 0 2⟩,
  ⟨0x2310, 0x2310, 15, 15, "DISABLE_STATE", .u8, (some 0), none, [0], false, false, false, .any⟩,
  ⟨0x2400, 0x2400, 1, 1, "UE_ENABLE", .u8, (some 0), (some 1), [1], false, false, false, .nat 0 1⟩,
  ⟨0x2400, 0x2400, 2, 2, "UE_MODE", .u8, (some 0), (some 2), [0], false, false, false, .nat 0 2⟩,
  ⟨0x2400, 0x2400, 15, 15, "DISABLE_STATE", .u8, (some 0), none, [0], false, false, false, .any⟩,
  ⟨0x2401, 0x2401, 1, 1, "UE_PAR_FLUSH", .u32, (some 0), (some 2), [50], false, false, true, .nat 5 5000⟩,
  ⟨0x2401, 0x2401, 2, 2, "UE_PAR_ENABLE", .u8, (some 0), (some 2), [1], false, false, false, .nat 0 1⟩,
  ⟨0x2402, 0x2402, 0, 0, "UE_ACTIVE", .u16, (some 0), none, [0], false, false, false, .any⟩,
  ⟨0x2600, 0x2600, 1, 6, "MGMT_BG_STATUS", .u8, (some 0), none, [0], false, false, false, .any⟩,
  ⟨0x3000, 0x3000, 0, 0, "PWR_STATE", .u8, (some 0), none, [0], false, false, false, .any⟩,
  ⟨0x3000, 0x3000, 1, 1, "PWR_STATUS", .u32, (some 0), (some 2), [0], true, false, false, .any⟩,
  ⟨0x3001, 0x3001, 1, 1, "PWR_INPUT_W", .f32, (some 0), none, [0], true, false, false, .any⟩]

/-- Rows of the dictionary, in order of index; part 2. -/
def objRows2 : List ObjRow := [
  ⟨0x3001, 0x3001, 2, 2, "PWR_INPUT_V", .f32, (some 0), none, [0], true, false, false, .any⟩,
  ⟨0x3001, 0x3001, 3, 3, "PWR_AUX_W", .f32, (some 0), none, [0], true, false, false, .any⟩,
  ⟨0x3010, 0x3010, 1, 1, "PWR_LIMIT_W", .u32, (some 0), (some 1), [4000], false, false, false, .nat 2000 4000⟩,
  ⟨0x3020, 0x3020, 1, 1, "CLK_CORE_DIV", .u8, (some 0), (some 1), [6], false, false, false, .oneOf [6, 8, 12]⟩,
  ⟨0x3020, 0x3020, 2, 2, "CLK_PLL_LOCK", .u16, (some 0), none, [0], true, false, true, .any⟩,
  ⟨0x3105, 0x3105, 1, 1, "PWR_IDLE_GATE_ENABLE", .u8, (some 0), (some 1), [1], false, false, false, .nat 0 1⟩,
  ⟨0x3105, 0x3105, 2, 2, "PWR_IDLE_TIMER_CORE", .u32, (some 0), (some 1), [20], false, false, true, .nat 1 1000000⟩,
  ⟨0x3105, 0x3105, 3, 3, "PWR_IDLE_TIMER_ENGINE", .u32, (some 0), (some 1), [20], false, false, true, .nat 1 1000000⟩,
  ⟨0x3105, 0x3105, 4, 4, "PWR_IDLE_TIMER_STACK", .u32, (some 0), (some 2), [5], false, false, true, .nat 1 1000⟩,
  ⟨0x3106, 0x3106, 1, 1, "PWR_STANDBY_ENABLE", .u8, (some 0), (some 1), [0], false, false, false, .nat 0 1⟩,
  ⟨0x3106, 0x3106, 2, 2, "PWR_STANDBY_TIMER", .u32, (some 0), (some 1), [600], false, false, true, .nat 10 86400⟩,
  ⟨0x3106, 0x3106, 3, 3, "PWR_STANDBY_REQUEST", .u8, none, (some 1), [0], true, false, false, .nat 1 1⟩,
  ⟨0x3106, 0x3106, 4, 4, "PWR_WAKE_REQUEST", .u8, none, (some 1), [0], true, false, false, .nat 1 1⟩,
  ⟨0x3107, 0x3107, 1, 1, "PWR_WAKE_SOURCE", .u8, (some 0), none, [0], false, false, false, .any⟩,
  ⟨0x3107, 0x3107, 2, 2, "PWR_WAKE_TIME", .u64, (some 0), none, [0], false, false, false, .any⟩,
  ⟨0x3107, 0x3107, 3, 3, "PWR_STANDBY_TIME", .u64, (some 0), none, [0], false, false, false, .any⟩,
  ⟨0x3200, 0x3200, 1, 8, "PWR_CD_TEMP", .f32, (some 0), none, [0], true, false, false, .any⟩,
  ⟨0x3200, 0x3200, 9, 12, "PWR_IOD_TEMP", .f32, (some 0), none, [0], true, false, false, .any⟩,
  ⟨0x3201, 0x3201, 1, 1, "PWR_T_THROTTLE", .f32, (some 0), (some 3), [1120403456], false, false, true, .fp 1119092736 1120403456⟩,
  ⟨0x3201, 0x3201, 2, 2, "PWR_T_TRIP", .f32, (some 0), none, [1121714176], false, true, true, .any⟩,
  ⟨0x4000, 0x4000, 1, 8, "RBD_CORE_SPARES", .u8, (some 0), none, [8], false, false, false, .any⟩,
  ⟨0x4001, 0x4001, 1, 1, "RBD_HB_PERIOD", .u32, (some 0), none, [20], false, true, true, .any⟩,
  ⟨0x4001, 0x4001, 2, 2, "RBD_HB_TIMEOUT", .u32, (some 0), none, [100], false, true, true, .any⟩,
  ⟨0x4001, 0x4001, 3, 3, "RBD_PROBE_TIMEOUT", .u32, (some 0), none, [50], false, true, true, .any⟩]

/-- Rows of the dictionary, in order of index; part 3. -/
def objRows3 : List ObjRow := [
  ⟨0x4002, 0x4002, 0, 0, "RBD_ROLE", .u8, (some 0), (some 2), [0], false, false, false, .nat 0 3⟩,
  ⟨0x4003, 0x4003, 1, 1, "RBD_RECOVERY_ENABLE", .u8, (some 0), (some 1), [1], false, false, false, .nat 0 1⟩,
  ⟨0x4003, 0x4003, 2, 2, "RBD_RECOVERY_MODE", .u8, (some 0), (some 2), [0], false, false, false, .nat 0 2⟩,
  ⟨0x4003, 0x4003, 3, 3, "RBD_RECOVERY_STATE", .u8, (some 0), none, [0], false, false, false, .any⟩,
  ⟨0x4003, 0x4003, 4, 4, "RBD_LAST_LOST", .u32, (some 0), none, [0], false, false, false, .any⟩,
  ⟨0x4003, 0x4003, 5, 5, "RBD_RECOVERY_TIMES", .domain, (some 0), none, [0], true, false, false, .any⟩,
  ⟨0x4003, 0x4003, 6, 6, "RBD_RECOVERY_CONFIRM", .u8, none, (some 2), [0], true, false, true, .nat 1 1⟩,
  ⟨0x4003, 0x4003, 15, 15, "DISABLE_STATE", .u8, (some 0), none, [0], false, false, false, .any⟩,
  ⟨0x4004, 0x4004, 0, 0, "RBD_COORDINATOR", .u32, (some 0), none, [0], false, false, false, .any⟩,
  ⟨0x4005, 0x4005, 0, 0, "RBD_LOG", .domain, (some 0), none, [0], true, false, false, .any⟩,
  ⟨0x4006, 0x4006, 0, 0, "RBD_RANK_MAP", .domain, (some 0), (some 2), [0], true, false, false, .any⟩,
  ⟨0x4007, 0x4007, 0, 0, "RBD_RANK", .u32, (some 0), none, [131072], false, false, false, .any⟩,
  ⟨0x4010, 0x4010, 1, 1, "RBD_HALT", .u32, none, (some 1), [0], true, false, false, .nat 0 131071⟩,
  ⟨0x4010, 0x4010, 2, 2, "RBD_EPOCH_STOP", .u64, none, (some 1), [0], true, false, false, .any⟩,
  ⟨0x4010, 0x4010, 3, 3, "RBD_RESUME", .u32, none, (some 1), [0], true, false, false, .nat 0 131071⟩,
  ⟨0x4010, 0x4010, 4, 4, "RBD_STOP_STATE", .u8, (some 0), none, [0], false, false, false, .any⟩,
  ⟨0x4020, 0x4020, 0, 0, "RBD_SAFE_HOLD", .u8, (some 0), none, [0], false, false, false, .any⟩,
  ⟨0x4020, 0x4020, 1, 1, "RBD_SAFE_HOLD_CAUSE", .u32, (some 0), none, [0], false, false, false, .any⟩,
  ⟨0x4020, 0x4020, 2, 2, "RBD_SAFE_HOLD_EXIT", .u8, none, (some 2), [0], true, false, false, .nat 1 1⟩,
  ⟨0x4020, 0x4020, 3, 3, "RBD_SAFE_HOLD_ENTER", .u8, none, (some 2), [0], true, false, true, .nat 1 1⟩,
  ⟨0x4020, 0x4020, 4, 4, "RBD_SAFE_HOLD_TIME", .u64, (some 0), none, [0], false, false, false, .any⟩,
  ⟨0x4021, 0x4021, 1, 1, "RBD_WARM_RESET", .u8, none, (some 2), [0], true, false, false, .nat 1 1⟩,
  ⟨0x4021, 0x4021, 2, 2, "RBD_COLD_RESET", .u8, none, (some 2), [0], true, false, false, .nat 1 1⟩,
  ⟨0x4021, 0x4021, 3, 3, "RBD_CONTEXT_RESET", .u16, none, (some 1), [0], true, false, false, .nat 0 65535⟩]

/-- Rows of the dictionary, in order of index; part 4. -/
def objRows4 : List ObjRow := [
  ⟨0x4030, 0x4030, 1, 1, "MGMT_WATCHDOG_PERIOD", .u32, (some 0), none, [1000], false, true, true, .any⟩,
  ⟨0x4030, 0x4030, 2, 2, "MGMT_WATCHDOG_RESETS", .u32, (some 0), none, [0], false, false, false, .any⟩,
  ⟨0x4040, 0x4040, 2, 2, "RBD_WEAR_SHARE", .u8, (some 0), (some 2), [2], false, false, true, .nat 0 10⟩,
  ⟨0x4040, 0x4040, 3, 3, "RBD_WEAR_MARGIN", .u8, (some 0), (some 2), [0], true, false, true, .any⟩,
  ⟨0x5010, 0x501b, 1, 16, "OBS_DIE_SEL", .u8, (some 2), (some 2), [0], false, false, true, .any⟩,
  ⟨0x5020, 0x502b, 1, 16, "OBS_DIE_CTR", .u64, (some 2), none, [0], false, false, true, .any⟩,
  ⟨0x5030, 0x503b, 1, 6, "OBS_DIE_ALWAYS", .u64, (some 2), none, [0], false, false, true, .any⟩,
  ⟨0x5100, 0x5100, 1, 1, "OBS_TS_ENABLE", .u8, (some 0), (some 1), [1], false, false, false, .nat 0 1⟩,
  ⟨0x5100, 0x5100, 2, 2, "OBS_TS_MODE", .u8, (some 0), (some 2), [0], false, false, false, .nat 0 2⟩,
  ⟨0x5100, 0x5100, 3, 3, "OBS_TS_HOST_OFFSET", .domain, (some 0), (some 2), [0], true, false, true, .any⟩,
  ⟨0x5100, 0x5100, 4, 4, "OBS_TS_REF", .u32, (some 0), (some 2), [0], false, false, false, .nat 0 131071⟩,
  ⟨0x5100, 0x5100, 5, 5, "OBS_TS_OFFSET", .u64, (some 0), none, [0], false, false, false, .any⟩,
  ⟨0x5100, 0x5100, 6, 6, "OBS_TS_ERROR", .u32, (some 0), none, [0], false, false, false, .any⟩,
  ⟨0x5100, 0x5100, 7, 7, "OBS_TS_MEASURE", .u8, none, (some 1), [0], true, false, false, .nat 1 1⟩,
  ⟨0x5100, 0x5100, 8, 8, "OBS_TS_MEASURE_TIME", .u64, (some 0), none, [0], false, false, false, .any⟩,
  ⟨0x5100, 0x5100, 15, 15, "DISABLE_STATE", .u8, (some 0), none, [0], false, false, false, .any⟩,
  ⟨0x5300, 0x5317, 1, 7, "OBS_STACK_CTR", .u64, (some 2), none, [0], false, false, true, .any⟩,
  ⟨0x5400, 0x553f, 1, 8, "OBS_CORE_CTR", .u64, (some 2), none, [0], false, false, true, .any⟩,
  ⟨0x5400, 0x553f, 9, 16, "OBS_CORE_EVENT", .u64, (some 2), none, [0], false, false, true, .any⟩,
  ⟨0x5800, 0x584b, 1, 6, "OBS_PORT_CTR", .u64, (some 2), none, [0], false, false, true, .any⟩,
  ⟨0x5e00, 0x5e00, 0, 0, "OBS_DUMP_STATE", .u8, (some 0), none, [0], false, false, false, .any⟩,
  ⟨0x5e00, 0x5e00, 1, 1, "OBS_DUMP_TRIGGERS", .u8, (some 0), (some 2), [61], false, false, false, .nat 0 63⟩,
  ⟨0x5e00, 0x5e00, 2, 2, "OBS_DUMP_REQUEST", .u8, none, (some 2), [0], true, false, false, .nat 1 1⟩,
  ⟨0x5e00, 0x5e00, 3, 3, "OBS_HANG_DUMP", .domain, (some 2), none, [0], true, false, false, .any⟩]

/-- Rows of the dictionary, in order of index; part 5. -/
def objRows5 : List ObjRow := [
  ⟨0x5e00, 0x5e00, 4, 4, "OBS_DUMP_RELEASE", .u8, none, (some 2), [0], true, false, false, .nat 1 1⟩,
  ⟨0x5e00, 0x5e00, 5, 5, "OBS_DUMP_MISSED", .u32, (some 0), none, [0], false, false, true, .any⟩,
  ⟨0x5f00, 0x5f00, 1, 1, "OBS_MODE", .u8, (some 0), (some 2), [0], false, false, false, .nat 0 3⟩,
  ⟨0x5f00, 0x5f00, 2, 2, "OBS_TELEMETRY_SHARE", .u8, (some 0), (some 2), [10], false, false, true, .nat 1 50⟩,
  ⟨0x5f00, 0x5f00, 3, 3, "OBS_TRACE_FAULTS", .u32, (some 2), none, [0], false, false, true, .any⟩,
  ⟨0x6000, 0x6000, 0, 0, "FAB_DID", .u32, (some 0), (some 2), [0], true, false, false, .nat 0 131071⟩,
  ⟨0x6001, 0x6001, 1, 4, "FAB_SHAPE", .u8, (some 0), (some 2), [16, 1, 1, 1], false, false, false, .nat 1 32⟩,
  ⟨0x6002, 0x6002, 1, 4, "FAB_WIDTH", .u8, (some 0), (some 2), [5, 1, 1, 1], false, false, false, .nat 1 8⟩,
  ⟨0x6003, 0x6003, 1, 76, "FAB_PORT_STATUS", .u32, (some 0), (some 2), [0], true, false, false, .any⟩,
  ⟨0x6004, 0x6004, 1, 76, "FAB_REACH_MODE", .u8, (some 0), (some 2), [0], false, false, true, .nat 0 2⟩,
  ⟨0x6005, 0x6005, 1, 8, "FAB_SPARE_PORT", .u8, (some 0), (some 2), [255], false, false, true, .oneOf (255 :: List.range 76)⟩,
  ⟨0x6006, 0x6006, 1, 1, "FAB_LANE_FAIL_THRESHOLD", .u32, (some 0), (some 2), [1000000], false, false, true, .any⟩,
  ⟨0x6010, 0x6010, 1, 1, "FAB_ROUTE_MODE", .u8, (some 0), (some 2), [1], false, false, false, .nat 0 1⟩,
  ⟨0x6010, 0x6010, 2, 2, "FAB_UGAL_BIAS", .u16, (some 0), (some 2), [64], false, false, true, .nat 0 16384⟩,
  ⟨0x6010, 0x6010, 3, 3, "FAB_CONG_THRESHOLD", .u8, (some 0), (some 2), [50], false, false, true, .nat 10 90⟩,
  ⟨0x6011, 0x6011, 1, 1, "FAB_RESIDENCE_LIMIT", .u32, (some 0), none, [7], false, true, true, .any⟩,
  ⟨0x6011, 0x6011, 2, 2, "FAB_E2E_TIMEOUT", .u32, (some 0), none, [10], false, true, true, .any⟩,
  ⟨0x6012, 0x6012, 1, 1, "FAB_QUIET_TIMER", .u32, (some 0), (some 1), [100], false, false, true, .nat 10 1000000⟩,
  ⟨0x6012, 0x6012, 2, 2, "FAB_QUIET_ENABLE", .u8, (some 0), (some 1), [1], false, false, false, .nat 0 1⟩,
  ⟨0x6020, 0x6020, 1, 1, "FAB_POOL_PORTVC_CAP", .u32, (some 0), (some 2), [16384], false, false, true, .nat 256 131072⟩,
  ⟨0x6020, 0x6020, 3, 3, "FAB_POOL_RESPONSE_FLOOR", .u32, (some 0), (some 2), [8192], false, false, true, .nat 1024 65536⟩,
  ⟨0x6030, 0x6030, 1, 1, "FAB_RETRAIN_ENABLE", .u8, (some 0), (some 1), [1], false, false, false, .nat 0 1⟩,
  ⟨0x6030, 0x6030, 2, 2, "FAB_RETRAIN_MODE", .u8, (some 0), (some 2), [0], false, false, false, .nat 0 2⟩,
  ⟨0x6030, 0x6030, 3, 3, "FAB_RETRAIN_PORT", .u8, none, (some 2), [0], true, false, true, .nat 0 75⟩]

/-- Rows of the dictionary, in order of index; part 6. -/
def objRows6 : List ObjRow := [
  ⟨0x6030, 0x6030, 15, 15, "DISABLE_STATE", .u8, (some 0), none, [0], false, false, false, .any⟩,
  ⟨0x6031, 0x6031, 2, 2, "FAB_CAL_SHARE", .u8, (some 0), (some 2), [1], false, false, true, .nat 0 20⟩,
  ⟨0x7000, 0x7000, 0, 0, "MEM_STATE", .u8, (some 0), none, [0], false, false, false, .any⟩,
  ⟨0x7001, 0x7001, 1, 24, "MEM_STACK_STATUS", .u32, (some 0), (some 2), [0], true, false, false, .any⟩,
  ⟨0x7002, 0x7002, 1, 24, "MEM_STACK_TEMP", .f32, (some 0), none, [0], true, false, false, .any⟩,
  ⟨0x7003, 0x7003, 0, 0, "MEM_UNAVAIL_COUNT", .u8, (some 0), none, [0], false, false, false, .any⟩,
  ⟨0x7010, 0x7010, 1, 1, "MEM_RESTRIPE_ENABLE", .u8, (some 0), (some 1), [1], false, false, false, .nat 0 1⟩,
  ⟨0x7010, 0x7010, 2, 2, "MEM_RESTRIPE_MODE", .u8, (some 0), (some 2), [0], false, false, false, .nat 0 2⟩,
  ⟨0x7010, 0x7010, 3, 3, "MEM_RESTRIPE_AT_BOOT", .u8, (some 0), (some 2), [1], false, false, true, .nat 0 1⟩,
  ⟨0x7010, 0x7010, 4, 4, "MEM_RESTRIPE_WATERMARK", .u64, (some 0), none, [0], false, false, false, .any⟩,
  ⟨0x7010, 0x7010, 5, 5, "MEM_RESTRIPE_STATUS", .u8, (some 0), none, [0], false, false, false, .any⟩,
  ⟨0x7010, 0x7010, 6, 6, "MEM_RESTRIPE_START", .u8, none, (some 1), [0], true, false, false, .nat 1 1⟩,
  ⟨0x7010, 0x7010, 15, 15, "DISABLE_STATE", .u8, (some 0), none, [0], false, false, false, .any⟩,
  ⟨0x7020, 0x7020, 1, 1, "MEM_SCRUB_ENABLE", .u8, (some 0), (some 1), [1], false, false, false, .nat 0 1⟩,
  ⟨0x7020, 0x7020, 2, 2, "MEM_SCRUB_MODE", .u8, (some 0), (some 2), [0], false, false, false, .nat 0 2⟩,
  ⟨0x7020, 0x7020, 3, 3, "MEM_SCRUB_PERIOD", .u32, (some 0), (some 2), [86400], false, false, true, .nat 3600 2592000⟩,
  ⟨0x7020, 0x7020, 4, 4, "MEM_SCRUB_SHARE", .u8, (some 0), (some 2), [1], false, false, true, .nat 1 20⟩,
  ⟨0x7020, 0x7020, 5, 5, "MEM_SCRUB_RANGE", .domain, (some 0), (some 2), [0], true, false, true, .any⟩,
  ⟨0x7020, 0x7020, 15, 15, "DISABLE_STATE", .u8, (some 0), none, [0], false, false, false, .any⟩,
  ⟨0x7030, 0x7030, 1, 1, "MEM_RETRAIN_ENABLE", .u8, (some 0), (some 1), [1], false, false, false, .nat 0 1⟩,
  ⟨0x7030, 0x7030, 2, 2, "MEM_RETRAIN_MODE", .u8, (some 0), (some 2), [0], false, false, false, .nat 0 2⟩,
  ⟨0x7030, 0x7030, 3, 3, "MEM_RETRAIN_INTERVAL", .u32, (some 0), (some 2), [14400], false, false, true, .nat 600 604800⟩,
  ⟨0x7030, 0x7030, 15, 15, "DISABLE_STATE", .u8, (some 0), none, [0], false, false, false, .any⟩,
  ⟨0x7040, 0x7040, 1, 1, "MEM_T_REFRESH2X", .f32, (some 0), none, [1118437376], false, true, true, .any⟩]

/-- Rows of the dictionary, in order of index; part 7. -/
def objRows7 : List ObjRow := [
  ⟨0x7040, 0x7040, 2, 2, "MEM_T_BYPASS", .f32, (some 0), (some 2), [1119354880], false, false, true, .fp 1118437376 1119354880⟩,
  ⟨0x7040, 0x7040, 3, 3, "MEM_T_OFFLINE", .f32, (some 0), (some 3), [1120403456], false, false, true, .fp 1119748096 1120403456⟩,
  ⟨0x7040, 0x7040, 4, 4, "MEM_WR_THROTTLE", .u8, (some 0), (some 2), [50], false, false, true, .nat 25 75⟩,
  ⟨0x7040, 0x7040, 5, 5, "MEM_FAIL_THRESHOLD", .u32, (some 0), (some 2), [64], false, false, true, .any⟩,
  ⟨0x7050, 0x7050, 0, 0, "MEM_REBUILD_SHARE", .u8, (some 0), (some 2), [25], false, false, true, .nat 10 100⟩,
  ⟨0x8010, 0x8010, 1, 1, "MGMT_KEY_SVC", .domain, none, (some 3), [0], true, false, true, .any⟩,
  ⟨0x8010, 0x8010, 2, 2, "MGMT_KEY_FAC", .domain, none, (some 3), [0], true, false, true, .any⟩,
  ⟨0x8020, 0x8020, 0, 0, "MEM_ROW_REPAIR", .domain, none, (some 3), [0], true, false, true, .any⟩,
  ⟨0x8030, 0x8030, 0, 0, "MGMT_FUSES", .domain, (some 2), none, [0], true, false, true, .any⟩]

/-- The rows of the dictionary, in order of index and subindex. -/
def objRows : List ObjRow := objRows0 ++ objRows1 ++ objRows2 ++ objRows3 ++ objRows4 ++ objRows5 ++ objRows6 ++ objRows7

/-- Whether a row holds an object. -/
def ObjRow.holds (r : ObjRow) (idx sub : Nat) : Bool := r.lo ≤ idx && idx ≤ r.hi && r.sLo ≤ sub && sub ≤ r.sHi

/-- The row of an object. -/
def objRow (idx sub : Nat) : Option ObjRow := objRows.find? (fun r => r.holds idx sub)

/-- The default of an object; 0 where the table gives none. -/
def objDefault (key : Nat) : Nat :=
  match objRow (key / 256) (key % 256) with
  | some r => (r.dflt[key % 256 - r.sLo]?).getD (r.dflt.headD 0)
  | none => 0

/-- The stored value of an object: what was written, or its default (R329). -/
def State.obj (s : State) (idx sub : Nat) : Nat := Tab.get (objDefault (idx * 256 + sub)) s.um.vals (idx * 256 + sub)

/-- The state with a value stored in an object. -/
def State.setObj (s : State) (idx sub v : Nat) : State := { s with um.vals := Tab.put s.um.vals (idx * 256 + sub) v }

end Sys2Proof.Machine
end

