-- ==== Sys2Proof/WellFormed.lean ====
section
/-! DEFINITION. Which commands are well formed: every unit that a command names is one the module has (Table 1.1, R13,
R17, R150, R196). -/

namespace Sys2Proof

/-- A logical core (R13). -/
def coreOk (L : Nat) : Bool := decide (L < 320)
/-- A context (R17). -/
def ctxOk (c : Nat) : Bool := decide (c < 16)
/-- A stack (Table 1.1). -/
def stackOk (n : Nat) : Bool := decide (n < 24)
/-- A fabric port (R10). -/
def portOk (p : Nat) : Bool := decide (p < 76)
/-- A port, or 76 for the module itself, whose packets to its own device identifier do not leave it (log 20). -/
def portInOk (p : Nat) : Bool := decide (p ≤ 76)
/-- An I/O die (Table 1.1). -/
def iodOk (k : Nat) : Bool := decide (k < 4)
/-- A compute die (Table 1.1). -/
def cdOk (d : Nat) : Bool := decide (d < 8)
/-- A die: CD0-CD7 as 0-7, IOD0-IOD3 as 8-11 (R284). -/
def dieOk (d : Nat) : Bool := decide (d < 12)
/-- A command ring (R151). -/
def ringOk (n : Nat) : Bool := decide (n < 4)
/-- A partition (R66). -/
def partOk (p : Nat) : Bool := decide (p < 4)
/-- An event destination, 1 to 4 (R358). -/
def destOk (d : Nat) : Bool := decide (1 ≤ d ∧ d ≤ 4)

/-- A command's key names a context and a queue of it (Table 7.7). -/
def CmdKey.wf (k : CmdKey) : Bool := ctxOk k.c && (ringOk k.q || k.q == 15)

/-- A path names a context where it is a service mailbox. -/
def UmPath.wf : UmPath → Bool
  | .svc c => ctxOk c
  | _ => true

/-- An agent names a function. -/
def Agent.wf : Agent → Bool
  | .host fn => ctxOk fn
  | .firmware => true

/-- Whether a command names only units that the module has. -/
def Instr.wf : Instr → Bool
  | .coldReset _ => true
  | .warmReset => true
  | .contextReset c => ctxOk c
  | .flr fn => ctxOk fn
  | .vaux3p3Rise => true
  | .vaux3p3Loss => true
  | .vin48Rise => true
  | .vin48Loss => true
  | .modResetN _ _ _ _ _ => true
  | .perstN _ _ => true
  | .wakeN _ => true
  | .pcieLinkTraining => true
  | .secureBoot => true
  | .bringUpStepEnd _ _ => true
  | .refclkRetry _ => true
  | .mcClockSwitch => true
  | .pllLockLoss die => dieOk die
  | .dieLinkFailure cd iod => cdOk cd && iodOk iod
  | .registerWrite ag _ _ _ => ag.wf
  | .memPtInvalGo ag _ => ag.wf
  | .ptInvalDone => true
  | .bar2Access fn _ _ _ => ctxOk fn
  | .bar2Resize _ _ => true
  | .rbdRankMap rq _ => rq.path.wf
  | .rankMapInstall _ => true
  | .rankMapAck _ => true
  | .rankMapAckTimeout => true
  | .rankMapRequest port _ => portOk port
  | .taskStart core => coreOk core
  | .taskTimeout core => coreOk core
  | .taskDrainExpiry core => coreOk core
  | .unitInstructionComplete core _ => coreOk core
  | .ctlNop core _ => coreOk core
  | .ctlEnd core _ => coreOk core
  | .ctlJmp core _ => coreOk core
  | .ctlLoop core _ => coreOk core
  | .ctlSetl core _ => coreOk core
  | .ctlSeta core _ => coreOk core
  | .ctlAdda core _ => coreOk core
  | .ctlAddr core _ => coreOk core
  | .ctlCmp core _ => coreOk core
  | .ctlLda core _ => coreOk core
  | .ctlSta core _ => coreOk core
  | .ctlFence core _ => coreOk core
  | .ctlSeed core _ => coreOk core
  | .ctlMovl core _ => coreOk core
  | .ctlEnq core _ => coreOk core
  | .enqQueueAccept core => coreOk core
  | .movCopy core _ => coreOk core
  | .movFill core _ => coreOk core
  | .movPut core _ => coreOk core
  | .movGet core _ => coreOk core
  | .mxuMode core _ => coreOk core
  | .mxuLdb core _ => coreOk core
  | .mxuPass core _ => coreOk core
  | .mxuSpcfg core _ => coreOk core
  | .mxuSpill core _ => coreOk core
  | .autoSpill core part => coreOk core && partOk part
  | .mxuResume core _ => coreOk core
  | .mxuOut core _ => coreOk core
  | .partitionFault core part _ => coreOk core && partOk part
  | .coreRebind core => coreOk core
  | .vecSetvl core _ => coreOk core
  | .vecLd core _ => coreOk core
  | .vecSt core _ => coreOk core
  | .vecLdr core _ => coreOk core
  | .vecBcast core _ => coreOk core
  | .vecIota core _ => coreOk core
  | .vecAdd core _ => coreOk core
  | .vecSub core _ => coreOk core
  | .vecMul core _ => coreOk core
  | .vecFma core _ => coreOk core
  | .vecMax core _ => coreOk core
  | .vecMin core _ => coreOk core
  | .vecAbs core _ => coreOk core
  | .vecNeg core _ => coreOk core
  | .vecAnd core _ => coreOk core
  | .vecOr core _ => coreOk core
  | .vecXor core _ => coreOk core
  | .vecShl core _ => coreOk core
  | .vecShr core _ => coreOk core
  | .vecSra core _ => coreOk core
  | .vecSel core _ => coreOk core
  | .vecCmp core _ => coreOk core
  | .vecMand core _ => coreOk core
  | .vecMor core _ => coreOk core
  | .vecMxor core _ => coreOk core
  | .vecMnot core _ => coreOk core
  | .vecMpop core _ => coreOk core
  | .vecMfirst core _ => coreOk core
  | .vecExp2 core _ => coreOk core
  | .vecLog2 core _ => coreOk core
  | .vecRsqrt core _ => coreOk core
  | .vecRecip core _ => coreOk core
  | .vecTanh core _ => coreOk core
  | .vecDiv core _ => coreOk core
  | .vecSqrt core _ => coreOk core
  | .vecPerm core _ => coreOk core
  | .vecPerm2 core _ => coreOk core
  | .vecShuf core _ => coreOk core
  | .vecPack core _ => coreOk core
  | .vecUnpack core _ => coreOk core
  | .vecCompress core _ => coreOk core
  | .vecExpand core _ => coreOk core
  | .vecCst core _ => coreOk core
  | .vecXld core _ => coreOk core
  | .vecCvt core _ => coreOk core
  | .redSum core _ => coreOk core
  | .redMax core _ => coreOk core
  | .redMin core _ => coreOk core
  | .redArgmax core _ => coreOk core
  | .redSqnorm core _ => coreOk core
  | .redTopk core _ => coreOk core
  | .synHoist core _ => coreOk core
  | .synStrike core _ => coreOk core
  | .synWatch core _ => coreOk core
  | .synTest core _ => coreOk core
  | .hoistOutcome _ => true
  | .perWaitTimeout core => coreOk core
  | .mrkRibbon core _ => coreOk core
  | .mrkCsel core _ => coreOk core
  | .mrkCread core _ => coreOk core
  | .mrkTime core _ => coreOk core
  | .memRead _ _ _ _ => true
  | .memRequestTimeout _ _ _ stack => stackOk stack
  | .memWrite _ _ _ _ => true
  | .gatherWindowExpiry _ => true
  | .stripeWriteAck _ _ => true
  | .stackTempReading stack _ => stackOk stack
  | .catchUpStripe stack => stackOk stack
  | .restripeStart => true
  | .memRestripeStart rq _ => rq.path.wf
  | .restripeStep => true
  | .scrubStripe _ => true
  | .stackRetrain stack => stackOk stack
  | .retrainEnd stack _ => stackOk stack
  | .doorbell c ring _ => ctxOk c && ringOk ring
  | .cplDoorbell c ring _ => ctxOk c && ringOk ring
  | .ringFetch c ring _ => ctxOk c && ringOk ring
  | .ringEnable c ring _ => ctxOk c && ringOk ring
  | .ringDisable c ring _ => ctxOk c && ringOk ring
  | .ringDrainExpiry c ring => ctxOk c && ringOk ring
  | .cfeCtxCfg c _ => ctxOk c
  | .commandStart iod => iodOk iod
  | .nop k => k.wf
  | .launch k _ => k.wf
  | .folioOpen k => k.wf
  | .folioPatch k _ => k.wf
  | .folioPatchBegin k _ => k.wf
  | .folioClose k => k.wf
  | .copy k _ => k.wf
  | .hoist k => k.wf
  | .wait k => k.wf
  | .collective k => k.wf
  | .commandComplete k _ => k.wf
  | .commandTimeout k => k.wf
  | .commandDrainExpiry k => k.wf
  | .fetchIdleEntry iod _ => iodOk iod
  | .fetchWake iod => iodOk iod
  | .fetchGateReopen iod => iodOk iod
  | .pennantOperation _ => true
  | .penAlloc path => path.wf
  | .penRelease path => path.wf
  | .pennantQuarantineEnd _ => true
  | .quiescentBlocked c => ctxOk c
  | .stallCensus c _ _ => ctxOk c
  | .portTraining port _ => portOk port
  | .flitReceive port _ _ => portOk port
  | .retryRequest port _ => portOk port
  | .linkRetryTimeout port => portOk port
  | .laneSpare port _ => portOk port
  | .portQuietEntry port => portOk port
  | .portQuietWake port => portOk port
  | .packetForward port _ => portInOk port
  | .packetResidenceTimeout port _ => portOk port
  | .portState _ _ _ => true
  | .put port _ => portInOk port
  | .get port _ => portInOk port
  | .hoistPacket port _ => portInOk port
  | .relHoistRelease port => portInOk port
  | .atomic port _ => portInOk port
  | .ack port _ => portInOk port
  | .data port _ => portInOk port
  | .e2eTimeout _ => true
  | .reduceScatter k _ => ctxOk k.c
  | .allGather k _ => ctxOk k.c
  | .allReduce k _ => ctxOk k.c
  | .allToAll k _ => ctxOk k.c
  | .allToAllv k _ => ctxOk k.c
  | .broadcast k _ => ctxOk k.c
  | .accumulate k => ctxOk k.c
  | .dispatch k => ctxOk k.c
  | .combine k _ => ctxOk k.c
  | .reshard k => ctxOk k.c
  | .fenceNotice k _ => ctxOk k.c
  | .coll port _ => portInOk port
  | .chunkAck t _ => portInOk t.port && ctxOk t.c
  | .chunkResend k _ => ctxOk k.c
  | .chunkTimeout k _ => ctxOk k.c
  | .progressSend k => ctxOk k.c
  | .progressPacket t _ _ => portInOk t.port && ctxOk t.c
  | .abort t _ _ => portInOk t.port && ctxOk t.c
  | .claimCount t _ _ => portInOk t.port && ctxOk t.c
  | .grant t _ _ => portInOk t.port && ctxOk t.c
  | .gnExchange t _ => portInOk t.port && ctxOk t.c
  | .updateChunk k _ => ctxOk k.c
  | .updateHoldRelease k => ctxOk k.c
  | .phase1Done k => ctxOk k.c
  | .normExchange k _ _ => ctxOk k.c
  | .phase2Start k => ctxOk k.c
  | .updateComplete k => ctxOk k.c
  | .parityDelta port _ => portInOk port
  | .parityFlush iod _ _ => iodOk iod
  | .shardHeaderRelease k => ctxOk k.c
  | .preconditionerFallback c _ => ctxOk c
  | .mgmtWatchdogExpiry => true
  | .functionDisable rq _ => rq.path.wf
  | .functionEnable rq _ => rq.path.wf
  | .disableDrainExpiry _ => true
  | .functionMode rq _ _ => rq.path.wf
  | .rbdSafeHoldEnter rq _ => rq.path.wf
  | .rbdSafeHoldExit rq _ => rq.path.wf
  | .rbdWarmReset rq _ => rq.path.wf
  | .rbdColdReset rq _ _ => rq.path.wf
  | .rbdContextReset rq _ => rq.path.wf
  | .rbdRole rq _ => rq.path.wf
  | .rbdHalt rq _ => rq.path.wf
  | .emergencyHalt _ => true
  | .rbdEpochStop rq _ => rq.path.wf
  | .rbdResume rq _ => rq.path.wf
  | .rbdCutCtl c _ => ctxOk c
  | .cutCopyComplete c => ctxOk c
  | .stepMarker c _ _ _ => ctxOk c
  | .stepMarkerAck c _ => ctxOk c
  | .cutGlobalSeal c _ _ => ctxOk c
  | .plannedRankMove _ _ => true
  | .heartbeatSend => true
  | .heartbeat _ => true
  | .heartbeatTimeout _ => true
  | .suspicion _ _ => true
  | .probeTimeout _ => true
  | .recoveryHaltRebind c _ _ _ => ctxOk c
  | .recoveryStateRebuild c _ => ctxOk c
  | .recoveryResume c => ctxOk c
  | .rbdRecoveryConfirm rq _ => rq.path.wf
  | .transientLoss c _ => ctxOk c
  | .coreGateEntry core _ => coreOk core
  | .coreWake core => coreOk core
  | .engineGateEntry iod => iodOk iod
  | .engineWake iod => iodOk iod
  | .stackSelfRefreshEntry stack => stackOk stack
  | .stackWake stack => stackOk stack
  | .standbyEntry => true
  | .pwrStandbyRequest rq _ => rq.path.wf
  | .pwrWakeRequest rq _ => rq.path.wf
  | .standbyWake _ => true
  | .clkCoreDiv rq _ => rq.path.wf
  | .powerSample _ => true
  | .limiterStep => true
  | .limiterRestoreStep => true
  | .dieTempReading die _ => dieOk die
  | .dieThrottleStep die => dieOk die
  | .read path => path.wf
  | .write path => path.wf
  | .readSeg path => path.wf
  | .writeSeg path => path.wf
  | .segmentTimeout _ => true
  | .describe path => path.wf
  | .next path => path.wf
  | .sessionOpen path => path.wf
  | .sessionAuth path => path.wf
  | .sessionClose path => path.wf
  | .sessionIdleTimeout _ => true
  | .authBlockExpiry path => path.wf
  | .event dest => destOk dest
  | .map path => path.wf
  | .unmap path => path.wf
  | .coreSet path => path.wf
  | .mgmtMboxGo _ => true
  | .mgmtSvcGo c _ => ctxOk c
  | .t1sFrame _ _ => true
  | .forward path => path.wf
  | .forwardTimeout _ => true
  | .mgmtConfigStore rq _ => rq.path.wf
  | .mgmtConfigClear rq _ => rq.path.wf
  | .mgmtFwActivate rq _ => rq.path.wf
  | .mgmtFwCommit rq _ => rq.path.wf
  | .wearManagement _ _ => true
  | .hangDumpTrigger _ => true
  | .hangDumpComplete => true
  | .obsDumpRequest rq _ => rq.path.wf
  | .obsDumpRelease rq _ => rq.path.wf
  | .obsTsMeasure rq _ => rq.path.wf
  | .tsExchange port _ _ _ _ => portOk port
  | .controlCheckFailure _ _ => true
  | .heldParityRebuild c _ => ctxOk c
  | .forwardResponse _ _ => true
  | .sriovNumvfs n => ctxOk n
  | .undefinedInstruction core _ => coreOk core

end Sys2Proof
end

