-- ==== Sys2Proof/Machine/Ops.lean ====
section
/-! DEFINITION. The shared operations on State: access to its parts, status codes and their order (R8, R9), counters,
events (R358), free values (log 7) and entry into safe hold (R283, R284). -/

namespace Sys2Proof.Machine
open Sys2Proof

/-! ## Access to the parts of State -/

def State.core (s : State) (L : Nat) : CoreState := (Tab.find s.cores L).getD (CoreState.init L)
def State.setCore (s : State) (L : Nat) (cs : CoreState) : State := { s with cores := Tab.put s.cores L cs }
def State.modCore (s : State) (L : Nat) (g : CoreState → CoreState) : State := s.setCore L (g (s.core L))

def State.ctx (s : State) (c : Nat) : CtxState := (Tab.find s.ctxs c).getD (CtxState.init c)
def State.setCtx (s : State) (c : Nat) (x : CtxState) : State := { s with ctxs := Tab.put s.ctxs c x }
def State.modCtx (s : State) (c : Nat) (g : CtxState → CtxState) : State := s.setCtx c (g (s.ctx c))

def CtxState.ring (x : CtxState) (n : Nat) : Ring := Tab.get Ring.reset x.rings n
def CtxState.setRing (x : CtxState) (n : Nat) (r : Ring) : CtxState := { x with rings := Tab.put x.rings n r }
def State.ring (s : State) (c n : Nat) : Ring := (s.ctx c).ring n
def State.modRing (s : State) (c n : Nat) (g : Ring → Ring) : State :=
  s.modCtx c (fun x => x.setRing n (g (x.ring n)))

def State.stk (s : State) (n : Nat) : Stack := Tab.get Stack.reset s.mem.stack n
def State.setStk (s : State) (n : Nat) (x : Stack) : State := { s with mem.stack := Tab.put s.mem.stack n x }
def State.modStk (s : State) (n : Nat) (g : Stack → Stack) : State := s.setStk n (g (s.stk n))

def State.port (s : State) (p : Nat) : Port := Tab.get Port.reset s.fab.ports p
def State.setPort (s : State) (p : Nat) (x : Port) : State := { s with fab.ports := Tab.put s.fab.ports p x }
def State.modPort (s : State) (p : Nat) (g : Port → Port) : State := s.setPort p (g (s.port p))

def State.fe (s : State) (k : Nat) : FrontEnd := Tab.get FrontEnd.reset s.fes k
def State.modFe (s : State) (k : Nat) (g : FrontEnd → FrontEnd) : State :=
  { s with fes := Tab.put s.fes k (g (s.fe k)) }

def State.slot (s : State) (key : Nat) : Slot := Tab.get Slot.reset s.pen.slots key
def State.setSlot (s : State) (key : Nat) (x : Slot) : State := { s with pen.slots := Tab.put s.pen.slots key x }

/-- Something leaves the module. -/
def State.emit (s : State) (o : Out) : State := { s with out := s.out ++ [o] }

/-! ## Units that a command names -/

/-- Run g when the module has logical core L (R13). -/
def onCore (L : Nat) (s : State) (g : State → State) : Host.Outcome State Fault Refusal :=
  if coreOk L then .next (g s) else .fault (.noSuchCore L)

/-- Run g when the module has context c (R17). -/
def onCtx (c : Nat) (s : State) (g : State → State) : Host.Outcome State Fault Refusal :=
  if ctxOk c then .next (g s) else .fault (.noSuchContext c)

/-- Run g when the module has context c and ring n (R151). -/
def onRing (c n : Nat) (s : State) (g : State → State) : Host.Outcome State Fault Refusal :=
  if ctxOk c then (if ringOk n then .next (g s) else .fault (.noSuchRing n)) else .fault (.noSuchContext c)

/-- Run g when k names a queue of the module (Table 7.7). -/
def onKey (k : CmdKey) (s : State) (g : State → State) : Host.Outcome State Fault Refusal :=
  if ctxOk k.c then (if ringOk k.q || k.q == 15 then .next (g s) else .fault (.noSuchRing k.q))
  else .fault (.noSuchContext k.c)

/-- Run g when the module has stack n (Table 1.1). -/
def onStack (n : Nat) (s : State) (g : State → State) : Host.Outcome State Fault Refusal :=
  if stackOk n then .next (g s) else .fault (.noSuchStack n)

/-- Run g when the module has port p (R10). -/
def onPort (p : Nat) (s : State) (g : State → State) : Host.Outcome State Fault Refusal :=
  if portOk p then .next (g s) else .fault (.noSuchPort p)

/-- Run g when p is a port of the module, or 76 for the module itself as the sender of a packet to its own device identifier
(R10, R216; log 20). -/
def onPortIn (p : Nat) (s : State) (g : State → State) : Host.Outcome State Fault Refusal :=
  if portInOk p then .next (g s) else .fault (.noSuchPort p)

/-- Run g when a collective packet names a port and a context of the module. -/
def onTag (t : CollTag) (s : State) (g : State → State) : Host.Outcome State Fault Refusal :=
  if portInOk t.port then onCtx t.c s g else .fault (.noSuchPort t.port)

/-- The I/O die of a port (R196); packets of the module to itself are taken by IOD0 (DESIGN CHOICE, log 20). -/
def portDie (p : Nat) : Nat := p / 19 % 4

/-- Run g when the module has I/O die k (Table 1.1). -/
def onIod (k : Nat) (s : State) (g : State → State) : Host.Outcome State Fault Refusal :=
  if iodOk k then .next (g s) else .fault (.noSuchDie k)

/-- Run g when the module has compute die d (Table 1.1). -/
def onCd (d : Nat) (s : State) (g : State → State) : Host.Outcome State Fault Refusal :=
  if cdOk d then .next (g s) else .fault (.noSuchDie d)

/-- Run g when the module has die d (R284). -/
def onDie (d : Nat) (s : State) (g : State → State) : Host.Outcome State Fault Refusal :=
  if dieOk d then .next (g s) else .fault (.noSuchDie d)

/-- Run g when the path's context, if it names one, is the module's. -/
def onPath (p : UmPath) (s : State) (g : State → State) : Host.Outcome State Fault Refusal :=
  match p with
  | .svc c => onCtx c s g
  | _ => .next (g s)

/-! ## Status codes -/

/-- A completion status code (R8). -/
abbrev Status := BitVec 16

namespace St
def ok : Status := 0x0000
def okCorr : Status := 0x0001
def drained : Status := 0x0101
def killed : Status := 0x0102
def cancelled : Status := 0x0103
def poison : Status := 0x0201
def uncorrectable : Status := 0x0202
def penOverrun : Status := 0x0301
def penStale : Status := 0x0302
def penCount : Status := 0x0303
def staleShard : Status := 0x0401
def epochMismatch : Status := 0x0402
def partFault : Status := 0x0501
def rebound : Status := 0x0502
def folioBusy : Status := 0x0601
def endpaper : Status := 0x0602
def peerLost : Status := 0x0701
def noRoute : Status := 0x0702
def invalid : Status := 0x0801
def privilege : Status := 0x0802
def address : Status := 0x0803
def enqDepth : Status := 0x0901
end St

/-- The class of a code: its high byte (R8). -/
def statusClass (st : Status) : Nat := st.toNat / 256

/-- The place of a code in the order of R9, lower first. -/
def statusRank (st : Status) : Nat :=
  if statusClass st = 8 then 0
  else if st = St.cancelled then 1
  else if statusClass st = 1 then 2
  else if statusClass st = 7 then 3
  else if statusClass st = 2 then 4
  else if statusClass st = 5 then 6
  else if st = St.okCorr then 7
  else if st = St.ok then 8
  else 5

/-- The condition that comes first under R9 among `best` and the list; within a place, the one detected first. -/
def firstCond {α : Type} (f : α → Status) (best : α) : List α → α
  | [] => best
  | x :: xs => firstCond f (if statusRank (f x) < statusRank (f best) then x else best) xs

/-- The status of conditions in order of detection (R9); 0x0000 for none. -/
def combine (cs : List Status) : Status := firstCond id St.ok cs

/-- A condition joins those that are noted, once. -/
def addCond (l : List Status) (st : Status) : List Status := if l.contains st then l else l ++ [st]

/-- A condition that ends a core's task, or is met while it ends (R9, R54). -/
def CoreState.condition (cs : CoreState) (st : Status) : CoreState :=
  { cs with conds := cs.conds ++ [st], firmConds := cs.firmConds ++ [st] }

/-! ## Counters -/

/-- Add to a 64-bit counter of a table (R347). -/
def addCtr (t : Tab (BitVec 64)) (i n : Nat) : Tab (BitVec 64) := Tab.put t i (Tab.get 0 t i + BitVec.ofNat 64 n)

/-- Add to always-on counter i of core L (Table 15.1). -/
def State.coreCtr (s : State) (L i n : Nat) : State := s.modCore L (fun cs => { cs with ctr := addCtr cs.ctr i n })

/-- Core event ev occurs n times on a core (Table 15.2): every counter that selects it counts (R348). -/
def CoreState.event (cs : CoreState) (ev n : Nat) : CoreState :=
  { cs with evCtr := (List.range 8).foldl (fun t i =>
      if (Tab.get 0 cs.evSel i).toNat = ev then Tab.put t i (Tab.get 0 t i + BitVec.ofNat 48 n) else t) cs.evCtr }

/-- Die event ev occurs n times on die d, on behalf of a context if one is named: D0-D15 of the die count it, and the
context's private copies of D0-D3 (R348). -/
def State.dieEvent (s : State) (d ev n : Nat) (c : Option Nat) : State :=
  { s with
    obs.dieCtr := (List.range 16).foldl (fun t i =>
      if (Tab.get 0 s.obs.dieSel (d * 16 + i)).toNat = ev
      then Tab.put t (d * 16 + i) (Tab.get 0 t (d * 16 + i) + BitVec.ofNat 48 n) else t) s.obs.dieCtr
    obs.priv := match c with
      | none => s.obs.priv
      | some c => (List.range 4).foldl (fun t i =>
          let k := (c * 12 + d) * 4 + i
          if (Tab.get 0 s.obs.dieSel (d * 16 + i)).toNat = ev
          then Tab.put t k (Tab.get 0 t k + BitVec.ofNat 48 n) else t) s.obs.priv }

/-- What has been done since `was` was done for a context: its private copies gain what D0-D3 of the dies have gained (R348). -/
def State.forCtx (s : State) (c : Option Nat) (was : State) : State :=
  match c with
  | none => s
  | some c =>
    if s.obs.dieCtr = was.obs.dieCtr then s
    else { s with obs.priv := (List.range 48).foldl (fun t j =>
      let i := j / 4 * 16 + j % 4
      let k := c * 48 + j
      if Tab.get 0 s.obs.dieCtr i = Tab.get 0 was.obs.dieCtr i then t
      else Tab.put t k (Tab.get 0 t k + (Tab.get 0 s.obs.dieCtr i - Tab.get 0 was.obs.dieCtr i))) s.obs.priv }

/-- The context that a source works for: that of a core's task, or the one that a unit of an I/O die acts for (R348; log 24). -/
def State.srcCtx (s : State) (src : Nat) : Option Nat :=
  if src < 320 then (s.core src).task.map (·.key.c)
  else if src < 332 then (Config.unitCtx src s.sys.ts.toNat).map (·.val)
  else none

/-- Add to always-on counter i of stack n (Table 15.1). -/
def State.stkCtr (s : State) (n i k : Nat) : State := s.modStk n (fun x => { x with ctr := addCtr x.ctr i k })

/-- Add to always-on counter i of port p (Table 15.1). -/
def State.portCtr (s : State) (p i k : Nat) : State := s.modPort p (fun x => { x with ctr := addCtr x.ctr i k })

/-- Add to always-on counter i of die d (Table 15.1). -/
def State.dieCtrAdd (s : State) (d i k : Nat) : State :=
  { s with obs.dieAlways := addCtr s.obs.dieAlways (d * 8 + i) k }

/-! ## Free values (log 7) -/

/-- A fresh free number. -/
def State.free (s : State) : Nat × State := (Config.freeNat s.freeCtr, { s with freeCtr := s.freeCtr + 1 })

/-- n fresh free bytes (log 14). -/
def State.freeBytes (s : State) (n : Nat) : List Byte × State :=
  ((List.range n).map (Config.freeByte s.freeCtr), { s with freeCtr := s.freeCtr + 1 })

/-! ## Management events -/

/-- The event is queued at each destination that is set; a full queue drops its oldest event, with a count (R358). -/
def State.event (s : State) (code detail : Nat) : State :=
  let e : UmEvent := ⟨code, s.sys.ts, BitVec.ofNat 64 detail⟩
  (List.range 4).foldl (fun s i =>
    let d := i + 1
    if (s.obj 0x1012 d) % 4 = 0 then s
    else
      let q := Tab.get [] s.um.events d
      if q.length < 64 then { s with um.events := Tab.put s.um.events d (q ++ [e]) }
      else { s with
        um.events := Tab.put s.um.events d (q.drop 1 ++ [e])
        um.eventDrops := Tab.put s.um.eventDrops d (Tab.get 0 s.um.eventDrops d + 1) }) s

/-- An event whose detail the spec does not lay out (R358; log 17). -/
def State.event2 (s : State) (code a b : Nat) : State := s.event code (Config.eventDetail code a b)

/-- A rebinding is logged, the last 256 of them, and its event raised (R276): kind 0 core, 1 stripe position, 2 lane,
3 die link, 4 rank. -/
def State.logRebind (s : State) (kind logical physical : Nat) : State :=
  let l := s.rbd.log ++ [(s.sys.ts, kind, logical, physical)]
  let s := { s with rbd.log := l.drop (l.length - 256) }
  s.event 0x0201 ((s.rbd.log.length - 1) % 256)

/-! ## Checks on data -/

/-- One bit of the CRC-32 register of IEEE 802.3, reflected. -/
def crcBit (c : BitVec 32) : BitVec 32 := if c.getLsbD 0 then (c >>> 1) ^^^ 0xEDB88320#32 else c >>> 1

/-- One byte into the CRC register. -/
def crcByte (c : BitVec 32) (b : Byte) : BitVec 32 :=
  (List.range 8).foldl (fun c _ => crcBit c) (c ^^^ b.setWidth 32)

/-- CRC-32 (IEEE 802.3) of a byte string (R158, R199, R288). -/
def crc32 (bs : List Byte) : BitVec 32 := ~~~ (bs.foldl crcByte 0xFFFFFFFF#32)

/-- A flit (Table 9.3): `sop` is 1 where slot 0 begins a packet header, `cr` the credits that its two CR fields return. -/
def flitBytes (ftype vc fseq ack sop : Nat) (cr : List (Nat × Nat)) (slots : List Byte) : List Byte :=
  let crw := fun (i : Nat) => match cr[i]? with
    | some c => natLe 2 (c.1 + 16 * c.2)
    | none => natLe 2 0
  let b := natLe 1 (ftype + 16 * vc) ++ [0] ++ natLe 2 fseq ++ natLe 2 ack ++ crw 0 ++ crw 1 ++ natLe 2 sop
    ++ slots ++ List.replicate (240 - slots.length) 0
  b ++ natLe 4 (crc32 b).toNat

/-! ## Safe hold -/

/-- The compute dies' timestamp as standby is left, which realigns it (R16, R315). -/
def State.tsAligned (s : State) : BitVec 64 := if s.pwr.state = 2 ∨ s.pwr.state = 3 then s.sys.ts else s.sys.tsCd

/-- The ports that send flits: trained, and not dark. -/
def State.livePorts (s : State) : List Nat :=
  (s.fab.ports.filter (fun e => e.2.st == 2 || e.2.st == 3 || e.2.st == 4 || e.2.st == 5)).map (·.1)

/-- A port sends a fenced-idle flit, numbered and kept as every flit is (R199, R202). -/
def Port.fence (x : Port) : Port :=
  { x with
    txSeq := x.txSeq + 1
    retry := x.retry ++ [(x.txSeq, flitBytes 2 0 x.txSeq.toNat (x.rxSeq - 1).toNat 0 [] [])] }

/-- Entry into safe hold (R283, R284, Table 12.4): the cause and time of the first trigger, every port sends fenced-idle flits (R202), cores
and engines stopped, ALERT_N asserted, every stack in self-refresh; commands in flight are abandoned without records.
During bring-up MGMT_READY reads 5 (R375). -/
def State.enterSafeHold (s : State) (code unit : Nat) : State :=
  if s.rbd.safeHold then s
  else
    let s := { s with
      rbd.safeHold := true
      rbd.cause := BitVec.ofNat 32 (code + unit * 256)
      rbd.time := s.sys.ts
      sys.tsCd := s.tsAligned
      pwr.state := 4
      sys.alertN := false
      sys.ready := if s.sys.ready < 4 ∧ s.sys.ready ≥ 1 then 5 else s.sys.ready
      out := s.out ++ s.livePorts.map (fun p => Out.flit p 2 (s.port p).txSeq.toNat)
      fab.ports := Tab.mapV s.fab.ports (fun p x => if s.livePorts.contains p then x.fence else x)
      ctxs := Tab.mapV s.ctxs (fun _ x => { x with started := [] })
      cores := Tab.mapV s.cores (fun _ cs => { cs with task := none, queue := [], inflight := [], ended := none })
      coll.runs := []
      mem.stack := (List.range 24).foldl (fun t n =>
        Tab.put t n { Tab.get Stack.reset t n with selfRef := true }) s.mem.stack }
    s.event 0x0203 (code + unit * 256)

/-- Whether the module may act for programs: powered, out of reset and recovery boot, not in safe hold (R284, R343). -/
def State.alive (s : State) : Bool :=
  s.sys.vaux && s.sys.modResetN && !s.rbd.safeHold && !s.pwr.thermTrip && !s.sys.recoveryBoot

/-- Whether the boot ROM still checks images, or stays in recovery boot: until MGMT_READY is 1 (R343, R373). -/
def State.inBoot (s : State) : Bool := s.sys.booting || s.sys.recoveryBoot || s.sys.ready == 0

/-- Whether the module accepts work (R374, R377). -/
def State.works (s : State) : Bool := s.alive && s.sys.ready == 4 && s.pwr.state == 0

/-- Whether the compute dies' uncore is on: a signal into it has no effect in standby and while the module wakes (R309, R315). -/
def State.dieOn (s : State) : Bool := s.alive && s.pwr.state != 2 && s.pwr.state != 3

/-! ## Standby -/

/-- A wake event: while standby is being entered it aborts the entry; in standby its source and time are recorded, and the exit begins
(R316, R317); of two in one count the lower code is kept. -/
def State.wakeBy (s : State) (code : Nat) : State :=
  if s.pwr.thermTrip then s
  else if s.pwr.state = 1 then { s with pwr.state := 0 }
  else if s.pwr.state = 2 then { s with pwr.state := 3, pwr.wakeSource := code, pwr.wakeTime := s.sys.ts }
  else if s.pwr.state = 3 ∧ s.pwr.wakeTime = s.sys.ts ∧ code < s.pwr.wakeSource then { s with pwr.wakeSource := code }
  else s

/-- The engine group of I/O die k is wanted: a gated one wakes, and the wake is counted (R310, R325; log 23). -/
def State.wakeEngine (s : State) (k : Nat) : State :=
  if Tab.get .on s.pwr.engines k != .gated then s
  else { s with
    pwr.engines := Tab.del s.pwr.engines k
    pwr.engineWakes := Tab.put s.pwr.engineWakes k (Tab.get 0 s.pwr.engineWakes k + 1) }

/-! ## The hang dump's triggers (R359) -/

/-- A dump trigger of Table 15.7: with its bit set, a dump begins; while the region is in use the trigger is counted as
missed. In safe hold only a request is honoured. -/
def State.dump (s : State) (cause : Nat) : State :=
  if s.obj 0x5E00 1 / 2 ^ cause % 2 = 0 || (s.rbd.safeHold && cause != 5) then s
  else if s.obs.dumpState = 0 then { s with
    obs.dumpState := 1
    obs.dumpCause := cause
    obs.dumpTrigger := s.sys.ts
    obs.dumpOffset := s.obs.tsOffset }
  else { s with obs.dumpMissed := BitVec.ofNat 32 (cause % 256 + 256 * (s.obs.dumpMissed.toNat / 256 + 1)) }

/-! ## Kinds of management messages (R333, Table 14.5) -/

namespace Mg
def portState : Nat := 0
def fenceNotice : Nat := 3
def norm : Nat := 7
def halt : Nat := 8
def heartbeat : Nat := 9
def suspicion : Nat := 10
def probe : Nat := 11
def rankMap : Nat := 12
def rankMapAck : Nat := 13
def rankMapAsk : Nat := 14
def cutMarker : Nat := 15
def cutMarkerAck : Nat := 16
def cutSealed : Nat := 17
def cutGlobal : Nat := 18
def transientLoss : Nat := 19
def tsMeasure : Nat := 20
def umasel : Nat := 21
def cutImage : Nat := 22
def census : Nat := 23
def parStale : Nat := 24
def probeAck : Nat := 25
def slotLost : Nat := 26
def epochStop : Nat := 27
def cutPart : Nat := 28
end Mg

/-! ## Kinds of collective packets: names of the model's own, since the spec numbers only the parity delta (R225; log 16) -/

namespace Ck
def data : Nat := 0
def ack : Nat := 1
def progress : Nat := 2
def abort : Nat := 3
def claims : Nat := 4
def grants : Nat := 5
def gnSums : Nat := 6
end Ck

end Sys2Proof.Machine
end

