-- ==== Sys2Proof/Machine/Clock.lean ====
section
/-! DEFINITION. One count of the timestamp clock (R15, R16; log 1). -/

namespace Sys2Proof.Machine

/-- The core-clock divisor in effect (R318, R320): 6, 8 or 12. -/
def State.coreDiv (s : State) : Nat :=
  let e := if s.pwr.effDiv = 0 then 6 else if s.pwr.effDiv = 1 then 8 else 12
  Nat.max e (s.obj 0x3020 1)

/-- Core cycles in this count: twelve periods of the root clock, with the rest carried over (Table 1.5). -/
def State.coreCycles (s : State) : Nat × Nat :=
  ((s.sys.rootRem + 12) / s.coreDiv, (s.sys.rootRem + 12) % s.coreDiv)

/-- Whether the SYN queue is held at a strike or watch: the first of its instructions that wait is one (Table 15.2). -/
def CoreState.synHeld (cs : CoreState) : Bool :=
  match cs.inflight.find? (fun i => decide (i.unit = .syn) && i.waiting) with
  | some i => i.blocks
  | none => false

/-- n core cycles pass on a core: its always-on cycle counter while a task runs, and the cycle events of Table 15.2. -/
def CoreState.cycles (cs : CoreState) (n : Nat) : CoreState :=
  let cs := if cs.task.isSome then { cs with ctr := addCtr cs.ctr 1 n } else cs
  let cs := if cs.gate = .gated then cs else cs.event 0x01 n
  let cs := if cs.stallScore then cs.event 0x08 n else cs
  let cs := if cs.stallQueue then cs.event 0x09 n else cs
  let cs := if cs.stallFence ∨ cs.stallEnq then cs.event 0x0A n else cs
  if cs.synHeld then cs.event 0x0B n else cs

/-- The duty of die d in sixteenths: the lower of the module's and the die's (R320, R321). -/
def State.dutyOf (s : State) (d : Nat) : Nat := Nat.min s.pwr.duty (Tab.get 16 s.pwr.dieDuty d)

/-- n cycles of die d in the counters of Table 15.1: active, gated (every core of a compute die, the engines of an I/O die; all of them in safe
hold, Table 12.4) and throttled, and the bytes of the module network; in standby those of the compute dies stand still (R315; logs 1, 20). -/
def State.dieCycles (s : State) (d n : Nat) : State :=
  if d < 8 ∧ (s.pwr.state = 2 ∨ s.pwr.state = 3) then s
  else
    let off : Bool := s.rbd.safeHold || (if d < 8 then (List.range 40).all (fun i => (s.core (d * 40 + i)).gate == .gated)
      else Tab.get .on s.pwr.engines (d - 8) == .gated)
    let now := s.sys.ts.toNat
    let s := ((s.dieCtrAdd d (if off then 2 else 1) n).dieCtrAdd d 5 (Config.netBytes 5 d now)).dieCtrAdd d 6 (Config.netBytes 6 d now)
    if s.dutyOf d < 16 then s.dieCtrAdd d 3 n else s

/-- One count of the timestamp clock, which runs once the PLLs of the dies have locked (R16). The compute dies' counters and
cores stand still in standby (R315). -/
def State.count (s : State) : State :=
  let n := s.coreCycles
  let stopped : Bool := s.pwr.state == 2 || s.pwr.state == 3
  if s.sys.pllLock.toNat % 2 ^ 12 = 0 then s
  else
    let s := { s with
      sys.ts := s.sys.ts + 1
      sys.tsCd := if stopped then s.sys.tsCd else s.sys.tsCd + 1
      sys.rootRem := n.2
      cores := if stopped || s.rbd.safeHold then s.cores else Tab.mapV s.cores (fun _ cs => cs.cycles n.1) }
    (List.range 12).foldl (fun (s : State) d => s.dieCycles d n.1) s

end Sys2Proof.Machine
end

