-- ==== Sys2Proof/Machine/Fp.lean ====
section
/-! DEFINITION. Number formats, exact arithmetic and rounding (Table 4.1, R79 to R104).
A value is kept exactly, as sign, magnitude and a power of two; one rounding narrows it. -/

namespace Sys2Proof.Fp

/-- A value of a floating-point format (R79): NaN, an infinity, or (-1)^neg · m · 2^e. -/
inductive Val where
  | nan
  | inf (neg : Bool)
  | fin (neg : Bool) (m : Nat) (e : Int)
  deriving DecidableEq, Repr

/-- A floating-point format of Table 4.1: width, stored significand bits, bias, code of the largest finite
magnitude, code of infinity and canonical quiet NaN (R87). -/
structure Fmt where
  w : Nat
  mb : Nat
  bias : Nat
  maxCode : Nat
  infCode : Option Nat
  nanCode : Option Nat
  deriving DecidableEq, Repr

def fp32 : Fmt := ⟨32, 23, 127, 0x7F7FFFFF, some 0x7F800000, some 0x7FC00000⟩
def bf16 : Fmt := ⟨16, 7, 127, 0x7F7F, some 0x7F80, some 0x7FC0⟩
def fp16 : Fmt := ⟨16, 10, 15, 0x7BFF, some 0x7C00, some 0x7E00⟩
def e5m2 : Fmt := ⟨8, 2, 15, 0x7B, some 0x7C, some 0x7E⟩
def e4m3 : Fmt := ⟨8, 3, 7, 0x7E, none, some 0x7F⟩
def e2m1 : Fmt := ⟨4, 1, 1, 0x7, none, none⟩
def f64 : Fmt := ⟨64, 52, 1023, 0x7FEFFFFFFFFFFFFF, some 0x7FF0000000000000, some 0x7FF8000000000000⟩

/-- The value of a code. -/
def decode (f : Fmt) (c : Nat) : Val :=
  let neg := (c >>> (f.w - 1)) % 2 == 1
  let mag := c % 2 ^ (f.w - 1)
  if mag > f.maxCode then (if f.infCode = some mag then .inf neg else .nan)
  else
    let ex := mag >>> f.mb
    let fr := mag % 2 ^ f.mb
    if ex = 0 then .fin neg fr (1 - (f.bias : Int) - f.mb)
    else .fin neg (2 ^ f.mb + fr) (ex - (f.bias : Int) - f.mb)

/-- How a conversion rounds: to nearest even, or stochastically with the draw u (R98, R104). -/
inductive Rnd where
  | rne
  | sr (u : Nat)
  deriving DecidableEq, Repr

/-- m · 2^e as a multiple of 2^q, with the part below as a fraction of 2^q: quotient, remainder, denominator. -/
def splitAt (m : Nat) (e q : Int) : Nat × Nat × Nat :=
  if q ≤ e then (m <<< (e - q).toNat, 0, 1)
  else
    let d := 2 ^ (q - e).toNat
    (m / d, m % d, d)

/-- Round to nearest, ties to even. -/
def rneUp (t : Nat × Nat × Nat) : Nat :=
  if 2 * t.2.1 > t.2.2 ∨ (2 * t.2.1 = t.2.2 ∧ t.1 % 2 = 1) then t.1 + 1 else t.1

/-- Round under `r` (R104: up when ⌊d·2^16⌋ > u). -/
def roundTo (r : Rnd) (t : Nat × Nat × Nat) : Nat :=
  match r with
  | .rne => rneUp t
  | .sr u => if t.2.1 * 65536 / t.2.2 > u then t.1 + 1 else t.1

/-- The magnitude code of m · 2^e, m ≠ 0, in an unbounded continuation of the format, rounded under `r`. -/
def magCode (f : Fmt) (r : Rnd) (m : Nat) (e : Int) : Nat :=
  let top := e + Nat.log2 m
  let q := (if top < 1 - (f.bias : Int) then 1 - (f.bias : Int) else top) - f.mb
  (((q + f.mb + f.bias - 1).toNat) <<< f.mb) + roundTo r (splitAt m e q)

/-- The code of a signed magnitude. -/
def signed (f : Fmt) (neg : Bool) (mag : Nat) : Nat := (if neg then 2 ^ (f.w - 1) else 0) + mag

/-- What an overflowed value becomes (Table 4.4). -/
def overCode (f : Fmt) (sat : Bool) : Nat :=
  if sat then f.maxCode else f.infCode.getD f.maxCode

/-- Conversion to a format (R98 to R101, R104): the code, and whether it overflowed. -/
def encode (f : Fmt) (sat : Bool) (r : Rnd) (v : Val) : Nat × Bool :=
  match v with
  | .nan => match f.nanCode with
    | some c => (c, false)
    | none => (0, true)
  | .inf neg =>
    if sat ∨ f.infCode = none then (signed f neg f.maxCode, true)
    else (signed f neg (overCode f false), false)
  | .fin neg m e =>
    if m = 0 then (signed f neg 0, false)
    else if magCode f .rne m e > f.maxCode ∨ magCode f r m e > f.maxCode then (signed f neg (overCode f sat), true)
    else (signed f neg (magCode f r m e), false)

/-- One rounding to nearest even in IEEE behaviour. -/
def enc (f : Fmt) (v : Val) : Nat := (encode f false .rne v).1

/-- Round to n significand bits with an unbounded exponent (R82). -/
def roundBits (n : Nat) (v : Val) : Val :=
  match v with
  | .fin neg m e => if m = 0 then v else
    let q := e + Nat.log2 m + 1 - n
    .fin neg (rneUp (splitAt m e q)) q
  | v => v

/-- The sign of a value. -/
def Val.isNeg : Val → Bool
  | .nan => false
  | .inf n => n
  | .fin n _ _ => n

def Val.isNan : Val → Bool
  | .nan => true
  | _ => false

def Val.isInf : Val → Bool
  | .inf _ => true
  | _ => false

def Val.isZero : Val → Bool
  | .fin _ m _ => m == 0
  | _ => false

def neg : Val → Val
  | .nan => .nan
  | .inf n => .inf (!n)
  | .fin n m e => .fin (!n) m e

def abs : Val → Val
  | .nan => .nan
  | .inf _ => .inf false
  | .fin _ m e => .fin false m e

/-- A signed integer times 2^e; a zero result takes the sign z (R86). -/
def ofInt (i : Int) (e : Int) (z : Bool) : Val :=
  if i = 0 then .fin z 0 e else .fin (i < 0) i.natAbs e

/-- The signed significand of a finite value at exponent q ≤ e. -/
def sig (n : Bool) (m : Nat) (e q : Int) : Int :=
  let k : Int := ((m <<< (e - q).toNat : Nat) : Int)
  if n then -k else k

/-- Exact sum (R86, R87). -/
def add (a b : Val) : Val :=
  match a, b with
  | .nan, _ => .nan
  | _, .nan => .nan
  | .inf x, .inf y => if x = y then .inf x else .nan
  | .inf x, _ => .inf x
  | _, .inf y => .inf y
  | .fin x m e, .fin y n k =>
    let q := min e k
    ofInt (sig x m e q + sig y n k q) q (x && y)

def sub (a b : Val) : Val := add a (neg b)

/-- Exact product (R86, R87). -/
def mul (a b : Val) : Val :=
  match a, b with
  | .nan, _ => .nan
  | _, .nan => .nan
  | .inf x, .inf y => .inf (x ^^ y)
  | .inf x, .fin y n _ => if n = 0 then .nan else .inf (x ^^ y)
  | .fin x m _, .inf y => if m = 0 then .nan else .inf (x ^^ y)
  | .fin x m e, .fin y n k => .fin (x ^^ y) (m * n) (e + k)

/-- Bits kept by the two operations below beyond any format's precision; a last bit stands for what is cut off. -/
def extra : Nat := 160

/-- Quotient, to `extra` bits and a sticky bit: it rounds as the exact quotient does. -/
def div (a b : Val) : Val :=
  match a, b with
  | .nan, _ => .nan
  | _, .nan => .nan
  | .inf _, .inf _ => .nan
  | .inf x, .fin y _ _ => .inf (x ^^ y)
  | .fin x _ _, .inf y => .fin (x ^^ y) 0 0
  | .fin x m e, .fin y n k =>
    if n = 0 then (if m = 0 then .nan else .inf (x ^^ y))
    else if m = 0 then .fin (x ^^ y) 0 0
    else
      let s := extra + Nat.log2 n
      let q := (m <<< s) / n
      .fin (x ^^ y) (2 * q + (if (m <<< s) % n = 0 then 0 else 1)) (e - k - s - 1)

/-- Square root by binary digits, `n` of them: the largest r with r² ≤ m. -/
def isqrtGo (m : Nat) : Nat → Nat → Nat
  | 0, r => r
  | n + 1, r => let t := r + 2 ^ n; isqrtGo m n (if t * t ≤ m then t else r)

def isqrt (m : Nat) : Nat := isqrtGo m (Nat.log2 m / 2 + 1) 0

/-- Square root, to at least `extra / 2` bits and a sticky bit. -/
def sqrt (a : Val) : Val :=
  match a with
  | .nan => .nan
  | .inf x => if x then .nan else .inf false
  | .fin x m e =>
    if m = 0 then .fin x 0 0
    else if x then .nan
    else
      let s : Nat := 2 * extra + (e % 2).toNat
      let r := isqrt (m <<< s)
      .fin false (2 * r + (if r * r = m <<< s then 0 else 1)) ((e - s) / 2 - 1)

/-- Comparison (R88); none when unordered. -/
def cmp (a b : Val) : Option Ordering :=
  match a, b with
  | .nan, _ => none
  | _, .nan => none
  | .inf x, .inf y => some (if x = y then .eq else if x then .lt else .gt)
  | .inf x, _ => some (if x then .lt else .gt)
  | _, .inf y => some (if y then .gt else .lt)
  | .fin x m e, .fin y n k =>
    let q := min e k
    some (compare (sig x m e q) (sig y n k q))

/-- maximum (R88): NaN wins, and +0 is above −0. -/
def max (a b : Val) : Val :=
  match cmp a b with
  | none => .nan
  | some .lt => b
  | some .gt => a
  | some .eq => if a.isNeg then b else a

/-- minimum (R88). -/
def min (a b : Val) : Val :=
  match cmp a b with
  | none => .nan
  | some .lt => a
  | some .gt => b
  | some .eq => if a.isNeg then a else b

/-- Whether `a` ranks strictly above `b` in the order of R89, indices apart. -/
def ranksAbove (a b : Val) : Bool :=
  match cmp a b with
  | none => !a.isNan && b.isNan
  | some .gt => true
  | some .lt => false
  | some .eq => !a.isNeg && b.isNeg

/-- Conversion to an integer between lo and hi (R98 to R100, R104). -/
def toInt (lo hi : Int) (r : Rnd) (v : Val) : Int × Bool :=
  match v with
  | .nan => (0, true)
  | .inf n => (if n then lo else hi, true)
  | .fin n m e =>
    let at' := fun (r : Rnd) => let k : Int := roundTo r (splitAt m e 0); if n then -k else k
    let i := at' r
    let i' := at' .rne
    if i' < lo ∨ i < lo then (lo, true) else if hi < i' ∨ hi < i then (hi, true) else (i, false)

/-- An integer as a value. -/
def fromInt (i : Int) : Val := ofInt i 0 false

/-- 2^(E − 127) of an E8M0 code; 0xFF is NaN (R80). -/
def e8m0 (c : Nat) : Val := if c = 255 then .nan else .fin false 1 (c - 127)

/-- ⌊log₂⌋ of a finite nonzero magnitude. -/
def ilog2 : Val → Option Int
  | .fin _ m e => if m = 0 then none else some (e + Nat.log2 m)
  | _ => none

/-- The spacing of a format's values at a finite value, as an exponent of two (R116). -/
def ulpExp (f : Fmt) (v : Val) : Int :=
  match ilog2 v with
  | some t => (if t < 1 - (f.bias : Int) then 1 - (f.bias : Int) else t) - f.mb
  | none => 1 - (f.bias : Int) - f.mb

/-- |a − b| ≤ n · 2^q for finite values. -/
def within (a b : Val) (n : Nat) (q : Int) : Bool :=
  match cmp (abs (sub a b)) (.fin false n q) with
  | some .gt => false
  | some _ => true
  | none => false

/-- A free FP32 result held to `n` ulp of the exact value `v`: the free word if it is that close, otherwise v rounded. -/
def bounded (free : BitVec 32) (v : Val) (n : Nat) : Nat :=
  match v, decode fp32 free.toNat with
  | .fin vn m _, .fin fn k _ =>
    if (m ≠ 0 ∧ k ≠ 0 ∧ vn ≠ fn) ∨ (k = 0 ∧ vn ≠ fn) then enc fp32 v
    else if within (decode fp32 free.toNat) v n (ulpExp fp32 v) then free.toNat else enc fp32 v
  | _, _ => enc fp32 v

/-- A free FP32 result held to `n` ulp of the FP32 rounding of the exact value `v` (R72). -/
def boundedRnd (free : BitVec 32) (v : Val) (n : Nat) : Nat := bounded free (decode fp32 (enc fp32 v)) n

/-! Enclosures of 2^x, log₂ x, tanh, GELU and SiLU: fixed point with 120 fraction bits, far closer than any bound that
uses them. -/

def fx : Nat := 120
/-- ln 2, 1/ln 2, √(2/π) and 0.044715 with 120 fraction bits. -/
def ln2 : Nat := 921350637599661305226344307672478454
def invLn2 : Nat := 1917670637729674084946755258930051709
def sqrt2OverPi : Nat := 1060570495623720563770242243560823921
def geluC : Nat := 59436429831522513256893732700435607

/-- Σ tᵏ/k! for 0 ≤ t < 1 in fixed point. -/
def expSeries (t : Nat) : Nat :=
  ((List.range 40).foldl (fun (acc : Nat × Nat) k => (acc.1 + acc.2, acc.2 * t / ((k + 1) <<< fx))) (0, 1 <<< fx)).1

/-- 2^x of a finite value; an exponent beyond ±4096 is cut to it, which no format sees. -/
def exp2V (x : Val) : Val :=
  match x with
  | .fin n m e =>
    let s := splitAt m e (-(fx : Int))
    let i : Int := if n then -(s.1 : Int) else s.1
    let k := i / (2 ^ fx)
    let k' : Int := if k > 4096 then 4096 else if k < -4096 then -4096 else k
    let fr := (i % (2 ^ fx)).toNat
    .fin false (expSeries (fr * ln2 / 2 ^ fx)) (k' - fx)
  | v => v

/-- Fraction bits of log₂ of y, 1 ≤ y < 2 in fixed point. -/
def log2Go : Nat → Nat → Nat → Nat
  | 0, _, acc => acc
  | n + 1, y, acc =>
    let z := y * y / 2 ^ 200
    if z ≥ 2 * 2 ^ 200 then log2Go n (z / 2) (2 * acc + 1) else log2Go n z (2 * acc)

/-- log₂ of a finite positive value, to 70 fraction bits. -/
def log2V (x : Val) : Val :=
  match x with
  | .fin _ m e =>
    let t := Nat.log2 m
    let y := (splitAt m 0 ((t : Int) - 200)).1
    ofInt ((e + t) * 2 ^ 70 + log2Go 70 y 0) (-70) false
  | v => v

/-- x · 2^(−120) · c, with c a constant of 120 fraction bits. -/
def mulC (x : Val) (c : Nat) : Val := mul x (.fin false c (-(fx : Int)))

/-- e^x. -/
def expV (x : Val) : Val := exp2V (mulC x invLn2)

def one : Val := .fin false 1 0
def two : Val := .fin false 1 1

/-- x / (1 + e^(−y)), the common form of GELU (y = 2z) and SiLU (y = x). -/
def gated (x y : Val) : Val :=
  match ilog2 y with
  | some t =>
    if t ≥ 11 then (if y.isNeg then .fin x.isNeg 1 (-4096) else x)
    else div x (add one (expV (neg y)))
  | none => div x two

def siluV (x : Val) : Val := gated x x

def geluV (x : Val) : Val :=
  match ilog2 x with
  | some t => if t > 40 then (if x.isNeg then .fin true 1 (-4096) else x)
    else gated x (mul two (mulC (add x (mulC (mul x (mul x x)) geluC)) sqrt2OverPi))
  | none => x

/-- tanh of a finite value: x itself below 2^−30, and ±1 beyond 2^7, where neither is seen in FP32. -/
def tanhV (x : Val) : Val :=
  match ilog2 x with
  | none => x
  | some t =>
    if t < -30 then x
    else if t > 7 then .fin x.isNeg 1 0
    else
      let ex := expV (mul two x)
      div (sub ex one) (add ex one)

/-! The five approximations of Table 5.6 on FP32 words (R116), and the activations of R72. -/

/-- Whether an exact value is an FP32 value. -/
def isFp32 (v : Val) : Bool :=
  match v with
  | .fin _ m e => m == 0 || (match cmp (decode fp32 (enc fp32 (.fin false m e))) (.fin false m e) with
    | some .eq => true
    | _ => false)
  | _ => true

/-- Whether a magnitude is a power of two. -/
def isPow2 (m : Nat) : Bool := m != 0 && m == 2 ^ Nat.log2 m

def exp2W (x : BitVec 32) : Nat :=
  match decode fp32 x.toNat with
  | .nan => 0x7FC00000
  | .inf n => if n then 0 else 0x7F800000
  | v@(.fin _ m e) =>
    let i := splitAt m e 0
    if m = 0 then 0x3F800000
    else if (cmp v (.fin false 128 0)) ≠ some .lt then 0x7F800000
    else if i.2.1 = 0 then enc fp32 (exp2V v)
    else bounded (Config.exp2 x) (exp2V v) 2

def log2W (x : BitVec 32) : Nat :=
  match decode fp32 x.toNat with
  | .nan => 0x7FC00000
  | .inf n => if n then 0x7FC00000 else 0x7F800000
  | v@(.fin n m e) =>
    if m = 0 then 0xFF800000
    else if n then 0x7FC00000
    else if isPow2 m then enc fp32 (ofInt (e + Nat.log2 m) 0 false)
    else
      let r := log2V v
      if (ilog2 r).getD (-100) ≥ -20 then bounded (Config.log2 x) r 2
      else
        let fr := decode fp32 (Config.log2 x).toNat
        if within fr r 1 (-44) then (Config.log2 x).toNat else enc fp32 r

def rsqrtW (x : BitVec 32) : Nat :=
  match decode fp32 x.toNat with
  | .nan => 0x7FC00000
  | .inf n => if n then 0x7FC00000 else 0
  | v@(.fin n m e) =>
    if m = 0 then (if n then 0xFF800000 else 0x7F800000)
    else if n then 0x7FC00000
    else
      let r := div one (sqrt v)
      if isPow2 m ∧ (e + Nat.log2 m) % 2 = 0 then enc fp32 r else bounded (Config.rsqrt x) r 1

def recipW (x : BitVec 32) : Nat :=
  match decode fp32 x.toNat with
  | .nan => 0x7FC00000
  | .inf n => signed fp32 n 0
  | v@(.fin n m e) =>
    if m = 0 then signed fp32 n 0x7F800000
    else
      let r := div one v
      if isPow2 m ∧ isFp32 (.fin false 1 (-(e + Nat.log2 m))) then enc fp32 r
      else if (e + Nat.log2 m) < -126 ∧ enc fp32 r % 2 ^ 31 = 0x7F800000 then enc fp32 r
      else
        let c := bounded (Config.recip x) r 1
        if cmp (abs v) (.fin false 1 126) = some .gt ∧ 0x00800000 ≤ c % 2 ^ 31 then enc fp32 r else c

def tanhW (x : BitVec 32) : Nat :=
  match decode fp32 x.toNat with
  | .nan => 0x7FC00000
  | .inf n => signed fp32 n 0x3F800000
  | v@(.fin n m _) => if m = 0 then signed fp32 n 0 else bounded (Config.tanh x) (tanhV v) 3

def geluW (x : BitVec 32) : Nat :=
  match decode fp32 x.toNat with
  | .nan => 0x7FC00000
  | .inf n => if n then 0x80000000 else 0x7F800000
  | v@(.fin n m _) => if m = 0 then signed fp32 n 0 else boundedRnd (Config.gelu x) (geluV v) 4

def siluW (x : BitVec 32) : Nat :=
  match decode fp32 x.toNat with
  | .nan => 0x7FC00000
  | .inf n => if n then 0x80000000 else 0x7F800000
  | v@(.fin n m _) => if m = 0 then signed fp32 n 0 else boundedRnd (Config.silu x) (siluV v) 4

/-- ReLU (R72): +0 for every t ≤ 0, −0 included. -/
def reluW (x : BitVec 32) : Nat :=
  match decode fp32 x.toNat with
  | .nan => 0x7FC00000
  | v => if v.isNeg ∨ v.isZero then 0 else x.toNat

/-- One advance of the generator of R103. -/
def seedStep (seed : BitVec 32) : BitVec 32 :=
  let s := if seed = 0 then 1 else seed
  let s := s ^^^ (s <<< 13)
  let s := s ^^^ (s >>> 17)
  s ^^^ (s <<< 5)

/-- The draw u of a generator state (R103). -/
def drawOf (seed : BitVec 32) : Nat := seed.toNat >>> 16

end Sys2Proof.Fp
end

