-- ==== Sys2Proof/Machine/Operands.lean ====
section
/-! DEFINITION. The operand forms of tile instructions: fields (R32), address registers and loop counters (R30, R31),
tile and accumulator memory with their poison and error marks (R44, R47), vector and mask registers (R105, R106). -/

namespace Sys2Proof.Machine
open Sys2Proof

/-! ## Fields -/

/-- A whole instruction of class `cls` and opcode `opc` (Table 2.3). -/
def tileWord (cls opc : Nat) (f : TileFields) : TileWord := BitVec.ofNat 128 (cls * 2 ^ 124 + opc * 2 ^ 116 + f.toNat)

/-- The number in n bits read as two's complement. -/
def sext (n v : Nat) : Int := if v % 2 ^ n < 2 ^ (n - 1) then (v % 2 ^ n : Nat) else ((v % 2 ^ n : Nat) : Int) - 2 ^ n

/-- A number modulo 2^48, from an integer (R31). -/
def mod48 (i : Int) : Nat := (i % 2 ^ 48).toNat

/-! ## Address registers and loop counters -/

/-- The value of address register r. -/
def CoreState.A (cs : CoreState) (r : Nat) : Nat := (Tab.get 0 cs.a r).toNat

/-- Whether address register r is poisoned (R275). -/
def CoreState.Ap (cs : CoreState) (r : Nat) : Bool := NSet.mem cs.aPoison r

/-- Write address register r with its poison mark (R275). -/
def CoreState.setA (cs : CoreState) (r v : Nat) (pois : Bool) : CoreState :=
  { cs with a := Tab.put cs.a r (BitVec.ofNat 48 v)
            aPoison := if pois then NSet.insert cs.aPoison r else NSet.remove cs.aPoison r }

/-- The value of loop counter r. -/
def CoreState.L (cs : CoreState) (r : Nat) : Nat := (Tab.get 0 cs.l r).toNat

/-- Write loop counter r (R31). -/
def CoreState.setL (cs : CoreState) (r v : Nat) : CoreState := { cs with l := Tab.put cs.l r (BitVec.ofNat 32 v) }

/-! ## Tile and accumulator memory -/

/-- Bytes of a memory of the core: tile memory, or accumulator memory with `am`. -/
def locSize (am : Bool) : Nat := if am then 0x80000 else 0x600000

def CoreState.loc (cs : CoreState) (am : Bool) : Memory := if am then cs.am else cs.tm
def CoreState.locPoison (cs : CoreState) (am : Bool) : NSet := if am then cs.amPoison else cs.tmPoison
def CoreState.locErr (cs : CoreState) (am : Bool) : Tab Nat := if am then cs.amErr else cs.tmErr
def CoreState.setLoc (cs : CoreState) (am : Bool) (m : Memory) : CoreState :=
  if am then { cs with am := m } else { cs with tm := m }
def CoreState.setLocPoison (cs : CoreState) (am : Bool) (p : NSet) : CoreState :=
  if am then { cs with amPoison := p } else { cs with tmPoison := p }
def CoreState.setLocErr (cs : CoreState) (am : Bool) (e : Tab Nat) : CoreState :=
  if am then { cs with amErr := e } else { cs with tmErr := e }

/-- The aligned 8 B words that a range touches. -/
def wordsOf (a n : Nat) : List Nat := if n = 0 then [] else (List.range ((a + n - 1) / 8 - a / 8 + 1)).map (a / 8 + ·)

/-- Set a sticky flag of SEQ_TASK_STATUS: 0 OVERFLOW, 1 INDEX_RANGE, 2 TM_CORR, 3 AM_CORR, 4 POISON, 5 IMEM_CORR (R56). -/
def CoreState.setSticky (cs : CoreState) (i : Nat) : CoreState :=
  { cs with sticky := cs.sticky ||| (1#6 <<< i), firm := cs.firm ||| (1#6 <<< i) }

/-- A condition of the task that runs, noted once (R9). -/
def CoreState.note (cs : CoreState) (st : Status) : CoreState :=
  if cs.task.isNone then cs else { cs with conds := addCond cs.conds st, firmConds := addCond cs.firmConds st }

/-- The task reads or writes poisoned data: POISON, and POISON_CONSUMED in its status (R56, R272). -/
def CoreState.poisoned (cs : CoreState) : CoreState := (cs.setSticky 4).note St.poison

/-- n poisoned words are read, and counted (R44, Table 15.1). -/
def CoreState.poisonRead (cs : CoreState) (n : Nat) : CoreState :=
  if n = 0 then cs else { cs.poisoned with ctr := addCtr cs.ctr 7 n }

/-- A word with an error is read: one bit is corrected in the word and flagged, two bits poison it, which the task's status
shows where they are detected (R44, R47, R272). -/
def CoreState.eccWord (cs : CoreState) (am : Bool) (w : Nat) : CoreState :=
  match Tab.find (cs.locErr am) w with
  | none => cs
  | some k =>
    let cs := cs.setLocErr am (Tab.del (cs.locErr am) w)
    if k = 1 then { cs.setSticky (if am then 3 else 2) with ctr := addCtr cs.ctr 6 1 }
    else (cs.setLocPoison am (NSet.insert (cs.locPoison am) w)).note St.uncorrectable

/-- Read n bytes with the poison mark of each, and what the read sets (R44, R47). -/
def CoreState.load (cs : CoreState) (am : Bool) (a n : Nat) : List (Byte × Bool) × CoreState :=
  let ws := wordsOf a n
  let cs := if (cs.locErr am).isEmpty then cs else ws.foldl (fun cs w => cs.eccWord am w) cs
  let p := cs.locPoison am
  let bs := (cs.loc am).readN a n
  if p.isEmpty then (bs.map (fun b => (b, false)), cs)
  else ((List.range n).map (fun j => ((cs.loc am).read (a + j), NSet.mem p ((a + j) / 8))),
    cs.poisonRead (ws.filter (NSet.mem p)).length)

/-- Write bytes, each poisoned or not (R44, R47): a poisoned byte poisons its word, a word wholly overwritten with
unpoisoned data is clean, and a word partly overwritten keeps its mark. The read of a partial write meets the word's error as
any read does, so two bits poison the word, are counted and set POISON. -/
def CoreState.store (cs : CoreState) (am : Bool) (a : Nat) (bs : List (Byte × Bool)) : CoreState :=
  let n := bs.length
  let whole := fun w => decide (a ≤ 8 * w) && decide (8 * w + 8 ≤ a + n)
  let ws := wordsOf a n
  let cs := if (cs.locErr am).isEmpty then cs
    else ws.foldl (fun (cs : CoreState) w =>
      if whole w then cs.setLocErr am (Tab.del (cs.locErr am) w)
      else (cs.eccWord am w).poisonRead (bit (decide (2 ≤ Tab.get 0 (cs.locErr am) w)))) cs
  let any := bs.any (·.2)
  let cs := cs.setLoc am ((cs.loc am).writeN a (bs.map (·.1)))
  if !any && (cs.locPoison am).isEmpty then cs
  else
    let badAt := fun w => (List.range 8).any (fun j =>
      decide (a ≤ 8 * w + j) && ((bs[8 * w + j - a]?).getD (0, false)).2)
    let p := ws.foldl (fun p w =>
      if badAt w then NSet.insert p w else if whole w then NSet.remove p w else p) (cs.locPoison am)
    let cs := cs.setLocPoison am p
    if any then cs.poisoned else cs

/-- The scoreboard blocks of a range: 4 KiB blocks of tile memory 0-1535, accumulator tiles 1536 + n (R36). -/
def blocksOf (am : Bool) (a n : Nat) : NSet :=
  if n = 0 then [] else
    let b := if am then 1536 else 0
    (List.range ((a + n - 1) / 4096 - a / 4096 + 1)).map (b + a / 4096 + ·)

/-- The union of two sets. -/
def NSet.union (a b : NSet) : NSet := b.foldl NSet.insert a

/-- A number from bytes with poison marks, and whether any of them is poisoned. -/
def leP (bs : List (Byte × Bool)) : Nat × Bool := (leNat (bs.map (·.1)), bs.any (·.2))

/-- The bytes of a number, all with one poison mark. -/
def bytesP (n v : Nat) (p : Bool) : List (Byte × Bool) := (natLe n v).map (fun b => (b, p))

/-! ## Formats of elements -/

/-- The floating-point format of a code of Table 3.4 or Table 5.2. -/
def fmtOf (c : Nat) : Option Fp.Fmt :=
  match c with
  | 0 => some Fp.e4m3
  | 1 => some Fp.e5m2
  | 3 => some Fp.e2m1
  | 4 => some Fp.bf16
  | 5 => some Fp.fp16
  | 6 => some Fp.fp32
  | _ => none

/-- Bits of an element of a type (Table 5.2). -/
def etBits (t : Nat) : Nat :=
  match t with
  | 0 => 8
  | 1 => 8
  | 2 => 8
  | 3 => 4
  | 4 => 16
  | 5 => 16
  | 8 => 4
  | _ => 32

/-- The value of an element code of a type: integers by sign and magnitude. -/
def etVal (t c : Nat) : Fp.Val :=
  match fmtOf t with
  | some f => Fp.decode f c
  | none =>
    if t = 2 then Fp.fromInt (sext 8 c)
    else if t = 7 then Fp.fromInt (sext 32 c)
    else if t = 8 then Fp.fromInt (sext 4 c)
    else Fp.fromInt c

/-- FP32 bits of a value, rounded to nearest even. -/
def toF32 (v : Fp.Val) : Nat := Fp.enc Fp.fp32 v

/-! ## Vector and mask registers (Table 5.1) -/

def CoreState.vreg (cs : CoreState) (r : Nat) : BitVec 2048 := Tab.get 0 cs.v r
def CoreState.vpois (cs : CoreState) (r : Nat) : BitVec 64 := Tab.get 0 cs.vPoison r
def CoreState.mreg (cs : CoreState) (r : Nat) : BitVec 256 := Tab.get 0 cs.m r
def CoreState.mpois (cs : CoreState) (r : Nat) : BitVec 256 := Tab.get 0 cs.mPoison r

/-- Pair k of lanes of vector register r is read (R117): one bit in error is corrected and counted, which the task's status
shows (Table 12.1), and two bits poison both lanes. -/
def CoreState.vecPair (cs : CoreState) (r k : Nat) : CoreState :=
  match Tab.find cs.vErr (r * 32 + k) with
  | none => cs
  | some n =>
    let cs := { cs with vErr := Tab.del cs.vErr (r * 32 + k) }
    if n = 1 then { cs.note St.okCorr with ctr := addCtr cs.ctr 6 1 }
    else ({ cs with vPoison := Tab.put cs.vPoison r (cs.vpois r ||| (3#64 <<< (2 * k))) }.note St.uncorrectable).poisonRead 2

/-- Elements of a register as codes with the poison of their lanes: element i of width w. -/
def elemOf (w : Nat) (v : BitVec 2048) (p : BitVec 64) (i : Nat) : Nat × Bool :=
  ((v.toNat >>> (w * i)) % 2 ^ w, p.getLsbD (w * i / 32))

/-- A register with element i of width w set. The poison mark is the lane's (R117): an element's new mark adds to those
of the other elements of the lane. -/
def setElem (w : Nat) (r : BitVec 2048) (i c : Nat) : BitVec 2048 :=
  let m := (2 ^ w - 1) <<< (w * i)
  BitVec.ofNat 2048 ((r.toNat &&& (2 ^ 2048 - 1 - m)) ||| ((c % 2 ^ w) <<< (w * i)))

end Sys2Proof.Machine
end

