-- ==== Sys2Proof/Machine/Stripe.lean ====
section
/-! DEFINITION. In-package striped memory: the code over GF(2^8) (R124), the two layouts (R124, R141), availability
(R134, R135), reads with reconstruction (R127, R131), writes (R128, R129, R136 to R138) and the poison tables (R132). -/

namespace Sys2Proof.Machine
open Sys2Proof

/-! ## The field and the code (R124; the order of the symbols in a codeword: log 18) -/

/-- Multiplication by α. -/
def gfX (a : Byte) : Byte := if a.getLsbD 7 then (a <<< 1) ^^^ 0x1D#8 else a <<< 1

/-- a ⊗ b, from the top bit of b down. -/
def gfMul (a b : Byte) : Byte :=
  (List.range 8).foldl (fun acc i => let d := gfX acc; if b.getLsbD (7 - i) then d ^^^ a else d) 0

/-- α^k. -/
def gfPow : Nat → Byte
  | 0 => 1
  | k + 1 => gfX (gfPow k)

/-- The inverse of a nonzero element: a^254. -/
def gfInv (a : Byte) : Byte :=
  let s := gfMul a a
  let go := fun (p : Byte × Byte) => (gfMul p.1 p.2, gfMul p.2 p.2)
  (go (go (go (go (go (go (go (1, s)))))))).1

/-- xor of two units. -/
def xorU (a b : List Byte) : List Byte := List.zipWith (· ^^^ ·) a b

/-- A unit times a constant. -/
def mulU (c : Byte) (a : List Byte) : List Byte := a.map (gfMul c)

def zeroU : List Byte := List.replicate 256 0

/-- The exponent of α at which index i of a stripe of m units stands (0 P0, 1 P1, 2 + u data unit u). -/
def symPow (m i : Nat) : Nat := if i = 0 then 1 else if i = 1 then 0 else m + 1 - i

/-- The two syndromes of the units given by index. -/
def syndromes (m : Nat) (us : List (Nat × List Byte)) : List Byte × List Byte :=
  us.foldl (fun p e => (xorU p.1 e.2, xorU p.2 (mulU (gfPow (symPow m e.1)) e.2))) (zeroU, zeroU)

/-- The units at up to two missing indices, from all the others. -/
def solveErasures (m : Nat) (us : List (Nat × List Byte)) (miss : List Nat) : List (Nat × List Byte) :=
  let s := syndromes m us
  match miss with
  | [] => []
  | [i] => [(i, s.1)]
  | i :: j :: _ =>
    let a := gfPow (symPow m i)
    let b := gfPow (symPow m j)
    let v := mulU (gfInv (a ^^^ b)) (xorU s.2 (mulU a s.1))
    [(i, xorU s.1 v), (j, v)]

/-- The two check units of the data units, in order P0, P1 (R124). -/
def parityOf (m : Nat) (data : List (Nat × List Byte)) : List (Nat × List Byte) := solveErasures m data [0, 1]

/-! ## Layouts -/

/-- Whether an address is in the 21+2 layout (R141, R143). -/
def State.in21 (s : State) (pa : Nat) : Bool :=
  s.mem.layout21 || (s.mem.restripe == 2 && decide (s.mem.watermark ≤ pa))

/-- Data units of a stripe. -/
def dataUnits (l21 : Bool) : Nat := if l21 then 21 else 22

/-- Units of a stripe. -/
def allUnits (l21 : Bool) : Nat := dataUnits l21 + 2

/-- Bytes of data in a stripe. -/
def stripeBytes (l21 : Bool) : Nat := 256 * dataUnits l21

/-- Where an address lies (R124, R141): layout, stripe, data unit and byte of the unit. -/
structure Loc where
  l21 : Bool
  stripe : Nat
  u : Nat
  b : Nat
  deriving DecidableEq, Repr

def State.locate (s : State) (pa : Nat) : Loc :=
  let l := s.in21 pa
  ⟨l, pa / stripeBytes l, pa % stripeBytes l / 256, pa % 256⟩

/-- The stack at index i of a stripe (0 P0, 1 P1, 2 + u data unit u). -/
def State.stackOf (s : State) (l21 : Bool) (stripe i : Nat) : Nat :=
  if l21 then
    let q := (List.range 24).filter (fun n => some n != s.mem.removed)
    (q[(stripe % 23 + i) % 23]?).getD 0
  else (stripe % 24 + i) % 24

/-- The pseudo-channel, page slot, bank index and row of stripe index s in each stack (R125, Table 6.2). -/
def stackInternal (s : Nat) : Nat × Nat × Nat × Nat :=
  ((nbits s 5 0) ^^^ (nbits s 25 20), nbits s 7 6, (nbits s 13 8) ^^^ (nbits s 19 14), nbits s 28 14)

/-- The compute die of a stack (R10). -/
def dieOfStack (n : Nat) : Nat := n / 3

/-- The compute die of a stripe's home (R126). -/
def State.homeDie (s : State) (l21 : Bool) (stripe : Nat) : Nat := dieOfStack (s.stackOf l21 stripe 0)

/-- The key of a stack-local byte: 128 GiB for each stack. -/
def unitKey (stack stripe : Nat) : Nat := stack * 2 ^ 37 + 256 * stripe

/-- The first address past striped memory that contexts may use (Table 1.7, R141). -/
def State.stripedEnd (s : State) : Nat := if s.mem.layout21 ∨ s.mem.restripe = 2 then 0x02A000000000 else 0x02C000000000

/-- The region of a stripe in the stale maps (R137). -/
def region (stripe : Nat) : Nat := stripe / 8192

/-! ## Availability -/

/-- Whether a stack is unavailable for a stripe (R134, R135). -/
def State.unavailable (s : State) (stack stripe : Nat) : Bool :=
  let x := s.stk stack
  let stale := NSet.mem x.stale (region stripe)
  match x.st with
  | 0 => stale
  | 1 => stale || !x.suspended
  | 4 => stale
  | 2 => true
  | 3 => true
  | 5 => true
  | _ => false

/-- Stacks in states 1 to 5 (0x7003:00). -/
def State.unavailCount (s : State) : Nat :=
  ((List.range 24).filter (fun n => 1 ≤ (s.stk n).st && (s.stk n).st ≤ 5)).length

/-- A read that meets no error of its own. -/
def noErrs : ReadErrs := ⟨[], [], []⟩

/-- The errors that the reads of an access meet, of draw k (R123, R131; log 18). -/
def State.errsAt (s : State) (k : Nat) : ReadErrs := if s.mem.errFree then noErrs else Config.readErrs k

/-- The errors that the reads of the next access meet. -/
def State.nextErrs (s : State) : ReadErrs × State := (s.errsAt s.freeCtr, { s with freeCtr := s.freeCtr + 1 })

/-- The stacks whose units are erasures for a read that meets these errors (R131). -/
def erasedBy (e : ReadErrs) : List Nat := e.uncorr ++ e.phy

/-- The erasures of a stripe for one read: its indices on unavailable stacks and those the read met (R131). -/
def State.erasures (s : State) (l21 : Bool) (stripe : Nat) (er : List Nat) : List Nat :=
  (List.range (allUnits l21)).filter (fun i =>
    let n := s.stackOf l21 stripe i
    s.unavailable n stripe || er.contains n)

/-- The bytes of the unit at index i as its stack holds them. -/
def State.rawUnit (s : State) (l21 : Bool) (stripe i : Nat) : List Byte :=
  s.mem.units.readN (unitKey (s.stackOf l21 stripe i) stripe) 256

/-- The unit at index i: from its stack, or decoded from the others; none where the stripe cannot be decoded (R131). -/
def State.unitVal (s : State) (l21 : Bool) (stripe : Nat) (er : List Nat) (i : Nat) : Option (List Byte) :=
  let e := s.erasures l21 stripe er
  if !e.contains i then some (s.rawUnit l21 stripe i)
  else if e.length ≤ 2 then
    let us := ((List.range (allUnits l21)).filter (fun j => !e.contains j)).map (fun j => (j, s.rawUnit l21 stripe j))
    let sol := solveErasures (allUnits l21) us e
    Tab.find sol i
  else none

/-! ## Poison tables (R132) -/

/-- The key of a data unit in its home's poison table. -/
def poisonKey (l21 : Bool) (stripe u : Nat) : Nat := (bit l21 * 2 ^ 30 + stripe) * 32 + u

/-- The sector mask of a data unit. -/
def State.poisonMask (s : State) (l21 : Bool) (stripe u : Nat) : BitVec 8 :=
  Tab.get 0 (Tab.get [] s.mem.poisonTab (s.stackOf l21 stripe 0)) (poisonKey l21 stripe u)

/-- Set the sector mask of a data unit. An entry that a full table cannot hold makes the module enter safe hold. -/
def State.setPoison (s : State) (l21 : Bool) (stripe u : Nat) (m : BitVec 8) : State :=
  let h := s.stackOf l21 stripe 0
  let t := Tab.get [] s.mem.poisonTab h
  let k := poisonKey l21 stripe u
  if m = 0 then { s with mem.poisonTab := Tab.put s.mem.poisonTab h (Tab.del t k) }
  else if !Tab.has t k && decide (4096 ≤ t.length) then s.enterSafeHold 2 (dieOfStack h)
  else
    let s' := if Tab.has t k then s else s.dieEvent (dieOfStack h) 0x45 1 none
    { s' with mem.poisonTab := Tab.put s'.mem.poisonTab h (Tab.put t k m) }

/-! ## Stack states -/

/-- A stack changes state: the availability vector is broadcast and host software notified (R127, R134). -/
def State.setStackState (s : State) (n st : Nat) : State :=
  if (s.stk n).st = st then s else (s.modStk n (fun x => { x with st := st })).event2 0x0401 n st

/-- A stack asleep of its own accord wakes at a request, and the wake is counted; one that is OFFLINE_THERMAL does not (R311, R325). -/
def State.touch (s : State) (n : Nat) : State :=
  if (s.stk n).st = 2 ∨ (s.stk n).selfRef = false then s
  else s.modStk n (fun x => { x with selfRef := false, wakes := x.wakes + 1 })

/-- The stack that the order of retraining comes to next: the first from `retrainNext` on, around, that is in the layout and has
not failed (R147; DEDUCED, log 18). -/
def State.nextRetrain (s : State) : Nat :=
  (((List.range 24).map (fun i => (s.mem.retrainNext + i) % 24)).find? (fun n => decide ((s.stk n).st < 5))).getD 0

/-- A retraining that is due begins once no other stack is in states 1 to 5 (R135, R147). -/
def State.startRetrain (s : State) : State :=
  let n := s.nextRetrain
  if !s.mem.retrainDue || decide (s.obj 0x7030 1 ≠ 1) || !((s.stk n).st == 0 || (s.stk n).st == 4)
    || (List.range 24).any (fun j => j != n && decide (1 ≤ (s.stk j).st ∧ (s.stk j).st ≤ 5)) then s
  else { ((s.touch n).setStackState n 3) with mem.retrainDue := false, mem.retrainNext := n + 1, um.bg := Tab.del s.um.bg 3 }

/-- A stack has changed state of its own accord (R135): with fewer than three stacks in states 1 to 5 each suspended bypass
resumes, and a deferred retraining may begin. -/
def State.settleBypass (s : State) : State :=
  let three := decide (3 ≤ s.unavailCount)
  ((List.range 24).foldl (fun s n => s.modStk n (fun x => { x with suspended := x.suspended && three && x.st == 1 })) s).startRetrain

/-- A forced transition has brought stacks to FAILED or OFFLINE_THERMAL (R135): with three or more in states 1 to 5 each bypass is
suspended. -/
def State.forceBypass (s : State) : State :=
  let three := decide (3 ≤ s.unavailCount)
  (List.range 24).foldl (fun s n => s.modStk n (fun x => { x with suspended := three && x.st == 1 })) s

/-- A background activity has failed (R340): its status is 4 until it begins anew, and the event is raised. -/
def State.bgFail (s : State) (i : Nat) : State := ({ s with um.bg := Tab.put s.um.bg i 4 } : State).event 0x0501 0x2600

/-- A stack enters FAILED (R134), and with it the catch-up or the retraining that it was in (R340); its stripe positions are taken over by the code (Table 12.2). -/
def State.failStack (s : State) (n : Nat) : State :=
  if (s.stk n).st = 5 then s
  else
    let was := (s.stk n).st
    let s := if was = 4 then s.bgFail 2 else if was = 3 then s.bgFail 3 else s
    ((s.setStackState n 5).logRebind 1 n n).forceBypass

/-- An uncorrected on-die error of a stack: flag, counters, and FAILED when the errors of the last hour pass
MEM_FAIL_THRESHOLD (R131, R134). -/
def State.uncorrError (s : State) (n : Nat) : State :=
  let now := s.sys.ts.toNat
  let s := (s.modStk n (fun x => { x with
    odUncorr := true
    errLog := x.errLog.filter (fun t => now < t + 2880000000000) ++ [now] })).stkCtr n 5 1
  if (s.stk n).errLog.length > s.obj 0x7040 5 then s.failStack n else s

/-- The severity that on-die ECC returns for a read of a stack, counted: corrected, or uncorrected (Table 6.1, R131). -/
def State.severity (s : State) (e : ReadErrs) (n : Nat) : State :=
  if e.uncorr.contains n then s.uncorrError n
  else if e.corr.contains n then (s.modStk n (fun x => { x with odCorr := true })).stkCtr n 4 1
  else s

/-! ## Reads -/

/-- What a read returns: bytes, which of them are poisoned, whether a unit was reconstructed, and whether a unit could
not be had (R131). -/
structure MemRes where
  bytes : List Byte
  pois : List Bool
  corr : Bool
  uncorr : Bool
  slow : Bool
  deriving DecidableEq, Repr

/-- Whether a stack's thermal policy slows an access to it: BYPASS, OFFLINE_THERMAL or CATCH_UP, and for a write its throttle
(R138, R139; DEDUCED, log 3). -/
def State.slowAt (s : State) (write : Bool) (n : Nat) : Bool :=
  let x := s.stk n
  x.st == 1 || x.st == 2 || x.st == 4 || (write && x.throttled)

/-- The lengths and addresses of the pieces of a range that lie in one 256 B unit each. -/
def unitPieces : Nat → Nat → Nat → List (Nat × Nat)
  | 0, _, _ => []
  | fuel + 1, a, n =>
    if n = 0 then []
    else
      let k := Nat.min n (256 - a % 256)
      (a, k) :: unitPieces fuel (a + k) (n - k)

/-- The unit pieces of a range. -/
def piecesOf (a n : Nat) : List (Nat × Nat) := unitPieces (n / 256 + 2) a n

/-- The units at some indices of a stripe are read: each stack counts the read and wakes (Table 15.1, R311). -/
def State.readUnits (s : State) (l21 : Bool) (stripe : Nat) (is : List Nat) : State :=
  is.foldl (fun (x : State) j => (x.stkCtr (s.stackOf l21 stripe j) 1 1).touch (s.stackOf l21 stripe j)) s

/-- The units that decoding a stripe reads, as many as its data units: with more at hand, the lowest positions (DESIGN CHOICE,
log 19). -/
def State.decodeReads (s : State) (l21 : Bool) (stripe : Nat) (er : List Nat) : List Nat :=
  let e := s.erasures l21 stripe er
  ((List.range (allUnits l21)).filter (fun j => !e.contains j)).take (dataUnits l21)

/-- The units that decoding a stripe reads: those it decodes with, and those on available stacks that turn out to be erasures by their
on-die ECC (R131). -/
def State.decodeTries (s : State) (l21 : Bool) (stripe : Nat) (e : ReadErrs) : List Nat :=
  let is := s.decodeReads l21 stripe (erasedBy e)
  is ++ (List.range (allUnits l21)).filter (fun j =>
    let n := s.stackOf l21 stripe j
    e.uncorr.contains n && !s.unavailable n stripe && !is.contains j)

/-- Units are read for an operation; each read returns its severity (R123, R131). -/
def State.readMeeting (s : State) (l21 : Bool) (stripe : Nat) (is : List Nat) (e : ReadErrs) : State :=
  is.foldl (fun (x : State) j => x.severity e (s.stackOf l21 stripe j)) (s.readUnits l21 stripe is)

/-- A piece of one unit as the stripe gives it: its bytes with their marks, none where it cannot be had (R131, R132). -/
def State.pieceVal (s : State) (l : Loc) (n : Nat) (er : List Nat) : Option (List Byte × List Bool) :=
  (s.unitVal l.l21 l.stripe er (2 + l.u)).map (fun v =>
    let m := s.poisonMask l.l21 l.stripe l.u
    ((v.drop l.b).take n, (List.range n).map (fun j => m.getLsbD ((l.b + j) / 32))))

/-- Read a piece of one unit (R127, R131). A corrected severity is a corrected error of the read (DEDUCED, log 3). -/
def State.readPiece (s : State) (pa n : Nat) (e : ReadErrs) : MemRes × State :=
  let l := s.locate pa
  let i := 2 + l.u
  let st := s.stackOf l.l21 l.stripe i
  let hd := s.homeDie l.l21 l.stripe
  let direct := !(s.erasures l.l21 l.stripe (erasedBy e)).contains i
  let dec := s.decodeTries l.l21 l.stripe e
  match s.pieceVal l n (erasedBy e) with
  | some v =>
    if direct then
      (⟨v.1, v.2, e.corr.contains st, false, s.slowAt false st⟩,
        ((s.readUnits l.l21 l.stripe [i]).severity e st).dieEvent hd 0x40 1 none)
    else
      (⟨v.1, v.2, true, false, s.slowAt false st⟩,
        ((s.readMeeting l.l21 l.stripe dec e).stkCtr st 3 1).dieEvent hd 0x41 1 none)
  | none =>
    let s1 := (s.readMeeting l.l21 l.stripe dec e).setPoison l.l21 l.stripe l.u 0xFF
    (⟨List.replicate n 0, List.replicate n true, false, true, s.slowAt false st⟩, { s1 with mem.undecodable := s1.mem.undecodable + 1 })

/-- Read a whole aligned stripe that has an unavailable unit, as one stripe read: the home reads as many units as the stripe has
data units, once, and returns the data units (R127). -/
def State.readStripe (s : State) (l21 : Bool) (stripe : Nat) (e : ReadErrs) : MemRes × State :=
  let us := List.range (dataUnits l21)
  let out := us.filter (fun u => (s.erasures l21 stripe (erasedBy e)).contains (2 + u))
  let vals := us.map (fun u => s.pieceVal ⟨l21, stripe, u, 0⟩ 256 (erasedBy e))
  let lost := us.filter (fun u => ((vals[u]?).getD none).isNone)
  let slow := us.any (fun u => s.slowAt false (s.stackOf l21 stripe (2 + u)))
  let dec := s.decodeTries l21 stripe e
  let s1 := s.readMeeting l21 stripe dec e
  let s2 := out.foldl (fun (x : State) u => if lost.contains u then x.setPoison l21 stripe u 0xFF
    else x.stkCtr (s.stackOf l21 stripe (2 + u)) 3 1) s1
  let got := vals.map (fun v => v.getD (List.replicate 256 0, List.replicate 256 true))
  (⟨(got.map (·.1)).flatten, (got.map (·.2)).flatten, decide (lost.length < out.length) || dec.any (fun j => e.corr.contains (s.stackOf l21 stripe j)), !lost.isEmpty, slow⟩,
    if lost.isEmpty then s2.dieEvent (s.homeDie l21 stripe) 0x41 1 none
    else { s2 with mem.undecodable := s2.mem.undecodable + 1 })

/-- Whether a range begins with a whole aligned stripe that has an unavailable unit (R127). -/
def State.stripeAt (s : State) (pa n : Nat) : Bool :=
  let l := s.locate pa
  l.u == 0 && l.b == 0 && decide (stripeBytes l.l21 ≤ n) &&
    (List.range (allUnits l.l21)).any (fun i => s.unavailable (s.stackOf l.l21 l.stripe i) l.stripe)

/-- Two results in a row. -/
def MemRes.append (a b : MemRes) : MemRes :=
  ⟨a.bytes ++ b.bytes, a.pois ++ b.pois, a.corr || b.corr, a.uncorr || b.uncorr, a.slow || b.slow⟩

/-- Read a range, `fuel` pieces at most: whole stripes with an unavailable unit by stripe reads, the rest unit by unit (R127). -/
def State.readGo (s : State) (e : ReadErrs) : Nat → Nat → Nat → MemRes → MemRes × State
  | 0, _, _, acc => (acc, s)
  | fuel + 1, pa, n, acc =>
    if n = 0 then (acc, s)
    else
      let whole := s.stripeAt pa n
      let l := s.locate pa
      let k := if whole then stripeBytes l.l21 else Nat.min n (256 - pa % 256)
      let r := if whole then s.readStripe l.l21 l.stripe e else s.readPiece pa k e
      State.readGo r.2 e fuel (pa + k) (n - k) (acc.append r.1)

/-- Read a range of striped memory. -/
def State.memReadE (s : State) (pa n : Nat) (e : ReadErrs) : MemRes × State :=
  s.readGo e (n / 256 + 2) pa n ⟨[], [], false, false, false⟩

/-- A read of the module's own units, whose stacks may return errors (R123, R131). -/
def State.memRead (s : State) (pa n : Nat) : MemRes × State :=
  let e := s.nextErrs
  e.2.memReadE pa n e.1

/-- The compute die of the home of an address, which detects an error there (R126, Table 12.13). -/
def State.dieAt (s : State) (pa : Nat) : Nat := let l := s.locate pa; s.homeDie l.l21 l.stripe

/-- The first address past the firmware-reserved memory (Table 1.7). -/
def reservedEnd : Nat := 2 ^ 32

/-- Bytes of the module's own structures in firmware-reserved memory: none where they cannot be had or are poisoned, and the module
enters safe hold, since the error is of unknown extent (R275, R283). -/
def State.tableRead (s : State) (pa n : Nat) : Option (List Byte) × State :=
  let r := s.memRead pa n
  if r.1.uncorr || r.1.pois.any id then (none, r.2.enterSafeHold 1 (s.dieAt pa)) else (some r.1.bytes, r.2)

/-! ## Writes -/

/-- Whether a write of a unit to a stack is skipped (Table 6.8, R137, R138): in states 2, 3 and 5; in a stale region
but for CATCH_UP; and beyond the throttle's slots of the last 10 us. -/
def State.skips (s : State) (n stripe : Nat) : Bool :=
  let x := s.stk n
  if x.st = 2 ∨ x.st = 3 ∨ x.st = 5 then true
  else if x.st ≠ 4 ∧ NSet.mem x.stale (region stripe) then true
  else if x.throttled then
    let now := s.sys.ts.toNat
    let cnt := (x.wrLog.filter (fun e => now < e.1 + 8000)).foldl (fun a e => a + e.2) 0
    decide (s.obj 0x7040 4 * 960 ≤ cnt)
  else false

/-- The write of the unit at index i of a stripe is skipped, and its region is stale (R137); a stack that has failed keeps no
stale map. A catch-up that has passed the stripe comes back to it, since the stripe is not done (R137, R138). -/
def State.skipUnit (s : State) (l21 : Bool) (stripe i : Nat) : State :=
  let n := s.stackOf l21 stripe i
  let s := (s.stkCtr n 6 1).dieEvent (s.homeDie l21 stripe) 0x44 1 none
  if (s.stk n).st = 5 then s
  else s.modStk n (fun x => { x with
    stale := NSet.insert x.stale (region stripe)
    catchNext := if x.st = 4 ∧ region x.catchNext = region stripe ∧ stripe < x.catchNext then stripe else x.catchNext })

/-- Write the unit at index i of a stripe, or skip it. -/
def State.writeUnit (s : State) (l21 : Bool) (stripe i : Nat) (bs : List Byte) : State :=
  let n := s.stackOf l21 stripe i
  if s.skips n stripe then s.skipUnit l21 stripe i
  else
    let now := s.sys.ts.toNat
    let s := (s.stkCtr n 2 1).modStk n (fun x => { x with
      selfRef := false
      wrLog := if x.throttled then x.wrLog.filter (fun e => now < e.1 + 8000) ++ [(now, 1)] else x.wrLog })
    { s with mem.units := s.mem.units.writeN (unitKey n stripe) bs }

/-- The bytes a write brings to one stripe: offset in the stripe, byte, and whether it is poisoned. -/
abbrev StripeWrite := List (Nat × Byte × Bool)

/-- The bytes of a stripe write that fall in data unit u. -/
def inUnit (w : StripeWrite) (u : Nat) : StripeWrite := w.filter (fun e => e.1 / 256 == u)

/-- Old bytes of a unit with a stripe write's bytes laid over them. -/
def overlay (old : List Byte) (w : StripeWrite) : List Byte :=
  w.foldl (fun bs e => patchAt bs (e.1 % 256) [e.2.1]) old

/-- The sector mask of a unit after a write (R132): a poisoned byte marks its sector, and a sector wholly written with
unpoisoned data is cleared. -/
def sectorMask (old : BitVec 8) (w : StripeWrite) : BitVec 8 :=
  (List.range 8).foldl (fun m k =>
    let sec := w.filter (fun e => e.1 % 256 / 32 == k)
    if sec.any (fun e => e.2.2) then m ||| (1#8 <<< k)
    else if sec.length ≥ 32 then m &&& ~~~ (1#8 <<< k) else m) old

/-- Perform a write to one stripe at its home (R128, R129), with its reads counted; `errs` are the errors that these meet: a delta
write whose own reads meet an erasure changes to reconstruct write. The result says whether the stripe could not be decoded for the write. -/
def State.writeStripe (s : State) (l21 : Bool) (stripe : Nat) (w : StripeWrite) (errs : ReadErrs) : Bool × State :=
  let er := (erasedBy errs)
  let nd := dataUnits l21
  let m := allUnits l21
  let us := (List.range nd).filter (fun u => !(inUnit w u).isEmpty)
  let e := s.erasures l21 stripe er
  let hd := s.homeDie l21 stripe
  let full := us.length == nd && us.all (fun u => decide (256 ≤ (inUnit w u).length))
  let first := decide (us.length ≤ 10) && (s.erasures l21 stripe []).isEmpty
  let olds := [0, 1] ++ us.map (2 + ·)
  let delta := first && !olds.any (fun i => e.contains i)
  let need := fun u => !delta && (!us.contains u || decide ((inUnit w u).length < 256))
  let old := fun u => s.unitVal l21 stripe er (2 + u)
  let lost := (List.range nd).filter (fun u => need u && (old u).isNone)
  let new := (List.range nd).map (fun u => (2 + u, overlay ((old u).getD zeroU) (inUnit w u)))
  let pars :=
    if delta then
      let diff := us.map (fun u => (2 + u, xorU ((old u).getD zeroU) (overlay ((old u).getD zeroU) (inUnit w u))))
      let rest := ((List.range nd).filter (fun u => !us.contains u)).map (fun u => (2 + u, zeroU))
      (parityOf m (diff ++ rest)).map (fun p => (p.1, xorU p.2 (s.rawUnit l21 stripe p.1)))
    else parityOf m new
  let writes := (new.filter (fun p => us.contains (p.1 - 2))) ++ pars
  let reads := if full then []
    else if delta then olds
    else
      let ns := ((List.range nd).filter (fun u => need u)).map (2 + ·)
      let rs := if ns.any (fun j => e.contains j) then s.decodeTries l21 stripe errs else ns
      rs ++ (if first then olds else []).filter (fun j => !rs.contains j)
  let s1 := (if full then s else s.readMeeting l21 stripe reads errs).dieEvent hd (if full then 0x42 else 0x43) 1 none
  let s2 := writes.foldl (fun (x : State) p => x.writeUnit l21 stripe p.1 p.2) s1
  let s3 := us.foldl (fun (x : State) u =>
    x.setPoison l21 stripe u (sectorMask (x.poisonMask l21 stripe u) (inUnit w u))) s2
  let s4 := lost.foldl (fun (x : State) u =>
    let ws := inUnit w u
    let mk := (List.range 8).foldl (fun (b : BitVec 8) k =>
      if (ws.filter (fun e => e.1 % 256 / 32 == k)).length ≥ 32 then b else b ||| (1#8 <<< k)) (0 : BitVec 8)
    x.setPoison l21 stripe u (mk ||| x.poisonMask l21 stripe u)) s3
  (!lost.isEmpty, if lost.isEmpty then s4 else { s4 with mem.undecodable := s4.mem.undecodable + 1 })

/-- The bytes of a range grouped by stripe. -/
def State.byStripe (s : State) (pa : Nat) (bs : List (Byte × Bool)) : List ((Bool × Nat) × StripeWrite) :=
  (piecesOf pa bs.length).foldl (fun (acc : List ((Bool × Nat) × StripeWrite)) p =>
    let l := s.locate p.1
    let w : StripeWrite := (List.range p.2).map (fun j =>
      let e := (bs[p.1 - pa + j]?).getD (0, false)
      (l.u * 256 + l.b + j, e.1, e.2))
    if acc.any (fun g => g.1 == (l.l21, l.stripe))
    then acc.map (fun g => if g.1 == (l.l21, l.stripe) then (g.1, g.2 ++ w) else g)
    else acc ++ [((l.l21, l.stripe), w)]) []

/-! ## Gathered writes (R128, R130) -/

/-- The key of a stripe in the gather buffers: layout and index. -/
def gatherKey (l21 : Bool) (stripe : Nat) : Nat := bit l21 * 2 ^ 30 + stripe

/-- A source's acknowledgements of an operation on a stripe become due (R130). -/
def State.ackAll (s : State) (srcs : List Nat) (stripe : Nat) : State :=
  { s with mem.acks := s.mem.acks ++ srcs.map (fun x => (x, stripe)) }

/-- A condition of a task that a core runs (R9). -/
def State.coreCond (s : State) (L : Nat) (st : Status) : State :=
  s.modCore L (fun cs => if cs.task.isSome then cs.condition st else cs)

/-- The sources of a write whose stripe could not be decoded: their tasks end, and their PUTs are answered, with
UNCORRECTABLE_MEMORY (R129, R216). -/
def State.lostFor (s : State) (srcs : List Nat) (stripe : Nat) : State :=
  srcs.foldl (fun (s : State) x =>
    if x < 320 then s.coreCond x St.uncorrectable
    else { s with fab.putsIn := s.fab.putsIn.map (fun i =>
      if i.port + 1000 = x ∧ i.stripe = some stripe then { i with st := St.uncorrectable } else i) }) s

/-- The home performs the write it has gathered for a stripe and frees its place (R128, R129); it is done for the context of the first
source that has one (R348; DEDUCED, log 19). -/
def State.performGather (s : State) (g : Gather) (errs : ReadErrs) : State :=
  let l21 := decide (2 ^ 30 ≤ g.stripe)
  let stripe := g.stripe % 2 ^ 30
  let w : StripeWrite := g.present.map (fun o => (o, g.bytes.read o, NSet.mem g.poison o))
  let r := s.writeStripe l21 stripe w errs
  let s2 := r.2.forCtx (g.srcs.findSome? s.srcCtx) s
  let s := ({ s2 with mem.gather := s2.mem.gather.filter (fun x => x.stripe != g.stripe) }).ackAll g.srcs stripe
  if r.1 then s.lostFor g.srcs stripe else s

/-- The bytes of a stripe write laid over those that gather for its stripe. -/
def Gather.join (g : Gather) (w : StripeWrite) : StripeWrite :=
  (g.present.filter (fun o => !w.any (fun e => e.1 == o))).map (fun o => (o, g.bytes.read o, NSet.mem g.poison o)) ++ w

/-- A write by the module's own units whose command covers it from its first unit to its last acknowledgement, stripe by stripe, each
with its window (R128). A stripe that gathers takes the write up, and the home writes both as one operation (DESIGN CHOICE: the gathering
ends with it, log 18). The result says whether a stripe could not be decoded. -/
def State.memWriteP (s : State) (pa : Nat) (bs : List (Byte × Bool)) : Bool × State :=
  (s.byStripe pa bs).foldl (fun (acc : Bool × State) g =>
    let k := gatherKey g.1.1 g.1.2
    let old := acc.2.mem.gather.find? (fun x => x.stripe == k)
    let e := acc.2.nextErrs
    let r := e.2.writeStripe g.1.1 g.1.2 ((old.map (·.join g.2)).getD g.2) e.1
    let s := match old with
      | some x =>
        let s := ({ r.2 with mem.gather := r.2.mem.gather.filter (fun y => y.stripe != k) }).ackAll x.srcs g.1.2
        if r.1 then s.lostFor x.srcs g.1.2 else s
      | none => r.2
    (acc.1 || r.1, s)) (false, s)

/-- A write of unpoisoned bytes. -/
def State.memWrite (s : State) (pa : Nat) (bs : List Byte) : Bool × State :=
  s.memWriteP pa (bs.map (fun b => (b, false)))

/-- Free bytes in a range (R55, R169, R238; log 14). -/
def State.memScramble (s : State) (pa n : Nat) : State :=
  let f := s.freeBytes n
  (f.2.memWrite pa f.1).2

end Sys2Proof.Machine
end

