-- ==== Sys2Proof/Machine/Gather.lean ====
section
/-! DEFINITION. The accesses of the sources of striped memory: reads and the order that a source keeps (R11, R130, R131), and the
writes that their homes gather (R128, R129). -/

namespace Sys2Proof.Machine
open Sys2Proof

/-! ## The order of one source's accesses (R11, R130) -/

/-- The source number of firmware (DESIGN CHOICE, log 24): cores are 0 to 319, the units of an I/O die 320 to 331, ports from 1000. -/
def fwSrc : Nat := 2000

/-- The source number of a write whose task has been killed: nothing waits for its acknowledgement (R55; DESIGN CHOICE, log 24). -/
def orphanSrc : Nat := 3000

/-- Whether two ranges have a 256 B unit in common; units are aligned in either layout (R124, R141). -/
def unitsMeet (a n b m : Nat) : Bool :=
  decide (0 < n) && decide (0 < m) && decide (a / 256 ≤ (b + m - 1) / 256) && decide (b / 256 ≤ (a + n - 1) / 256)

/-- Whether a source has an unacknowledged write to a stripe (R130): gathering, waiting at its port, or performed. -/
def State.owes (s : State) (src : Nat) (l : Loc) : Bool :=
  s.mem.acks.contains (src, l.stripe)
    || s.mem.gather.any (fun g => g.stripe == gatherKey l.l21 l.stripe && g.srcs.contains src)
    || s.mem.portWait.any (fun w => w.1 == src && (let k := s.locate w.2.1; k.l21 == l.l21 && k.stripe == l.stripe))

/-- Whether a source holds back an access to one of these units already (R11). -/
def State.heldAhead (s : State) (src pa len : Nat) : Bool :=
  s.mem.readWait.any (fun h => h.src == src && unitsMeet h.pa h.len pa len)

/-- Whether a source holds back a read because of its own writes, or of an earlier access that it holds (R11, R130). -/
def State.holdsRead (s : State) (src pa len : Nat) : Bool :=
  (piecesOf pa len).any (fun p => s.owes src (s.locate p.1)) || s.heldAhead src pa len

/-! ## Reads -/

/-- What a read met, in the status of the core's task that it is for (R131). -/
def State.readNote (s : State) (src : Nat) (r : MemRes) : State :=
  if src < 320 then
    let s := if r.corr then s.modCore src (fun cs => cs.note St.okCorr) else s
    if r.uncorr then s.modCore src (fun cs => cs.note St.uncorrectable) else s
  else s

/-- Firmware finds its reserved memory in error: safe hold (R283, R284). -/
def State.readCheck (s : State) (src pa : Nat) (r : MemRes) : State :=
  if src = fwSrc ∧ pa < reservedEnd ∧ (r.uncorr || r.pois.any id) = true then s.enterSafeHold 1 (s.dieAt pa) else s

/-- A read returns to its source. -/
def State.readTo (s : State) (src pa len : Nat) (e : ReadErrs) : State :=
  let r := s.memReadE pa len e
  let t := ((r.2.forCtx (s.srcCtx src) s).readNote src r.1).emit
    (.readData src r.1.bytes r.1.pois (if r.1.uncorr then St.uncorrectable else if r.1.corr then St.okCorr else St.ok))
  t.readCheck src pa r.1

/-- A read of striped memory by a source, held back while it has an unacknowledged write to one of its units (R127, R130). -/
def State.readStriped (s : State) (src pa len : Nat) (e : ReadErrs) : State :=
  if !s.dieOn then s
  else if pa + len > s.stripedEnd then s.emit (.readData src [] [] St.address)
  else if s.holdsRead src pa len then { s with mem.readWait := s.mem.readWait ++ [⟨src, pa, len, e, none⟩] }
  else s.readTo src pa len e

/-! ## Gathered writes (R128) -/

/-- Whether a gathering's home is the stack given. -/
def State.homedAt (s : State) (home : Nat) (g : Gather) : Bool :=
  s.stackOf (decide (2 ^ 30 ≤ g.stripe)) (g.stripe % 2 ^ 30) 0 == home

/-- Stripes of one home in the gather buffer. -/
def State.gathered (s : State) (home : Nat) : Nat := (s.mem.gather.filter (s.homedAt home)).length

/-- Whether the home of an address can take a piece of a write: it joins the stripe's gathering, or opens one while fewer than 32
stripes gather there (R128). -/
def State.canGather (s : State) (pa : Nat) : Bool :=
  let l := s.locate pa
  s.mem.gather.any (fun g => g.stripe == gatherKey l.l21 l.stripe) || decide (s.gathered (s.stackOf l.l21 l.stripe 0) < 32)

/-- The sources of a gathering with one more: a core waits for one acknowledgement of the operation, a port for one of each PUT
(R216), nobody for that of a killed task's write. -/
def addSrc (srcs : List Nat) (src : Nat) : List Nat :=
  if src = orphanSrc ∨ (src < 1000 ∧ srcs.contains src = true) then srcs else srcs ++ [src]

/-- The first PUT of a port that waits for its stripe has joined it (R216). -/
def joinPut (l : List PutIn) (port stripe : Nat) : List PutIn :=
  match l with
  | [] => []
  | i :: l => if i.port = port ∧ i.stripe.isNone then { i with stripe := some stripe } :: l else i :: joinPut l port stripe

/-- A piece of a write in one stripe joins the stripe's gathering. A complete stripe is written at once. -/
def State.joinGather (s : State) (src pa : Nat) (bs : List (Byte × Bool)) : State :=
  let l := s.locate pa
  let k := gatherKey l.l21 l.stripe
  let base := l.u * 256 + l.b
  let g := (s.mem.gather.find? (fun g => g.stripe == k)).getD ⟨k, [], [], [], []⟩
  let marks := bs.zipIdx.map (fun e => (base + e.2, e.1.2))
  let g : Gather := { g with
    bytes := g.bytes.writeN base (bs.map (·.1))
    present := marks.foldl (fun t e => NSet.insert t e.1) g.present
    poison := marks.foldl (fun t e => if e.2 then NSet.insert t e.1 else NSet.remove t e.1) g.poison
    srcs := addSrc g.srcs src }
  let s := { s with
    mem.gather := s.mem.gather.filter (fun x => x.stripe != k) ++ [g]
    fab.putsIn := if 1000 ≤ src then joinPut s.fab.putsIn (src - 1000) l.stripe else s.fab.putsIn }
  if g.present.length = stripeBytes l.l21 then s.performGather g noErrs else s

/-- The writes that wait at their sources' ports come forward, each source's in order, as far as there is room (R128). `fuel` of
them at most. -/
def State.admitGo (s : State) : Nat → State
  | 0 => s
  | fuel + 1 =>
    let q := s.mem.portWait
    match q.find? (fun w => q.find? (fun v => v.1 == w.1) == some w && s.canGather w.2.1) with
    | none => s
    | some w => State.admitGo ({ s with mem.portWait := q.erase w }.joinGather w.1 w.2.1 w.2.2) fuel

def State.admitWaiting (s : State) : State := s.admitGo s.mem.portWait.length

/-- A piece of a write in one stripe arrives at its home, or waits at its source's port behind what waits there (R128). -/
def State.gatherPiece (s : State) (src pa : Nat) (bs : List (Byte × Bool)) : State :=
  if s.mem.portWait.any (fun w => w.1 == src) || !s.canGather pa then
    { s with mem.portWait := s.mem.portWait ++ [(src, pa, bs)] }
  else (s.joinGather src pa bs).admitWaiting

/-- A source sends a write of one unit, behind what it holds back for the unit (R11, R128). -/
def State.sendPiece (s : State) (src pa : Nat) (bs : List (Byte × Bool)) : State :=
  if s.heldAhead src pa bs.length then { s with mem.readWait := s.mem.readWait ++ [⟨src, pa, bs.length, noErrs, some bs⟩] }
  else s.gatherPiece src pa bs

/-- A write leaves its source unit by unit. -/
def State.sendWrite (s : State) (src pa : Nat) (bs : List (Byte × Bool)) : State :=
  (piecesOf pa bs.length).foldl (fun (s : State) p => s.sendPiece src p.1 ((bs.drop (p.1 - pa)).take p.2)) s

/-- A write of striped memory by a source. -/
def State.writeStriped (s : State) (src pa : Nat) (bs : List Byte) (poison : Bool) : State :=
  if !s.dieOn then s
  else if pa + bs.length > s.stripedEnd then s.emit (.readData src [] [] St.address)
  else s.sendWrite src pa (bs.map (fun b => (b, poison)))

/-! ## What waits goes on -/

/-- A held access goes, unless the source must still hold it: a read for its own writes, either behind what it holds before it. -/
def State.releaseOne (s : State) (h : HeldRead) : State :=
  let t := { s with mem.readWait := s.mem.readWait.takeWhile (fun x => x != h) }
  let r := { s with mem.readWait := s.mem.readWait.erase h }
  match h.wr with
  | some bs => if t.heldAhead h.src h.pa h.len then s else r.gatherPiece h.src h.pa bs
  | none => if t.holdsRead h.src h.pa h.len then s else r.readTo h.src h.pa h.len h.errs

/-- The accesses that a source holds back go, in order, as far as its writes are acknowledged. -/
def State.releaseReads (s : State) (src : Nat) : State :=
  (s.mem.readWait.filter (fun h => h.src == src)).foldl State.releaseOne s

/-- The home of an address makes room for one more stripe: the window of its first gathering ends (R128). -/
def State.makeRoom (s : State) (pa : Nat) : State :=
  if s.canGather pa then s
  else
    let l := s.locate pa
    match s.mem.gather.find? (s.homedAt (s.stackOf l.l21 l.stripe 0)) with
    | some g => let e := s.nextErrs; e.2.performGather g e.1
    | none => s

/-- The pieces that wait at a source's port come forward, each as its home has room. -/
def State.bringPort (s : State) (src : Nat) : State :=
  (s.mem.portWait.filter (fun w => w.1 == src)).foldl (fun (s : State) w =>
    let s := s.makeRoom w.2.1
    { s with mem.portWait := s.mem.portWait.erase w }.joinGather src w.2.1 w.2.2) s

/-- The windows of a source's own gatherings of a range end. -/
def State.endWindows (s : State) (src pa len : Nat) : State :=
  (piecesOf pa len).foldl (fun (s : State) p =>
    let l := s.locate p.1
    match s.mem.gather.find? (fun g => g.stripe == gatherKey l.l21 l.stripe && g.srcs.contains src) with
    | some g => let e := s.nextErrs; e.2.performGather g e.1
    | none => s) s

/-- A source waits until its own writes to the units of a range are made, before a read of its own within one command (R130). -/
def State.settleOwn (s : State) (src pa len : Nat) : State :=
  if !(piecesOf pa len).any (fun p => s.owes src (s.locate p.1)) then s
  else (if s.mem.portWait.any (fun w => w.1 == src && unitsMeet w.2.1 w.2.2.length pa len) then s.bringPort src else s).endWindows src pa len

/-- The acknowledgements of a source's writes to the units of a range, which it has waited for. -/
def State.acksOf (s : State) (src pa len : Nat) : List Nat :=
  (s.mem.acks.filter (fun a => a.1 == src && (piecesOf pa len).any (fun p => (s.locate p.1).stripe == a.2))).map (·.2)

/-- A source's own accesses before a read within one command: its writes are made and acknowledged, and what it held goes (R130). -/
def State.settleGo (s : State) (src pa len : Nat) : Nat → State
  | 0 => s
  | fuel + 1 =>
    if !s.holdsRead src pa len then s
    else
      let s := s.settleOwn src pa len
      let s := (s.acksOf src pa len).foldl (fun (s : State) k => { s with mem.acks := s.mem.acks.erase (src, k) }) s
      State.settleGo (s.releaseReads src) src pa len fuel

def State.settleCore (s : State) (src pa len : Nat) : State := s.settleGo src pa len (s.mem.readWait.length + 1)

end Sys2Proof.Machine
end

