-- ==== Sys2Proof/Machine/Translate.lean ====
section
/-! DEFINITION. Address translation (R23 to R26) and accesses by device virtual address. -/

namespace Sys2Proof.Machine
open Sys2Proof

/-- What an access needs of a leaf: bits of Table 1.8. -/
inductive Perm where
  | r | w | x | fab | host
  deriving DecidableEq, Repr

def Perm.bitNo : Perm → Nat
  | .r => 2
  | .w => 3
  | .x => 4
  | .fab => 5
  | .host => 6

/-- The outcome of a table walk: the leaf with its level and page number, a fault, or an error in the table itself, with which the
module is in safe hold. -/
inductive Walk where
  | leaf (level page : Nat) (entry : BitVec 64)
  | fault
  | broken
  deriving DecidableEq, Repr

/-- Whether an entry has a reserved bit set (Table 1.8). -/
def entryReserved (e : BitVec 64) : Bool := bits e 11 7 != 0 || bits e 63 48 != 0

/-- An entry of a table is read: none where it is in error (R275), and one that is not valid outside striped memory (R22). -/
def State.tableEntry (s : State) (pa : Nat) : Option (BitVec 64) × State :=
  if s.stripedEnd < pa + 8 then (some 0, s)
  else let r := s.tableRead pa 8; (r.1.map (fun b => BitVec.ofNat 64 (leNat b)), r.2)

/-- What a level-1 entry is: the end of the walk, or none where it names a level-2 table (Table 1.8). -/
def level1 (e : BitVec 64) (va : Nat) : Option Walk :=
  if bits e 0 0 = 0 ∨ entryReserved e then some .fault
  else if bits e 1 1 = 1 then some (if bits e 29 12 ≠ 0 then .fault else .leaf 1 (va / 2 ^ 30) e)
  else none

/-- What a level-2 entry is (Table 1.8). -/
def level2 (e : BitVec 64) (va : Nat) : Walk :=
  if bits e 0 0 = 0 ∨ bits e 1 1 = 0 ∨ entryReserved e ∨ bits e 20 12 ≠ 0 then .fault else .leaf 2 (va / 2 ^ 21) e

/-- Walk the page table of context c (R23, R24): the entries are read from striped memory, whose stacks count the reads and wake
(Table 15.1, R311). -/
def State.walk (s : State) (c va : Nat) : Walk × State :=
  let root := Tab.get 0 s.xl.ptRoot c
  if va ≥ 2 ^ 48 ∨ bits root 0 0 = 0 then (.fault, s)
  else
    let r := s.tableEntry (bits root 47 21 * 2 ^ 21 + 8 * (va / 2 ^ 30))
    match r.1 with
    | none => (.broken, r.2)
    | some e1 =>
      match level1 e1 va with
      | some w => (w, r.2)
      | none =>
        let q := r.2.tableEntry (bits e1 47 12 * 4096 + 8 * (va / 2 ^ 21 % 512))
        match q.1 with
        | none => (.broken, q.2)
        | some e2 => (level2 e2 va, q.2)

/-- The held translation of an address, if any (R25). -/
def State.held (s : State) (c va : Nat) : Option TlbEntry :=
  s.xl.tlb.find? (fun t => t.c == c && ((t.level == 1 && t.page == va / 2 ^ 30) || (t.level == 2 && t.page == va / 2 ^ 21)))

/-- The physical address that a leaf gives, with the access's permissions and range checked (R24). -/
def State.viaLeaf (s : State) (level : Nat) (e : BitVec 64) (va : Nat) (ps : List Perm) : Option Nat :=
  let size := if level = 1 then 2 ^ 30 else 2 ^ 21
  let pa := bits e 47 12 * 4096 + va % size
  if ps.all (fun p => e.getLsbD p.bitNo) && decide (2 ^ 32 ≤ pa) && decide (pa < s.stripedEnd) then some pa else none

/-- Translate an address through the table, and hold the translation in place of one held for the address before; an error in the
table is a fault of unknown extent (R275, R283). -/
def State.fetchLeaf (s : State) (c va : Nat) (ps : List Perm) : Option Nat × State :=
  let w := s.walk c va
  match w.1 with
  | .leaf lv pg e =>
    let old := s.held c va
    (w.2.viaLeaf lv e va ps, { w.2 with xl.tlb := ⟨c, lv, pg, e⟩ :: w.2.xl.tlb.filter (fun t => some t != old) })
  | _ => (none, w.2)

/-- Translate an address of context c. With EN = 0 every access faults (Table 1.10). A held translation serves; one that differs from the
table's may serve, or the table's entry (R25; log 11). -/
def State.xlate (s : State) (c va : Nat) (ps : List Perm) : Option Nat × State :=
  if bits (Tab.get 0 s.xl.ptRoot c) 0 0 = 0 then (none, s)
  else match s.held c va with
    | none => s.fetchLeaf c va ps
    | some h =>
      if (s.walk c va).1 = .leaf h.level h.page h.entry then (s.viaLeaf h.level h.entry va ps, s)
      else
        let f := s.free
        if f.1 % 2 = 0 then (f.2.viaLeaf h.level h.entry va ps, f.2) else f.2.fetchLeaf c va ps

/-- The result of an access by virtual address: what was read before a fault, and whether there was one. -/
structure VaRes where
  bytes : List Byte
  pois : List Bool
  fault : Bool
  corr : Bool
  uncorr : Bool
  slow : Bool
  deriving DecidableEq, Repr

/-- The physical ranges of n bytes at an address of context c, up to a fault: pieces that follow one another are one range (R49,
R127). -/
def State.vaRuns (s : State) (c va n : Nat) (ps : List Perm) : (Bool × List (Nat × Nat)) × State :=
  let t := (piecesOf va n).foldl (fun (acc : (Bool × List (Nat × Nat)) × State) p =>
    if acc.1.1 then acc
    else
      let x := acc.2.xlate c p.1 ps
      match x.1 with
      | none => ((true, acc.1.2), x.2)
      | some pa => ((false, match acc.1.2 with
          | (a, k) :: rest => if a + k = pa then (a, k + p.2) :: rest else (pa, p.2) :: (a, k) :: rest
          | [] => [(pa, p.2)]), x.2)) ((false, []), s)
  ((t.1.1, t.1.2.reverse), t.2)

/-- Read n bytes at an address of context c, up to a fault (R49); a whole aligned stripe with an unavailable unit is one stripe read
(R127). A source that has writes of its own to the units waits for them first (R130). -/
def State.vaReadBy (s : State) (src : Option Nat) (c va n : Nat) (ps : List Perm) : VaRes × State :=
  let t := s.vaRuns c va n ps
  t.1.2.foldl (fun (acc : VaRes × State) p =>
    let x := match src with
      | some L => acc.2.settleCore L p.1 p.2
      | none => acc.2
    let r := x.memRead p.1 p.2
    (⟨acc.1.bytes ++ r.1.bytes, acc.1.pois ++ r.1.pois, acc.1.fault, acc.1.corr || r.1.corr, acc.1.uncorr || r.1.uncorr,
      acc.1.slow || r.1.slow⟩, r.2.forCtx (some c) x))
    (⟨[], [], t.1.1, false, false, false⟩, t.2)

/-- A read of one of the module's engines. -/
def State.vaRead (s : State) (c va n : Nat) (ps : List Perm) : VaRes × State := s.vaReadBy none c va n ps

/-- The result of a write by virtual address. -/
structure VaWr where
  fault : Bool
  uncorr : Bool
  slow : Bool
  dst : List (Space × Nat × Nat)
  deriving DecidableEq, Repr

/-- Whether a write meets a stack that its thermal policy slows: the units written and the parities (R139). -/
def State.writeSlow (s : State) (g : List (Nat × List (Byte × Bool))) : Bool :=
  (List.range 24).any (s.slowAt true) && g.any (fun p => (s.byStripe p.1 p.2).any (fun e =>
    (List.range (allUnits e.1.1)).any (fun i =>
      (decide (i < 2) || !(inUnit e.2 (i - 2)).isEmpty) && s.slowAt true (s.stackOf e.1.1 e.1.2 i))))

/-- Write bytes at an address of context c, unit by unit, up to a fault; pieces of one stripe that follow one another
are one operation at the home. A core's writes go to the homes and gather there (R128); of them what the homes meet is known later. -/
def State.vaWrite (s : State) (src : Option Nat) (c va : Nat) (bs : List (Byte × Bool)) (ps : List Perm) : VaWr × State :=
  let t := (piecesOf va bs.length).foldl (fun (acc : (Bool × List (Nat × List (Byte × Bool))) × State) p =>
    if acc.1.1 then acc
    else
      let x := acc.2.xlate c p.1 ps
      match x.1 with
      | none => ((true, acc.1.2), x.2)
      | some pa =>
        let piece := (bs.drop (p.1 - va)).take p.2
        let g := match acc.1.2 with
          | (a, l) :: rest => if a + l.length = pa then (a, l ++ piece) :: rest else (pa, piece) :: (a, l) :: rest
          | [] => [(pa, piece)]
        ((false, g), x.2)) ((false, []), s)
  let w := t.1.2.reverse.foldl (fun (acc : Bool × State) g =>
    let r := match src with
      | some L => (false, acc.2.sendWrite L g.1 g.2)
      | none => acc.2.memWriteP g.1 g.2
    (acc.1 || r.1, r.2.forCtx (some c) acc.2)) (false, t.2)
  (⟨t.1.1, w.1, t.2.writeSlow t.1.2, t.1.2.reverse.map (fun g => (Space.pa, g.1, g.2.length))⟩, w.2)

/-- Whether every page of a range has the permissions. -/
def State.vaOk (s : State) (c va n : Nat) (ps : List Perm) : Bool × State :=
  let pages := (List.range (n / 2 ^ 21 + 2)).filterMap (fun i =>
    let a := (va / 2 ^ 21 + i) * 2 ^ 21
    if i = 0 then some va else if a < va + n then some a else none)
  if va + n > 2 ^ 48 then (false, s)
  else pages.foldl (fun (acc : Bool × State) a =>
    let x := acc.2.xlate c a ps
    (acc.1 && x.1.isSome, x.2)) (true, s)

/-- A register or field wider than 48 bits names an address only if its high bits are 0 (R24). -/
def wide (a : Nat) : Bool := decide (2 ^ 48 ≤ a)

end Sys2Proof.Machine
end

