-- ==== Sys2Proof/Machine/Memory.lean ====
section
/-! DEFINITION. The commands of striped memory (06): the ends of windows and requests, temperature, catch-up, re-stripe, scrub and
retraining. -/

namespace Sys2Proof.Machine
open Sys2Proof

/-! ## Rows of gathered writes and timeouts -/

/-- MEM_REQUEST_TIMEOUT (R131): the stack's unit is an erasure for this read. -/
def execMemRequestTimeout (src pa len stack : Nat) (s : State) : Host.Outcome State Fault Refusal :=
  onStack stack s (fun s => s.readStriped src pa len ⟨[], [], [stack]⟩)

/-- The effect of GATHER_WINDOW_EXPIRY, with the errors that the operation's reads meet. -/
def fxGatherWindowExpiry (o : StripeOp) (s : State) : State :=
  if !s.dieOn then s
  else match s.mem.gather.find? (fun g => g.stripe % 2 ^ 30 == o.stripe) with
    | some g => (s.performGather g o.errs).admitWaiting
    | none => s

/-- GATHER_WINDOW_EXPIRY (R128, R129). -/
def execGatherWindowExpiry (stripe : StripeOp) (s : State) : Host.Outcome State Fault Refusal :=
  .next (fxGatherWindowExpiry stripe s)

/-! ## Temperature (R138) and the thermal trip (R322) -/

/-- a ≤ b for two FP32 codes; NaN compares with nothing. -/
def f32le (a b : Fp.Val) : Bool :=
  match Fp.cmp a b with
  | some .gt => false
  | some _ => true
  | none => false

/-- The value of an F32 code. -/
def f32 (w : Nat) : Fp.Val := Fp.decode Fp.fp32 w

/-- A thermal trip: THERMTRIP_N asserted, clocks stopped, regulators off, memory contents lost (R322). -/
def State.thermalTrip (s : State) : State :=
  if s.pwr.thermTrip then s
  else { s with
    pwr.thermTrip := true
    sys.thermtripN := false
    sys.regulators := false
    sys.pllLock := s.sys.pllLock &&& 0x1000
    mem.units := []
    mem.gather := []
    mem.portWait := []
    mem.acks := []
    mem.readWait := []
    cores := Tab.mapV s.cores (fun _ cs => { cs with
      tm := [], am := [], tmPoison := [], amPoison := [], task := none, queue := [], inflight := [], ended := none })
    ctxs := Tab.mapV s.ctxs (fun _ x => { x with started := [] })
    coll.runs := [] }

/-- A stack enters CATCH_UP (R137); with an empty stale map the next CATCH_UP_STRIPE makes it ONLINE. -/
def State.toCatchUp (s : State) (n : Nat) : State := ({ s.modStk n (fun x => { x with catchNext := 0 }) with um.bg := Tab.del s.um.bg 2 } : State).setStackState n 4

/-- Whether R135 lets one more stack enter BYPASS: no more than two would then be in states 1 to 5. -/
def State.bypassAllowed (s : State) (n : Nat) : Bool :=
  let st := (s.stk n).st
  if 1 ≤ st ∧ st ≤ 5 then decide (s.unavailCount ≤ 2) else decide (s.unavailCount + 1 ≤ 2)

/-- The release value of Table 6.9: the lower of 88 °C and MEM_T_BYPASS − 4 °C. -/
def State.releaseTemp (s : State) : Fp.Val :=
  Fp.min (.fin false 88 0) (Fp.sub (f32 (s.obj 0x7040 2)) (.fin false 4 0))

/-- The actions of Table 6.9 on one reading. -/
def fxStackTemp (n : Nat) (t : BitVec 32) (s : State) : State :=
  let v := f32 t.toNat
  let ge := fun (w : Nat) => f32le (f32 w) v
  let s := s.modStk n (fun x => { x with
    temp := some t
    refresh2x := if ge (s.obj 0x7040 1) then true else if f32le v (.fin false 82 0) then false else x.refresh2x })
  if f32le (.fin false 105 0) v then s.thermalTrip
  else
    let st := (s.stk n).st
    if st = 6 then s
    else if st = 5 then
      (if ge (s.obj 0x7040 2) then s.modStk n (fun x => { x with throttled := true })
      else if f32le v s.releaseTemp then s.modStk n (fun x => { x with throttled := false, wrLog := [] }) else s)
    else if ge (s.obj 0x7040 3) then
      ((s.modStk n (fun x => { x with throttled := true, selfRef := true })).setStackState n 2).forceBypass
    else if ge (s.obj 0x7040 2) then
      let s := s.modStk n (fun x => { x with throttled := true })
      if (st = 0 ∨ st = 4) ∧ s.bypassAllowed n then (s.setStackState n 1).settleBypass else s
    else if f32le v s.releaseTemp then
      let was := (s.stk n).throttled
      let s := s.modStk n (fun x => { x with throttled := false, wrLog := [] })
      if st = 1 ∨ st = 2 then
        ((s.modStk n (fun x => { x with selfRef := x.selfRef && !s.dieOn })).toCatchUp n).settleBypass
      else if st = 0 ∧ was ∧ !(s.stk n).stale.isEmpty then (s.toCatchUp n).settleBypass
      else s
    else s

/-- STACK_TEMP_READING (R138). -/
def execStackTempReading (stack : Nat) (t : BitVec 32) (s : State) : Host.Outcome State Fault Refusal :=
  onStack stack s (fun s => if s.sys.vaux && s.sys.regulators then fxStackTemp stack t s else s)

/-! ## Catch-up (R137) -/

/-- The index at which a stack stands in a stripe. -/
def State.indexOf (s : State) (l21 : Bool) (stripe n : Nat) : Option Nat :=
  (List.range (allUnits l21)).find? (fun i => s.stackOf l21 stripe i == n)

/-- Settle a stripe that cannot be decoded (R129, R137), with the errors that its reads meet: each data unit that cannot be had is zero and
poisoned, the stripe is encoded again, the unit at `i` and the parities are written, and the units on other unavailable stacks are
skipped. -/
def State.settleStripe (s : State) (l21 : Bool) (stripe i : Nat) (errs : ReadErrs) : State :=
  let nd := dataUnits l21
  let e := s.erasures l21 stripe (erasedBy errs)
  let lost := (List.range nd).filter (fun u => e.contains (2 + u))
  let data := (List.range nd).map (fun u => (2 + u, if lost.contains u then zeroU else s.rawUnit l21 stripe (2 + u)))
  let all := data ++ parityOf (allUnits l21) data
  let s1 := lost.foldl (fun (x : State) u => x.setPoison l21 stripe u 0xFF) (s.readMeeting l21 stripe (s.decodeTries l21 stripe errs) errs)
  let s2 := all.foldl (fun (x : State) p =>
    if p.1 = i then x.writeUnit l21 stripe p.1 p.2
    else if s.unavailable (s.stackOf l21 stripe p.1) stripe then x.skipUnit l21 stripe p.1
    else if p.1 < 2 then x.writeUnit l21 stripe p.1 p.2 else x) s1
  { s2 with mem.undecodable := s2.mem.undecodable + 1 }

/-- The layout of a stripe whose row is `stripe`, beside a running re-stripe. -/
def State.rowLayout (s : State) (stripe : Nat) : Bool := s.in21 (stripe * 5376)

/-- The next stripe of catch-up: the stack's unit is rebuilt from the others, once the stack's throttle has a slot for it (R138); a
region whose stripes are done is clear, and with an empty map the stack is ONLINE. -/
def fxCatchUp (n : Nat) (s : State) : State :=
  if !s.dieOn ∨ (s.stk n).st ≠ 4 then s
  else match (s.stk n).stale with
    | [] => (s.setStackState n 0).settleBypass
    | r :: _ =>
      let x := s.stk n
      let stripe := if region x.catchNext = r then x.catchNext else r * 8192
      let l21 := s.rowLayout stripe
      if s.skips n stripe then s
      else
        let s1 := match s.indexOf l21 stripe n with
          | none => s
          | some i =>
            let d := s.nextErrs
            let e : ReadErrs := ⟨d.1.corr, d.1.uncorr.filter (· != n), n :: d.1.phy⟩
            match d.2.unitVal l21 stripe (erasedBy e) i with
            | some v => (d.2.readMeeting l21 stripe (d.2.decodeTries l21 stripe e) e).writeUnit l21 stripe i v
            | none => d.2.settleStripe l21 stripe i e
        let s2 := s1.modStk n (fun x => { x with
          catchNext := stripe + 1
          stale := if (stripe + 1) % 8192 = 0 then NSet.remove x.stale r else x.stale })
        if (s2.stk n).stale.isEmpty then (s2.setStackState n 0).settleBypass else s2

/-- CATCH_UP_STRIPE (R137). -/
def execCatchUpStripe (stack : Nat) (s : State) : Host.Outcome State Fault Refusal := onStack stack s (fxCatchUp stack)

/-! ## Re-stripe (R140 to R144) -/

/-- Whether a leaf of a context's page table maps a page in the range that a re-stripe gives up (R140). -/
def State.mapsTop (s : State) (c : Nat) : Bool :=
  bits (Tab.get 0 s.xl.ptRoot c) 0 0 == 1 &&
  (List.range (2 ^ 18)).any (fun i => (List.range 512).any (fun j =>
    match (s.walk c (i * 2 ^ 30 + j * 2 ^ 21)).1 with
    | .leaf lv _ e =>
      let lo := bits e 47 12 * 4096
      let hi := lo + (if lv = 1 then 2 ^ 30 else 2 ^ 21)
      decide (0x02A000000000 < hi ∧ lo < 0x02C000000000)
    | _ => false))

/-- The stacks that have FAILED. -/
def State.failedStacks (s : State) : List Nat := (List.range 24).filter (fun n => (s.stk n).st == 5)

/-- Whether the range that a re-stripe gives up may take no new mapping: a stack has FAILED in the 22+2 layout (R140). -/
def State.topClosed (s : State) : Bool := !s.failedStacks.isEmpty && !s.mem.layout21

/-- MEM_RESTRIPE_STATUS: WAIT_SPACE while the range is closed and not yet free (R140, Table 6.12). -/
def State.restripeStatus (s : State) : Nat :=
  if 2 ≤ s.mem.restripe then s.mem.restripe
  else bit (s.topClosed && (List.range 16).any (fun c => s.mapsTop c))

/-- A re-stripe starts, unless its range is not free (R140). -/
def State.tryRestripe (s : State) : State :=
  match s.failedStacks with
  | [n] =>
    if s.mem.layout21 ∨ 2 ≤ s.mem.restripe ∨ s.obj 0x7010 1 ≠ 1 then s
    else if (List.range 16).any (fun c => s.mapsTop c) then s
    else { s with mem.restripe := 2, mem.watermark := 0x02A000000000, mem.removed := some n }
  | _ => s

/-- RESTRIPE_START (R140): modes 0 and 1 start of their own accord. -/
def execRestripeStart (s : State) : Host.Outcome State Fault Refusal :=
  .next (if s.dieOn ∧ s.obj 0x7010 2 ≤ 1 then s.tryRestripe else s)

/-- The foreground writes that gather for the old stripes of a step reach their home before it, under its interlock (R126, R143). -/
def State.flushOld (s : State) (base : Nat) : State :=
  (s.mem.gather.filter (fun g => decide (g.stripe < 2 ^ 30 ∧ base < (g.stripe + 1) * 5632 ∧ g.stripe * 5632 < base + 5376))).foldl
    (fun (s : State) g => let e := s.nextErrs; e.2.performGather g e.1) s

/-- Steps 3 and 4 of R142, from the journal: the new stripe is written, the watermark falls below it, and the journal is clear.
After the last one the layout is 21+2 and the failed stack is REMOVED. -/
def State.restripeWrite (s : State) : State :=
  match s.mem.journal with
  | none => s
  | some (base, bs) =>
    let s1 := { s with mem.watermark := base }
    let w : StripeWrite := bs.zipIdx.map (fun e => (e.2, e.1.1, e.1.2))
    let s2 := (s1.writeStripe true (base / 5376) w noErrs).2
    let s2 := { s2 with mem.journal := none }
    if base = 0 then
      let s3 := { s2 with mem.restripe := 3, mem.layout21 := true }
      (match s3.mem.removed with
      | some n => s3.setStackState n 6
      | none => s3).settleBypass.admitWaiting
    else s2.admitWaiting

/-- One step of a re-stripe (R142): the data of the next new stripe is read in the old layout into the journal, and written in the
new one. Where the read leaves the module in safe hold, the journal stays for the engine to replay (R144). -/
def fxRestripeStep (s : State) : State :=
  if !s.dieOn ∨ s.mem.restripe ≠ 2 ∨ s.obj 0x7010 1 ≠ 1 ∨ s.mem.watermark < 5376 then s
  else
    let base := s.mem.watermark - 5376
    let r := (s.flushOld base).memRead base 5376
    let s1 := { r.2 with mem.journal := some (base, r.1.bytes.zip r.1.pois) }
    if s1.alive then s1.restripeWrite else s1

/-- RESTRIPE_STEP (R142). -/
def execRestripeStep (s : State) : Host.Outcome State Fault Refusal := .next (fxRestripeStep s)

/-! ## Scrub (R146) and retraining (R147) -/

/-- The index whose unit alone is wrong, given the syndromes: S1 = α^e · S0 in every byte. -/
def wrongUnit (m : Nat) (sy : List Byte × List Byte) : Option Nat :=
  (List.range m).find? (fun i => sy.2 == mulU (gfPow (symPow m i)) sy.1)

/-- A unit of a stripe is corrected by scrub, and counted (R146). -/
def State.scrubFix (s : State) (l21 : Bool) (stripe i : Nat) (v : List Byte) : State :=
  let s := (s.writeUnit l21 stripe i v).dieEvent (s.homeDie l21 stripe) 0x46 1 none
  { s with mem.scrubFixes := s.mem.scrubFixes + 1 }

/-- A stripe that scrub finds undecodable: all its data units are entered in the poison table, and it is reported (R146); one of
firmware-reserved memory brings the module into safe hold (R283). -/
def State.scrubLost (s : State) (l21 : Bool) (stripe : Nat) : State :=
  let s := (List.range (dataUnits l21)).foldl (fun (x : State) u => x.setPoison l21 stripe u 0xFF) s
  let s := ({ s with mem.undecodable := s.mem.undecodable + 1 } : State).bgFail 1
  if stripe * stripeBytes l21 < reservedEnd then s.enterSafeHold 1 (s.homeDie l21 stripe) else s

/-- Whether scrub takes a stripe: in host-assisted mode only those in the ranges written to MEM_SCRUB_RANGE (Table 14.9). -/
def State.scrubs (s : State) (stripe : Nat) : Bool :=
  s.obj 0x7020 2 != 2 || (match Tab.find s.um.doms 0x702005 with
    | some bs => Config.scrubRange bs stripe
    | none => false)

/-- Patrol scrub of one stripe, with the errors that its reads meet: units on unavailable stacks and those that an error makes
erasures are decoded from the others, and the latter rewritten (R131); without erasures a single wrong unit is corrected. With one
erasure a check remains: where it fails, the stripe is undecodable (DEDUCED, log 18). In standby it is due, and wakes the module (R311,
R316). -/
def fxScrub (o : StripeOp) (s : State) : State :=
  if !s.alive ∨ s.obj 0x7020 1 ≠ 1 ∨ !s.scrubs o.stripe then s
  else if !s.dieOn then s.wakeBy 9
  else
    let stripe := o.stripe
    let l21 := s.rowLayout stripe
    let m := allUnits l21
    let away := s.erasures l21 stripe []
    let e := s.erasures l21 stripe (erasedBy o.errs)
    let us := ((List.range m).filter (fun j => !e.contains j)).map (fun i => (i, s.rawUnit l21 stripe i))
    let sy := syndromes m us
    let s := s.readMeeting l21 stripe ((List.range m).filter (fun j => !away.contains j)) o.errs
    if e.length ≥ 3 then s.scrubLost l21 stripe
    else match e with
      | [] =>
        if sy.1 == zeroU && sy.2 == zeroU then s
        else match wrongUnit m sy with
          | some i => s.scrubFix l21 stripe i (xorU (s.rawUnit l21 stripe i) sy.1)
          | none => s.scrubLost l21 stripe
      | i :: rest =>
        if rest.isEmpty && sy.2 != mulU (gfPow (symPow m i)) sy.1 then s.scrubLost l21 stripe
        else ((solveErasures m us e).filter (fun d => !away.contains d.1)).foldl (fun (s : State) d => s.scrubFix l21 stripe d.1 d.2) s

/-- SCRUB_STRIPE (R146). -/
def execScrubStripe (stripe : StripeOp) (s : State) : Host.Outcome State Fault Refusal := .next (fxScrub stripe s)

/-- The interval of retraining has passed for the stack whose turn it is: it begins if R135 allows it, and waits otherwise; in
standby it wakes the module first (R311, R316). -/
def fxRetrain (n : Nat) (s : State) : State :=
  if !s.alive ∨ s.obj 0x7030 1 ≠ 1 ∨ n ≠ s.nextRetrain then s
  else if !s.dieOn then ({ s with mem.retrainDue := true } : State).wakeBy 9
  else ({ s with mem.retrainDue := true } : State).startRetrain

/-- STACK_RETRAIN (R147). -/
def execStackRetrain (stack : Nat) (s : State) : Host.Outcome State Fault Refusal := onStack stack s (fxRetrain stack)

/-- Retraining ends: CATCH_UP, or FAILED. -/
def fxRetrainEnd (n : Nat) (ok : Bool) (s : State) : State :=
  if (s.stk n).st ≠ 3 then s
  else if ok then (s.toCatchUp n).settleBypass
  else ((s.modStk n (fun x => { x with trainFail := true })).failStack n).startRetrain

/-- RETRAIN_END (R147). -/
def execRetrainEnd (stack : Nat) (ok : Bool) (s : State) : Host.Outcome State Fault Refusal :=
  onStack stack s (fxRetrainEnd stack ok)

end Sys2Proof.Machine
end

