-- ==== Sys2Proof/Machine/Flags.lean ====
section
/-! DEFINITION. Every flag computation of a core: the overflow and index-range flags with their counts (R101, R113), the
stochastic-rounding draw (R103), and the three status registers (R56, R78, R122). -/

namespace Sys2Proof.Machine
open Sys2Proof

/-- n conversions overflowed: OVERFLOW and the overflow event (R101). -/
def CoreState.overflowed (cs : CoreState) (n : Nat) : CoreState :=
  if n = 0 then cs else (cs.setSticky 0).event 0x0C n

/-- n permutation indices were out of range (R113). -/
def CoreState.indexRange (cs : CoreState) (n : Nat) : CoreState :=
  if n = 0 then cs else (cs.setSticky 1).event 0x0D n

/-- One draw: u, and the core with SEED advanced and the draw counted (R103). -/
def CoreState.draw (cs : CoreState) : Nat × CoreState :=
  let x := Fp.seedStep cs.seed
  (Fp.drawOf x, ({ cs with seed := x }).event 0x0E 1)

/-- Convert a value to a floating-point format, with a draw where rounding is stochastic; the code and the core with the
overflow flagged (R98 to R104). -/
def CoreState.convert (cs : CoreState) (f : Fp.Fmt) (sat sr : Bool) (v : Fp.Val) : Nat × CoreState :=
  let d := if sr then cs.draw else (0, cs)
  let r := Fp.encode f sat (if sr then .sr d.1 else .rne) v
  (r.1, d.2.overflowed (bit r.2))

/-- As `convert`, to an integer of n bits in two's complement. -/
def CoreState.convertInt (cs : CoreState) (n : Nat) (sr : Bool) (v : Fp.Val) : Nat × CoreState :=
  let d := if sr then cs.draw else (0, cs)
  let r := Fp.toInt (-(2 ^ (n - 1))) (2 ^ (n - 1) - 1) (if sr then .sr d.1 else .rne) v
  ((r.1 % 2 ^ n).toNat, d.2.overflowed (bit r.2))

/-- Convert a value to an element type. -/
def CoreState.convertTo (cs : CoreState) (t : Nat) (sat sr : Bool) (v : Fp.Val) : Nat × CoreState :=
  match fmtOf t with
  | some f => cs.convert f sat sr v
  | none => cs.convertInt (etBits t) sr v

/-! ## Status registers -/

/-- SEQ_TASK_STATUS (Table 2.10). -/
def CoreState.seqTaskStatus (cs : CoreState) : BitVec 32 :=
  BitVec.ofNat 32 (bit cs.task.isSome + 2 * bit cs.stallQueue + 4 * bit cs.stallScore + 8 * bit cs.stallEnq
    + 16 * bit cs.stallFence + 2 ^ 8 * cs.sticky.toNat + 2 ^ 16 * (cs.pc % 4096))

/-- RBD_CORE_MAP of a core (Table 1.4). -/
def CoreState.mapWord (cs : CoreState) : BitVec 32 :=
  BitVec.ofNat 32 (cs.physIdx % 64 + 2 ^ 8 * Nat.min 255 cs.rebindCount + 2 ^ 16 * bit (decide (40 ≤ cs.physIdx))
    + 2 ^ 17 * bit cs.failed)

def CoreState.part (cs : CoreState) (p : Nat) : Part := Tab.get Part.reset cs.parts p
def CoreState.setPart (cs : CoreState) (p : Nat) (x : Part) : CoreState := { cs with parts := Tab.put cs.parts p x }

/-- Partitions of a mode (Table 3.11). -/
def partsOf (mode : Nat) : Nat := if mode = 0 then 1 else if mode = 1 then 2 else 4

/-- The class of an issued instruction, and its opcode, as its word in the code has them. -/
def CoreState.opOf (cs : CoreState) (i : InFlight) : Nat × Nat :=
  let w := Tab.get 0 cs.code i.pc
  (bits w 127 124, bits w 123 116)

/-- Whether an issued instruction is a pass that carries the swap token of partition p, or a load of it. -/
def CoreState.swaps (cs : CoreState) (p : Nat) (i : InFlight) : Bool :=
  i.part == some p && cs.opOf i == (1, 0x02) && (Tab.get 0 cs.code i.pc).getLsbD 104
def CoreState.loads (cs : CoreState) (p : Nat) (i : InFlight) : Bool := i.part == some p && cs.opOf i == (1, 0x01)

/-- Whether a load of partition p stands behind a swap token that is in flight (R64). -/
def CoreState.loadHeld (cs : CoreState) (p : Nat) : Bool :=
  (cs.inflight.foldl (fun (x : Bool × Bool) i => (x.1 || cs.swaps p i, x.2 || (x.1 && cs.loads p i))) (false, false)).2

/-- MXU_STATUS (Table 3.13). -/
def CoreState.mxuStatus (cs : CoreState) : BitVec 32 :=
  let per := fun (g : Nat → Bool) => (List.range 4).foldl (fun a p => a + (if g p then 2 ^ p else 0)) 0
  BitVec.ofNat 32 (cs.mode + 16 * per (fun p => cs.inflight.any (fun i => i.part == some p))
    + 256 * per (fun p => (cs.part p).faulted) + 4096 * bit cs.suspect)

/-- MXU_PART_STATUS[p] (Table 3.14). DESIGN CHOICE (log 8): a count of more passes than PASS_COUNT holds shows modulo 8192.
DEDUCED (log 3): a swap token is in flight until its pass completes, and a load behind it is held that long. -/
def CoreState.mxuPartStatus (cs : CoreState) (p : Nat) : BitVec 32 :=
  if partsOf cs.mode ≤ p then 0
  else
    let x := cs.part p
    let f := fun (o : Option StatSet) => match o with
      | some t => t.fmt
      | none => 15
    BitVec.ofNat 32 (bit x.win.isSome + 2 * bit ((x.win.map (·.fresh)).getD false)
      + 4 * bit (cs.inflight.any (cs.swaps p)) + 8 * bit (cs.loadHeld p) + 16 * f x.front + 256 * f x.back
      + 4096 * (x.passCount % 8192) + 2 ^ 25 * (x.faultSrc % 8))

/-- Whether vec.cvt runs on the main path: FP32 and BF16 in either order, SAT = 0 and SR = 0 (R115). -/
def cvtMain (w : TileWord) : Bool :=
  let et := bits w 87 84
  let st := bits w 83 80
  ((et == 6 && st == 4) || (et == 4 && st == 6)) && bits w 79 78 == 0

/-- VXU_STATUS (Table 5.11). A busy bit tells that an instruction of its kind has started and is not complete: of VEC, of RED,
of the transcendental pipe (0x20 to 0x26) and of the conversion pipe. -/
def CoreState.vxuStatus (cs : CoreState) : BitVec 32 :=
  let busy := fun (g : Nat × Nat → Bool) => bit (cs.inflight.any (fun i => g (cs.opOf i)))
  let conv := cs.inflight.any (fun i => cs.opOf i == (2, 0x38) && !cvtMain (Tab.get 0 cs.code i.pc))
  BitVec.ofNat 32 (busy (fun o => o.1 == 2) + 2 * busy (fun o => o.1 == 6)
    + 4 * busy (fun o => o.1 == 2 && decide (0x20 ≤ o.2) && decide (o.2 ≤ 0x26)) + 8 * bit conv + 16 * cs.vl + 2 ^ 16 * cs.lastOpc.toNat
    + 2 ^ 24 * bit cs.lastRed)

end Sys2Proof.Machine
end

