-- ==== Sys2Proof/Machine/Issue.lean ====
section
/-! DEFINITION. The task sequencer: issue of tile instructions with its holds (R33 to R37), the end of a task (R54 to R57),
and completion of an issued instruction (R36). An instruction's row issues it and gives its effect; its scoreboard
entries and pending registers are held until UNIT_INSTRUCTION_COMPLETE (log 3). -/

namespace Sys2Proof.Machine
open Sys2Proof

/-! ## The end of a task -/

/-- What a task contributes to its command: its conditions, with OK_WITH_CORRECTIONS where a correction flag is its only
condition (R9, R57). -/
def CoreState.taskStatus (cs : CoreState) : Status :=
  let st := combine cs.conds
  if st = St.ok ∧ (cs.sticky.getLsbD 2 ∨ cs.sticky.getLsbD 3 ∨ cs.sticky.getLsbD 5) then St.okCorr else st

/-- DETAIL of a task's condition: logical core, PC and TASK (Table 7.7). -/
def taskDetail (L pc : Nat) : BitVec 32 := BitVec.ofNat 32 (L + 2 ^ 16 * (pc % 4096) + 2 ^ 31)

/-- The command of a key in its context's list. -/
def State.findCmd (s : State) (k : CmdKey) : Option Cmd := (s.ctx k.c).started.find? (fun m => m.key == k)

/-- Change the started command of a key. -/
def State.modCmd (s : State) (k : CmdKey) (g : Cmd → Cmd) : State :=
  s.modCtx k.c (fun x => { x with started := x.started.map (fun m => if m.key == k then g m else m) })

/-- A command's access met a reconstruction, which its status shows (R131), or a stack's thermal policy, which its flag shows
(R139, Table 7.7). -/
def Cmd.met (m : Cmd) (corr slow : Bool) : Cmd :=
  { m with
    conds := if corr then m.conds ++ [(St.okCorr, 0)] else m.conds
    flags := if slow then m.flags ||| 4 else m.flags }

/-- A task's report reaches the front end: its status, the sticky flags, and one task fewer to wait for (R54, R162). -/
def Cmd.report (m : Cmd) (st : Status) (flags : BitVec 3) (detail : BitVec 32) : Cmd :=
  { m with
    conds := if st = St.ok then m.conds else m.conds ++ [(st, detail)]
    flags := m.flags ||| flags
    tasksLeft := m.tasksLeft - 1
    finished := decide (m.tasksLeft ≤ 1) }

/-- The task of core L ends and reports (R54, R57). -/
def State.finishTask (s : State) (L : Nat) : State :=
  let cs := s.core L
  match cs.task with
  | none => s
  | some t =>
    let st := cs.taskStatus
    let s := s.modCmd t.key (fun m => m.report st (BitVec.ofNat 3 (cs.sticky.toNat % 4)) (taskDetail L cs.pc))
    s.setCore L { cs with
      task := none
      ended := none
      conds := []
      firmConds := []
      drain := false
      enqHold := false
      stallQueue := false
      stallScore := false
      stallEnq := false
      stallFence := false
      ctr := if cs.ended = some St.ok then cs.ctr else addCtr cs.ctr 8 1 }

/-- Whether a source has writes that are not acknowledged: performed, gathering, waiting at its port, or held back (R11, R130). -/
def State.writesOut (s : State) (src : Nat) : Bool :=
  s.mem.acks.any (fun a => a.1 == src) || s.mem.gather.any (fun g => g.srcs.contains src) || s.mem.portWait.any (fun w => w.1 == src)
    || s.mem.readWait.any (fun h => h.src == src && h.wr.isSome)

/-- Whether a task that has stopped issue has nothing left to wait for (R54, R75, R185). -/
def State.drained (s : State) (L : Nat) : Bool :=
  let cs := s.core L
  cs.inflight.isEmpty && decide (cs.hoistsOut = 0) && cs.putsOut.isEmpty && !cs.rebindDue &&
    !s.writesOut L

/-- A stopped task reports as soon as it is drained. -/
def State.settle (s : State) (L : Nat) : State :=
  if (s.core L).ended.isSome && s.drained L then s.finishTask L else s

/-- Issue stops and the task ends with a condition, 0x0000 for ctl.end (R54). A task that has already stopped and drains only
notes a further condition of what it had issued. -/
def CoreState.stop (cs : CoreState) (st : Status) : CoreState :=
  if cs.ended.isSome then (if st = St.ok then cs else cs.note st)
  else { (if st = St.ok then cs else cs.condition st) with
    ended := some st
    enqHold := false
    stallQueue := false
    stallScore := false
    stallEnq := false
    stallFence := false }

/-- The task of core L ends. -/
def State.endTask (s : State) (L : Nat) (st : Status) : State := (s.modCore L (fun cs => cs.stop st)).settle L

/-! ## Issue -/

/-- What an instruction declares at issue: address registers it reads or writes, those whose poison reaches control
(R275), the outcome of the checks on register values and tracked state (none: they pass), scoreboard blocks (R36), the
A register and P it leaves pending, its partition, the ranges it writes (R55), whether it waits, and whether it is held until
earlier instructions have completed (R68). -/
structure Plan where
  aUse : List Nat := []
  ctl : List Nat := []
  check : Option Status := none
  rd : NSet := []
  wr : NSet := []
  part : Option Nat := none
  aDst : Option Nat := none
  pDst : Bool := false
  dst : List (Space × Nat × Nat) := []
  waiting : Bool := false
  blocks : Bool := false
  acq : Bool := false
  hold : Bool := false
  deriving DecidableEq, Repr

/-- Whether a task issues on core L (R54, R55, R284). -/
def State.issuing (s : State) (L : Nat) : Bool :=
  let cs := s.core L
  s.alive && cs.task.isSome && cs.ended.isNone && !cs.drain && !cs.failed && decide (cs.gate = .on)

/-- The registers written late by instructions in flight (R111, R179). -/
def CoreState.aPend (cs : CoreState) : List Nat := cs.inflight.filterMap (·.aDst)

/-- Whether a write of P is pending (R36). -/
def CoreState.pPend (cs : CoreState) : Bool := cs.inflight.any (·.pDst)

/-- Whether a strike or watch with ACQ holds issue (R186). -/
def CoreState.acqHold (cs : CoreState) : Bool := cs.inflight.any (fun i => i.acq && i.waiting)

/-- Whether the scoreboard holds an instruction (R36), and not one of the same partition (R62). -/
def CoreState.conflict (cs : CoreState) (p : Plan) : Bool :=
  cs.inflight.any (fun i =>
    !(i.part.isSome && i.part == p.part) &&
    (i.wr.any (fun b => NSet.mem p.rd b || NSet.mem p.wr b) || i.rd.any (fun b => NSet.mem p.wr b)))

/-- Instructions of a unit in its queue (R35). -/
def CoreState.queued (cs : CoreState) (u : TUnit) : Nat := (cs.inflight.filter (fun i => i.unit == u)).length

/-- PE, PN and the predicate (R33, R34). -/
def peBit (f : TileFields) : Bool := f.getLsbD 115
def pnBit (f : TileFields) : Bool := f.getLsbD 114

/-- PC moves to `t`, unless the instruction has ended the task; a target outside the code ends it (R38). -/
def State.goto (s : State) (L : Nat) (t : Int) : State :=
  match (s.core L).task with
  | none => s
  | some k =>
    if (s.core L).ended.isSome then s
    else if t < 0 ∨ (k.codeLen : Int) ≤ t then s.endTask L St.invalid
    else s.modCore L (fun cs => { cs with pc := t.toNat })

/-- PC moves to the next instruction; there must be one (R38). -/
def State.advance (s : State) (L : Nat) : State := s.goto L ((s.core L).pc + 1)

/-- A stall is shown until the instruction issues (R56). -/
def State.stall (s : State) (L : Nat) (g : CoreState → CoreState) : State :=
  s.modCore L (fun cs => g { cs with stallQueue := false, stallScore := false, stallEnq := false, stallFence := false })

/-- An instruction issues: no stall shows, and it is counted (R34, Table 15.2). -/
def CoreState.issued (cs : CoreState) : CoreState :=
  ({ cs with stallQueue := false, stallScore := false, stallEnq := false, stallFence := false }).event 0x02 1

/-- The checks that precede the operands of any instruction: the word must be the one at PC; an instruction-store error
(R53), an invalid form (R33) or a pending predicate (R36) is met first; a false predicate only takes the issue (R34).
Otherwise `go` decides. -/
def State.front (s : State) (L : Nat) (w : TileWord) (f : TileFields) (ok : Bool) (go : State → State) : State :=
  let cs := s.core L
  if !s.issuing L then s
  else if Tab.get 0 cs.code cs.pc ≠ w then s
  else if cs.acqHold then s.stall L (fun cs => { cs with stallFence := true })
  else
    let e := Tab.get 0 cs.imemErr cs.pc
    let s := if e = 1 then s.modCore L (fun cs => { cs.setSticky 5 with
        imemErr := Tab.del cs.imemErr cs.pc, ctr := addCtr cs.ctr 6 1 }) else s
    if 2 ≤ e then s.endTask L St.uncorrectable
    else if !ok || (!peBit f && pnBit f) then s.endTask L St.invalid
    else if peBit f && cs.pPend then s.stall L (fun cs => { cs with stallScore := true })
    else if peBit f && cs.p == pnBit f then (s.modCore L CoreState.issued).advance L
    else go s

/-- The instruction enters its unit's queue with what it declared (R35, R36). -/
def CoreState.push (cs : CoreState) (u : TUnit) (p : Plan) : CoreState :=
  let i : InFlight := {
    seq := cs.seqNo
    pc := cs.pc
    unit := u
    rd := p.rd
    wr := p.wr
    aDst := p.aDst
    pDst := p.pDst
    part := p.part
    dst := p.dst
    waiting := p.waiting
    blocks := p.blocks
    acq := p.acq
    undo := none }
  { cs with inflight := cs.inflight ++ [i], seqNo := cs.seqNo + 1 }

/-- The holds and checks that depend on registers and state, in this order: a pending register, poison that reaches
control (R275), the plan's check, a full queue, the scoreboard, the plan's own wait. Then the instruction issues. -/
def State.operands (s : State) (L : Nat) (u : TUnit) (p : Plan) (go : State → State) : State :=
  let cs := s.core L
  if p.aUse.any (fun r => cs.aPend.contains r) then s.stall L (fun cs => { cs with stallScore := true })
  else if p.ctl.any cs.Ap then s.endTask L St.poison
  else match p.check with
    | some st => s.endTask L st
    | none =>
      if u != .seq && decide (16 ≤ cs.queued u) then s.stall L (fun cs => { cs with stallQueue := true })
      else if cs.conflict p then s.stall L (fun cs => { cs with stallScore := true })
      else if p.hold then s.stall L id
      else go s

/-- Issue an instruction of class `cls` and opcode `opc` to unit `u`: its plan, then its effect. -/
def State.issue (s : State) (L cls opc : Nat) (f : TileFields) (ok : Bool) (u : TUnit) (plan : State → Plan)
    (act : State → State) : State :=
  s.front L (tileWord cls opc f) f ok (fun s =>
    let p := plan s
    s.operands L u p (fun s => (act (s.modCore L (fun cs => (cs.issued).push u p))).advance L))

/-- Issue a CTL instruction, which the sequencer executes itself; `act` also moves PC. -/
def State.issueCtl (s : State) (L opc : Nat) (f : TileFields) (ok : Bool) (plan : State → Plan)
    (act : State → State) : State :=
  s.front L (tileWord 5 opc f) f ok (fun s =>
    s.operands L .seq (plan s) (fun s => act (s.modCore L CoreState.issued)))

/-! ## Completion -/

/-- The flags and conditions that an instruction raised are taken back no more. -/
def CoreState.confirm (cs : CoreState) (i : InFlight) : CoreState :=
  match i.undo with
  | none => cs
  | some u => { cs with firm := cs.firm ||| u.sticky, firmConds := u.conds.foldl addCond cs.firmConds }

/-- The instruction `n` of a core leaves its queue; the flags and conditions that it raised stand from then on (R75). -/
def CoreState.retire (cs : CoreState) (n : Nat) : CoreState :=
  let cs := (cs.inflight.filter (fun i => i.seq == n)).foldl CoreState.confirm cs
  { cs with inflight := cs.inflight.filter (fun i => i.seq != n) }

/-- The youngest instruction in flight declares ranges that it writes (R55). -/
def CoreState.addDst (cs : CoreState) (d : List (Space × Nat × Nat)) : CoreState :=
  { cs with inflight := match cs.inflight.reverse with
      | i :: rest => ({ i with dst := i.dst ++ d } :: rest).reverse
      | [] => [] }

/-- Whether instruction j, which is in flight, completes before i (R35). The units start their instructions in queue order. DEDUCED
(log 3): MXU instructions of different partitions or opcodes run side by side (R63, R66), and so do VEC instructions, whose paths and
latencies differ (R111); they complete in either order. The others complete in the order of their queue. -/
def CoreState.ahead (cs : CoreState) (i j : InFlight) : Bool :=
  j.unit == i.unit && decide (j.seq < i.seq) && (match i.unit with
    | .mxu => i.part == j.part && cs.opOf i == cs.opOf j
    | .vec => (cs.opOf i).1 == 6 && (cs.opOf j).1 == 6
    | _ => true)

/-- Whether no older instruction of its unit must complete first (R35, R66, R111). -/
def CoreState.oldest (cs : CoreState) (i : InFlight) : Bool := !cs.inflight.any (cs.ahead i)

end Sys2Proof.Machine
end

