-- ==== Sys2Proof/Machine/Mover.lean ====
section
/-! DEFINITION. The data mover's local instructions (R48, R49, R380): mov.copy and mov.fill. -/

namespace Sys2Proof.Machine
open Sys2Proof

/-! ## MOV fields (Table 2.7) -/

def movSrc (f : TileFields) : Nat := bits f 111 108
def movDst (f : TileFields) : Nat := bits f 107 104
def movDir (f : TileFields) : Nat := bits f 103 100
def movRowBytes (f : TileFields) : Nat := bits f 99 80
def movRows (f : TileFields) : Nat := bits f 79 64
/-- Source row stride in bytes. -/
def movSS (f : TileFields) : Int := 8 * sext 24 (bits f 63 40)
/-- Destination row stride in bytes. -/
def movDS (f : TileFields) : Int := 8 * sext 24 (bits f 39 16)
def movRank (f : TileFields) : Nat := bits f 15 12

/-- The checks of R48 and Table 2.7 on the fields common to the opcodes. -/
def movOk (f : TileFields) : Bool :=
  bits f 113 112 == 0 && bits f 11 0 == 0 && movRowBytes f != 0 && movRowBytes f % 8 == 0 && movRows f != 0

/-- The source and destination of a direction (Table 2.8). -/
def dirSpaces (d : Nat) : Space × Space :=
  match d with
  | 0 => (.pa, .tm)
  | 1 => (.tm, .pa)
  | 2 => (.tm, .tm)
  | 3 => (.am, .tm)
  | 4 => (.tm, .am)
  | 5 => (.pa, .am)
  | 6 => (.am, .pa)
  | _ => (.pa, .pa)

/-- Address of row n. -/
def rowAddr (base : Nat) (stride : Int) (n : Nat) : Int := (base : Int) + n * stride

/-- The interval bounded by the first and last byte of all rows (R48). -/
def rowSpan (base : Nat) (stride : Int) (rows rb : Nat) : Int × Int :=
  let last := rowAddr base stride (rows - 1)
  (min (base : Int) last, max (base : Int) last + rb)

/-- Whether rows in a memory of the core lie inside it; a device virtual range is checked as it is used (R49). -/
def rowsIn (sp : Space) (base : Nat) (stride : Int) (rows rb : Nat) : Bool :=
  let r := rowSpan base stride rows rb
  match sp with
  | .pa => true
  | .tm => decide (0 ≤ r.1) && decide (r.2 ≤ locSize false)
  | .am => decide (0 ≤ r.1) && decide (r.2 ≤ locSize true)

/-- The scoreboard blocks of rows in a memory of the core. -/
def rowBlocks (sp : Space) (base : Nat) (stride : Int) (rows rb : Nat) : NSet :=
  match sp with
  | .pa => []
  | .tm => (List.range rows).foldl (fun b n => NSet.union b (blocksOf false (rowAddr base stride n).toNat rb)) []
  | .am => (List.range rows).foldl (fun b n => NSet.union b (blocksOf true (rowAddr base stride n).toNat rb)) []

/-- Whether two spans of one memory overlap. -/
def spansMeet (x y : Int × Int) : Bool := decide (x.1 < y.2) && decide (y.1 < x.2)

/-- The plan of mov.copy (R36, R48). A tile-to-tile copy that both overlaps and leaves tile memory is INVALID_INSTRUCTION: the fields are
checked before the ranges (DEDUCED, log 3). -/
def copyPlan (L : Nat) (f : TileFields) (s : State) : Plan :=
  let cs := s.core L
  let sp := dirSpaces (movDir f)
  let a := cs.A (movSrc f)
  let b := cs.A (movDst f)
  let n := movRows f
  let rb := movRowBytes f
  { aUse := [movSrc f, movDst f]
    ctl := [movSrc f, movDst f]
    check :=
      if a % 8 ≠ 0 ∨ b % 8 ≠ 0 then some St.invalid
      else if sp = (.tm, .tm) ∧ spansMeet (rowSpan a (movSS f) n rb) (rowSpan b (movDS f) n rb) then some St.invalid
      else if !rowsIn sp.1 a (movSS f) n rb || !rowsIn sp.2 b (movDS f) n rb then some St.address
      else none
    rd := rowBlocks sp.1 a (movSS f) n rb
    wr := rowBlocks sp.2 b (movDS f) n rb
    dst := if sp.2 = .pa then [] else (List.range n).map (fun i => (sp.2, (rowAddr b (movDS f) i).toNat, rb)) }

/-- What a mover access met, noted in the task's status (R49, R131, R272). -/
def State.moverNote (s : State) (L : Nat) (corr uncorr slow : Bool) : State :=
  let s := match slow, (s.core L).task with
    | true, some t => s.modCmd t.key (fun m => m.met false true)
    | _, _ => s
  let s := if corr then s.modCore L (fun cs => cs.note St.okCorr) else s
  if uncorr then s.modCore L (fun cs => cs.note St.uncorrectable) else s

/-- Requests of up to 256 B that a range takes (R50). -/
def requestsOf (a n : Nat) : Nat := (piecesOf a n).length

/-- The context of the task that core L runs. -/
def State.ctxOf (s : State) (L : Nat) : Nat := (((s.core L).task).map (·.key.c)).getD 0

/-- Read a row: its bytes up to a fault with poison marks, and whether a translation faulted (R49). A row whose device virtual address is
below 0, or from 2^48 on, is outside every context's memory and faults: the address does not wrap (DEDUCED, log 11). -/
def State.moverRead (s : State) (L : Nat) (sp : Space) (a : Int) (n : Nat) (ps : List Perm) :
    (List (Byte × Bool) × Bool) × State :=
  match sp with
  | .tm => let r := (s.core L).load false a.toNat n; ((r.1, false), s.setCore L r.2)
  | .am => let r := (s.core L).load true a.toNat n; ((r.1, false), s.setCore L r.2)
  | .pa =>
    if a < 0 then (([], true), s)
    else
      let r := s.vaReadBy (some L) (s.ctxOf L) a.toNat n ps
      let s := (r.2.moverNote L r.1.corr r.1.uncorr r.1.slow).modCore L (fun cs =>
        cs.event 0x07 (requestsOf a.toNat r.1.bytes.length))
      ((List.zip r.1.bytes r.1.pois, r.1.fault), if r.1.pois.any id then s.modCore L CoreState.poisoned else s)

/-- Write a row: whether a translation faulted, and how many bytes went before it (R49). -/
def State.moverWrite (s : State) (L : Nat) (sp : Space) (a : Int) (bs : List (Byte × Bool)) : (Bool × Nat) × State :=
  match sp with
  | .tm => ((false, bs.length), s.modCore L (fun cs => cs.store false a.toNat bs))
  | .am => ((false, bs.length), s.modCore L (fun cs => cs.store true a.toNat bs))
  | .pa =>
    if a < 0 then ((true, 0), s)
    else
      let r := s.vaWrite (some L) (s.ctxOf L) a.toNat bs [.w]
      let k := (r.1.dst.map (·.2.2)).sum
      let s := (r.2.moverNote L false r.1.uncorr r.1.slow).modCore L (fun cs =>
        ((if (bs.take k).any (·.2) then cs.poisoned else cs).event 0x07 (requestsOf a.toNat k)).addDst r.1.dst)
      ((r.1.fault, k), s)

/-- n bytes are read, or written, by the data mover (Table 15.1). -/
def State.moverBytes (s : State) (L rd wr : Nat) : State :=
  s.modCore L (fun cs => { cs with ctr := addCtr (addCtr cs.ctr 4 rd) 5 wr })

/-- The effect of mov.copy, row by row up to a fault (R48, R49). -/
def fxMovCopy (L : Nat) (f : TileFields) (s : State) : State :=
  let sp := dirSpaces (movDir f)
  let a := (s.core L).A (movSrc f)
  let b := (s.core L).A (movDst f)
  let r := (List.range (movRows f)).foldl (fun (acc : Bool × State) n =>
    if acc.1 then acc
    else
      let x := acc.2.moverRead L sp.1 (rowAddr a (movSS f) n) (movRowBytes f) [.r]
      let y := x.2.moverWrite L sp.2 (rowAddr b (movDS f) n) x.1.1
      (x.1.2 || y.1.1, y.2.moverBytes L x.1.1.length y.1.2)) (false, s)
  if r.1 then r.2.endTask L St.address else r.2

/-- MOV_COPY (R48, R49). -/
def execMovCopy (core : Nat) (f : TileFields) (s : State) : Host.Outcome State Fault Refusal :=
  onCore core s (fun s => s.issue core 3 0x00 f (movOk f && decide (movDir f < 8) && movRank f == 0) .mov
    (copyPlan core f) (fxMovCopy core f))

/-- The memory that mov.fill writes. -/
def fillSpace (f : TileFields) : Space := if movDir f = 0 then .tm else .am

/-- The plan of mov.fill. -/
def fillPlan (L : Nat) (f : TileFields) (s : State) : Plan :=
  let b := (s.core L).A (movDst f)
  let sp := fillSpace f
  { aUse := [movSrc f, movDst f]
    ctl := [movDst f]
    check := if b % 8 ≠ 0 then some St.invalid
      else if !rowsIn sp b (movDS f) (movRows f) (movRowBytes f) then some St.address else none
    wr := rowBlocks sp b (movDS f) (movRows f) (movRowBytes f)
    dst := (List.range (movRows f)).map (fun i => (sp, (rowAddr b (movDS f) i).toNat, movRowBytes f)) }

/-- The effect of mov.fill: every 4 B of each row hold the pattern (Table 2.8), poisoned with it (R275). -/
def fxMovFill (L : Nat) (f : TileFields) (s : State) : State :=
  let b := (s.core L).A (movDst f)
  let w := bytesP 4 ((s.core L).A (movSrc f)) ((s.core L).Ap (movSrc f))
  let row := (List.replicate (movRowBytes f / 4) w).flatten
  let s := (List.range (movRows f)).foldl (fun (s : State) n => (s.moverWrite L (fillSpace f) (rowAddr b (movDS f) n) row).2) s
  s.moverBytes L 0 (movRows f * movRowBytes f)

/-- MOV_FILL (R380). -/
def execMovFill (core : Nat) (f : TileFields) (s : State) : Host.Outcome State Fault Refusal :=
  onCore core s (fun s => s.issue core 3 0x01 f (movOk f && decide (movDir f < 2) && movRank f == 0) .mov
    (fillPlan core f) (fxMovFill core f))

end Sys2Proof.Machine
end

