-- ==== Sys2Proof/Machine/Mxu.lean ====
section
/-! DEFINITION. The matrix unit (03): partition modes, stationary sets, passes, spill and resume, the epilogue, partition
faults and the rebinding of a core. -/

namespace Sys2Proof.Machine
open Sys2Proof

/-! ## Geometry (R58, R66, Tables 3.1, 3.11) -/

/-- Columns of a partition. -/
def mxuN (mode : Nat) : Nat := if mode = 0 then 32 else 16
/-- Grid rows of a partition. -/
def gridRows (mode : Nat) : Nat := if mode = 2 then 16 else 32
/-- Elements per cell. -/
def perCell (fmt : Nat) : Nat := 128 / etBits fmt
/-- K of a pass. -/
def mxuK (mode fmt : Nat) : Nat := perCell fmt * gridRows mode
/-- Accumulator rows of a partition's region: first row and number. -/
def accRegion (mode p : Nat) : Nat × Nat :=
  if mode = 0 then (0, 4096) else if mode = 1 then (2048 * p, 2048) else (1024 * p, 1024)
/-- Whether accumulator rows lie in the partition's region (R61). -/
def accIn (mode p row n : Nat) : Bool :=
  let r := accRegion mode p
  decide (r.1 ≤ row) && decide (row + n ≤ r.1 + r.2)
/-- Scoreboard entries of accumulator rows. -/
def accBlocks (row n : Nat) : NSet := blocksOf true (128 * row) (128 * n)

/-- Formats with MX scales or a per-tensor scale: FP4 and FP8. -/
def small8 (fmt : Nat) : Bool := fmt == 0 || fmt == 1 || fmt == 3
/-- Format, MX and TS fields that Tables 3.1 and 3.4 and R61 allow: FP4 only with MX, MX and TS only for FP8 and FP4. -/
def fmtOk (fmt : Nat) (mx ts : Bool) : Bool :=
  decide (fmt ≤ 6) && (fmt != 3 || mx) && ((!mx && !ts) || small8 fmt)

/-- PART (bits [111:110] of every MXU instruction). -/
def mxuPart (f : TileFields) : Nat := bits f 111 110
/-- CF is reserved. -/
def cfOk (f : TileFields) : Bool := bits f 113 112 == 0

/-- R61: PART below the number of partitions. -/
def partIn (cs : CoreState) (f : TileFields) : Bool := decide (mxuPart f < partsOf cs.mode)

/-- R61: tile ranges within 0x00_0000-0x5F_FFFF. -/
def tileIn (a n : Nat) : Bool := decide (a + n ≤ 0x600000)

/-- Tile ranges of rows with an unsigned stride. -/
def tileRowsIn (a stride rows n : Nat) : Bool := tileIn a ((rows - 1) * stride + n)

/-- Scoreboard blocks of rows with an unsigned stride. -/
def tileRowBlocks (a stride rows n : Nat) : NSet :=
  (List.range rows).foldl (fun b i => NSet.union b (blocksOf false (a + i * stride) n)) []

/-! ## Spill windows (R69 to R71) -/

/-- Bytes of a spill buffer row. -/
def spillRow (mode : Nat) : Nat := 8 * mxuN mode

/-- FP32 and poison of column c of accumulator row bytes. -/
def accCol (row : List (Byte × Bool)) (c : Nat) : Nat × Bool := leP ((row.drop (4 * c)).take 4)

/-- Spill one row: the buffer takes the row exactly widened, or adds it in binary64; the row becomes +0 (R69). -/
def CoreState.spillOne (cs : CoreState) (w : Window) (i : Nat) : CoreState :=
  let n := mxuN cs.mode
  let acc := cs.load true (128 * (w.row + i)) (4 * n)
  let at' := w.buf + i * spillRow cs.mode
  let old := if w.fresh then ([], acc.2) else acc.2.load false at' (spillRow cs.mode)
  let out := ((List.range n).map (fun c =>
    let a := accCol acc.1 c
    let v := Fp.decode Fp.fp32 a.1
    if w.fresh then bytesP 8 (Fp.enc Fp.f64 v) a.2
    else
      let b := leP ((old.1.drop (8 * c)).take 8)
      bytesP 8 (Fp.enc Fp.f64 (Fp.add (Fp.decode Fp.f64 b.1) v)) (a.2 || b.2))).flatten
  (old.2.store false at' out).store true (128 * (w.row + i)) (bytesP (4 * n) 0 false)

/-- Spill a partition's window, if it has one (R69). -/
def CoreState.spill (cs : CoreState) (p : Nat) : CoreState :=
  match (cs.part p).win with
  | none => cs.setPart p { cs.part p with spillDue := false }
  | some w =>
    let cs := (List.range w.rows).foldl (fun cs i => cs.spillOne w i) cs
    cs.setPart p { cs.part p with win := some { w with fresh := false }, passCount := 0, spillDue := false }

/-- What a counter gained between two tables of counters. -/
def gained {w : Nat} (a b : Tab (BitVec w)) : Tab (BitVec w) := Tab.mapV b (fun i v => v - Tab.get 0 a i)

/-- An effect of an MXU instruction on its core, and the flags and conditions it raises: they stand in the core, but are not firm while
the instruction is in flight (R75). -/
def CoreState.apart (cs : CoreState) (act : CoreState → CoreState) : CoreState × BitVec 6 × List Status :=
  let r := act { cs with sticky := 0, conds := [] }
  ({ r with
      sticky := cs.sticky ||| r.sticky
      conds := r.conds.foldl addCond cs.conds
      firm := cs.firm
      firmConds := cs.firmConds }, r.sticky, r.conds)

/-- What an instruction raised and counted beside what it is known to have done: its automatic spill is a part of it (R75). -/
def Undo.more (u : Undo) (old : CoreState) (r : CoreState × BitVec 6 × List Status) : Undo :=
  { u with
    sticky := u.sticky ||| r.2.1
    conds := r.2.2.foldl addCond u.conds
    ctr := (gained old.ctr r.1.ctr).foldl (fun t e => Tab.put t e.1 (Tab.get 0 t e.1 + e.2)) u.ctr
    evCtr := (gained old.evCtr r.1.evCtr).foldl (fun t e => Tab.put t e.1 (Tab.get 0 t e.1 + e.2)) u.evCtr }

/-- The pass of partition p that made its spill due, while it is in flight: the youngest of the partition that has acted. -/
def CoreState.spiller (cs : CoreState) (p : Nat) : Option InFlight :=
  cs.inflight.reverse.find? (fun i => i.part == some p && i.undo.isSome)

/-- An automatic spill that is due is made before the partition's next instruction acts (R62, R69), as a part of its pass (R75). -/
def CoreState.spillIfDue (cs : CoreState) (p : Nat) : CoreState :=
  if !(cs.part p).spillDue then cs
  else match cs.spiller p with
    | none => cs.spill p
    | some j =>
      let r := cs.apart (fun cs => cs.spill p)
      { r.1 with inflight := r.1.inflight.map (fun i => if i.seq == j.seq then { i with undo := i.undo.map (fun u => u.more cs r) } else i) }

/-- Resume one row: the row is added into the buffer in binary64, or taken itself where the state is fresh, and the sum,
rounded once to FP32, becomes the row (R70). -/
def CoreState.resumeOne (cs : CoreState) (w : Window) (i : Nat) : CoreState :=
  let n := mxuN cs.mode
  let at' := w.buf + i * spillRow cs.mode
  let acc := cs.load true (128 * (w.row + i)) (4 * n)
  let old := if w.fresh then ([], acc.2) else acc.2.load false at' (spillRow cs.mode)
  let sums := (List.range n).map (fun c =>
    let a := accCol acc.1 c
    let b := leP ((old.1.drop (8 * c)).take 8)
    let v := Fp.decode Fp.fp32 a.1
    if w.fresh then (Fp.enc Fp.f64 v, a.2) else (Fp.enc Fp.f64 (Fp.add (Fp.decode Fp.f64 b.1) v), a.2 || b.2))
  let cs := if w.fresh then old.2 else old.2.store false at' (sums.flatMap (fun x => bytesP 8 x.1 x.2))
  let r := sums.foldl (fun (x : List (Byte × Bool) × CoreState) s =>
    let y := x.2.convert Fp.fp32 false false (Fp.decode Fp.f64 s.1)
    (x.1 ++ bytesP 4 y.1 s.2, y.2)) ([], cs)
  r.2.store true (128 * (w.row + i)) r.1

/-- Resume a partition's window and close it (R70); PASS_COUNT stays as it was (DESIGN CHOICE, log 8). -/
def CoreState.resume (cs : CoreState) (p : Nat) : CoreState :=
  match (cs.part p).win with
  | none => cs
  | some w =>
    let cs := (List.range w.rows).foldl (fun cs i => cs.resumeOne w i) cs
    cs.setPart p { cs.part p with win := none }

/-- The scoreboard entries and ranges of a partition's window and buffer. -/
def winBlocks (cs : CoreState) (p : Nat) : NSet :=
  match (cs.part p).win with
  | none => []
  | some w => NSet.union (accBlocks w.row w.rows) (blocksOf false w.buf (w.rows * spillRow cs.mode))

/-- What a spill or resume of a partition's window writes: the accumulator rows and the spill buffer, which a partition fault therefore
leaves poisoned with them (R75; DEDUCED, log 3). -/
def winDst (cs : CoreState) (p : Nat) : List (Space × Nat × Nat) :=
  match (cs.part p).win with
  | none => []
  | some w => (.tm, w.buf, w.rows * spillRow cs.mode) ::
      (List.range w.rows).map (fun i => (Space.am, 128 * (w.row + i), 4 * mxuN cs.mode))

/-- The instruction that entered last has acted (`r`) on the core it found (`old`), and notes what a fault would take back (R75). -/
def CoreState.remember (r : CoreState × BitVec 6 × List Status) (old : CoreState) (p : Nat) : CoreState :=
  let cs := r.1
  { cs with inflight := match cs.inflight.reverse with
      | [] => []
      | i :: rest =>
        let saved := i.dst.map (fun (d : Space × Nat × Nat) =>
          let am := d.1 == Space.am
          (am, d.2.1, (List.range d.2.2).map (fun j =>
            ((old.loc am).read (d.2.1 + j), NSet.mem (old.locPoison am) ((d.2.1 + j) / 8)))))
        ({ i with undo := some ⟨old.part p, saved, r.2.1, r.2.2, gained old.ctr cs.ctr, gained old.evCtr cs.evCtr, (old.seed, cs.seed)⟩ } :: rest).reverse }

/-- What an MXU instruction of partition p that has entered its queue does: a spill that is due, then its own effect (R62, R75). -/
def CoreState.mxuAct (cs : CoreState) (p : Nat) (act : CoreState → CoreState) : CoreState :=
  let cs := cs.spillIfDue p
  CoreState.remember (cs.apart act) cs p

/-- Issue an MXU instruction; the effect acts on the core after a spill that is due. -/
def State.issueMxu (s : State) (L opc : Nat) (f : TileFields) (ok : Bool) (plan : CoreState → Plan)
    (act : CoreState → CoreState) : State :=
  s.issue L 1 opc f (cfOk f && ok) .mxu (fun s => plan (s.core L))
    (fun s => s.modCore L (fun cs => cs.mxuAct (mxuPart f) act))

/-! ## mxu.mode (R68) -/

/-- mxu.mode waits for every earlier MXU instruction (R68; log 3). -/
def modePlan (_ : TileFields) (cs : CoreState) : Plan := { hold := cs.inflight.any (fun i => i.unit == .mxu) }

/-- MXU_MODE (R68). -/
def execMxuMode (core : Nat) (f : TileFields) (s : State) : Host.Outcome State Fault Refusal :=
  onCore core s (fun s => s.issueMxu core 0x00 f (decide (mxuPart f < 3) && bits f 109 0 == 0) (modePlan f)
    (fun cs =>
      let cs := (List.range 4).foldl (fun (cs : CoreState) p => cs.spillIfDue p) cs
      { cs with
        mode := mxuPart f
        parts := Tab.mapV cs.parts (fun _ x => { Part.reset with faulted := x.faulted, faultSrc := x.faultSrc }) }))

/-! ## mxu.ldb (R61, R63, R83, R84) -/

def ldbFmt (f : TileFields) : Nat := bits f 109 106
def ldbMx (f : TileFields) : Bool := f.getLsbD 105
def ldbExp (f : TileFields) : Nat := bits f 104 103
/-- Group size along K. -/
def ldbG (f : TileFields) : Nat := 32 * 2 ^ bits f 102 101
def ldbTs (f : TileFields) : Bool := f.getLsbD 100
def ldbSrc (f : TileFields) : Nat := bits f 99 96
def ldbAux (f : TileFields) : Nat := bits f 95 92
def ldbTsr (f : TileFields) : Nat := bits f 91 88
def ldbStride (f : TileFields) : Nat := 8 * bits f 87 72

/-- The field values that Table 3.6 and R61 allow. DEDUCED (log 3): GRP has a meaning only for EXP 2 and 3, so that a value
other than 0 with EXP 0 or 1 is one that Table 3.6 does not define. -/
def ldbOk (f : TileFields) : Bool :=
  fmtOk (ldbFmt f) (ldbMx f) (ldbTs f) && bits f 71 0 == 0 && decide (bits f 102 101 < 3) &&
    (if ldbExp f = 0 then bits f 102 101 == 0
     else (ldbFmt f == 0 || ldbFmt f == 4) && !ldbMx f && (ldbExp f != 1 || bits f 102 101 == 0))

/-- Bits of a source element. -/
def ldbSrcBits (f : TileFields) : Nat :=
  if ldbExp f = 0 then etBits (ldbFmt f) else if ldbExp f = 3 then 8 else 4

/-- Bytes at A[AUX]: MX scales, the expansion table, or the group parameters. -/
def ldbAuxLen (mode : Nat) (f : TileFields) : Nat :=
  let k := mxuK mode (ldbFmt f)
  match ldbExp f with
  | 0 => if ldbMx f then mxuN mode * (k / 32) else 0
  | 1 => 16 * (etBits (ldbFmt f) / 8)
  | _ => 4 * mxuN mode * (k / ldbG f)

/-- The registers of mxu.ldb that give addresses, and with them the scale, which is data (R77, R275; log 3). -/
def ldbRegs (f : TileFields) : List Nat := ldbSrc f :: (if ldbExp f ≠ 0 ∨ ldbMx f then [ldbAux f] else [])
def ldbUses (f : TileFields) : List Nat := ldbRegs f ++ (if ldbTs f then [ldbTsr f] else [])

def ldbPlan (f : TileFields) (cs : CoreState) : Plan :=
  let k := mxuK cs.mode (ldbFmt f)
  let n := mxuN cs.mode * ldbSrcBits f / 8
  { aUse := ldbUses f
    ctl := ldbRegs f
    check := if partIn cs f && tileRowsIn (cs.A (ldbSrc f)) (ldbStride f) k n
        && (ldbAuxLen cs.mode f == 0 || tileIn (cs.A (ldbAux f)) (ldbAuxLen cs.mode f)) then none else some St.invalid
    rd := NSet.union (tileRowBlocks (cs.A (ldbSrc f)) (ldbStride f) k n) (blocksOf false (cs.A (ldbAux f)) (ldbAuxLen cs.mode f))
    part := some (mxuPart f) }

/-- The code of one element of a set, with its poison, from a source code (R83, R84). -/
def expandElem (f : TileFields) (mode k c : Nat) (q : Nat × Bool) (aux : List (Byte × Bool)) (cs : CoreState) :
    (Nat × Bool) × CoreState :=
  match ldbExp f with
  | 0 => (q, cs)
  | 1 =>
    let b := etBits (ldbFmt f) / 8
    let e := leP ((aux.drop (b * q.1)).take b)
    ((e.1, q.2 || e.2), cs)
  | m =>
    let r := (aux.drop (4 * (mxuN mode * (k / ldbG f) + c))).take 4
    let sc := leP (r.take 2)
    let z := leP ((r.drop 2).take 1)
    let qi : Int := if m = 2 then q.1 else sext 8 q.1
    let zi : Int := if m = 2 then (z.1 % 16 : Nat) else sext 8 z.1
    let v := Fp.mul (Fp.fromInt (qi - zi)) (Fp.decode Fp.bf16 sc.1)
    let t := if ldbFmt f = 0 then cs.convert Fp.e4m3 true false v else cs.convert Fp.bf16 false false v
    ((t.1, q.2 || sc.2 || z.2), t.2)

/-- One row k of the set: its elements join the set's, its poisoned columns the set's (R77). -/
def ldbRow (f : TileFields) (mode k : Nat) (aux : List (Byte × Bool)) (x : Tab Nat × NSet × CoreState) :
    Tab Nat × NSet × CoreState :=
  let n := mxuN mode
  let w := ldbSrcBits f
  let r := x.2.2.load false (x.2.2.A (ldbSrc f) + k * ldbStride f) (n * w / 8)
  let num := leNat (r.1.map (·.1))
  (List.range n).foldl (fun (y : Tab Nat × NSet × CoreState) c =>
    let q := ((num >>> (w * c)) % 2 ^ w, ((r.1.drop (w * c / 8)).take ((w + 7) / 8)).any (·.2))
    let e := expandElem f mode k c q aux y.2.2
    (y.1 ++ [(k * 32 + c, e.1.1)], if e.1.2 then NSet.insert y.2.1 c else y.2.1, e.2)) (x.1, x.2.1, r.2)

/-- The effect of mxu.ldb: the set in tile memory becomes the partition's back set. -/
def fxMxuLdb (f : TileFields) (cs : CoreState) : CoreState :=
  let mode := cs.mode
  let k := mxuK mode (ldbFmt f)
  let n := mxuN mode
  let aux := cs.load false (cs.A (ldbAux f)) (ldbAuxLen mode f)
  let r := (List.range k).foldl (fun x i => ldbRow f mode i aux.1 x) (([], [], aux.2) : Tab Nat × NSet × CoreState)
  let sc := if ldbMx f then (List.range (k / 32)).flatMap (fun b => (List.range n).map (fun c => (b * 32 + c, (aux.1[n * b + c]?).getD (0, false)))) else []
  let tsBad := ldbTs f && cs.Ap (ldbTsr f)
  let pois := if tsBad then List.range n else sc.foldl (fun p e => if e.2.2 then NSet.insert p (e.1 % 32) else p) r.2.1
  let set : StatSet := {
    fmt := ldbFmt f
    mx := ldbMx f
    ts := if ldbTs f then some (BitVec.ofNat 32 (cs.A (ldbTsr f))) else none
    elems := r.1
    scales := sc.map (fun e => (e.1, e.2.1.toNat))
    poison := pois }
  let cs := if tsBad then r.2.2.poisoned else r.2.2
  (cs.setPart (mxuPart f) { cs.part (mxuPart f) with back := some set }).event 0x04 1

/-- MXU_LDB (R61, R64, R83, R84). -/
def execMxuLdb (core : Nat) (f : TileFields) (s : State) : Host.Outcome State Fault Refusal :=
  onCore core s (fun s => s.issueMxu core 0x01 f (ldbOk f) (ldbPlan f) (fxMxuLdb f))

/-! ## mxu.pass (R59 to R63, R80 to R82, R91) -/

def passFmt (f : TileFields) : Nat := bits f 109 106
def passMx (f : TileFields) : Bool := f.getLsbD 105
def passSwap (f : TileFields) : Bool := f.getLsbD 104
def passClr (f : TileFields) : Bool := f.getLsbD 103
def passTs (f : TileFields) : Bool := f.getLsbD 102
def passSrc (f : TileFields) : Nat := bits f 101 98
def passAsc (f : TileFields) : Nat := bits f 97 94
def passTsr (f : TileFields) : Nat := bits f 93 90
def passAcc (f : TileFields) : Nat := bits f 89 78
def passRows (f : TileFields) : Nat := bits f 77 65
def passStride (f : TileFields) : Nat := 16 * bits f 64 49

/-- ROWS fields of MXU instructions: 1 to 4096. -/
def rowsOk (n : Nat) : Bool := decide (1 ≤ n) && decide (n ≤ 4096)

def passOk (f : TileFields) : Bool :=
  fmtOk (passFmt f) (passMx f) (passTs f) && bits f 48 0 == 0 && rowsOk (passRows f)

/-- The registers of mxu.pass that give addresses, and with them the scale, which is data (R77, R275; log 3). -/
def passRegs (f : TileFields) : List Nat := passSrc f :: (if passMx f then [passAsc f] else [])
def passUses (f : TileFields) : List Nat := passRegs f ++ (if passTs f then [passTsr f] else [])

/-- The set that the pass multiplies by: the one the swap installs with SWAP = 1 (R61, R63). -/
def passSet (cs : CoreState) (f : TileFields) : Option StatSet :=
  if passSwap f then (cs.part (mxuPart f)).back else (cs.part (mxuPart f)).front

/-- R61: the formats match, E4M3 and E5M2 with each other too, and an empty set matches every format. -/
def setMatches (t : Option StatSet) (fmt : Nat) (mx : Bool) : Bool :=
  match t with
  | none => true
  | some t => (t.fmt == fmt || (decide (t.fmt ≤ 1) && decide (fmt ≤ 1))) && t.mx == mx

/-- Bytes of an A row. -/
def aRowLen (mode fmt : Nat) : Nat := mxuK mode fmt * etBits fmt / 8

/-- Whether the pass brings its window's count to S (R69). -/
def passSpills (cs : CoreState) (p : Nat) : Bool :=
  match (cs.part p).win with
  | none => false
  | some w => w.s != 0 && (if (cs.part p).spillDue then 0 else (cs.part p).passCount) + 1 == w.s

def passPlan (f : TileFields) (cs : CoreState) : Plan :=
  let k := mxuK cs.mode (passFmt f)
  let n := aRowLen cs.mode (passFmt f)
  let rows := passRows f
  let sp := passSpills cs (mxuPart f)
  { aUse := passUses f
    ctl := passRegs f
    check := if partIn cs f && setMatches (passSet cs f) (passFmt f) (passMx f)
        && accIn cs.mode (mxuPart f) (passAcc f) rows
        && tileRowsIn (cs.A (passSrc f)) (passStride f) rows n
        && (!passMx f || tileIn (cs.A (passAsc f)) (rows * (k / 32))) then none else some St.invalid
    rd := NSet.union (tileRowBlocks (cs.A (passSrc f)) (passStride f) rows n)
      (if passMx f then blocksOf false (cs.A (passAsc f)) (rows * (k / 32)) else [])
    wr := NSet.union (accBlocks (passAcc f) rows) (if sp then winBlocks cs (mxuPart f) else [])
    part := some (mxuPart f)
    dst := (List.range rows).map (fun i => (Space.am, 128 * (passAcc f + i), 4 * mxuN cs.mode))
      ++ (if sp then winDst cs (mxuPart f) else []) }

/-- The sum of a column's exact products as the array forms it (R60, R92; log 8): the exact integer for INT8, exact for NaN
and infinities; otherwise the array's free sum where it is within ε·Σ|ab| of the exact sum, or else that sum rounded. DESIGN
CHOICE (log 8): an exact sum of zero stays that zero. -/
def colSum (int8 : Bool) (ps : List Fp.Val) : Fp.Val :=
  match ps with
  | [] => .fin false 0 0
  | p :: rest =>
    let ex := rest.foldl Fp.add p
    match ex with
    | .fin _ m _ =>
      if int8 ∧ m = 0 then .fin false 0 0
      else if int8 ∨ m = 0 then ex
      else
        let tot := ps.foldl (fun a x => Fp.add a (Fp.abs x)) (.fin false 0 0)
        let c := Config.columnSum (ps.map (fun x => match x with
          | .fin n m e => (n, m, e)
          | _ => (false, 0, 0)))
        let cand := Fp.Val.fin c.1 c.2.1 c.2.2
        match Fp.cmp (Fp.abs (Fp.sub cand ex)) (Fp.mul tot (.fin false 1 (-24))) with
        | some .gt => Fp.roundBits 24 ex
        | some _ => if c.2.1 = 0 then .fin false 0 0 else cand
        | none => Fp.roundBits 24 ex
    | v => v

/-- The per-tensor factor T of a pass: one scale, or the product of both rounded once (R81). -/
def passT (a b : Option (BitVec 32)) : Option Fp.Val :=
  match a, b with
  | none, none => none
  | some x, none => some (Fp.decode Fp.fp32 x.toNat)
  | none, some y => some (Fp.decode Fp.fp32 y.toNat)
  | some x, some y =>
    some (Fp.decode Fp.fp32 (toF32 (Fp.mul (Fp.decode Fp.fp32 x.toNat) (Fp.decode Fp.fp32 y.toNat))))

/-- The value of element k of column c of a set; an empty set holds +0 (R74, R80). -/
def setVal (t : Option StatSet) (fmt k c : Nat) : Fp.Val :=
  match t with
  | none => etVal fmt 0
  | some t =>
    let v := etVal t.fmt (Tab.get 0 t.elems (k * 32 + c))
    if t.mx then Fp.mul v (Fp.e8m0 (Tab.get 127 t.scales (k / 32 * 32 + c))) else v

/-- A subnormal value on the accumulator path of a pass may be replaced by zero of its sign (R91; log 10). -/
def flush (w : Nat) : Nat :=
  let mag := w % 2 ^ 31
  if mag ≠ 0 ∧ mag < 2 ^ 23 ∧ Config.flushSubnormal (BitVec.ofNat 32 w) then w - mag else w

/-- One A row through a partition into its accumulator row (R58, R77, R80 to R82, R95). DESIGN CHOICE (log 8): the product of
the column sum and T is rounded to 24 significand bits, to nearest even. -/
def passRow (f : TileFields) (t : Option StatSet) (i : Nat) (cs : CoreState) : CoreState :=
  let mode := cs.mode
  let fmt := passFmt f
  let k := mxuK mode fmt
  let w := etBits fmt
  let row := cs.load false (cs.A (passSrc f) + i * passStride f) (aRowLen mode fmt)
  let sc := if passMx f then row.2.load false (cs.A (passAsc f) + i * (k / 32)) (k / 32) else ([], row.2)
  let num := leNat (row.1.map (·.1))
  let rowPois := row.1.any (·.2) || sc.1.any (·.2) || (passTs f && cs.Ap (passTsr f))
  let aval := fun j =>
    let v := etVal fmt ((num >>> (w * j)) % 2 ^ w)
    if passMx f then Fp.mul v (Fp.e8m0 ((sc.1[j / 32]?).getD (0, false)).1.toNat) else v
  let T := passT (if passTs f then some (BitVec.ofNat 32 (cs.A (passTsr f))) else none) (t.bind (·.ts))
  let at' := 128 * (passAcc f + i)
  let acc := if passClr f then (bytesP 128 0 false, sc.2) else sc.2.load true at' (4 * mxuN mode)
  let r := (List.range (mxuN mode)).foldl (fun (x : List (Byte × Bool) × CoreState) c =>
    let sum := colSum (fmt == 2) ((List.range k).map (fun j => Fp.mul (aval j) (setVal t fmt j c)))
    let sum := match T with
      | none => sum
      | some T => Fp.roundBits 24 (Fp.mul sum T)
    let a := accCol acc.1 c
    let y := x.2.convert Fp.fp32 false false (if passClr f then sum else Fp.add (Fp.decode Fp.fp32 a.1) sum)
    let bad := rowPois || ((t.map (fun t => NSet.mem t.poison c)).getD false) || a.2
    (x.1 ++ bytesP 4 (flush y.1) bad, y.2)) ([], acc.2)
  r.2.store true at' r.1

/-- Cycles in which an A row enters: one per row, four at FP32 (R59). -/
def passCycles (f : TileFields) : Nat := if passFmt f = 6 then 4 * passRows f else passRows f

/-- The effect of mxu.pass: the swap, the rows, and the window's count (R63, R69). -/
def fxMxuPass (f : TileFields) (cs : CoreState) : CoreState :=
  let p := mxuPart f
  let x := cs.part p
  let cs := if passSwap f then cs.setPart p { x with front := x.back, back := x.front } else cs
  let t := (cs.part p).front
  let cs := (List.range (passRows f)).foldl (fun cs i => passRow f t i cs) cs
  let cs := { cs.event 0x03 (passCycles f) with ctr := addCtr cs.ctr 2 (passCycles f) }
  match (cs.part p).win with
  | none => cs
  | some w =>
    let n := (cs.part p).passCount + 1
    cs.setPart p { cs.part p with passCount := n, spillDue := w.s != 0 && n == w.s }

/-- MXU_PASS (R59, R63). -/
def execMxuPass (core : Nat) (f : TileFields) (s : State) : Host.Outcome State Fault Refusal :=
  onCore core s (fun s => s.issueMxu core 0x02 f (passOk f) (passPlan f) (fxMxuPass f))

/-! ## mxu.spcfg, mxu.spill, mxu.resume and the automatic spill -/

def spcfgS (f : TileFields) : Nat := bits f 109 97
def spcfgBuf (f : TileFields) : Nat := bits f 96 93
def spcfgAcc (f : TileFields) : Nat := bits f 92 81
def spcfgRows (f : TileFields) : Nat := bits f 80 68

/-- MXU_SPCFG (R69). -/
def execMxuSpcfg (core : Nat) (f : TileFields) (s : State) : Host.Outcome State Fault Refusal :=
  onCore core s (fun s => s.issueMxu core 0x03 f
    (decide (spcfgS f ≤ 4096) && rowsOk (spcfgRows f) && bits f 67 0 == 0)
    (fun cs =>
      let b := cs.A (spcfgBuf f)
      { aUse := [spcfgBuf f]
        ctl := [spcfgBuf f]
        check := if partIn cs f && accIn cs.mode (mxuPart f) (spcfgAcc f) (spcfgRows f) && b % spillRow cs.mode == 0
            && tileIn b (spcfgRows f * spillRow cs.mode) then none else some St.invalid
        part := some (mxuPart f) })
    (fun cs => cs.setPart (mxuPart f) { cs.part (mxuPart f) with
      win := some ⟨cs.A (spcfgBuf f), spcfgAcc f, spcfgRows f, spcfgS f, true⟩
      passCount := 0
      spillDue := false }))

/-- The plan of mxu.spill and mxu.resume: the window and its buffer (R62). -/
def windowPlan (f : TileFields) (cs : CoreState) : Plan :=
  { check := if partIn cs f then none else some St.invalid
    rd := winBlocks cs (mxuPart f)
    wr := winBlocks cs (mxuPart f)
    part := some (mxuPart f)
    dst := winDst cs (mxuPart f) }

/-- MXU_SPILL (R69). -/
def execMxuSpill (core : Nat) (f : TileFields) (s : State) : Host.Outcome State Fault Refusal :=
  onCore core s (fun s => s.issueMxu core 0x04 f (bits f 109 0 == 0) (windowPlan f) (fun cs => cs.spill (mxuPart f)))

/-- MXU_RESUME (R70). -/
def execMxuResume (core : Nat) (f : TileFields) (s : State) : Host.Outcome State Fault Refusal :=
  onCore core s (fun s => s.issueMxu core 0x05 f (bits f 109 0 == 0) (windowPlan f) (fun cs => cs.resume (mxuPart f)))

/-- AUTO_SPILL (R69): the pass that brought the count to S has ended, and the window is spilled. -/
def execAutoSpill (core part : Nat) (s : State) : Host.Outcome State Fault Refusal :=
  onCore core s (fun s => if s.alive then s.modCore core (fun cs => cs.spillIfDue part) else s)

/-! ## mxu.out (R72, R73, R102) -/

def outFmt (f : TileFields) : Nat := bits f 109 106
def outAct (f : TileFields) : Nat := bits f 105 104
def outDst (f : TileFields) : Nat := bits f 103 100
def outSbr (f : TileFields) : Nat := bits f 99 96
def outScr (f : TileFields) : Nat := bits f 95 92
def outAcc (f : TileFields) : Nat := bits f 91 80
def outRows (f : TileFields) : Nat := bits f 79 67
def outStride (f : TileFields) : Nat := 16 * bits f 66 51
def outSc (f : TileFields) : Bool := f.getLsbD 50
def outBi (f : TileFields) : Bool := f.getLsbD 49
def outSat (f : TileFields) : Bool := f.getLsbD 48
def outSr (f : TileFields) : Bool := f.getLsbD 47
def outClr (f : TileFields) : Bool := f.getLsbD 46

def outOk (f : TileFields) : Bool :=
  decide (outFmt f ≤ 6) && outFmt f != 2 && rowsOk (outRows f) && bits f 45 0 == 0

/-- The registers of mxu.out that reach control. -/
def outRegs (f : TileFields) : List Nat :=
  outDst f :: ((if outSc f || outBi f then [outSbr f] else []) ++ (if outFmt f = 3 then [outScr f] else []))

/-- Bytes of an output row. -/
def outRowLen (mode : Nat) (f : TileFields) : Nat := mxuN mode * etBits (outFmt f) / 8

def outPlan (f : TileFields) (cs : CoreState) : Plan :=
  let n := mxuN cs.mode
  let rows := outRows f
  let d := cs.A (outDst f)
  let sb := cs.A (outSbr f)
  let scr := cs.A (outScr f)
  let accs := accBlocks (outAcc f) rows
  { aUse := outRegs f
    ctl := outRegs f
    check := if partIn cs f && accIn cs.mode (mxuPart f) (outAcc f) rows && (outFmt f != 3 || cs.mode == 0)
        && tileRowsIn d (outStride f) rows (outRowLen cs.mode f)
        && (!outSc f || tileIn sb (4 * n)) && (!outBi f || tileIn (sb + 4 * n) (4 * n))
        && (outFmt f != 3 || tileIn scr rows) then none else some St.invalid
    rd := NSet.union accs (NSet.union (if outSc f then blocksOf false sb (4 * n) else [])
      (if outBi f then blocksOf false (sb + 4 * n) (4 * n) else []))
    wr := NSet.union (tileRowBlocks d (outStride f) rows (outRowLen cs.mode f))
      (NSet.union (if outFmt f = 3 then blocksOf false scr rows else []) (if outClr f then accs else []))
    part := some (mxuPart f)
    dst := (List.range rows).map (fun i => (Space.tm, d + i * outStride f, outRowLen cs.mode f))
      ++ (if outFmt f = 3 then [(Space.tm, scr, rows)] else [])
      ++ (if outClr f then (List.range rows).map (fun i => (Space.am, 128 * (outAcc f + i), 4 * n)) else []) }

/-- The activations of step 2 of R72 on FP32 codes. -/
def activate (act t : Nat) : Nat :=
  match act with
  | 0 => t
  | 1 => match Fp.decode Fp.fp32 t with
    | .nan => 0x7FC00000
    | v => if v.isNeg || v.isZero then 0 else t
  | 2 => Fp.geluW (BitVec.ofNat 32 t)
  | _ => Fp.siluW (BitVec.ofNat 32 t)

/-- Steps 1 and 2 of R72 on one accumulator value: an FP32 code. -/
def epilogue (f : TileFields) (a s b : Nat) (cs : CoreState) : Nat × CoreState :=
  let d := Fp.decode Fp.fp32
  let t :=
    if outSc f && outBi f then cs.convert Fp.fp32 false false (Fp.add (Fp.mul (d a) (d s)) (d b))
    else if outSc f then cs.convert Fp.fp32 false false (Fp.mul (d a) (d s))
    else if outBi f then cs.convert Fp.fp32 false false (Fp.add (d a) (d b))
    else ((if (d a).isNan then 0x7FC00000 else a), cs)
  (activate (outAct f) t.1, t.2)

/-- The scale code of an FP4 output block and the exponent it stands for (R102). -/
def blockScale (us : List Nat) : Nat :=
  let amax := us.foldl (fun m u => Nat.max m (u % 2 ^ 31)) 0
  match Fp.ilog2 (Fp.decode Fp.fp32 amax) with
  | none => 0
  | some t => ((if t - 2 < -127 then -127 else if 125 < t - 2 then 125 else t - 2) + 127).toNat

/-- Step 3 of R72 for FP4: the scale code and the element codes of one block (R102). -/
def fp4Block (f : TileFields) (us : List Nat) (cs : CoreState) : (Nat × List Nat) × CoreState :=
  let isNan := us.any (fun u => (Fp.decode Fp.fp32 u).isNan)
  let infs := (us.filter (fun u => (Fp.decode Fp.fp32 u).isInf)).length
  let cs := cs.overflowed infs
  let dead := isNan || (decide (0 < infs) && !outSat f)
  let us := us.map (fun u => if (Fp.decode Fp.fp32 u).isInf then u / 2 ^ 31 * 2 ^ 31 + 0x7F7FFFFF else u)
  let sc := if dead then 255 else blockScale us
  let r := us.foldl (fun (x : List Nat × CoreState) u =>
    let d := if outSr f then x.2.draw else (0, x.2)
    let v := Fp.mul (Fp.decode Fp.fp32 u) (.fin false 1 (127 - (sc : Int)))
    let c := if dead then 0 else (Fp.encode Fp.e2m1 true (if outSr f then .sr d.1 else .rne) v).1
    (x.1 ++ [c], d.2)) ([], cs)
  ((sc, r.1), r.2)

/-- Bytes of element codes of width w. -/
def packCodes (w : Nat) (cs : List Nat) : List Byte :=
  natLe (cs.length * w / 8) ((cs.foldr (fun c n => n * 2 ^ w + c % 2 ^ w) 0))

/-- One row of mxu.out (R72). -/
def outRow (f : TileFields) (sv bv : List (Byte × Bool)) (i : Nat) (cs : CoreState) : CoreState :=
  let n := mxuN cs.mode
  let at' := 128 * (outAcc f + i)
  let d := cs.A (outDst f) + i * outStride f
  let acc := cs.load true at' (4 * n)
  let w := etBits (outFmt f)
  let pois := (List.range n).map (fun c => (accCol acc.1 c).2 || (outSc f && (accCol sv c).2) || (outBi f && (accCol bv c).2))
  let us := (List.range n).foldl (fun (x : List Nat × CoreState) c =>
    let y := epilogue f (accCol acc.1 c).1 (accCol sv c).1 (accCol bv c).1 x.2
    (x.1 ++ [y.1], y.2)) ([], acc.2)
  let cs :=
    if outFmt f = 3 then
      let b := fp4Block f us.1 us.2
      let bad := pois.any id
      (b.2.store false (b.2.A (outScr f) + i) (bytesP 1 b.1.1 bad)).store false d ((packCodes 4 b.1.2).map (fun x => (x, bad)))
    else
      let r := us.1.foldl (fun (x : List Nat × CoreState) u =>
        let y := x.2.convertTo (outFmt f) (outSat f) (outSr f) (Fp.decode Fp.fp32 u)
        (x.1 ++ [y.1], y.2)) ([], us.2)
      r.2.store false d ((packCodes w r.1).zipIdx.map (fun x => (x.1, (pois[x.2 * 8 / w]?).getD false)))
  if outClr f then cs.store true at' (bytesP (4 * n) 0 false) else cs

/-- The effect of mxu.out. -/
def fxMxuOut (f : TileFields) (cs : CoreState) : CoreState :=
  let n := mxuN cs.mode
  let sv := if outSc f then cs.load false (cs.A (outSbr f)) (4 * n) else ([], cs)
  let bv := if outBi f then sv.2.load false (cs.A (outSbr f) + 4 * n) (4 * n) else ([], sv.2)
  (List.range (outRows f)).foldl (fun cs i => outRow f sv.1 bv.1 i cs) bv.2

/-- MXU_OUT (R72). -/
def execMxuOut (core : Nat) (f : TileFields) (s : State) : Host.Outcome State Fault Refusal :=
  onCore core s (fun s => s.issueMxu core 0x06 f (outOk f) (outPlan f) (fxMxuOut f))

/-! ## Partition faults and rebinding (R75, R76) -/

/-- Poison a range of a core's memory. -/
def CoreState.poisonRange (cs : CoreState) (d : Space × Nat × Nat) : CoreState :=
  let ws := wordsOf d.2.1 d.2.2
  match d.1 with
  | .tm => cs.setLocPoison false (ws.foldl NSet.insert cs.tmPoison)
  | .am => cs.setLocPoison true (ws.foldl NSet.insert cs.amPoison)
  | .pa => cs

/-- A table of counters without what an instruction added to it. -/
def lessGained {w : Nat} (a g : Tab (BitVec w)) : Tab (BitVec w) := Tab.mapV a (fun i v => v - Tab.get 0 g i)

/-- Bytes with their marks stand again where they stood. -/
def CoreState.restore (cs : CoreState) (am : Bool) (a : Nat) (bs : List (Byte × Bool)) : CoreState :=
  let p := (wordsOf a bs.length).foldl (fun p w =>
    if (List.range 8).any (fun j => decide (a ≤ 8 * w + j) && ((bs[8 * w + j - a]?).getD (0, false)).2)
    then NSet.insert p w else NSet.remove p w) (cs.locPoison am)
  (cs.setLoc am ((cs.loc am).writeN a (bs.map (·.1)))).setLocPoison am p

/-- A discarded instruction of partition p leaves its queue and has no effect (R75): what it wrote and its partition are as it found
them, the flags and conditions are those that anything else has raised, and its counts are gone. DEDUCED (log 3): SEED goes back to what
it found where nothing has drawn from it or set it since. -/
def CoreState.discard (cs : CoreState) (p : Nat) (i : InFlight) : CoreState :=
  let cs := { cs with inflight := cs.inflight.filter (fun j => !(j.part == i.part && j.seq == i.seq)) }
  match i.undo with
  | none => cs
  | some u =>
    let cs := u.saved.foldl (fun (cs : CoreState) d => cs.restore d.1 d.2.1 d.2.2) cs
    let left := cs.inflight.filterMap (·.undo)
    { cs.setPart p u.part with
      sticky := left.foldl (fun a v => a ||| v.sticky) cs.firm
      conds := cs.conds.filter (fun c => cs.firmConds.contains c || left.any (fun v => v.conds.contains c))
      ctr := lessGained cs.ctr u.ctr
      evCtr := lessGained cs.evCtr u.evCtr
      seed := if cs.seed = u.seed.2 then u.seed.1 else cs.seed }

/-- Steps 1 and 2 of R75: instruction n of the partition fails; the younger ones of the partition are discarded, the youngest
first, and all that n writes is poisoned. Elder ones of the partition, which have left the queue, run to completion. -/
def fxPartitionFault (L part n chk : Nat) (s : State) : State :=
  let cs := s.core L
  match cs.inflight.find? (fun i => i.part == some part && i.seq == n) with
  | none => s
  | some i =>
    if !s.alive ∨ chk < 1 ∨ 4 < chk then s
    else
      let cs := (cs.inflight.filter (fun j => j.part == some part && decide (n < j.seq))).reverse.foldl
        (fun (cs : CoreState) j => cs.discard part j) cs
      let cs := i.dst.foldl (fun (cs : CoreState) d => cs.poisonRange d) cs
      let cs := cs.setPart part { cs.part part with faulted := true, faultSrc := chk, spillDue := false }
      let cs := ({ cs.confirm i with
        suspect := true
        rebindDue := true
        inflight := cs.inflight.filter (fun j => !(j.part == some part && decide (n ≤ j.seq))) }).event 0x12 1
      s.setCore L (if cs.ended.isSome then cs else { cs with ended := some St.rebound, pc := i.pc })

/-- PARTITION_FAULT (R75). -/
def execPartitionFault (core part : Nat) (chk : CheckFail) (s : State) : Host.Outcome State Fault Refusal :=
  onCore core s (fxPartitionFault core part chk.seq chk.chk)

/-- A spare physical index of die d (R13). DESIGN CHOICE (log 24): of the free spares, the lowest index from 40 on. -/
def State.spareOf (s : State) (d : Nat) : Option Nat :=
  ((List.range 8).map (40 + ·)).find? (fun i => !NSet.mem (Tab.get [] s.spares d) i)

/-- What a logical core takes along to another physical core (R75): tile and accumulator memory with their marks, read there as
any read is (R44); the state of the matrix unit and of the vector unit stays behind (R74, R108). -/
def CoreState.carry (cs : CoreState) : CoreState :=
  let cs := cs.tmErr.foldl (fun (cs : CoreState) e => cs.eccWord false e.1) cs
  let cs := cs.amErr.foldl (fun (cs : CoreState) e => cs.eccWord true e.1) cs
  { cs with
    mode := 0
    parts := Tab.mapV cs.parts (fun _ x => { Part.reset with faulted := x.faulted, faultSrc := x.faultSrc })
    v := []
    vPoison := []
    vErr := []
    m := []
    mPoison := []
    vl := 64 }

/-- The logical core moves to a spare, or is marked FAILED (R13, R75, R76); REBIND_COUNT stays at 255 once there (Table 1.4). -/
def State.rebind (s : State) (L : Nat) : Bool × State :=
  match s.spareOf (L / 40) with
  | some i =>
    let s := { s with spares := Tab.put s.spares (L / 40) (NSet.insert (Tab.get [] s.spares (L / 40)) i) }
    (true, (s.modCore L (fun cs => { cs.carry with
      physIdx := i, rebindCount := Nat.min (cs.rebindCount + 1) 255, suspect := false, rebindDue := false })).logRebind 0 L i)
  | none => (false, s.modCore L (fun cs => { cs with failed := true, rebindDue := false }))

/-- The tasks queued on a core that has failed end with PARTITION_FAULT (R76, R278; DEDUCED, log 3). -/
def State.failQueue (s : State) (L : Nat) : State :=
  let q := (s.core L).queue
  let s := q.foldl (fun (s : State) t => s.modCmd t.key (fun m => m.report St.partFault 0 (taskDetail L 0))) s
  s.modCore L (fun cs => { cs with queue := [] })

/-- Steps 3 and 4 of R75, once the siblings have completed. -/
def fxCoreRebind (L : Nat) (s : State) : State :=
  let cs := s.core L
  if !cs.rebindDue || !cs.inflight.isEmpty then s
  else
    let r := s.rebind L
    let st := if r.1 then St.rebound else St.partFault
    let s := r.2.modCore L (fun cs => cs.condition st)
    let s := s.settle L
    if r.1 then s else s.failQueue L

/-- CORE_REBIND (R75, R76). -/
def execCoreRebind (core : Nat) (s : State) : Host.Outcome State Fault Refusal := onCore core s (fxCoreRebind core)

end Sys2Proof.Machine
end

