-- ==== Sys2Proof/Machine/Packet.lean ====
section
/-! DEFINITION. Fabric packets (Tables 9.4, 9.5), installation shapes (R208 to R210), routing (R211 to R215), output queues
with credits and the retry buffer (R199, R205, R206), and the formation and the end of transactions (R212, R219). -/

namespace Sys2Proof.Machine
open Sys2Proof

/-! ## Headers -/

/-- A packet's header fields (Table 9.4). -/
structure Hdr where
  ty : Nat
  rel : Bool
  fetch : Bool
  ctx : Nat
  tag : Nat
  dst : Nat
  hops : Nat
  cong : Nat
  src : Nat
  unit : Nat
  route : Nat
  bsel : Nat
  deriving DecidableEq, Repr

/-- Read the header of a packet. -/
def hdrOf (pk : List Byte) : Hdr :=
  let w0 := fieldAt pk 0 1
  let w4 := fieldAt pk 4 4
  let w8 := fieldAt pk 8 4
  let wc := fieldAt pk 12 4
  { ty := w0 % 16
    rel := w0 / 16 % 2 == 1
    fetch := w0 / 32 % 2 == 1
    ctx := fieldAt pk 1 1 % 16
    tag := fieldAt pk 2 2
    dst := w4 % 2 ^ 17
    hops := nbits w4 20 17
    cong := nbits w4 24 21
    src := w8 % 2 ^ 17
    unit := nbits w8 25 17
    route := wc % 2 ^ 24
    bsel := nbits wc 26 24 }

/-- The 16 bytes of a header's common part. -/
def Hdr.bytes (h : Hdr) : List Byte :=
  natLe 1 (h.ty + 16 * bit h.rel + 32 * bit h.fetch) ++ natLe 1 h.ctx ++ natLe 2 h.tag
    ++ natLe 4 (h.dst + 2 ^ 17 * h.hops + 2 ^ 21 * h.cong) ++ natLe 4 (h.src + 2 ^ 17 * h.unit)
    ++ natLe 4 (h.route + 2 ^ 24 * h.bsel)

/-- A packet with its header replaced. -/
def withHdr (h : Hdr) (pk : List Byte) : List Byte := h.bytes ++ pk.drop 16

/-- VA, LEN and the other type-specific fields (Table 9.5). -/
def pkVa (pk : List Byte) : Nat := fieldAt pk 16 6
def pkLen (pk : List Byte) : Nat := fieldAt pk 22 2
def pkHandle (pk : List Byte) : Nat := fieldAt pk 16 4
def pkValue (pk : List Byte) : Nat := fieldAt pk 20 6
def pkOp (pk : List Byte) : Nat := fieldAt pk 22 2
def pkOperand (pk : List Byte) : Nat := fieldAt pk 24 8
def pkStatus (pk : List Byte) : Status := BitVec.ofNat 16 (fieldAt pk 16 2)
def pkEcho (pk : List Byte) : Nat := fieldAt pk 18 1

/-- The reserved bits of the common part are 0, and HOPS is defined. -/
def hdrOk (pk : List Byte) : Bool :=
  let h := hdrOf pk
  decide (32 ≤ pk.length) && fieldAt pk 0 1 / 64 == 0 && (!h.rel || h.ty == 3) && (!h.fetch || h.ty == 4)
    && fieldAt pk 1 1 / 16 == 0 && fieldAt pk 4 4 / 2 ^ 25 == 0 && fieldAt pk 8 4 / 2 ^ 26 == 0
    && fieldAt pk 12 4 / 2 ^ 27 == 0 && decide (h.hops ≤ 8)

/-- LEN of a PUT or GET: 8 to 256, a multiple of 8, within one stripe unit. -/
def lenOk (pk : List Byte) : Bool :=
  decide (8 ≤ pkLen pk) && decide (pkLen pk ≤ 256) && pkLen pk % 8 == 0 && decide (pkVa pk % 256 + pkLen pk ≤ 256)

/-- Whether a packet is well formed (R204). -/
def pkOk (pk : List Byte) : Bool :=
  let n := pk.length - 32
  hdrOk pk && match (hdrOf pk).ty with
    | 1 => lenOk pk && n == pkLen pk && fieldAt pk 24 8 == 0
    | 2 => lenOk pk && n == 0 && fieldAt pk 24 8 == 0
    | 3 => n == 0 && pkHandle pk / 2 ^ 28 == 0 && fieldAt pk 26 6 == 0
    | 4 => n == 0 && decide (pkOp pk ≤ 1)
    | 5 => decide (n ≤ 256)
    | 6 => decide (n ≤ 256)
    | 8 => n == 0 && decide (pkEcho pk < 16) && fieldAt pk 19 13 == 0
    | 9 => decide (pkEcho pk < 16) && fieldAt pk 19 3 == 0 && decide (n ≤ 256) && n == pkLen pk && fieldAt pk 24 8 == 0
    | _ => false

/-- Whether a type is a request (Table 9.5). -/
def isRequest (ty : Nat) : Bool := decide (1 ≤ ty) && decide (ty ≤ 4)

/-- The class of a type (Table 9.5). -/
def pkClass (ty : Nat) : Nat := if ty = 5 then 2 else if ty = 6 then 3 else if ty = 8 ∨ ty = 9 then 1 else 0

/-! ## Shapes and ports -/

/-- 0x6000:00: the straps' device identifier, or the one that was written (R371). -/
def State.didObj (s : State) : Nat := Tab.get s.sys.strapDid.toNat s.um.vals 0x600000

/-- This module's device identifier: the one that bring-up took (R208). -/
def State.myDid (s : State) : Nat := s.fab.did.getD s.didObj

/-- Coordinate k of a device identifier. -/
def coord (did k : Nat) : Nat := if k = 3 then did / 4096 else did / 16 ^ k % 16

/-- A device identifier with coordinate k replaced. -/
def setCoord (did k v : Nat) : Nat := did - coord did k * 16 ^ k + v * 16 ^ k

def State.dimSize (s : State) (k : Nat) : Nat := (s.fab.dims[k]?).getD 1
def State.linkWidth (s : State) (k : Nat) : Nat := if s.dimSize k ≤ 1 then 0 else (s.fab.width[k]?).getD 1

/-- Whether a device identifier lies inside the shape (R209). -/
def State.inShape (s : State) (did : Nat) : Bool := (List.range 4).all (fun k => decide (coord did k < s.dimSize k))

/-- The port of a place in cabling order (R210). -/
def portOfQ (q : Nat) : Nat := 19 * (q % 4) + q / 4

/-- The first place in cabling order of dimension k. -/
def State.qBase (s : State) (k : Nat) : Nat :=
  (List.range k).foldl (fun a j => a + s.linkWidth j * (s.dimSize j - 1)) 0

/-- The bundle from module `did` toward coordinate v in dimension k, in member order (R210). -/
def State.bundle (s : State) (did k v : Nat) : List Nat :=
  let b := s.linkWidth k
  let i := if v < coord did k then v else v - 1
  (List.range b).map (fun m => portOfQ (s.qBase k + b * i + m))

/-- Dimension and coordinate of the neighbour that a port is cabled to; none for a dark port. -/
def State.neighbourOf (s : State) (p : Nat) : Option (Nat × Nat) :=
  (List.range 4).findSome? (fun k =>
    ((List.range (s.dimSize k)).find? (fun v => v != coord s.myDid k && (s.bundle s.myDid k v).contains p)).map (fun v => (k, v)))

/-- A port that can carry packets: UP, UP_ONE_LANE, or QUIET, which a packet wakes (R201, R214; DEDUCED, log 20). -/
def portUp (st : Nat) : Bool := st == 2 || st == 3 || st == 4

/-- The rank-map entry of a rank (R29). -/
def State.rankEntry (s : State) (r : Nat) : Nat := (Tab.get 0 s.xl.rankMap r).toNat

/-- The device identifier of a rank, if it is valid and not lost (R28). -/
def State.didOfRank (s : State) (r : Nat) : Option Nat :=
  let e := s.rankEntry r
  if nbits e 17 17 = 1 ∧ nbits e 18 18 = 0 then some (e % 2 ^ 17) else none

/-- Whether a rank is marked lost (R29, R219). -/
def State.rankLost (s : State) (r : Nat) : Bool := nbits (s.rankEntry r) 18 18 == 1

/-- Whether a device identifier is marked lost (R214, R279). -/
def State.didLost (s : State) (did : Nat) : Bool :=
  NSet.mem s.rbd.lostDids did || s.xl.rankMap.any (fun e => e.2.toNat % 2 ^ 17 == did && nbits e.2.toNat 18 17 == 3)

/-- Whether the neighbour at coordinate v of dimension k is unusable (R214). -/
def State.unusable (s : State) (k v : Nat) : Bool :=
  let b := s.bundle s.myDid k v
  !b.any (fun p => portUp (s.port p).st) || s.didLost (setCoord s.myDid k v) || b.any (fun p => (s.port p).st == 5)

/-- Intermediates usable in dimension k toward coordinate d: reachable, and not known to have lost their link to d. -/
def State.intermediates (s : State) (k d : Nat) : List Nat :=
  (List.range (s.dimSize k)).filter (fun v =>
    v != coord s.myDid k && v != d && !s.unusable k v &&
      !s.fab.unusable.contains (setCoord s.myDid k v, setCoord s.myDid k d))

/-! ## Output queues -/

/-- Credit units of a packet (R206). -/
def creditUnits (pk : List Byte) : Nat := cdiv pk.length 64

/-- Units queued on a port, on one VC or on all. -/
def Port.queuedVc (p : Port) (vc : Nat) : Nat := (p.outq.filter (fun q => q.vc == vc)).foldl (fun a q => a + creditUnits q.bs) 0
def Port.queuedAll (p : Port) : Nat := p.outq.foldl (fun a q => a + creditUnits q.bs) 0

/-- Units queued toward a neighbour (R213). -/
def State.bundleQueue (s : State) (k v : Nat) : Nat := (s.bundle s.myDid k v).foldl (fun a p => a + (s.port p).queuedAll) 0

/-- Less of what is due on a VC; nothing due leaves no entry. -/
def dueLess (t : Tab Nat) (vc n : Nat) : Tab Nat :=
  let m := Tab.get 0 t vc - n
  if m = 0 then Tab.del t vc else Tab.put t vc m

/-- The credits that the next flit returns: two VCs, up to 4095 units each (R206). -/
def Port.takeDue (x : Port) : List (Nat × Nat) × Port :=
  let cr := (x.due.take 2).map (fun e => (e.1, Nat.min 4095 e.2))
  (cr, { x with due := cr.foldl (fun t e => dueLess t e.1 e.2) x.due })

/-- A port sends one flit: numbered, with the credits that are due, and kept in the retry buffer until it is acknowledged (R199). -/
def State.sendFlit (s : State) (p ftype vc sop : Nat) (slots : List Byte) : State :=
  let x := s.port p
  let d := x.takeDue
  let n := x.txSeq.toNat
  (s.setPort p { d.2 with
    txSeq := x.txSeq + 1
    retry := x.retry ++ [(x.txSeq, flitBytes ftype vc n (x.rxSeq - 1).toNat sop d.1 slots)]
    ctr := addCtr x.ctr 1 1 }).emit (.flit p ftype n)

/-- Send one packet on a port as flits of its own (R202): SOP is set in the first of them only. -/
def State.sendFlits (s : State) (p : Nat) (q : QPacket) : State :=
  (chunksOf 240 32 q.bs).zipIdx.foldl (fun (s : State) sl => s.sendFlit p 0 q.vc (bit (sl.2 == 0)) sl.1) s

/-- Whether a port may send a flit now: it is up, with room in its retry buffer. -/
def Port.canFlit (p : Port) : Bool := (p.st == 2 || p.st == 3) && decide (p.retry.length + 2 ≤ 512)

/-- Whether the head packet of a VC may leave: credits, and room in the retry buffer (R199, R206). -/
def Port.canSend (p : Port) (q : QPacket) : Bool :=
  p.canFlit && decide (creditUnits q.bs ≤ Tab.get 256 p.credits q.vc)

/-- A port sends an idle flit, for its acknowledgement and its credits; in safe hold a module sends only fenced-idle flits (R202). -/
def State.sendIdle (s : State) (p : Nat) : State :=
  if (s.port p).canFlit && !s.rbd.safeHold then s.sendFlit p 1 0 0 [] else s

/-- Credits that no data flit has taken along leave in idle flits. -/
def State.flush (s : State) (p : Nat) : State :=
  (List.range 8).foldl (fun (s : State) _ => if (s.port p).due.isEmpty then s else s.sendIdle p) s

/-! ## The receive side: buffers and credits (R206, R207) -/

/-- Credit units of n bytes in packets of up to 256 B. -/
def messageUnits (n : Nat) : Nat := n / 256 * 5 + (if n % 256 = 0 ∧ n ≠ 0 then 0 else cdiv (32 + n % 256) 64)

/-- Credit units of what a packet of a collective says, in the bytes that the model gives it, one packet of 16 B for each other member's norms
(R206; log 16). -/
def msgUnits : CollMsg → Nat
  | .ack _ => messageUnits 0
  | .progress _ _ => messageUnits 9
  | .abort _ _ => messageUnits 6
  | .claims _ l => messageUnits (9 * l.length)
  | .grants _ l => messageUnits (13 * l.length)
  | .sums l => l.length - 1

/-- Credit units of a collective packet: of a data packet a header, and the bytes of its elements as FP32 (R206; log 16). -/
def collUnits (c : CollPkt) : Nat :=
  match c.msg with
  | none => cdiv (32 + Nat.min 256 (4 * c.elems.length)) 64
  | some m => msgUnits m

/-- Units of early traffic held in the pool of I/O die k (R207, R241). -/
def State.earlyUnits (s : State) (k : Nat) : Nat :=
  (s.coll.early.filter (fun e => portDie e.1 == k)).foldl (fun a e => a + collUnits e.2) 0

/-- Whether early packets of I/O die k are left in their port and VC buffers, the share being full: EPOCH_HELD (R241). -/
def State.epochHeld (s : State) (k : Nat) : Bool := s.coll.stuck.any (fun e => portDie e.1 == k)

/-- Units of contributions that I/O die k holds until they can be added (R230). -/
def State.poolUnits (s : State) (k : Nat) : Nat :=
  s.coll.runs.foldl (fun a r => (r.pool.filter (fun e => portDie e.1 == k)).foldl (fun a e => a + collUnits e.2) a) 0

/-- Free shared units of I/O die k: those not granted to a port and VC, and not held by early traffic or contributions. -/
def State.poolFree (s : State) (k : Nat) : Nat :=
  485376 - (List.range 19).foldl (fun a j => (s.port (19 * k + j)).granted.foldl (fun a e => a + e.2) a) 0
    - s.earlyUnits k - s.poolUnits k

/-- Whether the receiver grants n shared units to a port and VC: its occupancy is below the cap, and a class of requests or
collectives leaves the floor free (R206; that it grants whenever it may is a DESIGN CHOICE, log 20). -/
def State.mayGrant (s : State) (p vc n : Nat) : Bool :=
  let free := s.poolFree (portDie p)
  decide (p < 76) && decide (Tab.get 0 (s.port p).used vc < s.obj 0x6020 1) && decide (n ≤ free)
    && (vc / 2 == 1 || vc / 2 == 3 || decide (s.obj 0x6020 3 + n ≤ free))

/-- A packet of n units arrives and holds them; what it takes of the peer's credit is granted again from the shared pool where that is
allowed. -/
def State.holdUnits (s : State) (p vc n : Nat) : State :=
  let g := s.mayGrant p vc n
  if 76 ≤ p then s else s.modPort p (fun x => { x with
    used := Tab.put x.used vc (Tab.get 0 x.used vc + n)
    due := if g then Tab.put x.due vc (Tab.get 0 x.due vc + n) else x.due
    granted := if g then Tab.put x.granted vc (Tab.get 0 x.granted vc + n) else x.granted })

/-- A packet of n units has left its buffer: shared units go back to the pool first, the rest to the peer. -/
def State.freeUnits (s : State) (p vc n : Nat) : State :=
  if 76 ≤ p then s else (s.modPort p (fun x =>
    let g := Nat.min n (Tab.get 0 x.granted vc)
    { x with
      used := Tab.put x.used vc (Tab.get 0 x.used vc - n)
      granted := dueLess x.granted vc g
      due := if n = g then x.due else Tab.put x.due vc (Tab.get 0 x.due vc + (n - g)) })).flush p

/-- A forwarded packet leaves its receive buffer (R206, R207). -/
def State.giveBack (s : State) (q : QPacket) : State :=
  match q.src with
  | none => s
  | some (p, vc) => s.freeUnits p vc (creditUnits q.bs)

/-- Send the packets of a port that can leave, in queue order within each VC (R205). `fuel` packets at most. -/
def State.transmitGo (s : State) (p : Nat) : Nat → State
  | 0 => s
  | fuel + 1 =>
    let x := s.port p
    match x.outq.find? (fun q => (match x.outq.find? (fun r => r.vc == q.vc) with
        | some r => r == q
        | none => false) && x.canSend q) with
    | none => s
    | some q =>
      let s := s.setPort p { x with
        outq := x.outq.erase q
        credits := Tab.put x.credits q.vc (Tab.get 256 x.credits q.vc - creditUnits q.bs) }
      State.transmitGo (((s.sendFlits p q).emit (.packet p q.vc q.bs)).giveBack q) p fuel

/-- The queue of a port moves, but for safe hold (R202). -/
def State.transmit (s : State) (p : Nat) : State :=
  if s.rbd.safeHold then s else (s.transmitGo p (s.port p).outq.length).flush p

/-- Queue a packet on a port; CONG is set when the queue of its VC is above the threshold (R205, R213). -/
def State.enqueue (s : State) (p vc k : Nat) (h : Hdr) (pk : List Byte) (src : Option (Nat × Nat)) : State :=
  let full := s.obj 0x6010 3 * s.obj 0x6020 1 < 100 * (s.port p).queuedVc vc
  let h := if full then { h with cong := h.cong ||| 2 ^ k } else h
  (s.modPort p (fun x => { x with outq := x.outq ++ [⟨vc, withHdr h pk, src⟩] })).transmit p

/-! ## Routing -/

/-- The first dimension to correct (R211). -/
def State.routeDim (s : State) (dst : Nat) : Option Nat :=
  (List.range 4).find? (fun k => coord s.myDid k != coord dst k)

/-- The intermediate coordinate of field k of ROUTE, if V = 1. -/
def routeField (route k : Nat) : Option Nat :=
  let f := route / 64 ^ k % 64
  if 32 ≤ f then some (f % 32) else none

def setRouteField (route k v : Nat) : Nat := route - (route / 64 ^ k % 64) * 64 ^ k + (32 + v) * 64 ^ k

/-- The member of a bundle that a packet leaves on: BSEL mod b_k (R211). -/
def State.member (s : State) (k v bsel : Nat) : Nat :=
  let b := s.bundle s.myDid k v
  (b[bsel % (Nat.max 1 b.length)]?).getD 0

/-- The choice of an intermediate by the hash (R213). -/
def pickHash (l : List Nat) (a b : Nat) : Option Nat := l[Config.flowHash a b % (Nat.max 1 l.length)]?

/-- Route a packet one hop on (R211, R214, R215): `inDim` is the dimension of the port it arrived through, `src` the buffer
it holds. None: it must be answered with ROUTE_UNAVAILABLE. -/
def State.routeOn (s : State) (inDim : Option Nat) (src : Option (Nat × Nat)) (pk : List Byte) : Option State :=
  let h := hdrOf pk
  if !s.inShape h.dst || decide (8 ≤ h.hops) then none
  else match s.routeDim h.dst with
    | none => none
    | some k =>
      let d := coord h.dst k
      let me := coord s.myDid k
      let sBit := inDim == some k
      let v := match routeField h.route k with
        | some i => if i = me then d else i
        | none => d
      let h := { h with hops := h.hops + 1 }
      let go := fun (v : Nat) (h : Hdr) => some (s.enqueue (s.member k v h.bsel) (2 * pkClass h.ty + bit sBit) k h pk src)
      if !s.unusable k v then go v h
      else if sBit then none
      else
        let c := s.intermediates k d
        match pickHash c (h.src * 2 ^ 17 + h.dst) h.unit with
        | none => none
        | some i => go i { h with route := setRouteField h.route k i }

/-- A response packet: ACK with a status (type 8), or DATA with bytes (type 9), to the sender of `pk`. -/
def State.responseTo (s : State) (pk : List Byte) (st : Status) (data : Option (List Byte)) : List Byte :=
  let h := hdrOf pk
  let r : Hdr := {
    ty := if data.isSome then 9 else 8
    rel := false
    fetch := false
    ctx := h.ctx
    tag := h.tag
    dst := h.src
    hops := 0
    cong := 0
    src := s.myDid
    unit := h.unit
    route := 0
    bsel := Config.flowHash (h.src * 2 ^ 17 + h.dst) 0 % 8 }
  let d := data.getD []
  r.bytes ++ natLe 2 st.toNat ++ natLe 1 h.cong ++ [0, 0, 0] ++ natLe 2 d.length ++ List.replicate 8 0 ++ d

/-- Send a packet that this module forms: through its route, or looped to this module itself, which its environment
brings back as an arrival (log 20). None: no route. -/
def State.send (s : State) (pk : List Byte) : Option State :=
  if (hdrOf pk).dst = s.myDid then some (s.emit (.packet 76 (2 * pkClass (hdrOf pk).ty) pk)) else s.routeOn none none pk

/-- Answer a packet; an answer that finds no route is lost (R215). -/
def State.respond (s : State) (pk : List Byte) (st : Status) (data : Option (List Byte)) : State :=
  (s.send (s.responseTo pk st data)).getD s

/-! ## Packets that arrive (R204, R205, R207) -/

/-- The VC a packet arrived on: s is 1 where the neighbour that sent it was the intermediate of the port's dimension
(R205, R211). -/
def State.arrivalVc (s : State) (p : Nat) (pk : List Byte) : Nat :=
  let h := hdrOf pk
  let mid := match s.neighbourOf p with
    | some (k, v) => routeField h.route k == some v && coord h.src k != v
    | none => false
  2 * pkClass h.ty + bit mid

/-- Units of a packet that does not stay in its buffer go back to the peer at once; the loop of the module to itself has none. -/
def State.passUnits (s : State) (p vc n : Nat) : State :=
  if p < 76 then (s.modPort p (fun x => { x with due := Tab.put x.due vc (Tab.get 0 x.due vc + n) })).flush p else s

/-- The packet occupies its receive buffer (R207). -/
def State.occupy (s : State) (p vc : Nat) (pk : List Byte) : State := (s.holdUnits p vc (creditUnits pk)).flush p

/-- A packet that the module takes or discards as it arrives has left its buffer: its units go back to the peer at once (R206,
R207). -/
def State.passOn (s : State) (p : Nat) (pk : List Byte) : State := s.passUnits p (s.arrivalVc p pk) (creditUnits pk)

/-! ## Formation (R203, R212, R213) -/

/-- An identity of a flow, for the hash. -/
def flowId (c unit rank : Nat) : Nat := (c * 512 + unit) * 2 ^ 17 + rank

/-- The selector of a flow's bundle members (R213). -/
def bselOf (fid : Nat) : Nat := Config.flowHash fid 0 % 8

/-- The choice of a flow's route at flowlet start (R213, R214): mode 0 takes none but where a neighbour is unusable, or where the port of
this module that the flow would leave on has gone down. -/
def State.chooseRoute (s : State) (dst fid count : Nat) (echo : BitVec 4) : Nat :=
  let dims := (List.range 4).filter (fun k => coord s.myDid k != coord dst k)
  let leaves := fun (k v : Nat) => portUp (s.port (s.member k v (bselOf fid))).st
  dims.foldl (fun (acc : Nat × Bool) k =>
    let d := coord dst k
    let c := (s.intermediates k d).filter (fun v => !acc.2 || leaves k v)
    let least := (c.map (s.bundleQueue k)).foldl Nat.min (c.map (s.bundleQueue k)).sum
    let busy := s.obj 0x6010 1 == 1 &&
      (if acc.2 then decide (2 * least + s.obj 0x6010 2 < s.bundleQueue k d) else echo.getLsbD k)
    let need := busy || (acc.2 && (s.unusable k d || !leaves k d))
    let r := match pickHash c fid count with
      | some i => if need then setRouteField acc.1 k i else acc.1
      | none => acc.1
    (r, false)) (0, true) |>.1

/-- The flow of a transaction with one more outstanding: a new flowlet chooses its route; a new flow takes a free entry, or
one whose count is 0. None: the table of 64 is full (R212). -/
def State.takeFlow (s : State) (c unit rank dst : Nat) : Option (Flow × State) :=
  let isIt := fun (f : Flow) => f.c == c && f.unit == unit && f.rank == rank
  let mine := s.fab.flows.filter (fun f => f.unit == unit)
  let fid := flowId c unit rank
  match s.fab.flows.find? isIt with
  | some f =>
    let f := if f.count = 0 then { f with
        route := BitVec.ofNat 24 (s.chooseRoute dst fid (f.flowlets + 1) f.echo), flowlets := f.flowlets + 1, count := 1 }
      else { f with count := f.count + 1 }
    some (f, { s with fab.flows := s.fab.flows.map (fun g => if isIt g then f else g) })
  | none =>
    let f : Flow := ⟨c, unit, rank, BitVec.ofNat 24 (s.chooseRoute dst fid 1 0), bselOf fid, 1, 1, 0⟩
    if mine.length < 64 then some (f, { s with fab.flows := s.fab.flows ++ [f] })
    else match mine.find? (fun g => g.count == 0) with
      | some g => some (f, { s with fab.flows := s.fab.flows.erase g ++ [f] })
      | none => none

/-- A tag that no outstanding request uses, nor a forwarded one. -/
def State.freeTag (s : State) : BitVec 16 :=
  let used := s.fab.trans.map (·.tag) ++ s.um.fwdTags
  (((List.range (used.length + 1)).map (fun i => s.fab.nextTag + BitVec.ofNat 16 i)).find? (fun t => !used.contains t)).getD
    s.fab.nextTag

/-- What the formation of a transaction comes to. -/
inductive Formed where
  | sent (s : State)
  | noRoute (s : State)
  | wait
  deriving DecidableEq, Repr

/-- The I/O die that forms a unit's transactions (R27): the unit's own, and of a core the one of its number modulo 4 (DESIGN CHOICE,
log 20). -/
def unitDie (unit : Nat) : Nat := 8 + unit % 4

/-- Form a transaction of context c from a source unit to a rank and send its packet (R27, R28, R203, R212). -/
def State.form (s : State) (c unit rank ty : Nat) (rel : Bool) (tail : List Byte) (kind : TransKind) : Formed :=
  match s.didOfRank rank with
  | none => .noRoute (s.dieEvent (unitDie unit) 0x6D 1 (some c))
  | some dst =>
    match s.takeFlow c unit rank dst with
    | none => .wait
    | some (f, s') =>
      let tag := s'.freeTag
      let h : Hdr := {
        ty := ty
        rel := rel
        fetch := false
        ctx := c
        tag := tag.toNat
        dst := dst
        hops := 0
        cong := 0
        src := s'.myDid
        unit := unit
        route := f.route.toNat
        bsel := f.bsel }
      let s' := { s' with
        fab.trans := s'.fab.trans ++ [(⟨tag, unit, c, kind, rank, dst⟩ : Trans)]
        fab.nextTag := tag + 1
        pen.txCount := Tab.put s'.pen.txCount c (Tab.get 0 s'.pen.txCount c + 1) }
      match s'.send (h.bytes ++ tail ++ List.replicate (16 - tail.length) 0) with
      | some s2 => .sent s2
      | none => .noRoute (s.dieEvent (unitDie unit) 0x6D 1 (some c))

/-! ## Management packets (R203, R205, R333) -/

/-- A module-to-module message as Umasel frames (Table 14.4): up to 208 B of payload each, in order by OFFSET, LAST in the final one. The
spec gives the messages' operations in 0x40-0x5F and their payloads no layout (DESIGN CHOICE, log 20). -/
def mgFrames (kind : Nat) (bs : List Byte) : List (List Byte) :=
  let parts := if bs.isEmpty then [[]] else chunksOf 208 bs.length bs
  parts.zipIdx.map (fun p =>
    natLe 1 1 ++ natLe 1 (0x40 + (Config.mgOp kind).toNat) ++ List.replicate 10 0 ++ natLe 4 (208 * p.2)
      ++ natLe 4 (p.1.length + 2 ^ 21 * bit (p.2 + 1 == parts.length)) ++ List.replicate 28 0 ++ p.1)

/-- A packet of the MGMT type, from the management agent of IOD0, addressed by device identifier. -/
def State.mgmtPacket (s : State) (did : Nat) (data : List Byte) : List Byte :=
  let h : Hdr := {
    ty := 6
    rel := false
    fetch := false
    ctx := 0
    tag := 0
    dst := did
    hops := 0
    cong := 0
    src := s.myDid
    unit := 328
    route := 0
    bsel := bselOf (flowId 0 328 did) }
  h.bytes ++ List.replicate 16 0 ++ data

/-- A management message to a module: it is noted as a whole, and its frames leave as packets; one without a route is lost (R215). -/
def State.mgmt (s : State) (did kind : Nat) (bs : List Byte) : State :=
  (if kind = Mg.umasel then [bs] else mgFrames kind bs).foldl (fun (s : State) f => (s.send (s.mgmtPacket did f)).getD s)
    (s.emit (.mgmt did kind bs))

/-! ## The recovery coordinator (R295) -/

/-- The ranks of the map that are valid and not lost, with their device identifiers, in order of rank. -/
def State.workingRanks (s : State) : List (Nat × Nat) :=
  (s.xl.rankMap.filter (fun e => nbits e.2.toNat 17 17 == 1 && nbits e.2.toNat 18 18 == 0)).map (fun e =>
    (e.1, e.2.toNat % 2 ^ 17))

/-- The rank of the recovery coordinator: the lowest working rank. -/
def State.coordRank (s : State) : Option Nat := (s.workingRanks.head?).map (·.1)

/-- Whether this module holds a rank, and which. -/
def State.myRank (s : State) : Option Nat := if s.rbd.rank.getLsbD 17 then none else some (s.rbd.rank.toNat % 2 ^ 17)

/-- Whether this module is the coordinator. -/
def State.isCoord (s : State) : Bool := s.myRank.isSome && s.myRank == s.coordRank

/-- Whether this module is the coordinator once the module `but` is lost: the next takes over (R295). -/
def State.isCoordBut (s : State) (but : Nat) : Bool :=
  s.myRank.isSome && s.myRank == (s.workingRanks.find? (fun e => e.2 != but)).map (·.1)

/-- A message to the coordinator, if there is one; of two candidates, not the module `but` that the message is about. -/
def State.tellCoordBut (s : State) (but : Option Nat) (kind : Nat) (bs : List Byte) : State :=
  match s.workingRanks.find? (fun e => some e.2 != but) with
  | some e => s.mgmt e.2 kind bs
  | none => s

/-- A message to the coordinator, if there is one. -/
def State.tellCoord (s : State) (kind : Nat) (bs : List Byte) : State := s.tellCoordBut none kind bs

/-- Device identifiers of the shape other than this module's. -/
def State.shapeDids (s : State) : List Nat := (List.range (2 ^ 17)).filter (fun d => s.inShape d && d != s.myDid)

/-- A message to every module of the installation. -/
def State.tellAll (s : State) (kind : Nat) (bs : List Byte) : State :=
  s.shapeDids.foldl (fun (s : State) d => s.mgmt d kind bs) s

/-! ## The end of a transaction -/

/-- The flow of a transaction has one outstanding less; the response's CONG_ECHO is kept (R212, R213). -/
def State.releaseFlow (s : State) (t : Trans) (echo : Option Nat) : State :=
  { s with fab.flows := s.fab.flows.map (fun f =>
      if f.c = t.c ∧ f.unit = t.unit ∧ f.rank = t.rank then
        { f with count := f.count - 1, echo := match echo with
            | some e => BitVec.ofNat 4 e
            | none => f.echo }
      else f) }

/-- An instruction of a core stops waiting, and completes when UNIT_INSTRUCTION_COMPLETE says so. -/
def CoreState.unwait (cs : CoreState) (seq : Nat) : CoreState :=
  { cs with inflight := cs.inflight.map (fun i => if i.seq = seq then { i with waiting := false } else i) }

/-- Whether the task that issued instruction `seq` of a core still runs. -/
def CoreState.owns (cs : CoreState) (seq : Nat) : Bool := cs.inflight.any (fun i => i.seq == seq)

/-- The program counter names the instruction that ends the task, unless the task has ended before (R54, Table 2.10). -/
def CoreState.endsAt (cs : CoreState) (seq : Nat) : CoreState :=
  match cs.inflight.find? (fun i => i.seq == seq) with
  | some i => if cs.ended.isSome then cs else { cs with pc := i.pc }
  | none => cs

/-- The same for an instruction that may have completed. -/
def CoreState.endsAtPc (cs : CoreState) (pc : Nat) : CoreState := if cs.ended.isSome then cs else { cs with pc := pc }

/-- GET requests of an instruction that are outstanding. -/
def State.getsOut (s : State) (L seq : Nat) : Bool :=
  s.fab.trans.any (fun t => match t.kind with
    | .get l q _ _ => l == L && q == seq
    | _ => false)

/-- Address of a group's entry. -/
def State.entryVa (s : State) (c group : Nat) : Nat := (s.ctx c).ueGtab.toNat + 256 * group

/-- An engine field of a group's entry. -/
def State.putEntry (s : State) (c group off : Nat) (bs : List Byte) : State :=
  (s.vaWrite none c (s.entryVa c group + off) (bs.map (fun b => (b, false))) [.w]).2

/-- A parity delta of a group has failed: PAR_STALE in UE_CTX_STATUS and in the entry, the count, and the recovery coordinator is told
(R268; that it is told by a message is DEDUCED, log 16). -/
def State.deltaFailed (s : State) (c group die : Nat) : State :=
  ((((s.modCtx c (fun x => { x with ueStatus := x.ueStatus ||| 1 })).dieEvent (8 + die) 0x6A 1 (some c)).putEntry c group 0xCC
    (natLe 4 1)).tellCoord Mg.parStale (natLe 1 c ++ natLe 2 group))

/-- A transaction ends with a status: what waits for it is told (R184, R219, R268). -/
def State.endTrans (s : State) (t : Trans) (st : Status) (echo : Option Nat) : State :=
  let s := ({ s with fab.trans := s.fab.trans.erase t }).releaseFlow t echo
  match t.kind with
  | .put L pc =>
    let mine := (s.core L).putsOut.contains t.tag.toNat
    let s := s.modCore L (fun cs => { cs with putsOut := cs.putsOut.erase t.tag.toNat })
    if !mine then s
    else if statusClass st = 0 then s.settle L else (s.modCore L (fun cs => cs.endsAtPc pc)).endTask L st
  | .get L seq _ _ =>
    let s := if s.getsOut L seq then s else s.modCore L (fun cs => cs.unwait seq)
    if !(s.core L).owns seq then s
    else if statusClass st = 0 then s else (s.modCore L (fun cs => cs.endsAt seq)).endTask L st
  | .hoist src id => { s with pen.outcomes := s.pen.outcomes ++ [⟨src, st, id⟩] }
  | .delta k group =>
    let s := if statusClass st = 0 then s else s.deltaFailed k.c group (t.unit % 4)
    { s with coll.runs := s.coll.runs.map (fun r =>
        if r.key.c = k.c ∧ r.d.id = k.id then { r with upd := r.upd.map (fun u => { u with deltas := u.deltas - 1 }) } else r) }
  | .coll _ => s
  | .other => s

end Sys2Proof.Machine
end

