-- ==== Sys2Proof/Machine/Pennant.lean ====
section
/-! DEFINITION. Pennants (08): translation, the operations at a slot (Table 8.5), outcomes, the SYN instructions, and the
deadlock detector. A SYN instruction issues and sends its message; PENNANT_OPERATION applies it (log 3). -/

namespace Sys2Proof.Machine
open Sys2Proof

/-! ## Translation (R176, R177) -/

/-- The key of a slot: home and index. -/
def slotKey (home idx : Nat) : Nat := home * 2 ^ 14 + idx

/-- Address of the translation entry of an identifier. -/
def penEntryAddr (root : BitVec 64) (id : Nat) : Nat := bits root 47 23 * 2 ^ 23 + 8 * id

/-- Whether the translation entry of an identifier lies in a reserved range of Table 1.7 (R22). -/
def State.penBeyond (s : State) (c id : Nat) : Bool :=
  let root := Tab.get 0 s.xl.penRoot c
  bits root 0 0 == 1 && decide (s.stripedEnd < penEntryAddr root id + 8)

/-- The translation entry of an identifier, read from memory at every translation: none with the root disabled, or in a reserved range; an
error in the table is a fault of unknown extent (R275, R283). -/
def State.penEntry (s : State) (c id : Nat) : Option Nat × State :=
  let root := Tab.get 0 s.xl.penRoot c
  if bits root 0 0 = 0 ∨ s.penBeyond c id then (none, s)
  else let r := s.tableRead (penEntryAddr root id) 8; (r.1.map leNat, r.2)

/-- Fields of a translation entry (Table 8.2). -/
def peV (e : Nat) : Bool := nbits e 0 0 == 1
def peK (e : Nat) : Bool := nbits e 1 1 == 1
def peGen (e : Nat) : Nat := nbits e 15 8
def peHome (e : Nat) : Nat := nbits e 24 16
def peIdx (e : Nat) : Nat := nbits e 45 32

/-! ## Outcomes -/

/-- The PEN_CTX_STATUS bits of a refused or stale message (R184, R191). -/
def State.penNote (s : State) (c id : Nat) (st : Status) : State :=
  s.modCtx c (fun x => { x with
    overrun := x.overrun || st == St.penOverrun
    countOvf := x.countOvf || st == St.penCount
    staleRx := x.staleRx || st == St.penStale
    lastId := BitVec.ofNat 20 id })

/-- The context makes progress: its quiescent-blocked state and the module's end (R192). -/
def State.progress (s : State) (c : Nat) : State :=
  if (s.ctx c).qblocked || s.pen.modBlocked then
    { s.modCtx c (fun x => { x with qblocked := false }) with
      pen.modBlocked := false }
  else s

/-- Where the tasks of a context stand on the cores: which they are, what each has issued, what is in flight, what is queued. -/
def State.workMark (s : State) (c : Nat) : List Nat :=
  s.cores.flatMap (fun e =>
    let cs := e.2
    let t : List Nat := match cs.task with
      | some x => if x.key.c = c then [x.key.q, x.key.idx, x.recNo, cs.seqNo, cs.pc, cs.inflight.length] else []
      | none => []
    let q := (cs.queue.filter (fun x => x.key.c == c)).length
    if t.isEmpty ∧ q = 0 then [] else e.1 :: q :: t)

/-- Whether a context is quiescent-blocked still: it entered the state, and no task of it has started, issued or completed an instruction since
(R192, Table 7.12). -/
def State.blocked (s : State) (c : Nat) : Bool := (s.ctx c).qblocked && (s.ctx c).quiesceAt == s.workMark c

/-- Whether every context with a started command is quiescent-blocked, and one is (R192). -/
def State.allBlocked (s : State) : Bool :=
  s.ctxs.all (fun e => e.2.started.isEmpty || s.blocked e.1) && s.ctxs.any (fun e => !e.2.started.isEmpty)

/-- Whether the module is quiescent-blocked. -/
def State.moduleBlocked (s : State) : Bool := s.pen.modBlocked && s.allBlocked

/-- A quiescent-blocked event (R192): counted, and raised unless host software raises it (mode 2, Table 14.9). -/
def State.blockedEvent (s : State) (raise : State → State) : State :=
  let s := { s with pen.dldEvents := s.pen.dldEvents + 1 }
  if s.obj 0x2200 2 = 2 then s else raise s

/-- The module enters the state with the last of its contexts, whether that context enters it too or its commands end; `was` says whether it was in
it; the event's detail is free (log 17). -/
def State.enterModule (s : State) (was : Bool) : State :=
  if was || !s.allBlocked || s.obj 0x2200 1 == 0 then s
  else ({ s with pen.modBlocked := true } : State).blockedEvent (fun s => s.event2 0x0101 16 0)

/-- A command ends with a condition, or with none (R154, R190). -/
def State.endCmd (s : State) (k : CmdKey) (st : Status) : State :=
  (s.modCmd k (fun m => { m with
    conds := if st = St.ok then m.conds else m.conds ++ [(st, 0)]
    finished := true })).progress k.c

/-- The strike of PRE_READY of a collective's update has ended: it proceeds, or it was released (R188, R258). -/
def State.endStrike (s : State) (k : CollKey) (got : Bool) : State :=
  { s with coll.runs := s.coll.runs.map (fun r =>
      if r.key.c = k.c ∧ r.d.id = k.id then
        { r with upd := r.upd.map (fun u => { u with strike := if got then .done else .stale }) }
      else r) }

/-- The wait of a sender ends: satisfied with a value, unsatisfied, or stale (R183, R186, R188). -/
def State.endWait (s : State) (src : PenSrc) (wr : Option Nat) (v : Option (BitVec 48)) (stale : Bool) : State :=
  match src with
  | .core L seq _ =>
    let c := (((s.core L).task).map (·.key.c)).getD 0
    let s := s.modCore L (fun cs =>
      if !cs.owns seq then cs
      else
        let cs := { cs.unwait seq with p := v.isSome }
        let cs := if stale then (cs.note St.penStale).event 0x11 1 else cs
        match wr, v with
        | some r, some x => cs.setA r x.toNat false
        | _, _ => cs)
    s.progress c
  | .cmd k => s.endCmd k (if stale then St.penStale else St.ok)
  | .engine c (some k) => (s.endStrike k v.isSome).progress c
  | _ => s

/-- The outcome of a hoist is on its way to its sender (R185). -/
def State.outcome (s : State) (src : PenSrc) (st : Status) (id : Nat) : State :=
  { s with pen.outcomes := s.pen.outcomes ++ [⟨src, st, id⟩] }

/-- A stale message: dropped, counted, reported (R177). -/
def State.stale (s : State) (m : PenMsg) : State :=
  let s := ({ s with pen.stale := s.pen.stale + 1 }).penNote m.c m.id St.penStale
  match m.op with
  | .hoist _ _ => s.outcome m.src St.penStale m.id
  | .send _ _ _ => s
  | .strike _ wr _ => (s.modCtx m.c (fun x => { x with staleTx := true })).endWait m.src wr none true
  | .watch _ wr _ => (s.modCtx m.c (fun x => { x with staleTx := true })).endWait m.src wr none true
  | .test _ wr => (s.modCtx m.c (fun x => { x with staleTx := true })).endWait m.src wr none true

/-! ## Operations at a slot (Table 8.5, R181 to R183) -/

/-- Whether a waiter's condition holds. -/
def Slot.meets (x : Slot) (n : Nat) : Bool := if x.k then decide (n ≤ x.value.toNat) else x.f

/-- The slot after a strike of n. -/
def Slot.consume (x : Slot) (n : Nat) : Slot :=
  if x.k then
    let v := x.value - BitVec.ofNat 48 n
    { x with value := v, f := v != 0 }
  else { x with f := false }

/-- Recorded strikers are served in order while the first of them is satisfied (R182). `fuel` strikers at most. -/
def serveStrikers : Nat → Slot → List (Waiter × BitVec 48) → Slot × List (Waiter × BitVec 48)
  | 0, x, done => (x, done)
  | fuel + 1, x, done =>
    match x.waiters.find? (·.strike) with
    | none => (x, done)
    | some w =>
      if x.meets w.n then
        serveStrikers fuel ({ x with waiters := x.waiters.erase w }.consume w.n) (done ++ [(w, x.value)])
      else (x, done)

/-- An accepted hoist: the new value, then watchers, then strikers (R182). -/
def Slot.accept (x : Slot) (v : BitVec 48) : Slot × List (Waiter × BitVec 48) :=
  let x := if x.k then { x with value := x.value + v, f := x.value + v != 0 } else { x with value := v, f := true }
  let ws := x.waiters.filter (fun w => !w.strike && x.meets w.n)
  let x := { x with waiters := x.waiters.filter (fun w => !(!w.strike && x.meets w.n)) }
  serveStrikers x.waiters.length x (ws.map (fun w => (w, x.value)))

/-- Whether the slot refuses a hoist, and how (Table 8.5). -/
def Slot.refuses (x : Slot) (v : BitVec 48) : Option Status :=
  if x.k then (if x.value.toNat + v.toNat < 2 ^ 48 then none else some St.penCount)
  else if x.f then some St.penOverrun else none

/-- Released waiters proceed. -/
def State.proceedAll (s : State) (ws : List (Waiter × BitVec 48)) : State :=
  ws.foldl (fun (s : State) w => s.endWait w.1.src w.1.wr (some w.2) false) s

/-- A message takes effect at its slot. -/
def State.atSlot (s : State) (key : Nat) (m : PenMsg) : State :=
  let x := s.slot key
  match m.op with
  | .hoist v _ =>
    match x.refuses v with
    | some st => (({ s with pen.refused := s.pen.refused + 1 }).penNote m.c m.id st).outcome m.src st m.id
    | none =>
      let r := x.accept v
      (((s.setSlot key r.1).proceedAll r.2).outcome m.src St.ok m.id).progress m.c
  | .strike n wr tmo =>
    if x.meets n && (!x.k || !x.waiters.any (·.strike)) then
      (s.setSlot key (x.consume n)).endWait m.src wr (some x.value) false
    else s.setSlot key { x with waiters := x.waiters ++ [⟨m.src, true, n, wr, m.c, m.id, tmo, s.sys.ts⟩] }
  | .watch n wr tmo =>
    if x.meets n then s.endWait m.src wr (some x.value) false
    else s.setSlot key { x with waiters := x.waiters ++ [⟨m.src, false, n, wr, m.c, m.id, tmo, s.sys.ts⟩] }
  | .test n wr =>
    let yes := x.meets n && (!x.k || !x.waiters.any (·.strike))
    match m.src with
    | .core L seq _ => s.modCore L (fun cs =>
        if !cs.owns seq then cs
        else
          let cs := { cs.unwait seq with p := yes }
          match wr with
          | some r => cs.setA r x.value.toNat false
          | none => cs)
    | _ => s
  | .send _ _ _ => s

/-- The translation of a message faults, its table lying in a reserved range: it ends with ADDRESS_FAULT for its sender (R22; DEDUCED,
log 11). -/
def State.penFault (s : State) (m : PenMsg) : State :=
  match m.op, m.src with
  | .hoist _ _, _ => s.outcome m.src St.address m.id
  | .send _ _ _, _ => s
  | _, .core L seq _ => (s.modCore L (fun cs => if cs.owns seq then { cs.unwait seq with p := false }.note St.address else cs)).progress m.c
  | _, .cmd k => s.endCmd k St.address
  | _, .engine c (some k) => (s.endStrike k false).progress c
  | _, _ => s

/-- A message is translated and taken to its slot, or found stale (R177). -/
def State.deliver (s : State) (m : PenMsg) : State :=
  let e := s.penEntry m.c m.id
  if s.penBeyond m.c m.id then s.penFault m
  else match e.1 with
  | none => if e.2.rbd.safeHold then e.2 else e.2.stale m
  | some v =>
    if !peV v then e.2.stale m
    else
      let g := BitVec.ofNat 8 (peGen v)
      let key := slotKey (peHome v) (peIdx v)
      if (m.gen.getD g) ≠ g ∨ (e.2.slot key).gen ≠ (m.gen.getD g) then e.2.stale m
      else e.2.atSlot key m

/-! ## Order of messages (R35, R187) -/

/-- Whether a core's message may go: no earlier SYN instruction of the core still waits (R35). -/
def State.synTurn (s : State) (L seq : Nat) : Bool :=
  !(s.core L).inflight.any (fun i => i.unit == .syn && i.waiting && decide (i.seq < seq))

/-- The unit number of a sender in packets (Table 9.4). -/
def PenSrc.unitNo : PenSrc → Nat
  | .core L _ _ => L
  | .cmd k => 324 + k.c % 4
  | _ => 328

/-- The source unit of a message in the module network: a core, the front end of an I/O die, the engine group of one, or the ingress of
one (R11, Table 9.4). -/
def PenSrc.endpoint : PenSrc → Option Nat
  | .core L _ _ => some L
  | .cmd k => some (324 + k.c % 4)
  | .remote p _ _ _ _ _ => some (1000 + portDie p)
  | .engine c _ => some (320 + c % 4)

/-- Whether an earlier message of the same source unit to the same slot is still on its way (R11). -/
def State.behind (s : State) (i : Nat) (m : PenMsg) : Bool :=
  (s.pen.msgs.take i).any (fun e => e.c == m.c && e.id == m.id && e.src.endpoint.isSome && e.src.endpoint == m.src.endpoint)

/-- A message may go: a core's in queue order, and a local release hoist after its task's writes are acknowledged
(R187). -/
def State.mayGo (s : State) (m : PenMsg) : Bool :=
  match m.src with
  | .core L seq _ =>
    s.synTurn L seq && (match m.op with
      | .hoist _ rel => !rel || !s.writesOut L
      | _ => true)
  | _ => true

/-- A hoist has left its core: without CHK its instruction no longer waits (R184). -/
def State.left (s : State) (m : PenMsg) : State :=
  match m.src, m.op with
  | .core L seq chk, .hoist _ _ => s.modCore L (fun cs => (if chk then cs else cs.unwait seq).event 0x10 1)
  | .core L seq chk, .send _ _ _ => s.modCore L (fun cs => (if chk then cs else cs.unwait seq).event 0x10 1)
  | _, _ => s

/-- The type-specific bytes of a HOIST packet (Table 9.5). -/
def hoistTail (gen id : Nat) (v : BitVec 48) : List Byte := natLe 4 (id + 2 ^ 20 * gen) ++ natLe 6 v.toNat

/-- The effect of PENNANT_OPERATION: message i is translated and applied, or formed as a packet (R181, R189). -/
def fxPennantOperation (i : Nat) (s : State) : State :=
  match s.pen.msgs[i]? with
  | none => s
  | some m =>
    if !s.alive || !s.mayGo m || s.behind i m then s
    else
      let s0 := { s with pen.msgs := s.pen.msgs.eraseIdx i }
      match m.op with
      | .send rank v rel =>
        match s0.form m.c m.src.unitNo rank 3 rel (hoistTail (m.gen.getD 0).toNat m.id v) (.hoist m.src m.id) with
        | .sent s1 => s1.left m
        | .noRoute s1 => (s1.left m).outcome m.src St.noRoute m.id
        | .wait => s
      | _ => (s0.left m).deliver m

/-- PENNANT_OPERATION (R177, R181). -/
def execPennantOperation (i : Nat) (s : State) : Host.Outcome State Fault Refusal := .next (fxPennantOperation i s)

/-- An ACK to a remote sender of a hoist (R185, R219). -/
def State.ackRemote (s : State) (c did unit tag cong : Nat) (st : Status) : State :=
  let h : Hdr := ⟨3, false, false, c, tag, s.myDid, 0, cong, did, unit, 0, 0⟩
  s.respond (h.bytes ++ List.replicate 16 0) st none

/-- The effect of HOIST_OUTCOME: outcome i reaches its sender (R184, R185, R190). -/
def fxHoistOutcome (i : Nat) (s : State) : State :=
  match s.pen.outcomes[i]? with
  | none => s
  | some o =>
    if !s.alive then s
    else
      let s := { s with pen.outcomes := s.pen.outcomes.eraseIdx i }
      let bad := o.status != St.ok
      let staleB := o.status == St.penStale
      let refused := o.status == St.penOverrun || o.status == St.penCount
      match o.src with
      | .core L seq chk =>
        let c := (((s.core L).task).map (·.key.c)).getD 0
        let s := if staleB then s.modCtx c (fun x => { x with staleTx := true, lastId := BitVec.ofNat 20 o.id }) else s
        let s := s.modCore L (fun cs =>
          let cs := { cs with hoistsOut := cs.hoistsOut - 1 }
          let cs := if refused || staleB then cs.event 0x11 1 else cs
          let cs := if bad && !(refused && chk) then cs.note o.status else cs
          if chk && cs.owns seq then { cs.unwait seq with p := !bad } else cs)
        s.settle L
      | .cmd k =>
        let s := if staleB then s.modCtx k.c (fun x => { x with staleTx := true, lastId := BitVec.ofNat 20 o.id }) else s
        s.endCmd k o.status
      | .remote _ did unit tag cong ctx => s.ackRemote ctx did unit tag cong o.status
      | .engine c _ =>
        if staleB then s.modCtx c (fun x => { x with staleTx := true, lastId := BitVec.ofNat 20 o.id }) else s

/-- HOIST_OUTCOME (R185). -/
def execHoistOutcome (i : Nat) (s : State) : Host.Outcome State Fault Refusal := .next (fxHoistOutcome i s)

/-- The effect of PER_WAIT_TIMEOUT: the core's timed waiter is removed, consumes nothing, and P := 0 (R186). -/
def fxPerWaitTimeout (L : Nat) (s : State) : State :=
  let isIt := fun (w : Waiter) => w.src.unitNo == L && decide (0 < w.tmo) && (match w.src with
    | .core _ _ _ => true
    | _ => false)
  let ws := s.pen.slots.flatMap (fun e => e.2.waiters.filter isIt)
  let s := { s with pen.slots := Tab.mapV s.pen.slots (fun _ x => { x with waiters := x.waiters.filter (fun w => !isIt w) }) }
  ws.foldl (fun (s : State) w => s.endWait w.src w.wr none false) s

/-- PER_WAIT_TIMEOUT (R186). -/
def execPerWaitTimeout (core : Nat) (s : State) : Host.Outcome State Fault Refusal := onCore core s (fxPerWaitTimeout core)

/-! ## SYN instructions (Tables 8.3, 8.4) -/

def synFlag (f : TileFields) : Bool := f.getLsbD 113
def synCHK (f : TileFields) : Bool := f.getLsbD 112
def synPR (f : TileFields) : Nat := bits f 111 108
def synRK (f : TileFields) : Nat := bits f 107 104
def synLOC (f : TileFields) : Bool := f.getLsbD 103
def synVR (f : TileFields) : Nat := bits f 102 99
def synVI (f : TileFields) : Bool := f.getLsbD 98
def synTMO (f : TileFields) : Nat := bits f 97 74
def synIMM (f : TileFields) : Nat := bits f 47 0

/-- R179 for syn.hoist. -/
def hoistOk (f : TileFields) : Bool := bits f 97 48 == 0 && (!synLOC f || synRK f == 0)

/-- R179 for the other opcodes; syn.test has neither ACQ nor TMO. -/
def waitOk (test : Bool) (f : TileFields) : Bool :=
  synLOC f && synRK f == 0 && !synCHK f && bits f 73 48 == 0 && (!test || (!synFlag f && synTMO f == 0))

/-- The amount n: 0 stands for 1. -/
def synN (f : TileFields) : Nat := if synIMM f = 0 then 1 else synIMM f

/-- The registers of syn.hoist that reach control (R275). -/
def hoistRegs (f : TileFields) : List Nat :=
  synPR f :: ((if synLOC f then [] else [synRK f]) ++ (if synVI f then [] else [synVR f]))

/-- Identifier and generation of a handle (R176). -/
def handleId (h : Nat) : Nat := h % 2 ^ 20
def handleGen (h : Nat) : BitVec 8 := BitVec.ofNat 8 (nbits h 27 20)

/-- The message of a SYN instruction joins those in flight. -/
def State.post (s : State) (L : Nat) (f : TileFields) (chk : Bool) (op : CoreState → PenOp) : State :=
  let cs := s.core L
  let c := ((cs.task).map (·.key.c)).getD 0
  let h := cs.A (synPR f)
  { s with pen.msgs := s.pen.msgs ++ [⟨c, handleId h, some (handleGen h), .core L (cs.seqNo - 1) chk, op cs⟩] }

/-- SYN_HOIST (R184, R187, R189). -/
def execSynHoist (core : Nat) (f : TileFields) (s : State) : Host.Outcome State Fault Refusal :=
  onCore core s (fun s => s.issue core 4 0x00 f (hoistOk f) .syn
    (fun _ => { aUse := hoistRegs f, ctl := hoistRegs f, pDst := synCHK f, waiting := true })
    (fun s => (s.modCore core (fun cs => { cs with hoistsOut := cs.hoistsOut + 1 })).post core f (synCHK f) (fun cs =>
      let v := BitVec.ofNat 48 (if synVI f then synIMM f else cs.A (synVR f))
      if synLOC f then .hoist v (synFlag f) else .send (cs.A (synRK f) % 2 ^ 17) v (synFlag f))))

/-- The plan of a wait: P, and the destination register with WR = 1, are written late (R36, R179, R186). -/
def waitPlan (f : TileFields) : Plan :=
  { aUse := synPR f :: (if synVI f then [synVR f] else [])
    ctl := [synPR f]
    aDst := if synVI f then some (synVR f) else none
    pDst := true
    waiting := true
    acq := synFlag f }

/-- The plan of a strike or watch, at which the SYN queue is held (R181, R186). -/
def holdPlan (f : TileFields) : Plan := { waitPlan f with blocks := true }

/-- The register that a wait writes. -/
def synWr (f : TileFields) : Option Nat := if synVI f then some (synVR f) else none

/-- SYN_STRIKE (R181, R186). -/
def execSynStrike (core : Nat) (f : TileFields) (s : State) : Host.Outcome State Fault Refusal :=
  onCore core s (fun s => s.issue core 4 0x01 f (waitOk false f) .syn (fun _ => holdPlan f)
    (fun s => s.post core f false (fun _ => .strike (synN f) (synWr f) (synTMO f))))

/-- SYN_WATCH (R181, R186). -/
def execSynWatch (core : Nat) (f : TileFields) (s : State) : Host.Outcome State Fault Refusal :=
  onCore core s (fun s => s.issue core 4 0x02 f (waitOk false f) .syn (fun _ => holdPlan f)
    (fun s => s.post core f false (fun _ => .watch (synN f) (synWr f) (synTMO f))))

/-- SYN_TEST (R183). -/
def execSynTest (core : Nat) (f : TileFields) (s : State) : Host.Outcome State Fault Refusal :=
  onCore core s (fun s => s.issue core 4 0x03 f (waitOk true f) .syn (fun _ => waitPlan f)
    (fun s => s.post core f false (fun _ => .test (synN f) (synWr f))))

/-! ## Quarantine (R178) and the deadlock detector (R192, R193) -/

/-- PENNANT_QUARANTINE_END (R178). -/
def execPennantQuarantineEnd (i : Nat) (s : State) : Host.Outcome State Fault Refusal :=
  .next { s with pen.quarantine := s.pen.quarantine.eraseIdx i }

/-- The opcode of a command's descriptor. -/
def Cmd.op (m : Cmd) : Nat := fieldAt m.desc 0 1

/-- Whether a message waits in its core's SYN queue behind a strike or watch, and so is not in flight (R179). -/
def State.queuedSyn (s : State) (m : PenMsg) : Bool :=
  match m.src with
  | .core L seq _ => !s.synTurn L seq
  | _ => false

/-- The hoists of core L that wait in its SYN queue. -/
def State.queuedHoists (s : State) (L : Nat) : Nat :=
  (s.pen.msgs.filter (fun m => s.queuedSyn m && (match m.src, m.op with
    | .core K _ _, .hoist _ _ => K == L
    | .core K _ _, .send _ _ _ => K == L
    | _, _ => false))).length

/-- Whether the task of core L is held at a strike or watch, a waiter recorded at its slot, at the head of its SYN queue, with no
other unit of the core busy and no hoist of it on its way (R192). -/
def State.heldAtWait (s : State) (L : Nat) : Bool :=
  let cs := s.core L
  s.pen.slots.any (fun e => e.2.waiters.any (fun w => match w.src with
    | .core K _ _ => K == L
    | _ => false))
    && cs.inflight.all (fun i => i.unit == .syn) && !s.writesOut L && cs.hoistsOut == s.queuedHoists L

/-- Whether a packet of context c is in flight into or out of the module: a pennant message or outcome, a transaction, a put not yet
acknowledged, a held release hoist, early collective traffic (R192). -/
def State.inFlightOf (s : State) (c : Nat) : Bool :=
  s.pen.msgs.any (fun m => m.c == c && !s.queuedSyn m) || s.fab.trans.any (fun t => t.c == c)
    || s.pen.outcomes.any (fun o => match o.src with
      | .engine x _ => x == c
      | .remote _ _ _ _ _ x => x == c
      | _ => false)
    || s.fab.putsIn.any (fun i => (hdrOf i.pk).ctx == c) || s.fab.relHeld.any (fun r => (hdrOf r.pk).ctx == c)
    || (s.coll.early ++ s.coll.stuck).any (fun e => e.2.c == c)

/-- The conditions of R192 on a context. -/
def State.quiescent (s : State) (c : Nat) : Bool :=
  let x := s.ctx c
  !x.started.isEmpty && x.started.all (fun m => m.op == 7 || (m.op == 1 && m.tasksLeft != 0))
    && s.cores.all (fun e => ((e.2.task.map (·.key.c)) != some c) || s.heldAtWait e.1)
    && !s.inFlightOf c && !s.coll.runs.any (fun r => r.key.c == c)

/-- The handles that a context's waiters await (R176, R192). -/
def State.awaited (s : State) (c : Nat) : List Nat :=
  s.pen.slots.flatMap (fun e => (e.2.waiters.filter (fun w => w.c == c)).map (fun w => w.id + 2 ^ 20 * e.2.gen.toNat))

/-- The effect of QUIESCENT_BLOCKED: the context enters the state, and the module with the last of its contexts; each entry
raises an event. -/
def fxQuiescentBlocked (c : Nat) (s : State) : State :=
  if !s.alive || s.obj 0x2200 1 = 0 || !s.quiescent c || s.blocked c then s
  else
    let was := s.moduleBlocked
    let s := (s.modCtx c (fun x => { x with
      qblocked := true
      quiesce := (s.awaited c).take 64
      quiesceAt := s.workMark c })).blockedEvent (fun s => s.event 0x0101 c)
    let s := { s with pen.suspects := NSet.remove s.pen.suspects c }
    (s.enterModule was).dump 1

/-- QUIESCENT_BLOCKED (R192). -/
def execQuiescentBlocked (c : Nat) (s : State) : Host.Outcome State Fault Refusal := onCtx c s (fxQuiescentBlocked c)

/-- The effect of a census round for a context: this module reports its state and its transactions since the round before, to the
coordinator (DESIGN CHOICE, log 12); with the others' report, two rounds in a row that find the context blocked and no transaction raise the
suspected-deadlock event, once while it stays blocked (R193). -/
def fxStallCensus (c : Nat) (others : Bool) (count : Nat) (s : State) : State :=
  if !s.alive || s.obj 0x2201 1 = 0 then s
  else
    let mine := Tab.get 0 s.pen.txCount c
    let s := s.tellCoord Mg.census (natLe 1 c ++ natLe 1 (bit (s.blocked c)) ++ natLe 8 mine)
    let n := if s.blocked c && others && count + mine == 0 then Tab.get 0 s.pen.emptyRounds c + 1 else 0
    let s := { s with pen.emptyRounds := Tab.put s.pen.emptyRounds c n, pen.txCount := Tab.put s.pen.txCount c 0 }
    if 2 ≤ n ∧ !NSet.mem s.pen.suspects c then
      (({ s with pen.suspects := NSet.insert s.pen.suspects c } : State).event 0x0102 c).dump 2
    else s

/-- 0x2201:03 (Table 8.7): 2 while a context's census stands at suspected deadlock, 1 while a context is quiescent-blocked here. -/
def State.censusState (s : State) : Nat :=
  if s.ctxs.any (fun e => s.blocked e.1 && NSet.mem s.pen.suspects e.1) then 2
  else bit (s.ctxs.any (fun e => s.blocked e.1))

/-- STALL_CENSUS (R193); `othersBlocked` and `count` are what the other modules that hold started work of the context report. -/
def execStallCensus (c : Nat) (othersBlocked : Bool) (count : Nat) (s : State) : Host.Outcome State Fault Refusal :=
  onCtx c s (fxStallCensus c othersBlocked count)

end Sys2Proof.Machine
end

