-- ==== Sys2Proof/Machine/Remote.lean ====
section
/-! DEFINITION. Transactions over the fabric (R216 to R219): mov.put and mov.get at the source, the requests at their
destination, and the responses and timeouts. -/

namespace Sys2Proof.Machine
open Sys2Proof

/-! ## mov.put and mov.get -/

/-- The registers of mov.put and mov.get; all of them reach control (R275). -/
def remoteRegs (f : TileFields) : List Nat := [movSrc f, movDst f, movRank f]

/-- The context, this core and the rank that a remote instruction names. -/
def State.rankOf (s : State) (L : Nat) (f : TileFields) : Nat := (s.core L).A (movRank f) % 2 ^ 17

/-- Whether the source unit's flow table takes a transaction to a rank now (R212). -/
def State.flowReady (s : State) (c unit rank : Nat) : Bool :=
  match s.didOfRank rank with
  | none => true
  | some dst => (s.takeFlow c unit rank dst).isSome

/-- The plan of mov.put (R36, R48). -/
def putPlan (L : Nat) (f : TileFields) (s : State) : Plan :=
  let a := (s.core L).A (movSrc f)
  { aUse := remoteRegs f
    ctl := remoteRegs f
    check :=
      if a % 8 ≠ 0 ∨ (s.core L).A (movDst f) % 8 ≠ 0 then some St.invalid
      else if !rowsIn .tm a (movSS f) (movRows f) (movRowBytes f) then some St.address else none
    rd := rowBlocks .tm a (movSS f) (movRows f) (movRowBytes f) }

/-- The plan of mov.get (R36, R48); it waits for its responses. -/
def getPlan (L : Nat) (f : TileFields) (s : State) : Plan :=
  let b := (s.core L).A (movDst f)
  { aUse := remoteRegs f
    ctl := remoteRegs f
    check :=
      if (s.core L).A (movSrc f) % 8 ≠ 0 ∨ b % 8 ≠ 0 then some St.invalid
      else if !rowsIn .tm b (movDS f) (movRows f) (movRowBytes f) then some St.address else none
    wr := rowBlocks .tm b (movDS f) (movRows f) (movRowBytes f)
    dst := (List.range (movRows f)).map (fun i => (Space.tm, (rowAddr b (movDS f) i).toNat, movRowBytes f))
    waiting := true }

/-- The type-specific bytes of PUT and GET (Table 9.5). -/
def vaTail (va n : Nat) : List Byte := natLe 6 va ++ natLe 2 n ++ List.replicate 8 0

/-- The tag of the transaction formed last. -/
def State.lastTag (s : State) : Nat := ((s.fab.trans.getLast?).map (fun t => t.tag.toNat)).getD 0

/-- One piece of a mov.put: a piece with a poisoned word is not sent (R216, R274). True: the mover stops. -/
def State.putPiece (s : State) (L rank src va n : Nat) : Bool × State :=
  let r := (s.core L).load false src n
  let s := s.setCore L r.2
  if r.1.any (·.2) then (false, s)
  else match s.form (s.ctxOf L) L rank 1 false (vaTail va n ++ r.1.map (·.1)) (.put L (s.core L).pc) with
    | .sent s1 =>
      (false, (s1.modCore L (fun cs => CoreState.event { cs with putsOut := cs.putsOut ++ [s1.lastTag] } 0x07 1)).moverBytes L n n)
    | .noRoute s1 => (true, s1.endTask L St.noRoute)
    | .wait => (false, s)

/-- One piece of a mov.get (R216). True: the mover stops. -/
def State.getPiece (s : State) (L rank va dst n : Nat) : Bool × State :=
  match s.form (s.ctxOf L) L rank 2 false (vaTail va n) (.get L ((s.core L).seqNo - 1) dst n) with
  | .sent s1 => (false, s1.modCore L (fun cs => cs.event 0x07 1))
  | .noRoute s1 => (true, s1.endTask L St.noRoute)
  | .wait => (false, s)

/-- One row of a remote copy, piece by piece; an address outside the 48-bit space is a translation fault (R49). -/
def State.remoteRow (s : State) (L : Nat) (va : Int) (n : Nat) (go : State → Nat → Nat → Bool × State) : Bool × State :=
  if va < 0 ∨ (2 ^ 48 : Int) < va + n then (true, s.endTask L St.address)
  else (piecesOf va.toNat n).foldl (fun (acc : Bool × State) p => if acc.1 then acc else go acc.2 p.1 p.2) (false, s)

/-- The effect of mov.put. -/
def fxMovPut (L : Nat) (f : TileFields) (s : State) : State :=
  let a := (s.core L).A (movSrc f)
  let b := (s.core L).A (movDst f)
  let rank := s.rankOf L f
  ((List.range (movRows f)).foldl (fun (acc : Bool × State) i =>
    if acc.1 then acc
    else
      let va := rowAddr b (movDS f) i
      acc.2.remoteRow L va (movRowBytes f) (fun s x n =>
        s.putPiece L rank ((rowAddr a (movSS f) i).toNat + (x - va.toNat)) x n)) (false, s)).2

/-- The effect of mov.get. -/
def fxMovGet (L : Nat) (f : TileFields) (s : State) : State :=
  let a := (s.core L).A (movSrc f)
  let b := (s.core L).A (movDst f)
  let rank := s.rankOf L f
  let q := (s.core L).seqNo - 1
  let s := ((List.range (movRows f)).foldl (fun (acc : Bool × State) i =>
    if acc.1 then acc
    else
      let va := rowAddr a (movSS f) i
      acc.2.remoteRow L va (movRowBytes f) (fun s x n =>
        s.getPiece L rank x ((rowAddr b (movDS f) i).toNat + (x - va.toNat)) n)) (false, s)).2
  if s.getsOut L q then s else s.modCore L (fun cs => cs.unwait q)

/-- The checks of R33 on mov.put and mov.get: DIR must be 0 (Table 2.7). -/
def remoteOk (f : TileFields) : Bool := movOk f && movDir f == 0

/-- Issue of a remote instruction: while the flow table is full (R212) it is held at issue with everything behind it, and STALL_QUEUE shows
the hold (DESIGN CHOICE, log 3). -/
def State.issueRemote (s : State) (L opc : Nat) (f : TileFields) (plan : State → Plan) (act : State → State) : State :=
  s.front L (tileWord 3 opc f) f (remoteOk f) (fun s =>
    let p := plan s
    s.operands L .mov p (fun s =>
      if s.flowReady (s.ctxOf L) L (s.rankOf L f) then
        (act (s.modCore L (fun cs => (cs.issued).push .mov p))).advance L
      else s.stall L (fun cs => { cs with stallQueue := true })))

/-- MOV_PUT (R216). -/
def execMovPut (core : Nat) (f : TileFields) (s : State) : Host.Outcome State Fault Refusal :=
  onCore core s (fun s => s.issueRemote core 0x04 f (putPlan core f) (fxMovPut core f))

/-- MOV_GET (R216). -/
def execMovGet (core : Nat) (f : TileFields) (s : State) : Host.Outcome State Fault Refusal :=
  onCore core s (fun s => s.issueRemote core 0x05 f (getPlan core f) (fxMovGet core f))

/-! ## Requests at the destination -/

/-- A discarded packet is counted at its port (R204, R215, Table 15.1). -/
def State.discard (s : State) (port : Nat) : State := s.portCtr port 6 1

/-- A good packet passes to the module network: its units return (R206), and a request counts for the stall census (R193). -/
def State.taken (s : State) (port ty : Nat) (pk : List Byte) : State :=
  let s := s.passOn port pk
  let c := (hdrOf pk).ctx
  if isRequest ty then { s with pen.txCount := Tab.put s.pen.txCount c (Tab.get 0 s.pen.txCount c + 1) } else s

/-- A good request stays in its receive buffer for a while, and holds its units (R207, R217). -/
def State.kept (s : State) (port : Nat) (pk : List Byte) : State :=
  let c := (hdrOf pk).ctx
  let s := s.occupy port (s.arrivalVc port pk) pk
  { s with pen.txCount := Tab.put s.pen.txCount c (Tab.get 0 s.pen.txCount c + 1) }

/-- A kept packet leaves its buffer (R207). -/
def State.leavePort (s : State) (port : Nat) (pk : List Byte) : State :=
  s.freeUnits port (s.arrivalVc port pk) (creditUnits pk)

/-- A packet of type ty arrives at its destination: from a lost module it is discarded unanswered (R279); a malformed one
is discarded, and answered if it is a request (R204); in standby the packet wakes the module, and is served when the module is
ready (R316; log 23). A good one goes on. -/
def State.arrive (s : State) (port ty : Nat) (pk : List Byte) (go : State → State) : State :=
  let h := hdrOf pk
  if !s.alive then s
  else if h.ty ≠ ty ∨ h.dst ≠ s.myDid then s
  else if s.didLost h.src then s.passOn port pk
  else if s.pwr.state = 2 ∨ s.pwr.state = 3 then s.wakeBy 3
  else
  let s := s.wakeBy 3
  if !pkOk pk then
    (if isRequest ty then ((s.passOn port pk).discard port).respond pk St.invalid none else (s.passOn port pk).discard port)
  else go s

/-- A packet that passes to the module network as it arrives. -/
def State.ingress (s : State) (port ty : Nat) (pk : List Byte) (go : State → State) : State :=
  s.arrive port ty pk (fun s => go (s.taken port ty pk))

/-- Answer a request, unless the module has entered safe hold. -/
def State.answer (s : State) (pk : List Byte) (st : Status) : State := if s.alive then s.respond pk st none else s

/-- The bytes of a packet as data without poison. -/
def pkData (pk : List Byte) : List (Byte × Bool) := (pk.drop 32).map (fun b => (b, false))

/-- The ACK of the first PUT of a port to a stripe (R216). -/
def State.ackPut (s : State) (port stripe : Nat) : State :=
  match s.fab.putsIn.find? (fun i => i.port == port && i.stripe == some stripe) with
  | none => s
  | some i => ({ s with fab.putsIn := s.fab.putsIn.erase i }).respond i.pk i.st none

/-- A port's own PUTs to the units of a range are written and answered, before it reads there (R130, R217). -/
def State.settlePort (s : State) (port pa len : Nat) : State :=
  let s := s.settleOwn (1000 + port) pa len
  (s.acksOf (1000 + port) pa len).foldl (fun (s : State) k =>
    ({ s with mem.acks := s.mem.acks.erase (1000 + port, k) } : State).ackPut port k) s

/-- The effect of PUT: its write goes to the home and gathers there (R128); the ACK waits for its acknowledgement (R216, R217). -/
def fxPut (port : Nat) (pk : List Byte) (s : State) : State :=
  s.ingress port 1 pk (fun s =>
    let x := s.xlate (hdrOf pk).ctx (pkVa pk) [.w, .fab]
    match x.1 with
    | none => x.2.answer pk St.address
    | some pa =>
      let i : PutIn := {
        no := x.2.fab.putNo
        port := port
        pk := pk
        stripe := none
        st := St.ok }
      let t := { x.2 with fab.putsIn := x.2.fab.putsIn ++ [i], fab.putNo := x.2.fab.putNo + 1 }
      (t.sendWrite (1000 + port) pa (pkData pk)).forCtx (some (hdrOf pk).ctx) x.2)

/-- PUT (R216). -/
def execPut (port : Nat) (pk : List Byte) (s : State) : Host.Outcome State Fault Refusal := onPortIn port s (fxPut port pk)

/-- The effect of GET: the data, or an ACK that says why there is none (R216, R274). -/
def fxGet (port : Nat) (pk : List Byte) (s : State) : State :=
  s.ingress port 2 pk (fun s =>
    let x := s.xlate (hdrOf pk).ctx (pkVa pk) [.r, .fab]
    match x.1 with
    | none => x.2.answer pk St.address
    | some pa =>
      let x := x.2.settlePort port pa (pkLen pk)
      let r := x.memRead pa (pkLen pk)
      let s := r.2.forCtx (some (hdrOf pk).ctx) x
      if r.1.uncorr then s.answer pk St.uncorrectable
      else if r.1.pois.any id then s.answer pk St.poison
      else s.respond pk (if r.1.corr then St.okCorr else St.ok) (some r.1.bytes))

/-- GET (R216). -/
def execGet (port : Nat) (pk : List Byte) (s : State) : Host.Outcome State Fault Refusal := onPortIn port s (fxGet port pk)

/-- A hoist of a remote module as a message to its slot (R185, R190). -/
def hoistMsg (port : Nat) (pk : List Byte) : PenMsg :=
  let h := hdrOf pk
  { c := h.ctx
    id := handleId (pkHandle pk)
    gen := if 324 ≤ h.unit ∧ h.unit ≤ 327 then none else some (handleGen (pkHandle pk))
    src := .remote port h.src h.unit h.tag h.cong h.ctx
    op := .hoist (BitVec.ofNat 48 (pkValue pk)) h.rel }

/-- The effect of HOIST_PACKET: to the slot, or held in its buffer for the PUTs that arrived before it (R207, R217). -/
def fxHoistPacket (port : Nat) (pk : List Byte) (s : State) : State :=
  s.arrive port 3 pk (fun s =>
    if (hdrOf pk).rel && s.fab.putsIn.any (fun i => i.port == port) then
      let s := s.kept port pk
      { s with fab.relHeld := s.fab.relHeld ++ [⟨port, pk, s.fab.putNo⟩] }
    else (s.taken port 3 pk).deliver (hoistMsg port pk))

/-- HOIST_PACKET (R217). -/
def execHoistPacket (port : Nat) (pk : List Byte) (s : State) : Host.Outcome State Fault Refusal :=
  onPortIn port s (fxHoistPacket port pk)

/-- The effect of REL_HOIST_RELEASE: the port's first held hoist, once no earlier PUT of the port waits (R217). -/
def fxRelHoistRelease (port : Nat) (s : State) : State :=
  match s.fab.relHeld.find? (fun r => r.port == port) with
  | none => s
  | some r =>
    if !s.alive || s.fab.putsIn.any (fun i => i.port == port && decide (i.no < r.after)) then s
    else (({ s with fab.relHeld := s.fab.relHeld.erase r }).leavePort port r.pk).deliver (hoistMsg port r.pk)

/-- REL_HOIST_RELEASE (R217). -/
def execRelHoistRelease (port : Nat) (s : State) : Host.Outcome State Fault Refusal :=
  onPortIn port s (fxRelHoistRelease port)

/-- Bytes of an ATOMIC's operand: INT64 or FP32 (Table 9.5). -/
def atomicSize (pk : List Byte) : Nat := if pkOp pk = 0 then 8 else 4

/-- The new value of an ATOMIC (R218). -/
def atomicVal (pk : List Byte) (old : Nat) : Nat :=
  if pkOp pk = 0 then (old + pkOperand pk) % 2 ^ 64
  else toF32 (Fp.add (Fp.decode Fp.fp32 old) (Fp.decode Fp.fp32 (pkOperand pk % 2 ^ 32)))

/-- The effect of ATOMIC: a read and a partial-stripe write at the home (R218); a misaligned address is invalid
(DESIGN CHOICE, log 20). -/
def fxAtomic (port : Nat) (pk : List Byte) (s : State) : State :=
  s.ingress port 4 pk (fun s =>
    let n := atomicSize pk
    if pkVa pk % n ≠ 0 then s.answer pk St.invalid
    else
      let x := s.xlate (hdrOf pk).ctx (pkVa pk) [.r, .w, .fab]
      match x.1 with
      | none => x.2.answer pk St.address
      | some pa =>
        let x := x.2.settlePort port pa n
        let r := x.memRead pa n
        let s := r.2.forCtx (some (hdrOf pk).ctx) x
        if r.1.uncorr then s.answer pk St.uncorrectable
        else if r.1.pois.any id then s.answer pk St.poison
        else
          let w := s.memWrite pa (natLe n (atomicVal pk (leNat r.1.bytes)))
          let t := w.2.forCtx (some (hdrOf pk).ctx) s
          if w.1 then t.answer pk St.uncorrectable
          else t.respond pk (if r.1.corr then St.okCorr else St.ok)
            (if (hdrOf pk).fetch then some r.1.bytes else none))

/-- ATOMIC (R218). -/
def execAtomic (port : Nat) (pk : List Byte) (s : State) : Host.Outcome State Fault Refusal := onPortIn port s (fxAtomic port pk)

/-! ## Acknowledgements of writes (R130) -/

/-- The effect of STRIPE_WRITE_ACK: one acknowledgement that is due reaches its source. -/
def fxStripeWriteAck (src stripe : Nat) (s : State) : State :=
  if !s.alive || !s.mem.acks.contains (src, stripe) then s
  else
    let s := ({ s with mem.acks := s.mem.acks.erase (src, stripe) } : State).releaseReads src
    if src < 320 then s.settle src
    else if 1000 ≤ src then s.ackPut (src - 1000) stripe
    else s

/-- STRIPE_WRITE_ACK (R130). -/
def execStripeWriteAck (src stripe : Nat) (s : State) : Host.Outcome State Fault Refusal :=
  .next (fxStripeWriteAck src stripe s)

end Sys2Proof.Machine
end

