-- ==== Sys2Proof/Machine/Fabric.lean ====
section
/-! DEFINITION. Fabric ports and forwarding (R198 to R202, R211, R214, R215): training, flits, retry, lane sparing, QUIET,
packets for other modules, and port-state messages. -/

namespace Sys2Proof.Machine
open Sys2Proof

/-! ## Port state -/

/-- The modules of the four lines of this module (R214). -/
def State.lineDids (s : State) : List Nat :=
  (List.range 4).flatMap (fun k =>
    ((List.range (s.dimSize k)).filter (fun v => v != coord s.myDid k)).map (fun v => setCoord s.myDid k v))

/-- A watcher whose bundle toward a neighbour in dimension 0 has only ports that are DOWN or FENCED suspects it (R294). -/
def State.watchBundle (s : State) (p : Nat) : State :=
  match s.neighbourOf p with
  | some (0, v) =>
    let did := setCoord s.myDid 0 v
    if (s.bundle s.myDid 0 v).all (fun q => (s.port q).st == 0 || (s.port q).st == 5) then
      s.tellCoordBut (some did) Mg.suspicion (natLe 4 did)
    else s
  | _ => s

/-- A packet is answered with ROUTE_UNAVAILABLE, counted on the I/O die of the port that it stands at (R215, Table 15.3). -/
def State.noWay (s : State) (p : Nat) (pk : List Byte) : State :=
  (s.dieEvent (8 + portDie p) 0x6D 1 (some (hdrOf pk).ctx)).respond pk St.noRoute none

/-- A packet queued on port p in dimension k toward a neighbour that has become unusable: with s = 0 it goes to an intermediate toward its
destination's coordinate that the hash of its flow chooses; else, or with none, it is answered (R214, R215). -/
def State.rerouteOne (s : State) (p k : Nat) (q : QPacket) : State :=
  let h := hdrOf q.bs
  let way := if q.vc % 2 = 1 then none
    else pickHash (s.intermediates k (coord h.dst k)) (h.src * 2 ^ 17 + h.dst) h.unit
  match way with
  | some i => s.enqueue (s.member k i h.bsel) q.vc k { h with route := setRouteField h.route k i } q.bs q.src
  | none => (s.giveBack q).noWay p q.bs

/-- A neighbour that port p leads to and that is unusable now: the packets in the queues of its bundle go another way, in queue order
(R214). -/
def State.rerouteFrom (s : State) (p : Nat) : State :=
  match s.neighbourOf p with
  | none => s
  | some (k, v) =>
    if !s.unusable k v then s
    else
      let b := s.bundle s.myDid k v
      let qs := b.flatMap (fun i => (s.port i).outq.map (fun q => (i, q)))
      qs.foldl (fun (s : State) q => s.rerouteOne q.1 k q.2) (b.foldl (fun (s : State) i => s.modPort i (fun x => { x with outq := [] })) s)

/-- Neighbours may have become unusable, as where one is marked lost: what is queued toward such a one goes another way (R214). -/
def State.rerouteAll (s : State) : State :=
  ((s.fab.ports.filter (fun e => !e.2.outq.isEmpty)).map (·.1)).foldl State.rerouteFrom s

/-- A port takes a state: a change raises an event (Table 15.5), moves the packets queued toward a neighbour that is now unusable, and
is published (R214). -/
def State.setPortState (s : State) (p st : Nat) : State :=
  if (s.port p).st = st then s
  else
    let s := (s.modPort p (fun x => { x with st := st })).event2 0x0402 p st
    ((s.rerouteFrom p).lineDids.foldl (fun (s : State) d => s.mgmt d Mg.portState [BitVec.ofNat 8 p, BitVec.ofNat 8 st])
      (s.rerouteFrom p)).watchBundle p

/-- A port that has lost its link: its retry buffer is discarded (R199). -/
def State.portDown (s : State) (p : Nat) : State :=
  (s.modPort p (fun x => { x with
    linkDown := true, retry := [], retrying := false, skipping := false })).setPortState p 0

/-- The two lanes of a port: the first of them (R196). -/
def laneOf (p : Nat) : Nat := 40 * (p / 19) + 2 * (p % 19)

/-- A spare lane of the port's die that is cabled with it and free (R200): its number on the die. -/
def State.spareLane (s : State) (p : Nat) : Option Nat :=
  let k := p / 19
  (List.range 2).find? (fun i => s.obj 0x6005 (2 * k + i + 1) == p && !NSet.mem (Tab.get [] s.fab.sparesUsed k) i)

/-- Lane i of a port fails: a spare takes it, a rebinding (R200, R276), or the port loses it. -/
def State.laneFails (s : State) (p i : Nat) : State :=
  let k := p / 19
  let s := s.modPort p (fun x => { x with laneFail := true })
  match s.spareLane p with
  | some j =>
    let s := { s with fab.sparesUsed := Tab.put s.fab.sparesUsed k (NSet.insert (Tab.get [] s.fab.sparesUsed k) j) }
    (s.modPort p (fun x => { x with
      spared := x.spared ||| (1#2 <<< i), lanes := x.lanes ||| (1#2 <<< i) })).logRebind 2 (laneOf p + i) (40 * k + 38 + j)
  | none => s.modPort p (fun x => { x with
      spared := x.spared &&& ~~~(1#2 <<< i), lanes := x.lanes &&& ~~~(1#2 <<< i) })

/-- The state of a port by its working lanes (R200). -/
def upState (lanes : BitVec 2) : Nat := if lanes = 3 then 2 else if lanes = 0 then 0 else 3

/-! ## Training -/

/-- Whether the peer is the module and port that R210 requires at the other end of port p. -/
def State.peerOk (s : State) (p : Nat) (peer : Nat × Nat) : Bool :=
  match s.neighbourOf p with
  | none => false
  | some (k, v) =>
    let did := setCoord s.myDid k v
    let m := (s.bundle s.myDid k v).idxOf p
    peer.1 == did && (s.bundle did k (coord s.myDid k))[m]? == some peer.2

/-- The reach mode that both ends of a port train in, LR or not: the one that either end's 0x6004 names, or with both 0 LR outside the
SR limit; none where the ends name different modes, since both always run the same (R198; DEDUCED, log 20). -/
def State.trainsLr (s : State) (p : Nat) (r : TrainResult) : Option Bool :=
  let m := s.obj 0x6004 (p + 1)
  if m = 0 ∧ r.peerMode = 0 then some (!r.srOk)
  else if m = 0 then some (r.peerMode == 2)
  else if r.peerMode = 0 ∨ r.peerMode = m then some (m == 2)
  else none

/-- The shape and the link widths of the objects take effect (R223). -/
def State.takeShape (s : State) : State :=
  { s with
    fab.dims := (List.range 4).map (fun k => s.obj 0x6001 (k + 1))
    fab.width := (List.range 4).map (fun k => s.obj 0x6002 (k + 1)) }

/-- Whether a port may train: during bring-up, or as retraining that 0x6030:01 enables; in mode 2 of the function only a port
whose number was written to 0x6030:03 retrains (R339). -/
def State.mayTrain (s : State) (p : Nat) : Bool :=
  let st := (s.port p).st
  s.alive && s.pwr.state == 0 && decide (3 ≤ s.sys.ready) && (st == 0 || st == 1 || st == 6 || st == 7)
    && (s.sys.ready == 3
      || (s.obj 0x6030 1 == 1 && (s.obj 0x6030 2 != 2 || NSet.mem s.fab.retrainReq p)))

/-- The effect of PORT_TRAINING. -/
def fxPortTraining (p : Nat) (r : TrainResult) (s : State) : State :=
  if !s.mayTrain p then s
  else
    let s := { s with fab.retrainReq := NSet.remove s.fab.retrainReq p }.takeShape
    if (s.neighbourOf p).isNone then s.setPortState p 7
    else
      let s := s.emit (.train p s.myDid)
      match r.peer, s.trainsLr p r with
      | some peer, some lr =>
        let s := s.modPort p (fun x => { x with
          lr := lr
          peerDid := BitVec.ofNat 17 peer.1
          peerPort := peer.2
          lanes := x.spared ||| r.lanes
          txSeq := 0
          rxSeq := 0
          skipping := false
          retrying := false
          retry := []
          credits := []
          used := []
          due := []
          granted := [] })
        let s := (List.range 2).foldl (fun (s : State) i =>
          if (s.port p).lanes.getLsbD i then s else s.laneFails p i) s
        if !s.peerOk p peer then s.setPortState p 6
        else (s.setPortState p (upState (s.port p).lanes)).transmit p
      | _, _ => s.setPortState p 0

/-- PORT_TRAINING (R198, R376). -/
def execPortTraining (port : Nat) (r : TrainResult) (s : State) : Host.Outcome State Fault Refusal :=
  onPort port s (fxPortTraining port r)

/-! ## Flits (R199, R202, R206) -/

/-- A flit's fields (Table 9.3). -/
def flType (b : List Byte) : Nat := fieldAt b 0 1 % 16
def flVc (b : List Byte) : Nat := fieldAt b 0 1 / 16 % 8
def flSeq (b : List Byte) : Nat := fieldAt b 2 2 % 4096
def flAck (b : List Byte) : Nat := fieldAt b 4 2 % 4096
def flCredit (b : List Byte) (i : Nat) : Nat × Nat := (fieldAt b (6 + 2 * i) 2 % 8, fieldAt b (6 + 2 * i) 2 / 16)

/-- The CRC of a flit holds. -/
def flitOk (b : List Byte) : Bool := b.length == 256 && (crc32 (b.take 252)).toNat == fieldAt b 252 4

/-- The receiver discards flits and asks for those from the expected one on (R199). The request is not in the sequence of flits: its FSEQ
names the flit asked for (Table 9.3; DEDUCED, log 20). -/
def State.askRetry (s : State) (p : Nat) : State :=
  let x := s.port p
  (s.setPort p { x with skipping := true }).emit (.flit p 3 x.rxSeq.toNat)

/-- Flits up to ACK_SEQ have been received: they leave the retry buffer. -/
def Port.acked (x : Port) (a : BitVec 12) : Port :=
  let keep := x.retry.filter (fun e => decide ((e.1 - a - 1).toNat < 2048))
  { x with retry := keep, retrying := x.retrying && keep.any (fun e => e.1 == x.resentTo) }

/-- Credits come back on a VC (R206). -/
def Port.credited (x : Port) (c : Nat × Nat) : Port :=
  if c.2 = 0 then x else { x with credits := Tab.put x.credits c.1 (Tab.get 256 x.credits c.1 + c.2) }

/-- The transmitter sends again every flit from `fseq` on (R199). -/
def State.resend (s : State) (p : Nat) (fseq : BitVec 12) : State :=
  let x := s.port p
  match x.retry.dropWhile (fun e => e.1 != fseq) with
  | [] => s
  | l => l.foldl (fun (s : State) e => s.emit (.flit p (flType e.2) e.1.toNat))
      ((s.setPort p { x with retrying := true, resentTo := ((x.retry.getLast?).map (·.1)).getD 0 }).portCtr p 4 1)

/-- A flit in sequence: acknowledgements and credits take effect, and it is counted; a data flit that no flit of this end
has acknowledged is acknowledged by an idle one. -/
def State.goodFlit (s : State) (p : Nat) (b : List Byte) (data : Bool) : State :=
  let s := s.modPort p (fun x =>
    let x := (((x.acked (BitVec.ofNat 12 (flAck b))).credited (flCredit b 0)).credited (flCredit b 1))
    { x with
      rxSeq := x.rxSeq + 1
      skipping := false
      ctr := addCtr x.ctr 2 1 })
  let t := s.transmit p
  if data && (t.port p).txSeq == (s.port p).txSeq then t.sendIdle p else t

/-- The effect of FLIT_RECEIVE: flits are taken in sequence, but for retry requests, which act as they come; fenced-idle flits fence the
port. The packets in a flit's slots arrive as commands of their own, as do the handshakes of control flits (log 20). -/
def fxFlitReceive (p : Nat) (b : List Byte) (fecOk : Bool) (s : State) : State :=
  let x := s.port p
  if !s.alive || !(x.st == 2 || x.st == 3 || x.st == 4 || x.st == 5) then s
  else if !fecOk || !flitOk b then
    ((s.modPort p (fun x => { x with crcErr := true })).portCtr p 3 1).askRetry p
  else if flType b = 3 then (s.portCtr p 2 1).resend p (BitVec.ofNat 12 (flSeq b))
  else if flType b ≤ 4 then
    let gap := (BitVec.ofNat 12 (flSeq b) - x.rxSeq).toNat
    if gap = 0 then
      let t := s.goodFlit p b (flType b == 0)
      if flType b = 2 then t.setPortState p 5 else t
    else if x.skipping || decide (2048 ≤ gap) then s
    else s.askRetry p
  else s

/-- FLIT_RECEIVE (R199, R202). -/
def execFlitReceive (port : Nat) (bs : List Byte) (fecOk : Bool) (s : State) : Host.Outcome State Fault Refusal :=
  onPort port s (fxFlitReceive port bs fecOk)

/-- RETRY_REQUEST (R199). -/
def execRetryRequest (port : Nat) (fseq : BitVec 12) (s : State) : Host.Outcome State Fault Refusal :=
  onPort port s (fun s => if s.alive then s.resend port fseq else s)

/-- LINK_RETRY_TIMEOUT (R199): a port that is up goes down. -/
def execLinkRetryTimeout (port : Nat) (s : State) : Host.Outcome State Fault Refusal :=
  onPort port s (fun s => if portUp (s.port port).st || (s.port port).st == 5 then s.portDown port else s)

/-! ## Lanes and QUIET (R200, R201) -/

/-- The effect of LANE_SPARE: lane i of a port fails while it is up. -/
def fxLaneSpare (p i : Nat) (s : State) : State :=
  if !s.alive || !portUp (s.port p).st || decide (2 ≤ i) then s
  else
    let s := s.laneFails p i
    if (s.port p).lanes = 0 then s.portDown p
    else if (s.port p).st = 4 then s
    else s.setPortState p (upState (s.port p).lanes)

/-- LANE_SPARE (R200). -/
def execLaneSpare (port lane : Nat) (s : State) : Host.Outcome State Fault Refusal := onPort port s (fxLaneSpare port lane)

/-- The effect of PORT_QUIET_ENTRY: nothing is queued or unacknowledged on the port, and QUIET is enabled. -/
def fxPortQuietEntry (p : Nat) (s : State) : State :=
  let x := s.port p
  if s.alive && (x.st == 2 || x.st == 3) && x.outq.isEmpty && x.retry.isEmpty && s.obj 0x6012 2 == 1 then
    (s.portCtr p 5 1).setPortState p 4
  else s

/-- PORT_QUIET_ENTRY (R201). -/
def execPortQuietEntry (port : Nat) (s : State) : Host.Outcome State Fault Refusal := onPort port s (fxPortQuietEntry port)

/-- PORT_QUIET_WAKE (R201): the port is up again, and its queue moves. -/
def execPortQuietWake (port : Nat) (s : State) : Host.Outcome State Fault Refusal :=
  onPort port s (fun s =>
    if s.alive && (s.port port).st == 4 then (s.setPortState port (upState (s.port port).lanes)).transmit port else s)

/-! ## Packets for other modules (R211, R215) -/

/-- Types whose packets for this module are commands of their own (Table 9.5). -/
def ownCommand (ty : Nat) : Bool := (decide (1 ≤ ty) && decide (ty ≤ 5)) || ty == 8 || ty == 9

/-- Whether a collective packet is a parity delta (Table 11.7). -/
def isDelta (pk : List Byte) : Bool := fieldAt pk 0x10 1 % 16 == 0xA

/-- A flit of the retry buffer without its slots: an idle flit with the same number. -/
def blankFlit (b : List Byte) : List Byte :=
  flitBytes 1 0 (flSeq b) (flAck b) 0 [flCredit b 0, flCredit b 1] []

/-- Whether a flit begins a packet. -/
def flStarts (b : List Byte) : Bool := fieldAt b 0x0A 2 % 2 == 1

/-- The packet of flit j of a retry buffer is discarded: its flits, the one that begins it and one that goes on with it, are idle when
they are sent again. -/
def Port.dropSent (x : Port) (j : Nat) : Port :=
  let at' := fun (i : Nat) => ((x.retry[i]?).map (fun e => flStarts e.2)).getD true
  let i := if at' j then j else j - 1
  let n := if at' (i + 1) then 1 else 2
  { x with retry := x.retry.zipIdx.map (fun e => if i ≤ e.2 ∧ e.2 < i + n then (e.1.1, blankFlit e.1.2) else e.1) }

/-- The effect of PACKET_RESIDENCE_TIMEOUT: packet i of a port's queue is discarded and counted; a number past the queue names a data flit of
the retry buffer, whose packet is still to leave for the last time, and one past that a release hoist held at the port (R215, R217;
log 20). -/
def fxPacketResidenceTimeout (p i : Nat) (s : State) : State :=
  let x := s.port p
  let held := s.fab.relHeld.filter (fun r => r.port == p)
  match x.outq[i]?, x.retry[i - x.outq.length]?, held[i - x.outq.length - x.retry.length]? with
  | some q, _, _ => ((s.setPort p { x with outq := x.outq.eraseIdx i }).portCtr p 6 1).giveBack q
  | none, some e, _ => if flType e.2 = 0 then (s.setPort p (x.dropSent (i - x.outq.length))).portCtr p 6 1 else s
  | none, none, some r => (({ s with fab.relHeld := s.fab.relHeld.erase r }).discard p).leavePort p r.pk
  | none, none, none => s

/-- PACKET_RESIDENCE_TIMEOUT (R215). -/
def execPacketResidenceTimeout (port i : Nat) (s : State) : Host.Outcome State Fault Refusal :=
  onPort port s (fxPacketResidenceTimeout port i)

/-- PORT_STATE (R214): module `did` can, or cannot, reach its neighbour `nb`. -/
def execPortState (did nb : Nat) (up : Bool) (s : State) : Host.Outcome State Fault Refusal :=
  .next (if !s.alive then s
    else { s with fab.unusable := (s.fab.unusable.filter (· != (did, nb))) ++ (if up then [] else [(did, nb)]) })

/-! ## Status registers (Tables 9.9, 9.10) -/

/-- FAB_PORT_STATUS[p]. -/
def State.fabPortStatus (s : State) (p : Nat) : Nat :=
  let x := s.port p
  x.st + 8 * bit x.lr + 16 * x.spared.toNat + 64 * bit (x.retrying || x.skipping) + 256 * x.peerDid.toNat + 2 ^ 25 * bit x.crcErr
    + 2 ^ 26 * bit x.laneFail + 2 ^ 27 * bit x.linkDown

/-- FAB_POOL_STATUS[k]. -/
def State.fabPoolStatus (s : State) (k : Nat) : Nat :=
  let free := s.poolFree k
  free + 2 ^ 20 * bit (decide (free < s.obj 0x6020 3)) + 2 ^ 21 * bit (s.epochHeld k)

end Sys2Proof.Machine
end

