-- ==== Sys2Proof/Machine/Marker.lean ====
section
/-! DEFINITION. The MRK instructions: ribbon markers and counters (R348 to R350, R354, R355). -/

namespace Sys2Proof.Machine
open Sys2Proof

def mAR (f : TileFields) : Nat := bits f 111 108
def mCTR (f : TileFields) : Nat := bits f 107 105
def mEVT (f : TileFields) : Nat := bits f 104 97
def mTR (f : TileFields) : Bool := f.getLsbD 96
def mTAG (f : TileFields) : Nat := bits f 31 0

/-- CF and [95:32] are reserved; a field that the opcode does not use must be 0 (R350). -/
def mrkOk (ar ctr evt tr tag : Bool) (f : TileFields) : Bool :=
  bits f 113 112 == 0 && bits f 95 32 == 0 && (ar || mAR f == 0) && (ctr || mCTR f == 0) && (evt || mEVT f == 0)
    && (tr || !mTR f) && (tag || mTAG f == 0)

/-- The effective observation mode honours ribbon markers (R355). -/
def State.ribbonMode (s : State) : Bool := s.obs.recoveryMode || decide (1 ≤ s.obj 0x5F00 1)

/-- Write a ribbon record at the place of OBS_TRACE_INDEX; a fault only discards it, and is counted (R355). -/
def State.ribbon (s : State) (L pc tag : Nat) (pois : Bool) : State :=
  let c := (((s.core L).task).map (·.key.c)).getD 0
  let x := s.ctx c
  let rec16 := (natLe 8 s.sys.tsCd.toNat).map (fun b => (b, false)) ++ bytesP 4 tag pois
    ++ (natLe 2 L ++ natLe 2 pc).map (fun b => (b, false))
  let va := x.traceBase.toNat + 16 * (x.traceIndex.toNat % 2 ^ x.traceLog)
  let s := s.modCtx c (fun x => { x with traceIndex := x.traceIndex + 1 })
  if wide va then { s with obs.traceFaults := s.obs.traceFaults + 1 }
  else
    let r := s.vaWrite none c va rec16 [.w]
    if r.1.fault then { r.2 with obs.traceFaults := r.2.obs.traceFaults + 1 } else r.2

/-- The effect of mrk.ribbon: where it is not honoured it is as an instruction whose predicate is false (R355). -/
def fxMrkRibbon (L : Nat) (f : TileFields) (s : State) : State :=
  s.front L (tileWord 7 0x00 f) f (mrkOk true false false true true f) (fun s =>
    let c := (((s.core L).task).map (·.key.c)).getD 0
    if !s.ribbonMode || (s.ctx c).traceBase == 0 then (s.modCore L CoreState.issued).advance L
    else
      let p : Plan := { aUse := if mTR f then [mAR f] else [] }
      s.operands L .mrk p (fun s =>
        let cs := s.core L
        ((s.modCore L (fun cs => cs.issued.push .mrk p)).ribbon L cs.pc
          (if mTR f then cs.A (mAR f) % 2 ^ 32 else mTAG f) (mTR f && cs.Ap (mAR f))).advance L))

/-- MRK_RIBBON (R355). -/
def execMrkRibbon (core : Nat) (f : TileFields) (s : State) : Host.Outcome State Fault Refusal :=
  onCore core s (fxMrkRibbon core f)

/-- MRK_CSEL (R349, R350): the count is kept. -/
def execMrkCsel (core : Nat) (f : TileFields) (s : State) : Host.Outcome State Fault Refusal :=
  onCore core s (fun s => s.issue core 7 0x01 f (mrkOk false true true false false f && decide (mEVT f ≤ 0x12)) .mrk
    (fun _ => {}) (fun s => s.modCore core (fun cs =>
      { cs with evSel := Tab.put cs.evSel (mCTR f) (BitVec.ofNat 8 (mEVT f)) })))

/-- MRK_CREAD (R350): the destination is pending until the instruction completes (DEDUCED from R36 and R111, log 3). -/
def execMrkCread (core : Nat) (f : TileFields) (s : State) : Host.Outcome State Fault Refusal :=
  onCore core s (fun s => s.issue core 7 0x02 f (mrkOk true true false false false f) .mrk
    (fun _ => { aUse := [mAR f], aDst := some (mAR f) })
    (fun s => s.modCore core (fun cs => cs.setA (mAR f) (Tab.get 0 cs.evCtr (mCTR f)).toNat false)))

/-- MRK_TIME (R16, R350). -/
def execMrkTime (core : Nat) (f : TileFields) (s : State) : Host.Outcome State Fault Refusal :=
  onCore core s (fun s => s.issue core 7 0x03 f (mrkOk true false false false false f) .mrk
    (fun _ => { aUse := [mAR f], aDst := some (mAR f) })
    (fun s => s.modCore core (fun cs => cs.setA (mAR f) (s.sys.tsCd.toNat % 2 ^ 48) false)))

end Sys2Proof.Machine
end

