-- ==== Sys2Proof/Machine/Vector.lean ====
section
/-! DEFINITION. The vector unit (05): fields and their checks (R109), active elements (R107), poison (R117), and one
meaning for each VEC opcode of Table 5.4. -/

namespace Sys2Proof.Machine
open Sys2Proof

/-! ## Fields (Table 5.3) -/

def vSB (f : TileFields) : Bool := f.getLsbD 113
def vZ (f : TileFields) : Bool := f.getLsbD 112
def vVD (f : TileFields) : Nat := bits f 111 107
def vVA (f : TileFields) : Nat := bits f 106 102
def vVB (f : TileFields) : Nat := bits f 101 97
def vVC (f : TileFields) : Nat := bits f 96 92
def vMS (f : TileFields) : Nat := bits f 91 89
def vMU (f : TileFields) : Bool := f.getLsbD 88
def vET (f : TileFields) : Nat := bits f 87 84
def vST (f : TileFields) : Nat := bits f 83 80
def vSAT (f : TileFields) : Bool := f.getLsbD 79
def vSR (f : TileFields) : Bool := f.getLsbD 78
def vAR (f : TileFields) : Nat := bits f 77 74
def vAS (f : TileFields) : Bool := f.getLsbD 73
def vIMM (f : TileFields) : Nat := bits f 31 0

/-- How an opcode uses a register field: not at all, as a vector register, or as a mask. -/
inductive RegUse where
  | no | vec | mask
  deriving DecidableEq, Repr

/-- The fields that an opcode uses, the element types it permits (none: 0) and the bits of IMM it uses. -/
structure VUse where
  vd : RegUse := .no
  va : RegUse := .no
  vb : RegUse := .no
  vc : Bool := false
  sb : Bool := false
  z : Bool := false
  ms : Bool := false
  mu : Bool := false
  cvt : Bool := false
  ar : Bool := false
  as : Bool := false
  ets : List Nat := []
  imm : Nat := 0
  deriving DecidableEq, Repr

/-- A register field against its use (R109). -/
def RegUse.ok (u : RegUse) (v : Nat) : Bool :=
  match u with
  | .no => v == 0
  | .vec => true
  | .mask => decide (v < 8)

/-- R109 on the fields alone: unused fields hold 0, ET is permitted, and with SB = 1 IMM fits the element. -/
def vecOk (u : VUse) (f : TileFields) : Bool :=
  u.vd.ok (vVD f) && u.va.ok (vVA f) && u.vb.ok (vVB f) && (u.vc || vVC f == 0) && (u.sb || !vSB f) && (u.z || !vZ f)
    && (u.ms || vMS f == 0) && (u.mu || !vMU f) && (u.cvt || (vST f == 0 && !vSAT f && !vSR f))
    && (u.ar || vAR f == 0) && (u.as || !vAS f) && (if u.ets.isEmpty then vET f == 0 else u.ets.contains (vET f))
    && bits f 72 32 == 0
    && (if vSB f then decide (vIMM f < 2 ^ etBits (vET f)) else (vIMM f &&& u.imm) == vIMM f)

/-- Any type but 0x3 and 0x8. -/
def etAny : List Nat := [0, 1, 2, 4, 5, 6, 7, 9]
def etArith : List Nat := [4, 6, 7, 9]
def etFp : List Nat := [4, 6]
def etInt : List Nat := [7, 9]
def etSigned : List Nat := [4, 6, 7]

/-- The uses of the common shapes of Table 5.4. -/
def useBin (ets : List Nat) : VUse := { vd := .vec, va := .vec, vb := .vec, sb := true, z := true, ms := true, mu := true, ets := ets }
def useUn (ets : List Nat) : VUse := { vd := .vec, va := .vec, z := true, ms := true, mu := true, ets := ets }
def useMask2 : VUse := { vd := .mask, va := .mask, vb := .mask }
def useMaskA : VUse := { va := .mask, ms := true, mu := true, ar := true, ets := etAny }
def useLoad : VUse := { vd := .vec, z := true, ms := true, mu := true, ar := true, as := true, ets := etAny, imm := 0xFFFFFFFF }
def useStore : VUse := { va := .vec, ms := true, mu := true, ar := true, as := true, ets := etAny, imm := 0xFFFFFFFF }

/-! ## Elements -/

/-- Elements per lane of a width. -/
def perLane (w : Nat) : Nat := 32 / w

/-- Element count E·VL of the instruction (R107). -/
def CoreState.nEl (cs : CoreState) (f : TileFields) : Nat := perLane (etBits (vET f)) * cs.vl

/-- Whether element i is active (R107). -/
def CoreState.active (cs : CoreState) (f : TileFields) (i : Nat) : Bool := !vMU f || (cs.mreg (vMS f)).getLsbD i

/-- Whether the mask bit that governs element i is poisoned (R117). -/
def CoreState.govPois (cs : CoreState) (f : TileFields) (i : Nat) : Bool := vMU f && (cs.mpois (vMS f)).getLsbD i

/-- The active elements of an instruction, in ascending order. -/
def CoreState.actives (cs : CoreState) (f : TileFields) : List Nat := (List.range (cs.nEl f)).filter (fun i => cs.active f i)

/-- Element i of vector register r at width w, with its lane's poison. -/
def CoreState.el (cs : CoreState) (w r i : Nat) : Nat × Bool := elemOf w (cs.vreg r) (cs.vpois r) i

/-- Operand A and operand B of element i (SB: the broadcast immediate). -/
def CoreState.opA (cs : CoreState) (f : TileFields) (i : Nat) : Nat × Bool := cs.el (etBits (vET f)) (vVA f) i
def CoreState.opB (cs : CoreState) (f : TileFields) (i : Nat) : Nat × Bool :=
  if vSB f then (vIMM f % 2 ^ etBits (vET f), false) else cs.el (etBits (vET f)) (vVB f) i

/-- What an instruction does to one element: its index, its new code (none: it keeps its value) and its poison. -/
abbrev EOut := Nat × Option Nat × Bool

/-- The pairs of lanes of a register that are written, whole or in part: an error in a pair wholly written is gone, and a pair
written in part is read first (R117). -/
def CoreState.vecWritten (cs : CoreState) (r w : Nat) (out : List EOut) : CoreState :=
  if cs.vErr.isEmpty then cs
  else
    let set := (out.filter (fun e => e.2.1.isSome)).map (fun e => w * e.1 / 64)
    (List.range 32).foldl (fun (cs : CoreState) k =>
      let n := (set.filter (· == k)).length
      if n = 0 then cs
      else if n = 64 / w then { cs with vErr := Tab.del cs.vErr (r * 32 + k) }
      else cs.vecPair r k) cs

/-- Write elements of a vector register. A lane is poisoned by any element written or governed with poison, and keeps its
mark while an element of it keeps its value (R117, R273). -/
def CoreState.putV (cs : CoreState) (r w : Nat) (out : List EOut) : CoreState :=
  let cs := cs.vecWritten r w out
  let v := out.foldl (fun v e => match e.2.1 with
    | some c => setElem w v e.1 c
    | none => v) (cs.vreg r)
  let old := cs.vpois r
  let lanes := out.foldl (fun (t : NSet) e => NSet.insert t (w * e.1 / 32)) []
  let p := lanes.foldl (fun (p : BitVec 64) l =>
    let es := out.filter (fun e => w * e.1 / 32 == l)
    let fresh := (es.filter (fun e => e.2.1.isSome)).length == perLane w
    let bad := es.any (fun e => e.2.2) || (!fresh && old.getLsbD l)
    if bad then p ||| (1#64 <<< l) else p &&& ~~~ (1#64 <<< l)) old
  { cs with v := Tab.put cs.v r v, vPoison := Tab.put cs.vPoison r p }

/-- The elements of an instruction under R107: an active element as `g` gives it; an inactive one kept or zeroed. -/
def CoreState.elements (cs : CoreState) (f : TileFields) (n : Nat) (g : Nat → Nat × Bool) : List EOut :=
  (List.range n).map (fun i =>
    let gp := cs.govPois f i
    if cs.active f i then (i, some (g i).1, (g i).2 || gp)
    else (i, if vZ f then some 0 else none, gp))

/-- The common shape: VD's elements from `g`. -/
def vecMap (f : TileFields) (g : CoreState → Nat → Nat × Bool) (cs : CoreState) : CoreState :=
  cs.putV (vVD f) (etBits (vET f)) (cs.elements f (cs.nEl f) (g cs))

/-- Element-wise with operands A and B. -/
def vecBin (f : TileFields) (op : Nat → Nat → Nat) (cs : CoreState) : CoreState :=
  vecMap f (fun cs i => let a := cs.opA f i; let b := cs.opB f i; (op a.1 b.1, a.2 || b.2)) cs

/-- Element-wise with operand A. -/
def vecUn (f : TileFields) (op : Nat → Nat) (cs : CoreState) : CoreState :=
  vecMap f (fun cs i => let a := cs.opA f i; (op a.1, a.2)) cs

/-- The format of a floating-point ET. -/
def etFmt (t : Nat) : Fp.Fmt := if t = 4 then Fp.bf16 else Fp.fp32

/-- A floating-point operation rounded once to the element type, or an integer operation modulo 2^32 (R97, R110). -/
def arith2 (t : Nat) (fo : Fp.Val → Fp.Val → Fp.Val) (io : Int → Int → Int) (a b : Nat) : Nat :=
  if t = 4 ∨ t = 6 then Fp.enc (etFmt t) (fo (Fp.decode (etFmt t) a) (Fp.decode (etFmt t) b))
  else
    let rd := fun (x : Nat) => if t = 7 then sext 32 x else (x : Int)
    ((io (rd a) (rd b)) % 2 ^ 32).toNat

def arith1 (t : Nat) (fo : Fp.Val → Fp.Val) (io : Int → Int) (a : Nat) : Nat :=
  if t = 4 ∨ t = 6 then Fp.enc (etFmt t) (fo (Fp.decode (etFmt t) a))
  else ((io (if t = 7 then sext 32 a else (a : Int))) % 2 ^ 32).toNat

/-- A transcendental on an element: FP32, or the FP32 result rounded to BF16 (R116). -/
def trans (t : Nat) (g : BitVec 32 → Nat) (a : Nat) : Nat :=
  if t = 4 then Fp.enc Fp.bf16 (Fp.decode Fp.fp32 (g (BitVec.ofNat 32 (a * 2 ^ 16)))) else g (BitVec.ofNat 32 a)

/-! ## Issue -/

/-- A VEC or RED instruction starts: counters and VXU_STATUS (R122, Tables 15.1, 15.2). -/
def CoreState.vxuStart (cs : CoreState) (opc : Nat) (red : Bool) : CoreState :=
  { (cs.event (if red then 0x06 else 0x05) 1) with ctr := addCtr cs.ctr 3 1, lastOpc := BitVec.ofNat 8 opc, lastRed := red }

/-- The vector registers that an instruction reads element by element (Table 5.4). -/
def vecSources (opc : Nat) (f : TileFields) : List Nat :=
  let b := if vSB f then [] else [vVB f]
  if opc = 0x0B then vVA f :: (b ++ [vVC f])
  else if opc = 0x02 ∨ opc = 0x0E ∨ opc = 0x0F ∨ (0x20 ≤ opc ∧ opc ≤ 0x26 ∧ opc ≠ 0x25) ∨ opc = 0x30 ∨ opc = 0x32 then [vVA f]
  else if opc ≤ 0x05 ∨ (0x19 ≤ opc ∧ opc ≤ 0x1E) ∨ 0x31 ≤ opc then []
  else vVA f :: b

/-- The position in T that a pattern of Table 5.5 takes for element i; 2n where out of range. -/
def shufIx (imm n i : Nat) : Nat :=
  match imm % 16 with
  | 0 => if i % 2 = 0 then i / 2 else n + i / 2
  | 1 => if i % 2 = 0 then n / 2 + i / 2 else n + n / 2 + i / 2
  | 2 => 2 * i
  | 3 => 2 * i + 1
  | 4 => n - 1 - i
  | 5 => (i + imm / 256 % 256) % n
  | _ => if imm / 256 % 256 < n then imm / 256 % 256 else 2 * n

/-- Elements of the concatenation VA:VB of n each, as pairs of lanes of the registers they lie in; a broadcast immediate lies in none. -/
def catPairs (f : TileFields) (n : Nat) (js : List Nat) : List (Nat × Nat) :=
  let w := etBits (vET f)
  (js.filter (fun j => decide (j < 2 * n) && (!vSB f || decide (j < n)))).map (fun j =>
    if j < n then (vVA f, w * j / 64) else (vVB f, w * (j - n) / 64))

/-- The pairs of lanes that an instruction reads, each with its register (R117): those of the elements that its active elements are
made from (R107, R113 to R115). -/
def CoreState.pairsRead (cs : CoreState) (opc : Nat) (f : TileFields) : List (Nat × Nat) :=
  let w := etBits (vET f)
  let n := cs.nEl f
  let as := cs.actives f
  let own := fun (r : Nat) => as.map (fun i => (r, w * i / 64))
  let ix := fun (r i : Nat) => (cs.el w r i).1
  match opc with
  | 0x16 => (as.filter (fun i => (cs.mreg (vMS f)).getLsbD i)).map (fun i => (vVA f, w * i / 64)) ++
      (if vSB f then [] else (as.filter (fun i => !(cs.mreg (vMS f)).getLsbD i)).map (fun i => (vVB f, w * i / 64)))
  | 0x28 => (if vSB f then [] else own (vVB f)) ++
      ((as.map (fun i => if vSB f then vIMM f % 2 ^ w else ix (vVB f) i)).filter (fun j => decide (j < n))).map (fun j => (vVA f, w * j / 64))
  | 0x29 => own (vVC f) ++ catPairs f n (as.map (ix (vVC f)))
  | 0x2A => catPairs f n (as.map (shufIx (vIMM f) n))
  | 0x2B => catPairs f n ((List.range (2 * n)).filter (fun i => cs.active f i))
  | 0x2C => as.map (fun i => (vVA f, w / 2 * (vIMM f % 2 * n + i) / 64))
  | 0x31 => (List.range as.length).map (fun j => (vVA f, w * j / 64))
  | 0x38 =>
    let ws := etBits (vST f)
    let n := perLane (Nat.max w ws) * cs.vl
    ((List.range n).filter (fun i => cs.active f i)).map (fun i => (vVA f, ws * (if ws < w then vIMM f * n + i else i) / 64))
  | _ => (vecSources opc f).flatMap own

/-- The register file is read for an instruction: errors are corrected, or poison their lanes (R117). -/
def CoreState.vecEcc (cs : CoreState) (opc : Nat) (f : TileFields) : CoreState :=
  if cs.vErr.isEmpty then cs else (cs.pairsRead opc f).foldl (fun (cs : CoreState) e => cs.vecPair e.1 e.2) cs

/-- Issue a VEC instruction. -/
def State.issueVec (s : State) (L opc : Nat) (f : TileFields) (ok : Bool) (plan : CoreState → Plan)
    (act : CoreState → CoreState) : State :=
  s.issue L 2 opc f ok .vec (fun s => plan (s.core L))
    (fun s => s.modCore L (fun cs => act ((cs.vxuStart opc false).vecEcc opc f)))

/-- A plan with nothing to declare. -/
def noPlan (_ : CoreState) : Plan := {}

/-! ## Memory operands (R112) -/

/-- The offset A[AR] + IMM (R31). -/
def vOff (f : TileFields) (cs : CoreState) : Nat := (cs.A (vAR f) + vIMM f) % 2 ^ 48

/-- The range that an instruction declares: E·VL elements, or one for vec.ldr. -/
def vLen (one : Bool) (f : TileFields) (cs : CoreState) : Nat := if one then etBits (vET f) / 8 else 4 * cs.vl

/-- The plan of a memory operand: alignment to the element, and the whole range inside its memory. What it writes are the active
elements, in their places, or side by side where their number moves A[AR] (R112, R114). -/
def vMemPlan (wr one late : Bool) (f : TileFields) (cs : CoreState) : Plan :=
  let off := vOff f cs
  let n := vLen one f cs
  let b := etBits (vET f) / 8
  { aUse := [vAR f]
    ctl := [vAR f]
    check := if off % (etBits (vET f) / 8) = 0 ∧ off + n ≤ locSize (vAS f) then none else some St.address
    rd := if wr then [] else blocksOf (vAS f) off n
    wr := if wr then blocksOf (vAS f) off n else []
    aDst := if late then some (vAR f) else none
    dst := if wr then ((if late then List.range (cs.actives f).length else cs.actives f).map (fun i => (if vAS f then .am else .tm, off + i * b, b)))
      else [] }

/-- Read elements of b bytes at indices `is` from an offset, each word counted once (R44, R107). -/
def CoreState.loadElems (cs : CoreState) (am : Bool) (off b : Nat) (is : List Nat) : (Nat → Nat × Bool) × CoreState :=
  let ws := is.foldl (fun t i => NSet.union t (wordsOf (off + i * b) b)) ([] : NSet)
  let cs := ws.foldl (fun (cs : CoreState) w => cs.eccWord am w) cs
  let p := cs.locPoison am
  let m := cs.loc am
  ((fun i => (leNat (m.readN (off + i * b) b), (wordsOf (off + i * b) b).any (NSet.mem p))),
    cs.poisonRead (ws.filter (NSet.mem p)).length)

/-- Store elements of b bytes at indices, consecutive ones together (R112). -/
def CoreState.storeElems (cs : CoreState) (am : Bool) (off b : Nat) (es : List (Nat × Nat × Bool)) : CoreState :=
  let runs := es.foldl (fun (acc : List (Nat × List (Byte × Bool))) e =>
    let bs := bytesP b e.2.1 e.2.2
    match acc with
    | (a, l) :: rest => if a + l.length = off + e.1 * b then (a, l ++ bs) :: rest else (off + e.1 * b, bs) :: acc
    | [] => [(off + e.1 * b, bs)]) []
  runs.reverse.foldl (fun (cs : CoreState) r => cs.store am r.1 r.2) cs

/-- Whether any mask bit that governs the instruction is poisoned. -/
def CoreState.anyGovPois (cs : CoreState) (f : TileFields) : Bool := (List.range (cs.nEl f)).any (fun i => cs.govPois f i)

/-! ## Control and memory -/

/-- The new VL of vec.setvl (Table 5.4). -/
def newVl (f : TileFields) (cs : CoreState) : Nat :=
  if vIMM f % 128 ≠ 0 then vIMM f % 128
  else
    let a := cs.A (vAR f)
    if a < 1 then 1 else if 64 < a then 64 else a

/-- VEC_SETVL (R110). -/
def execVecSetvl (core : Nat) (f : TileFields) (s : State) : Host.Outcome State Fault Refusal :=
  onCore core s (fun s => s.issueVec core 0x00 f (vecOk { ar := true, imm := 0x7F } f && decide (vIMM f ≤ 64))
    (fun _ => if vIMM f = 0 then { aUse := [vAR f], ctl := [vAR f] } else {})
    (fun cs => { cs with vl := newVl f cs }))

/-- The effect of vec.ld. -/
def fxVecLd (f : TileFields) (cs : CoreState) : CoreState :=
  let b := etBits (vET f) / 8
  let r := cs.loadElems (vAS f) (vOff f cs) b (cs.actives f)
  vecMap f (fun _ i => r.1 i) r.2

/-- VEC_LD (R112). -/
def execVecLd (core : Nat) (f : TileFields) (s : State) : Host.Outcome State Fault Refusal :=
  onCore core s (fun s => s.issueVec core 0x01 f (vecOk useLoad f) (vMemPlan false false false f) (fxVecLd f))

/-- The effect of vec.st: active elements only. DEDUCED (log 3): an inactive element writes nothing, so that a poisoned mask bit that
governs it marks no word of memory (R112, R117). -/
def fxVecSt (f : TileFields) (cs : CoreState) : CoreState :=
  cs.storeElems (vAS f) (vOff f cs) (etBits (vET f) / 8)
    ((cs.actives f).map (fun i => (i, (cs.opA f i).1, (cs.opA f i).2 || cs.govPois f i)))

/-- VEC_ST (R112). -/
def execVecSt (core : Nat) (f : TileFields) (s : State) : Host.Outcome State Fault Refusal :=
  onCore core s (fun s => s.issueVec core 0x02 f (vecOk useStore f) (vMemPlan true false false f) (fxVecSt f))

/-- The effect of vec.ldr: every active element is the one at the offset. -/
def fxVecLdr (f : TileFields) (cs : CoreState) : CoreState :=
  let r := cs.loadElems (vAS f) (vOff f cs) (etBits (vET f) / 8) (if (cs.actives f).isEmpty then [] else [0])
  vecMap f (fun _ _ => r.1 0) r.2

/-- VEC_LDR (R112). -/
def execVecLdr (core : Nat) (f : TileFields) (s : State) : Host.Outcome State Fault Refusal :=
  onCore core s (fun s => s.issueVec core 0x03 f (vecOk useLoad f) (vMemPlan false true false f) (fxVecLdr f))

/-- VEC_BCAST (R110, R275). -/
def execVecBcast (core : Nat) (f : TileFields) (s : State) : Host.Outcome State Fault Refusal :=
  onCore core s (fun s => s.issueVec core 0x04 f
    (vecOk { vd := .vec, z := true, ms := true, mu := true, ar := true, ets := etArith } f)
    (fun _ => { aUse := [vAR f] }) (vecMap f (fun cs _ => (cs.A (vAR f), cs.Ap (vAR f)))))

/-- VEC_IOTA (R110). -/
def execVecIota (core : Nat) (f : TileFields) (s : State) : Host.Outcome State Fault Refusal :=
  onCore core s (fun s => s.issueVec core 0x05 f
    (vecOk { vd := .vec, z := true, ms := true, mu := true, ets := etInt, imm := 0xFFFFFFFF } f)
    noPlan (vecMap f (fun _ i => (i + vIMM f, false))))

/-! ## Arithmetic -/

/-- VEC_ADD (R97, R110). -/
def execVecAdd (core : Nat) (f : TileFields) (s : State) : Host.Outcome State Fault Refusal :=
  onCore core s (fun s => s.issueVec core 0x08 f (vecOk (useBin etArith) f) noPlan (vecBin f (arith2 (vET f) Fp.add (· + ·))))

/-- VEC_SUB (R97, R110). -/
def execVecSub (core : Nat) (f : TileFields) (s : State) : Host.Outcome State Fault Refusal :=
  onCore core s (fun s => s.issueVec core 0x09 f (vecOk (useBin etArith) f) noPlan (vecBin f (arith2 (vET f) Fp.sub (· - ·))))

/-- VEC_MUL (R97, R110). -/
def execVecMul (core : Nat) (f : TileFields) (s : State) : Host.Outcome State Fault Refusal :=
  onCore core s (fun s => s.issueVec core 0x0A f (vecOk (useBin etArith) f) noPlan (vecBin f (arith2 (vET f) Fp.mul (· * ·))))

/-- VEC_FMA (R97): A · B + C, rounded once. -/
def execVecFma (core : Nat) (f : TileFields) (s : State) : Host.Outcome State Fault Refusal :=
  onCore core s (fun s => s.issueVec core 0x0B f (vecOk { useBin etFp with vc := true } f) noPlan
    (vecMap f (fun cs i =>
      let a := cs.opA f i
      let b := cs.opB f i
      let c := cs.el (etBits (vET f)) (vVC f) i
      let d := Fp.decode (etFmt (vET f))
      (Fp.enc (etFmt (vET f)) (Fp.add (Fp.mul (d a.1) (d b.1)) (d c.1)), a.2 || b.2 || c.2))))

/-- VEC_MAX (R88, R110). -/
def execVecMax (core : Nat) (f : TileFields) (s : State) : Host.Outcome State Fault Refusal :=
  onCore core s (fun s => s.issueVec core 0x0C f (vecOk (useBin etArith) f) noPlan (vecBin f (arith2 (vET f) Fp.max max)))

/-- VEC_MIN (R88, R110). -/
def execVecMin (core : Nat) (f : TileFields) (s : State) : Host.Outcome State Fault Refusal :=
  onCore core s (fun s => s.issueVec core 0x0D f (vecOk (useBin etArith) f) noPlan (vecBin f (arith2 (vET f) Fp.min min)))

/-- VEC_ABS (R110). -/
def execVecAbs (core : Nat) (f : TileFields) (s : State) : Host.Outcome State Fault Refusal :=
  onCore core s (fun s => s.issueVec core 0x0E f (vecOk (useUn etSigned) f) noPlan (vecUn f (arith1 (vET f) Fp.abs (fun i => if i < 0 then -i else i))))

/-- VEC_NEG (R110). -/
def execVecNeg (core : Nat) (f : TileFields) (s : State) : Host.Outcome State Fault Refusal :=
  onCore core s (fun s => s.issueVec core 0x0F f (vecOk (useUn etSigned) f) noPlan (vecUn f (arith1 (vET f) Fp.neg (fun i => -i))))

/-- VEC_AND (R110). -/
def execVecAnd (core : Nat) (f : TileFields) (s : State) : Host.Outcome State Fault Refusal :=
  onCore core s (fun s => s.issueVec core 0x10 f (vecOk (useBin etAny) f) noPlan (vecBin f (fun a b => a &&& b)))

/-- VEC_OR (R110). -/
def execVecOr (core : Nat) (f : TileFields) (s : State) : Host.Outcome State Fault Refusal :=
  onCore core s (fun s => s.issueVec core 0x11 f (vecOk (useBin etAny) f) noPlan (vecBin f (fun a b => a ||| b)))

/-- VEC_XOR (R110). -/
def execVecXor (core : Nat) (f : TileFields) (s : State) : Host.Outcome State Fault Refusal :=
  onCore core s (fun s => s.issueVec core 0x12 f (vecOk (useBin etAny) f) noPlan (vecBin f (fun a b => a ^^^ b)))

/-- VEC_SHL (R110). -/
def execVecShl (core : Nat) (f : TileFields) (s : State) : Host.Outcome State Fault Refusal :=
  onCore core s (fun s => s.issueVec core 0x13 f (vecOk (useBin etInt) f) noPlan (vecBin f (fun a b => (a <<< (b % 32)) % 2 ^ 32)))

/-- VEC_SHR (R110). -/
def execVecShr (core : Nat) (f : TileFields) (s : State) : Host.Outcome State Fault Refusal :=
  onCore core s (fun s => s.issueVec core 0x14 f (vecOk (useBin etInt) f) noPlan (vecBin f (fun a b => a >>> (b % 32))))

/-- VEC_SRA (R110). -/
def execVecSra (core : Nat) (f : TileFields) (s : State) : Host.Outcome State Fault Refusal :=
  onCore core s (fun s => s.issueVec core 0x15 f (vecOk (useBin etInt) f) noPlan (vecBin f (fun a b => ((BitVec.ofNat 32 a).sshiftRight (b % 32)).toNat)))

/-- VEC_SEL (R110): every element, chosen by its bit of M[MS], whose poison passes on (R117). DESIGN CHOICE (log 3): Z = 1, which
here governs no element, is accepted. -/
def execVecSel (core : Nat) (f : TileFields) (s : State) : Host.Outcome State Fault Refusal :=
  onCore core s (fun s => s.issueVec core 0x16 f (vecOk { useBin etAny with mu := false } f) noPlan
    (vecMap f (fun cs i =>
      let e := if (cs.mreg (vMS f)).getLsbD i then cs.opA f i else cs.opB f i
      (e.1, e.2 || (cs.mpois (vMS f)).getLsbD i))))

/-! ## Comparison and masks -/

/-- The condition of vec.cmp on an ordering; none is unordered (R88). -/
def vCond (c : Nat) (o : Option Ordering) : Bool :=
  match c, o with
  | 0, o => o == some .eq
  | 1, o => o != some .eq
  | 2, o => o == some .lt
  | 3, o => o == some .lt || o == some .eq
  | 4, o => o == some .gt
  | 5, o => o == some .gt || o == some .eq
  | _, o => o == none

/-- The ordering of two elements. -/
def etCmp (t a b : Nat) : Option Ordering :=
  if t = 4 ∨ t = 6 then Fp.cmp (Fp.decode (etFmt t) a) (Fp.decode (etFmt t) b)
  else if t = 7 then some (compare (sext 32 a) (sext 32 b)) else some (compare a b)

/-- Set bits of a mask register: index, new bit (none: kept), poison. -/
def CoreState.putM (cs : CoreState) (r : Nat) (out : List (Nat × Option Bool × Bool)) : CoreState :=
  let set := fun (v : BitVec 256) (i : Nat) (b : Bool) => if b then v ||| (1#256 <<< i) else v &&& ~~~ (1#256 <<< i)
  let v := out.foldl (fun v e => match e.2.1 with
    | some b => set v e.1 b
    | none => v) (cs.mreg r)
  let p := out.foldl (fun p e => match e.2.1 with
    | some _ => set p e.1 e.2.2
    | none => if e.2.2 then set p e.1 true else p) (cs.mpois r)
  { cs with m := Tab.put cs.m r v, mPoison := Tab.put cs.mPoison r p }

/-- The effect of vec.cmp. -/
def fxVecCmp (f : TileFields) (cs : CoreState) : CoreState :=
  cs.putM (vVD f % 8) ((List.range (cs.nEl f)).map (fun i =>
    let a := cs.opA f i
    let b := cs.opB f i
    if cs.active f i then (i, some (vCond (vIMM f) (etCmp (vET f) a.1 b.1)), a.2 || b.2 || cs.govPois f i)
    else (i, if vZ f then some false else none, cs.govPois f i)))

/-- VEC_CMP (R88, R110). -/
def execVecCmp (core : Nat) (f : TileFields) (s : State) : Host.Outcome State Fault Refusal :=
  onCore core s (fun s => s.issueVec core 0x18 f
    (vecOk { useBin etArith with vd := .mask, sb := false, imm := 7 } f && vIMM f != 7) noPlan (fxVecCmp f))

/-- A mask operation on bits 0 to 255 (R110, R117). -/
def maskOp (f : TileFields) (op : BitVec 256 → BitVec 256 → BitVec 256) (two : Bool) (cs : CoreState) : CoreState :=
  let a := vVA f % 8
  let b := vVB f % 8
  { cs with
    m := Tab.put cs.m (vVD f % 8) (op (cs.mreg a) (cs.mreg b))
    mPoison := Tab.put cs.mPoison (vVD f % 8) (if two then cs.mpois a ||| cs.mpois b else cs.mpois a) }

/-- VEC_MAND (R110). -/
def execVecMand (core : Nat) (f : TileFields) (s : State) : Host.Outcome State Fault Refusal :=
  onCore core s (fun s => s.issueVec core 0x19 f (vecOk useMask2 f) noPlan (maskOp f (· &&& ·) true))

/-- VEC_MOR (R110). -/
def execVecMor (core : Nat) (f : TileFields) (s : State) : Host.Outcome State Fault Refusal :=
  onCore core s (fun s => s.issueVec core 0x1A f (vecOk useMask2 f) noPlan (maskOp f (· ||| ·) true))

/-- VEC_MXOR (R110). -/
def execVecMxor (core : Nat) (f : TileFields) (s : State) : Host.Outcome State Fault Refusal :=
  onCore core s (fun s => s.issueVec core 0x1B f (vecOk useMask2 f) noPlan (maskOp f (· ^^^ ·) true))

/-- VEC_MNOT (R110). -/
def execVecMnot (core : Nat) (f : TileFields) (s : State) : Host.Outcome State Fault Refusal :=
  onCore core s (fun s => s.issueVec core 0x1C f (vecOk { vd := .mask, va := .mask } f) noPlan
    (maskOp f (fun a _ => ~~~ a) false))

/-- Whether bit i counts for vec.mpop and vec.mfirst. -/
def CoreState.maskHit (cs : CoreState) (f : TileFields) (i : Nat) : Bool :=
  (cs.mreg (vVA f % 8)).getLsbD i && cs.active f i

/-- The effect of vec.mpop and vec.mfirst: A[AR] takes the number, poisoned by any poisoned bit read; the bit of an inactive
element is not read (R107, R117, R275). -/
def fxMaskA (f : TileFields) (g : List Nat → Nat → Nat) (cs : CoreState) : CoreState :=
  let n := cs.nEl f
  let bad := (List.range n).any (fun i => (cs.active f i && (cs.mpois (vVA f % 8)).getLsbD i) || cs.govPois f i)
  cs.setA (vAR f) (g ((List.range n).filter (fun i => cs.maskHit f i)) n) bad

/-- VEC_MPOP (R110, R111). -/
def execVecMpop (core : Nat) (f : TileFields) (s : State) : Host.Outcome State Fault Refusal :=
  onCore core s (fun s => s.issueVec core 0x1D f (vecOk useMaskA f)
    (fun _ => { aUse := [vAR f], aDst := some (vAR f) }) (fxMaskA f (fun l _ => l.length)))

/-- VEC_MFIRST (R110, R111). -/
def execVecMfirst (core : Nat) (f : TileFields) (s : State) : Host.Outcome State Fault Refusal :=
  onCore core s (fun s => s.issueVec core 0x1E f (vecOk useMaskA f)
    (fun _ => { aUse := [vAR f], aDst := some (vAR f) }) (fxMaskA f (fun l n => (l[0]?).getD n)))

/-! ## Transcendentals, division and square root -/

/-- VEC_EXP2 (R116). -/
def execVecExp2 (core : Nat) (f : TileFields) (s : State) : Host.Outcome State Fault Refusal :=
  onCore core s (fun s => s.issueVec core 0x20 f (vecOk (useUn etFp) f) noPlan (vecUn f (trans (vET f) Fp.exp2W)))

/-- VEC_LOG2 (R116). -/
def execVecLog2 (core : Nat) (f : TileFields) (s : State) : Host.Outcome State Fault Refusal :=
  onCore core s (fun s => s.issueVec core 0x21 f (vecOk (useUn etFp) f) noPlan (vecUn f (trans (vET f) Fp.log2W)))

/-- VEC_RSQRT (R116). -/
def execVecRsqrt (core : Nat) (f : TileFields) (s : State) : Host.Outcome State Fault Refusal :=
  onCore core s (fun s => s.issueVec core 0x22 f (vecOk (useUn etFp) f) noPlan (vecUn f (trans (vET f) Fp.rsqrtW)))

/-- VEC_RECIP (R116). -/
def execVecRecip (core : Nat) (f : TileFields) (s : State) : Host.Outcome State Fault Refusal :=
  onCore core s (fun s => s.issueVec core 0x23 f (vecOk (useUn etFp) f) noPlan (vecUn f (trans (vET f) Fp.recipW)))

/-- VEC_TANH (R116). -/
def execVecTanh (core : Nat) (f : TileFields) (s : State) : Host.Outcome State Fault Refusal :=
  onCore core s (fun s => s.issueVec core 0x24 f (vecOk (useUn etFp) f) noPlan (vecUn f (trans (vET f) Fp.tanhW)))

/-- VEC_DIV (R97). -/
def execVecDiv (core : Nat) (f : TileFields) (s : State) : Host.Outcome State Fault Refusal :=
  onCore core s (fun s => s.issueVec core 0x25 f (vecOk (useBin etFp) f) noPlan (vecBin f (arith2 (vET f) Fp.div (fun _ _ => 0))))

/-- VEC_SQRT (R97). -/
def execVecSqrt (core : Nat) (f : TileFields) (s : State) : Host.Outcome State Fault Refusal :=
  onCore core s (fun s => s.issueVec core 0x26 f (vecOk (useUn etFp) f) noPlan (vecUn f (arith1 (vET f) Fp.sqrt id)))

/-! ## Permutation (R113) -/

/-- Elements by index, or zero where the index is out of the table of `size` elements; the core counts the misses. `ix`
gives the index and its poison, `tb` the table. -/
def vecGather (f : TileFields) (size : Nat) (ix : Nat → Nat × Bool) (tb : Nat → Nat × Bool) (cs : CoreState) : CoreState :=
  let miss := ((cs.actives f).filter (fun i => decide (size ≤ (ix i).1))).length
  vecMap f (fun _ i =>
    let j := ix i
    if size ≤ j.1 then (0, j.2) else ((tb j.1).1, (tb j.1).2 || j.2)) (cs.indexRange miss)

/-- Element j of the concatenation VA:VB, n elements each. -/
def CoreState.catAB (cs : CoreState) (f : TileFields) (n j : Nat) : Nat × Bool :=
  if j < n then cs.opA f j else cs.opB f (j - n)

/-- VEC_PERM (R113). -/
def execVecPerm (core : Nat) (f : TileFields) (s : State) : Host.Outcome State Fault Refusal :=
  onCore core s (fun s => s.issueVec core 0x28 f (vecOk (useBin etAny) f) noPlan
    (fun cs => vecGather f (cs.nEl f) (cs.opB f) (cs.opA f) cs))

/-- VEC_PERM2 (R113). -/
def execVecPerm2 (core : Nat) (f : TileFields) (s : State) : Host.Outcome State Fault Refusal :=
  onCore core s (fun s => s.issueVec core 0x29 f (vecOk { useBin etAny with vc := true } f) noPlan
    (fun cs => vecGather f (2 * cs.nEl f) (fun i => cs.el (etBits (vET f)) (vVC f) i) (cs.catAB f (cs.nEl f)) cs))

/-- The fields of vec.shuf: a defined pattern, its own bits of IMM, and VB = 0 for patterns 4 to 6. With SB = 1 the second half of T is
IMM itself (Table 5.3, R109). DEDUCED (log 3): the bits of IMM that the pattern does not use are 0 with SB = 1 too, as the words under
Table 5.5 say without an exception. -/
def shufOk (f : TileFields) : Bool :=
  let p := vIMM f % 16
  let m := if p = 5 ∨ p = 6 then 0xFF0F else 0xF
  vecOk { useBin etAny with imm := m } f && vIMM f &&& m == vIMM f && decide (p ≤ 6) && (decide (p < 4) || vVB f == 0)

/-- VEC_SHUF (R113). -/
def execVecShuf (core : Nat) (f : TileFields) (s : State) : Host.Outcome State Fault Refusal :=
  onCore core s (fun s => s.issueVec core 0x2A f (shufOk f)
    (fun cs => if vIMM f % 16 = 1 ∧ cs.nEl f % 2 = 1 then { check := some St.invalid } else {})
    (fun cs => vecGather f (2 * cs.nEl f) (fun i => (shufIx (vIMM f) (cs.nEl f) i, false)) (cs.catAB f (cs.nEl f)) cs))

/-- The effect of vec.pack: half-width elements from the low halves of VA:VB. -/
def fxVecPack (f : TileFields) (cs : CoreState) : CoreState :=
  let h := etBits (vET f) / 2
  let n := cs.nEl f
  cs.putV (vVD f) h (cs.elements f (2 * n) (fun i => let e := cs.catAB f n i; (e.1 % 2 ^ h, e.2)))

/-- VEC_PACK (R113). -/
def execVecPack (core : Nat) (f : TileFields) (s : State) : Host.Outcome State Fault Refusal :=
  onCore core s (fun s => s.issueVec core 0x2B f (vecOk (useBin [4, 7]) f) noPlan (fxVecPack f))

/-- The effect of vec.unpack: half-width elements of a part of VA, extended. -/
def fxVecUnpack (f : TileFields) (cs : CoreState) : CoreState :=
  let h := etBits (vET f) / 2
  let n := cs.nEl f
  vecMap f (fun cs i =>
    let e := cs.el h (vVA f) (vIMM f % 2 * n + i)
    (if vIMM f / 2 % 2 = 1 then ((sext h e.1) % 2 ^ (2 * h)).toNat else e.1, e.2)) cs

/-- VEC_UNPACK (R113). -/
def execVecUnpack (core : Nat) (f : TileFields) (s : State) : Host.Outcome State Fault Refusal :=
  onCore core s (fun s => s.issueVec core 0x2C f (vecOk { useUn [4, 7] with imm := 3 } f) noPlan (fxVecUnpack f))

/-! ## Compress and expand (R114) -/

/-- The effect of vec.compress. -/
def fxVecCompress (f : TileFields) (cs : CoreState) : CoreState :=
  let as := cs.actives f
  let bad := cs.anyGovPois f
  let c := as.length
  cs.putV (vVD f) (etBits (vET f))
    (as.zipIdx.map (fun x => (x.2, some (cs.opA f x.1).1, (cs.opA f x.1).2 || bad)) ++
      (if vZ f then ((List.range (cs.nEl f)).drop c).map (fun i => (i, some 0, bad)) else []))

/-- VEC_COMPRESS (R114). -/
def execVecCompress (core : Nat) (f : TileFields) (s : State) : Host.Outcome State Fault Refusal :=
  onCore core s (fun s => s.issueVec core 0x30 f (vecOk (useUn etAny) f && vMU f) noPlan (fxVecCompress f))

/-- Write the active elements of VD from `g`, by their rank among the active ones; the others follow R107. -/
def CoreState.spread (cs : CoreState) (f : TileFields) (g : Nat → Nat × Bool) : CoreState :=
  let as := cs.actives f
  let bad := cs.anyGovPois f
  let rank := fun i => (as.filter (fun j => decide (j < i))).length
  cs.putV (vVD f) (etBits (vET f)) ((List.range (cs.nEl f)).map (fun i =>
    if cs.active f i then (i, some (g (rank i)).1, (g (rank i)).2 || bad)
    else (i, if vZ f then some 0 else none, if vZ f then bad else cs.govPois f i)))

/-- VEC_EXPAND (R114). -/
def execVecExpand (core : Nat) (f : TileFields) (s : State) : Host.Outcome State Fault Refusal :=
  onCore core s (fun s => s.issueVec core 0x31 f (vecOk (useUn etAny) f && vMU f) noPlan
    (fun cs => cs.spread f (cs.opA f)))

/-- A[AR] moves past c elements (R31, R114, R117). -/
def CoreState.bumpA (cs : CoreState) (f : TileFields) (c : Nat) (bad : Bool) : CoreState :=
  cs.setA (vAR f) (cs.A (vAR f) + c * (etBits (vET f) / 8)) bad

/-- The effect of vec.cst. -/
def fxVecCst (f : TileFields) (cs : CoreState) : CoreState :=
  let as := cs.actives f
  let bad := cs.anyGovPois f
  (cs.storeElems (vAS f) (vOff f cs) (etBits (vET f) / 8)
    (as.zipIdx.map (fun x => (x.2, (cs.opA f x.1).1, (cs.opA f x.1).2 || bad)))).bumpA f as.length bad

/-- VEC_CST (R114). -/
def execVecCst (core : Nat) (f : TileFields) (s : State) : Host.Outcome State Fault Refusal :=
  onCore core s (fun s => s.issueVec core 0x32 f (vecOk useStore f && vMU f) (vMemPlan true false true f) (fxVecCst f))

/-- The effect of vec.xld. -/
def fxVecXld (f : TileFields) (cs : CoreState) : CoreState :=
  let c := (cs.actives f).length
  let bad := cs.anyGovPois f
  let r := cs.loadElems (vAS f) (vOff f cs) (etBits (vET f) / 8) (List.range c)
  (r.2.spread f r.1).bumpA f c bad

/-- VEC_XLD (R114). -/
def execVecXld (core : Nat) (f : TileFields) (s : State) : Host.Outcome State Fault Refusal :=
  onCore core s (fun s => s.issueVec core 0x33 f (vecOk useLoad f && vMU f) (vMemPlan false false true f) (fxVecXld f))

/-! ## Conversion (R115) -/

/-- The fields of vec.cvt: two different types of Table 5.2, none of them U32, and a part below the ratio of widths. -/
def cvtOk (f : TileFields) : Bool :=
  let a := etBits (vET f)
  let b := etBits (vST f)
  vecOk { useUn [0, 1, 2, 3, 4, 5, 6, 7, 8] with cvt := true, imm := 7 } f && decide (vST f ≤ 8) && vST f != vET f
    && decide (vIMM f < Nat.max a b / Nat.min a b)

/-- The effect of vec.cvt: active elements are converted in ascending order (R103). DEDUCED (log 3): an infinity widened with SAT = 1
becomes the largest finite value and overflows (R100), although R90 calls widening exact. -/
def fxVecCvt (f : TileFields) (cs : CoreState) : CoreState :=
  let w := etBits (vET f)
  let ws := etBits (vST f)
  let n := perLane (Nat.max w ws) * cs.vl
  let si := fun i => if ws < w then vIMM f * n + i else i
  let di := fun i => if w < ws then vIMM f * n + i else i
  let r := (List.range n).foldl (fun (x : List EOut × CoreState) i =>
    let gp := cs.govPois f i
    if cs.active f i then
      let e := cs.el ws (vVA f) (si i)
      let y := x.2.convertTo (vET f) (vSAT f) (vSR f) (etVal (vST f) e.1)
      (x.1 ++ [(di i, some y.1, e.2 || gp)], y.2)
    else (x.1 ++ [(di i, if vZ f then some 0 else none, gp)], x.2)) ([], cs)
  r.2.putV (vVD f) w r.1

/-- VEC_CVT (R115). -/
def execVecCvt (core : Nat) (f : TileFields) (s : State) : Host.Outcome State Fault Refusal :=
  onCore core s (fun s => s.issueVec core 0x38 f (cvtOk f) noPlan (fxVecCvt f))

end Sys2Proof.Machine
end

