-- ==== Sys2Proof/Machine/Reduce.lean ====
section
/-! DEFINITION. The reduction unit (R118 to R120): sums in lanes, extrema, argmax and top-k. -/

namespace Sys2Proof.Machine
open Sys2Proof

/-! ## Fields (Table 5.7) -/

def rWIDE (f : TileFields) : Bool := f.getLsbD 112
def rSRC (f : TileFields) : Nat := bits f 111 108
def rDST (f : TileFields) : Nat := bits f 107 104
def rAUX (f : TileFields) : Nat := bits f 103 100
def rAS (f : TileFields) : Bool := f.getLsbD 99
def rET (f : TileFields) : Nat := bits f 98 95
def rLEN (f : TileFields) : Nat := bits f 94 79 + 1
def rROWS (f : TileFields) : Nat := bits f 78 66
def rStride (f : TileFields) : Nat := 16 * bits f 65 50
def rK (f : TileFields) : Nat := bits f 49 44 + 1
def rCARRY (f : TileFields) : Bool := f.getLsbD 43
def rOT (f : TileFields) : Bool := f.getLsbD 42

/-- Bytes of a source element. -/
def rSize (f : TileFields) : Nat := etBits (rET f) / 8

/-- The field values that Tables 5.7 and 5.8 allow: `sums` for red.sum and red.sqnorm, `ranks` for argmax and top-k. -/
def redOk (int sums ranks topk : Bool) (f : TileFields) : Bool :=
  (rET f == 4 || rET f == 6 || (int && rET f == 7)) && f.getLsbD 113 == false && bits f 41 0 == 0
    && decide (1 ≤ rROWS f) && decide (rROWS f ≤ 4096)
    && (if sums then !rWIDE f || rET f != 7 else !rWIDE f) && (!rOT f || rWIDE f)
    && (ranks || (rAUX f == 0 && !rCARRY f)) && (topk || rK f == 1)

/-- What an instruction writes: bytes per row, at A[DST]; top-k adds its index region. -/
def topkB (f : TileFields) : Nat := cdiv (rROWS f * rK f * rSize f) 64 * 64

/-- The plan of a RED instruction: its registers, of which IBASE is data (R275), source rows, index rows with CARRY, results aligned to `al` (Table 5.7; log 3) and
`outLen` bytes long (R36, R118). -/
def redPlan (ranks : Bool) (al outLen : Nat) (f : TileFields) (cs : CoreState) : Plan :=
  let src := cs.A (rSRC f)
  let dst := cs.A (rDST f)
  let n := rLEN f * rSize f
  let span := (rROWS f - 1) * rStride f + n
  let carry := ranks && rCARRY f
  let regs := [rSRC f, rDST f] ++ (if carry then [rAUX f] else [])
  let ixLen := 4 * rLEN f * rROWS f
  { aUse := [rSRC f, rDST f] ++ (if ranks then [rAUX f] else [])
    ctl := regs
    check :=
      if src % rSize f ≠ 0 ∨ dst % al ≠ 0 then some St.invalid
      else if src + span ≤ locSize (rAS f) ∧ dst + outLen ≤ locSize false
          ∧ (!carry || decide (cs.A (rAUX f) + ixLen ≤ locSize false)) then none
      else some St.address
    rd := NSet.union ((List.range (rROWS f)).foldl (fun b r => NSet.union b (blocksOf (rAS f) (src + r * rStride f) n)) [])
      (if carry then blocksOf false (cs.A (rAUX f)) ixLen else [])
    wr := blocksOf false dst outLen
    dst := [(.tm, dst, outLen)] }

/-- Whether a RED instruction's results overlap its source rows or its index rows. -/
def redOverlap (f : TileFields) (p : Plan) (cs : CoreState) : Bool :=
  p.dst.any (fun (e : Space × Nat × Nat) =>
    let meets := fun (a n : Nat) => decide (a < e.2.1 + e.2.2) && decide (e.2.1 < a + n)
    (!rAS f && meets (cs.A (rSRC f)) ((rROWS f - 1) * rStride f + rLEN f * rSize f)) ||
      (rCARRY f && meets (cs.A (rAUX f)) (4 * rLEN f * rROWS f)))

/-- Where results overlap the source, the order in which they land: free, and the same for the same operands (R96, R121; log 14). -/
def redOrder (f : TileFields) (p : Plan) (cs : CoreState) : Nat :=
  if redOverlap f p cs then Config.rowOrder [f.toNat, cs.A (rSRC f), cs.A (rDST f), cs.A (rAUX f)] else 0

/-- Issue a RED instruction. -/
def State.issueRed (s : State) (L opc : Nat) (f : TileFields) (ok : Bool) (plan : CoreState → Plan)
    (act : Nat → CoreState → CoreState) : State :=
  s.issue L 6 opc f ok .vec (fun s => plan (s.core L)) (fun s =>
    s.modCore L (fun cs => act (redOrder f (plan cs) cs) (cs.vxuStart opc true)))

/-- The results of a row: where each part goes, with its poison. -/
abbrev RowOut := List (Nat × List (Byte × Bool))

/-- The results of rows land, each row's apart: an 8 B word that several rows cover keeps an old poison mark, since none of them overwrites
it whole (R44; DEDUCED, log 3). -/
def landRows (outs : List RowOut) (cs : CoreState) : CoreState :=
  outs.foldl (fun cs o => o.foldl (fun cs e => cs.store false e.1 e.2) cs) cs

/-- The rows from r on, `k` of them, with the results that have not landed: `n` says how many of those land before each
row is read; all have landed at the end (R121). -/
def redSweep (row : Nat → CoreState → RowOut × CoreState) : Nat → Nat → Nat → List RowOut → CoreState → CoreState
  | 0, _, _, outs, cs => landRows outs cs
  | k + 1, r, n, outs, cs =>
    let m := n % (outs.length + 1)
    let y := row r (landRows (outs.take m) cs)
    redSweep row k (r + 1) (n / (outs.length + 1)) (outs.drop m ++ [y.1]) y.2

/-- The codes of row r, and whether any of it is poisoned. -/
def redRow (f : TileFields) (r : Nat) (cs : CoreState) : (List Nat × Bool) × CoreState :=
  let x := cs.load (rAS f) (cs.A (rSRC f) + r * rStride f) (rLEN f * rSize f)
  let bs := x.1.map (·.1)
  (((List.range (rLEN f)).map (fun i => fieldAt bs (i * rSize f) (rSize f)), x.1.any (·.2)), x.2)

/-- Reduce every row with `g` and write `n` bytes per row at A[DST]. -/
def redRows (f : TileFields) (n : Nat) (g : List Nat → CoreState → Nat × CoreState) (order : Nat) (cs : CoreState) :
    CoreState :=
  redSweep (fun r cs =>
    let x := redRow f r cs
    let y := g x.1.1 x.2
    ([(y.2.A (rDST f) + r * n, bytesP n y.1 x.1.2)], y.2)) (rROWS f) 0 order [] cs

/-! ## Sums (R119) -/

/-- The value rounded to nearest even in the format. -/
def rnd (f : Fp.Fmt) (v : Fp.Val) : Fp.Val := Fp.decode f (Fp.enc f v)

/-- One step over lane values: neighbours are added in pairs. -/
def pairUp {α : Type} (add : α → α → α) : List α → List α
  | a :: b :: t => add a b :: pairUp add t
  | l => l

/-- The tree of R119: pairs until one value is left (`fuel` levels). -/
def treeSum {α : Type} (add : α → α → α) : Nat → List α → Option α
  | 0, l => l[0]?
  | n + 1, l => treeSum add n (pairUp add l)

/-- The lanes of R119: element i goes to lane i mod n, the first one as `one` gives it, later ones by `step`. -/
def laneSums {α β : Type} (n : Nat) (one : β → α) (step : α → β → α) (xs : List β) : List α :=
  (List.range (Nat.min n xs.length)).filterMap (fun j =>
    match (xs.drop j) with
    | [] => none
    | x :: _ => some ((List.range (xs.length / n + 1)).foldl (fun a t =>
        match xs[j + (t + 1) * n]? with
        | some y => step a y
        | none => a) (one x)))

/-- Lanes of a sum. -/
def redLanes (f : TileFields) : Nat := if rWIDE f then 32 else if rET f = 4 then 128 else 64

/-- The working format of a sum. -/
def redFmt (f : TileFields) : Fp.Fmt := if rWIDE f then Fp.f64 else Fp.fp32

/-- The sum, or with `sq` the sum of squares, of a floating-point row (R119). -/
def fpSum (f : TileFields) (sq : Bool) (row : List Nat) : Fp.Val :=
  let w := redFmt f
  let xs := row.map (etVal (rET f))
  let ls := laneSums (redLanes f) (fun x => if sq then rnd w (Fp.mul x x) else x)
    (fun a x => rnd w (Fp.add a (if sq then Fp.mul x x else x))) xs
  (treeSum (fun a b => rnd w (Fp.add a b)) 8 ls).getD (.fin false 0 0)

/-- The result of a sum: INT32, FP32 or binary64. DESIGN CHOICE (log 3): rounding a wide sum to FP32 is a conversion, so that
one beyond the range sets OVERFLOW and is counted (R101). -/
def redSumOf (f : TileFields) (sq : Bool) (row : List Nat) (cs : CoreState) : Nat × CoreState :=
  if rET f = 7 then ((row.foldl (· + ·) 0) % 2 ^ 32, cs)
  else if rOT f then (Fp.enc Fp.f64 (fpSum f sq row), cs)
  else if rWIDE f then cs.convert Fp.fp32 false false (fpSum f sq row)
  else (toF32 (fpSum f sq row), cs)

/-- Bytes of a sum's result. -/
def sumSize (f : TileFields) : Nat := if rOT f then 8 else 4

/-- RED_SUM (R118, R119). -/
def execRedSum (core : Nat) (f : TileFields) (s : State) : Host.Outcome State Fault Refusal :=
  onCore core s (fun s => s.issueRed core 0x00 f (redOk true true false false f)
    (redPlan false (sumSize f) (sumSize f * rROWS f) f) (redRows f (sumSize f) (redSumOf f false)))

/-- RED_SQNORM (R118, R119). -/
def execRedSqnorm (core : Nat) (f : TileFields) (s : State) : Host.Outcome State Fault Refusal :=
  onCore core s (fun s => s.issueRed core 0x04 f (redOk false true false false f)
    (redPlan false (sumSize f) (sumSize f * rROWS f) f) (redRows f (sumSize f) (redSumOf f true)))

/-! ## Extrema (R88) -/

/-- The extremum of a row in its type. -/
def redExt (f : TileFields) (fo : Fp.Val → Fp.Val → Fp.Val) (io : Int → Int → Int) (row : List Nat)
    (cs : CoreState) : Nat × CoreState :=
  match row with
  | [] => (0, cs)
  | x :: xs =>
    let first := if rET f = 7 then x else arith1 (rET f) id id x
    (xs.foldl (fun a b => arith2 (rET f) fo io a b) first, cs)

/-- RED_MAX (R118). -/
def execRedMax (core : Nat) (f : TileFields) (s : State) : Host.Outcome State Fault Refusal :=
  onCore core s (fun s => s.issueRed core 0x01 f (redOk true false false false f)
    (redPlan false (rSize f) (rSize f * rROWS f) f) (redRows f (rSize f) (redExt f Fp.max max)))

/-- RED_MIN (R118). -/
def execRedMin (core : Nat) (f : TileFields) (s : State) : Host.Outcome State Fault Refusal :=
  onCore core s (fun s => s.issueRed core 0x02 f (redOk true false false false f)
    (redPlan false (rSize f) (rSize f * rROWS f) f) (redRows f (rSize f) (redExt f Fp.min min)))

/-! ## Ranking (R89, R120) -/

/-- Whether element a with its index stands before b: higher rank, or the lower index at equal rank (R89). -/
def before (f : TileFields) (a b : Nat × Nat) : Bool :=
  let x := etVal (rET f) a.1
  let y := etVal (rET f) b.1
  Fp.ranksAbove x y || (!Fp.ranksAbove y x && decide (a.2 < b.2))

/-- Insert an element into a ranked list of at most n. -/
def rankIn (f : TileFields) (e : Nat × Nat) : Nat → List (Nat × Nat) → List (Nat × Nat)
  | 0, _ => []
  | _ + 1, [] => [e]
  | n + 1, x :: t => if before f e x then (e :: x :: t).take (n + 1) else x :: rankIn f e n t

/-- The first n of the elements in rank order. -/
def ranked (f : TileFields) (n : Nat) (es : List (Nat × Nat)) : List (Nat × Nat) :=
  es.foldl (fun l e => rankIn f e n l) []

/-- Whether the indices of a row are poisoned by IBASE (R275). -/
def basePois (f : TileFields) (cs : CoreState) : Bool := !rCARRY f && cs.Ap (rAUX f)

/-- The elements of row r with their indices: positions from IBASE, or read from the index rows with CARRY (R120). -/
def redIndexed (f : TileFields) (r : Nat) (cs : CoreState) : (List (Nat × Nat) × Bool) × CoreState :=
  let x := redRow f r cs
  let n := rLEN f
  if rCARRY f then
    let y := x.2.load false (cs.A (rAUX f) + 4 * (n * r)) (4 * n)
    let bs := y.1.map (·.1)
    ((x.1.1.zipIdx.map (fun e => (e.1, fieldAt bs (4 * e.2) 4)), x.1.2 || y.1.any (·.2)), y.2)
  else ((x.1.1.zipIdx.map (fun e => (e.1, (e.2 + cs.A (rAUX f)) % 2 ^ 32)), x.1.2), x.2)

/-- The effect of red.argmax. -/
def fxRedArgmax (f : TileFields) (order : Nat) (cs : CoreState) : CoreState :=
  redSweep (fun r cs =>
    let x := redIndexed f r cs
    let ix := (((ranked f 1 x.1.1)[0]?).map (·.2)).getD 0
    ([(x.2.A (rDST f) + 4 * r, bytesP 4 ix (x.1.2 || basePois f x.2))], x.2)) (rROWS f) 0 order [] cs

/-- RED_ARGMAX (R89, R118). -/
def execRedArgmax (core : Nat) (f : TileFields) (s : State) : Host.Outcome State Fault Refusal :=
  onCore core s (fun s => s.issueRed core 0x03 f (redOk false false true false f)
    (redPlan true 4 (4 * rROWS f) f) (fxRedArgmax f))

/-- The canonical quiet NaN of a source type. -/
def qnan (f : TileFields) : Nat := if rET f = 4 then 0x7FC0 else 0x7FC00000

/-- The effect of red.topk on row r. -/
def topkRow (f : TileFields) (r : Nat) (cs : CoreState) : RowOut × CoreState :=
  let x := redIndexed f r cs
  let k := rK f
  let top := ranked f k x.1.1
  let pad := List.replicate (k - top.length) (qnan f, 0xFFFFFFFF)
  let canon := top.map (fun e => (if (etVal (rET f) e.1).isNan then qnan f else e.1, e.2))
  let es := canon ++ pad
  let d := x.2.A (rDST f)
  ([(d + r * k * rSize f, es.flatMap (fun e => bytesP (rSize f) e.1 x.1.2)),
    (d + topkB f + 4 * k * r, canon.flatMap (fun e => bytesP 4 e.2 (x.1.2 || basePois f x.2)) ++
      pad.flatMap (fun e => bytesP 4 e.2 x.1.2))], x.2)

/-- RED_TOPK (R120). -/
def execRedTopk (core : Nat) (f : TileFields) (s : State) : Host.Outcome State Fault Refusal :=
  onCore core s (fun s => s.issueRed core 0x08 f (redOk false false true true f)
    (redPlan true 64 (topkB f + 4 * rK f * rROWS f) f)
    (fun order cs => redSweep (topkRow f) (rROWS f) 0 order [] cs))

end Sys2Proof.Machine
end

