-- ==== Sys2Proof/Machine/Sequencer.lean ====
section
/-! DEFINITION. The CTL instructions (R38 to R42), the start of a task (R51, R52), the end of a drain window (R55), the
device queue's acceptance (R167) and undefined instructions (R33). -/

namespace Sys2Proof.Machine
open Sys2Proof

/-! ## CTL fields (Table 2.5) -/

def ctlDA (f : TileFields) : Nat := bits f 111 108
def ctlSA (f : TileFields) : Nat := bits f 107 104
def ctlSB (f : TileFields) : Nat := bits f 103 100
def ctlCond (f : TileFields) : Nat := bits f 99 96
def ctlImm (f : TileFields) : Nat := bits f 47 0

/-- The reserved fields are 0. -/
def ctlOk (f : TileFields) : Bool := bits f 113 112 == 0 && bits f 95 48 == 0

/-- Branch offsets: IMM[47:16] must be 0. -/
def branchOk (f : TileFields) : Bool := ctlOk f && bits f 47 16 == 0

/-- IMM holds 32 bits. -/
def imm32Ok (f : TileFields) : Bool := ctlOk f && bits f 47 32 == 0

/-- The branch offset (R38). -/
def branchOff (f : TileFields) : Int := sext 16 (ctlImm f)

/-- The effect of an instruction on its core's registers, after which PC moves on. -/
def State.seqOp (L : Nat) (g : CoreState → CoreState) (s : State) : State := (s.modCore L g).advance L

/-! ## CTL instructions -/

/-- CTL_NOP (R38). -/
def execCtlNop (core : Nat) (f : TileFields) (s : State) : Host.Outcome State Fault Refusal :=
  onCore core s (fun s => s.issueCtl core 0x00 f (ctlOk f) (fun _ => {}) (State.seqOp core id))

/-- CTL_END (R54). -/
def execCtlEnd (core : Nat) (f : TileFields) (s : State) : Host.Outcome State Fault Refusal :=
  onCore core s (fun s => s.issueCtl core 0x01 f (ctlOk f) (fun _ => {}) (fun s => s.endTask core St.ok))

/-- CTL_JMP (R38). -/
def execCtlJmp (core : Nat) (f : TileFields) (s : State) : Host.Outcome State Fault Refusal :=
  onCore core s (fun s => s.issueCtl core 0x02 f (branchOk f) (fun _ => {})
    (fun s => s.goto core ((s.core core).pc + branchOff f)))

/-- The effect of ctl.loop: the counter is decremented, and the branch is taken while it is not 0 (R38). -/
def fxCtlLoop (L : Nat) (f : TileFields) (s : State) : State :=
  let n := (s.core L).L (ctlDA f)
  let s := if n = 0 then s else s.modCore L (fun cs => cs.setL (ctlDA f) (n - 1))
  if 2 ≤ n then s.goto L ((s.core L).pc + branchOff f) else s.advance L

/-- CTL_LOOP (R38). -/
def execCtlLoop (core : Nat) (f : TileFields) (s : State) : Host.Outcome State Fault Refusal :=
  onCore core s (fun s => s.issueCtl core 0x03 f (branchOk f && decide (ctlDA f < 8)) (fun _ => {}) (fxCtlLoop core f))

/-- CTL_SETL (R38). -/
def execCtlSetl (core : Nat) (f : TileFields) (s : State) : Host.Outcome State Fault Refusal :=
  onCore core s (fun s => s.issueCtl core 0x04 f (imm32Ok f && decide (ctlDA f < 8)) (fun _ => {})
    (State.seqOp core (fun cs => cs.setL (ctlDA f) (ctlImm f))))

/-- CTL_SETA (R38). -/
def execCtlSeta (core : Nat) (f : TileFields) (s : State) : Host.Outcome State Fault Refusal :=
  onCore core s (fun s => s.issueCtl core 0x05 f (ctlOk f) (fun _ => { aUse := [ctlDA f] })
    (State.seqOp core (fun cs => cs.setA (ctlDA f) (ctlImm f) false)))

/-- CTL_ADDA (R31, R38). -/
def execCtlAdda (core : Nat) (f : TileFields) (s : State) : Host.Outcome State Fault Refusal :=
  onCore core s (fun s => s.issueCtl core 0x06 f (ctlOk f) (fun _ => { aUse := [ctlDA f, ctlSA f] })
    (State.seqOp core (fun cs => cs.setA (ctlDA f) (cs.A (ctlSA f) + ctlImm f) (cs.Ap (ctlSA f)))))

/-- CTL_ADDR (R31, R38). -/
def execCtlAddr (core : Nat) (f : TileFields) (s : State) : Host.Outcome State Fault Refusal :=
  onCore core s (fun s => s.issueCtl core 0x07 f (ctlOk f) (fun _ => { aUse := [ctlDA f, ctlSA f, ctlSB f] })
    (State.seqOp core (fun cs => cs.setA (ctlDA f) (cs.A (ctlSA f) + cs.A (ctlSB f)) (cs.Ap (ctlSA f) || cs.Ap (ctlSB f)))))

/-- The comparisons of R39 on 48-bit values. -/
def condHolds (c x y : Nat) : Bool :=
  match c % 8 with
  | 0 => x == y
  | 1 => x != y
  | 2 => decide (x < y)
  | 3 => decide (y ≤ x)
  | 4 => decide (sext 48 x < sext 48 y)
  | _ => decide (sext 48 y ≤ sext 48 x)

/-- The registers that ctl.cmp reads. -/
def cmpRegs (f : TileFields) : List Nat := if ctlCond f < 8 then [ctlSA f, ctlSB f] else [ctlSA f]

/-- CTL_CMP (R39, R275). -/
def execCtlCmp (core : Nat) (f : TileFields) (s : State) : Host.Outcome State Fault Refusal :=
  onCore core s (fun s => s.issueCtl core 0x08 f (ctlOk f && decide (ctlCond f % 8 < 6))
    (fun _ => { aUse := cmpRegs f, ctl := cmpRegs f })
    (State.seqOp core (fun cs => { cs with
      p := condHolds (ctlCond f) (cs.A (ctlSA f)) (if ctlCond f < 8 then cs.A (ctlSB f) else ctlImm f) })))

/-- The tile offset of ctl.lda and ctl.sta (R40). -/
def ctlOff (cs : CoreState) (f : TileFields) : Nat := (cs.A (ctlSA f) + ctlImm f) % 2 ^ 48

/-- R40: 8 B aligned and below 0x60_0000. -/
def tileWordCheck (off : Nat) : Option Status :=
  if off % 8 = 0 ∧ off < 0x600000 then none else some St.address

/-- CTL_LDA (R40, R275). -/
def execCtlLda (core : Nat) (f : TileFields) (s : State) : Host.Outcome State Fault Refusal :=
  onCore core s (fun s => s.issueCtl core 0x09 f (ctlOk f)
    (fun s => let off := ctlOff (s.core core) f
      { aUse := [ctlDA f, ctlSA f], ctl := [ctlSA f], check := tileWordCheck off, rd := blocksOf false off 8 })
    (State.seqOp core (fun cs =>
      let r := cs.load false (ctlOff cs f) 8
      let v := leP r.1
      r.2.setA (ctlDA f) v.1 v.2)))

/-- CTL_STA (R40, R275). -/
def execCtlSta (core : Nat) (f : TileFields) (s : State) : Host.Outcome State Fault Refusal :=
  onCore core s (fun s => s.issueCtl core 0x0A f (ctlOk f)
    (fun s => let off := ctlOff (s.core core) f
      { aUse := [ctlDA f, ctlSA f], ctl := [ctlSA f], check := tileWordCheck off, wr := blocksOf false off 8 })
    (State.seqOp core (fun cs =>
      cs.store false (ctlOff cs f) (bytesP 8 (cs.A (ctlDA f)) (cs.Ap (ctlDA f))))))

/-- Whether the units named by a fence mask have completed (R41, R185). -/
def State.fenceDone (s : State) (L mask : Nat) : Bool :=
  let cs := s.core L
  let on := fun i => mask / 2 ^ i % 2 == 1
  let busy := fun u => cs.inflight.any (fun i => i.unit == u)
  !(on 0 && busy .mxu) && !(on 1 && busy .vec) && !(on 2 && busy .mov)
    && !(on 3 && (s.writesOut L || !cs.putsOut.isEmpty))
    && !(on 4 && (busy .syn || decide (0 < cs.hoistsOut))) && !(on 5 && busy .mrk)

/-- The effect of ctl.fence: issue is held until the named units complete (R41, R56). -/
def fxCtlFence (L : Nat) (f : TileFields) (s : State) : State :=
  s.front L (tileWord 5 0x0B f) f (ctlOk f && bits f 47 6 == 0) (fun s =>
    if s.fenceDone L (ctlImm f) then State.seqOp L CoreState.issued s
    else s.stall L (fun cs => { cs with stallFence := true }))

/-- CTL_FENCE (R41). -/
def execCtlFence (core : Nat) (f : TileFields) (s : State) : Host.Outcome State Fault Refusal :=
  onCore core s (fxCtlFence core f)

/-- CTL_SEED (R38, R103). -/
def execCtlSeed (core : Nat) (f : TileFields) (s : State) : Host.Outcome State Fault Refusal :=
  onCore core s (fun s => s.issueCtl core 0x0C f (imm32Ok f) (fun _ => {})
    (State.seqOp core (fun cs => { cs with seed := BitVec.ofNat 32 (ctlImm f) })))

/-- CTL_MOVL (R38, R275). -/
def execCtlMovl (core : Nat) (f : TileFields) (s : State) : Host.Outcome State Fault Refusal :=
  onCore core s (fun s => s.issueCtl core 0x0D f (ctlOk f && decide (ctlDA f < 8))
    (fun _ => { aUse := [ctlSA f], ctl := [ctlSA f] })
    (State.seqOp core (fun cs => cs.setL (ctlDA f) (cs.A (ctlSA f)))))

/-! ## Enqueue -/

/-- A doorbell or a ctl.enq entry takes effect at the front end of context c: at a gated fetch unit it is a wake request
(R172). -/
def State.dbSeen (s : State) (c : Nat) : State :=
  s.modFe (c % 4) (fun fe => if fe.gated then { fe with dbSeen := true } else fe)

/-- An entry joins the device queue of context c (R166). -/
def CtxState.enqueue (x : CtxState) (depth : Nat) (d : List Byte) : CtxState :=
  { x with dq := x.dq ++ [(x.dqNext, depth, d)], dqNext := x.dqNext + 1 }

/-- The effect of ctl.enq once it may issue: the depth check, poison in the descriptor (R275; DEDUCED, log 3), a full
queue, and the copy. -/
def State.enq (s : State) (L off : Nat) : State :=
  match (s.core L).task with
  | none => s
  | some t =>
    let r := (s.core L).load false off 64
    if 16 < t.depth + 1 then s.endTask L St.enqDepth
    else if r.1.any (·.2) then (s.setCore L r.2).endTask L St.poison
    else if 4096 ≤ (s.ctx t.key.c).dq.length then
      s.modCore L (fun cs => { cs with enqHold := true, stallEnq := true, stallQueue := false, stallScore := false,
                                       stallFence := false })
    else
      let s := s.setCore L { r.2.issued with enqHold := false }
      ((s.modCtx t.key.c (fun x => x.enqueue (t.depth + 1) (r.1.map (·.1)))).dbSeen t.key.c).advance L

/-- The effect of CTL_ENQ (R42). -/
def fxCtlEnq (L : Nat) (f : TileFields) (s : State) : State :=
  s.front L (tileWord 5 0x10 f) f (ctlOk f) (fun s =>
    let off := (s.core L).A (ctlSA f)
    s.operands L .seq
      { aUse := [ctlSA f], ctl := [ctlSA f],
        check := if off % 64 = 0 ∧ off + 64 ≤ 0x600000 then none else some St.address,
        rd := blocksOf false off 64 } (fun s => s.enq L off))

/-- CTL_ENQ (R42, R166, R167). -/
def execCtlEnq (core : Nat) (f : TileFields) (s : State) : Host.Outcome State Fault Refusal :=
  onCore core s (fxCtlEnq core f)

/-- A held ctl.enq tries again: the queue has a free place (R167). -/
def fxEnqQueueAccept (L : Nat) (s : State) : State :=
  let cs := s.core L
  if cs.enqHold then fxCtlEnq L ((Tab.get 0 cs.code cs.pc).setWidth 116) s else s

/-- ENQ_QUEUE_ACCEPT (R167). -/
def execEnqQueueAccept (core : Nat) (s : State) : Host.Outcome State Fault Refusal :=
  onCore core s (fxEnqQueueAccept core)

/-! ## Undefined instructions (R33) -/

/-- Whether a class and an opcode are defined (Tables 2.4, 2.6, 2.8, 3.3, 5.4, 5.8, 8.4, 15.4). -/
def opDefined (cls opc : Nat) : Bool :=
  match cls with
  | 1 => decide (opc ≤ 6)
  | 2 => decide (opc ≤ 0x05) || (decide (0x08 ≤ opc) && decide (opc ≤ 0x16)) || (decide (0x18 ≤ opc) && decide (opc ≤ 0x1E))
      || (decide (0x20 ≤ opc) && decide (opc ≤ 0x26)) || (decide (0x28 ≤ opc) && decide (opc ≤ 0x2C))
      || (decide (0x30 ≤ opc) && decide (opc ≤ 0x33)) || opc == 0x38
  | 3 => opc == 0 || opc == 1 || opc == 4 || opc == 5
  | 4 => decide (opc ≤ 3)
  | 5 => decide (opc ≤ 0x0D) || opc == 0x10
  | 6 => decide (opc ≤ 4) || opc == 8
  | 7 => decide (opc ≤ 3)
  | _ => false

/-- The sequencer meets a word whose class is reserved or whose opcode is undefined. -/
def fxUndefined (L : Nat) (w : TileWord) (s : State) : State :=
  if opDefined (bits w 127 124) (bits w 123 116) then s else s.front L w (w.setWidth 116) false id

/-- UNDEFINED_INSTRUCTION (R33). -/
def execUndefinedInstruction (core : Nat) (w : TileWord) (s : State) : Host.Outcome State Fault Refusal :=
  onCore core s (fxUndefined core w)

/-! ## Task start (R52) -/

/-- The pages of a task's code in its folio's generation: address of each signature piece and its length. -/
def codePieces (sigs : List Nat) (off len : Nat) : List (Nat × Nat) :=
  (List.range ((off + len - 1) / 4096 - off / 4096 + 1)).map (fun i =>
    let pg := off / 4096 + i
    let lo := if i = 0 then off % 4096 else 0
    let hi := if (pg + 1) * 4096 ≤ off + len then 4096 else off + len - pg * 4096
    ((sigs[pg]?).getD 0 + lo, hi - lo))

/-- The words of code bytes, and the instructions among them that hold a byte that could not be read. DEDUCED (log 3): poisoned or
undecodable bytes of the folio stand in the instruction store as an uncorrectable error does, which ends the task when it is reached (R53). -/
def codeWords (bs : List (Byte × Bool)) (n : Nat) : Tab TileWord × Tab Nat :=
  let w := fun i => (bs.drop (16 * i)).take 16
  ((List.range n).map (fun i => (i, BitVec.ofNat 128 (leNat ((w i).map (·.1))))),
   ((List.range n).filter (fun i => (w i).any (·.2))).map (fun i => (i, 2)))

/-- The core takes the task at the head of its queue. DEDUCED (log 3): PC is 0 from here on, since instruction 0 is the next to issue
(Table 2.10); what step 3 of R52 sets besides stands until that step. -/
def CoreState.take (cs : CoreState) (t : TaskInfo) : CoreState :=
  { cs with
    task := some t
    queue := cs.queue.drop 1
    pc := 0
    ended := none
    conds := []
    firmConds := [] }

/-- The core once its task's code and registers A are loaded (R52, R74, R78, R108). DESIGN CHOICE (log 8): FAULT_SRC keeps the last
failed check, since Table 3.14 gives it no clearing, across task starts and mode changes. -/
def CoreState.begin (cs : CoreState) (t : TaskInfo) (w : Tab TileWord × Tab Nat) (a : Tab (BitVec 48)) : CoreState :=
  { cs with
    a := a
    aPoison := []
    l := []
    p := false
    pc := 0
    seed := t.seedInit
    code := w.1
    imemErr := w.2
    sticky := 0
    firm := 0
    mode := 0
    parts := Tab.mapV cs.parts (fun _ x => { Part.reset with faultSrc := x.faultSrc })
    v := []
    vPoison := []
    vErr := []
    m := []
    mPoison := []
    vl := 64 }

/-- What a read for a task met, noted in its command: a reconstruction (R131), a stack's thermal policy (R139). -/
def State.taskNote (s : State) (t : TaskInfo) (corr slow : Bool) : State :=
  if corr || slow then s.modCmd t.key (fun m => m.met corr slow) else s

/-- Step 1 of R52: the code, from the folio's generation; the fetch needs X = 1 (Table 1.8). -/
def State.loadCode (s : State) (t : TaskInfo) : Bool × List (Byte × Bool) × State :=
  let sigs := (((Tab.find (s.ctx t.key.c).folios t.handle).bind (fun fo => Tab.find fo.gens t.gen)).map (·.sigs)).getD []
  (codePieces sigs t.codeOff (16 * t.codeLen)).foldl (fun (acc : Bool × List (Byte × Bool) × State) p =>
    let r := acc.2.2.vaRead t.key.c p.1 p.2 [.x]
    (acc.1 || r.1.fault, acc.2.1 ++ List.zip r.1.bytes r.1.pois, r.2.taskNote t r.1.corr r.1.slow)) (false, [], s)

/-- Step 2 of R52: the argument block. -/
def State.loadArgs (s : State) (t : TaskInfo) : VaRes × State :=
  if t.argVa = 0 then (⟨List.replicate 128 0, List.replicate 128 false, false, false, false, false⟩, s)
  else if wide t.argVa then (⟨[], [], true, false, false, false⟩, s)
  else s.vaRead t.key.c t.argVa 128 [.r]

/-- A0 to A15 from the argument block. -/
def argRegs (bs : List Byte) : Tab (BitVec 48) := (List.range 16).map (fun n => (n, BitVec.ofNat 48 (fieldAt bs (8 * n) 6)))

/-- The core starts the task at the head of its queue (R52). -/
def fxTaskStart (L : Nat) (s : State) : State :=
  let cs := s.core L
  if !s.alive || cs.task.isSome || cs.failed || cs.rebindDue || cs.gate != .on then s
  else match cs.queue with
    | [] => s
    | t :: _ =>
      let s := s.setCore L (cs.take t)
      let c := s.loadCode t
      if c.1 then c.2.2.endTask L St.address
      else
        let a := c.2.2.loadArgs t
        if a.1.fault then a.2.endTask L St.address
        else if a.1.uncorr then a.2.endTask L St.uncorrectable
        else if a.1.pois.any id then a.2.endTask L St.poison
        else
          (a.2.taskNote t a.1.corr a.1.slow).modCore L (fun cs => cs.begin t (codeWords c.2.1 t.codeLen) (argRegs a.1.bytes))

/-- TASK_START (R52). -/
def execTaskStart (core : Nat) (s : State) : Host.Outcome State Fault Refusal := onCore core s (fxTaskStart core)

/-! ## The end of a drain window (R55) -/

/-- The contents of a killed instruction's ranges become free (R55; log 14). -/
def State.scrambleDst (s : State) (L : Nat) (d : List (Space × Nat × Nat)) : State :=
  d.foldl (fun (s : State) r =>
    match r.1 with
    | .pa => s.memScramble r.2.1 r.2.2
    | .tm => let b := s.freeBytes r.2.2; b.2.modCore L (fun cs => cs.setLoc false (cs.tm.writeN r.2.1 b.1))
    | .am => let b := s.freeBytes r.2.2; b.2.modCore L (fun cs => cs.setLoc true (cs.am.writeN r.2.1 b.1))) s

/-- Whether a pennant message's sender is core L. -/
def PenSrc.isCore (L : Nat) : PenSrc → Bool
  | .core l _ _ => l == L
  | _ => false

/-- The waits and messages of core L end, and consume nothing (R182, R188). -/
def State.dropPen (s : State) (L : Nat) : State :=
  { s with
    pen.slots := Tab.mapV s.pen.slots (fun _ x => { x with waiters := x.waiters.filter (fun w => !w.src.isCore L) })
    pen.msgs := s.pen.msgs.filter (fun m => !m.src.isCore L)
    pen.outcomes := s.pen.outcomes.filter (fun o => !o.src.isCore L) }

/-- What remains of the task is killed, and the task ends with `st`: killed instructions' destinations are unspecified
(R55). -/
def State.killTask (s : State) (L : Nat) (st : Status) : State :=
  let cs := s.core L
  if cs.task.isNone then s
  else
    let s := cs.inflight.foldl (fun (s : State) i => s.scrambleDst L i.dst) s
    let s := { s with
      mem.acks := s.mem.acks.filter (fun a => a.1 != L)
      mem.gather := s.mem.gather.map (fun (g : Gather) => { g with srcs := g.srcs.filter (· != L) })
      mem.portWait := s.mem.portWait.map (fun (w : Nat × Nat × List (Byte × Bool)) => if w.1 = L then (orphanSrc, w.2) else w)
      mem.readWait := s.mem.readWait.filter (fun h => h.src != L)
      fab.trans := s.fab.trans.map (fun (t : Trans) => if t.unit = L then { t with kind := TransKind.other } else t) }
    let s := (s.dropPen L).modCore L (fun cs => { cs with
      inflight := []
      hoistsOut := 0
      putsOut := []
      rebindDue := false
      ended := some st
      conds := cs.conds.filter (fun c => c != St.drained) ++ [st] })
    s.finishTask L

end Sys2Proof.Machine
end

