-- ==== Sys2Proof/Machine/Folio.lean ====
section
/-! DEFINITION. Folios, endpapers and launches (R158 to R165): FOLIO_OPEN, LAUNCH, FOLIO_PATCH and FOLIO_CLOSE, from the
moment a command has started. -/

namespace Sys2Proof.Machine
open Sys2Proof

/-! ## A started command acts -/

/-- A command ends with a condition and its DETAIL. -/
def State.failCmd (s : State) (k : CmdKey) (st : Status) (detail : Nat) : State :=
  s.modCmd k (fun m => { m with conds := m.conds ++ [(st, BitVec.ofNat 32 detail)], finished := true })

/-- A command notes a condition and goes on. -/
def State.noteCmd (s : State) (k : CmdKey) (st : Status) : State :=
  s.modCmd k (fun m => { m with conds := m.conds ++ [(st, 0)] })

/-- The command of opcode `op` that has started and not yet acted, acts. -/
def State.actCmd (s : State) (k : CmdKey) (op : Nat) (go : Cmd → State → State) : State :=
  match s.findCmd k with
  | none => s
  | some m =>
    if !s.alive || m.begun || m.finished || m.draining || m.op != op then s
    else go m (s.modCmd k (fun m => { m with begun := true }))

/-- The command's timeout in µs (R168). -/
def State.cmdTimeout (s : State) (c : Nat) (d : List Byte) : Nat :=
  let t := fieldAt d 8 3
  if t = 0 then 1000 * (s.ctx c).cfgTimeout else t

/-- What an access of a command met (R131, R139). -/
def State.metCmd (s : State) (k : CmdKey) (corr slow : Bool) : State :=
  if corr || slow then s.modCmd k (fun m => m.met corr slow) else s

/-- Read bytes of the context for a command: the bytes, or the status that ends it (R24, R131, R275). -/
def State.rdCmd (s : State) (k : CmdKey) (va n : Nat) (ps : List Perm) : Except Status (List Byte) × State :=
  let r := s.vaRead k.c va n ps
  (if r.1.fault then .error St.address
   else if r.1.uncorr then .error St.uncorrectable
   else if r.1.pois.any id then .error St.poison
   else .ok r.1.bytes, r.2.metCmd k r.1.corr r.1.slow)

/-! ## The spine (Table 7.8) -/

/-- A spine's header. -/
structure Spine where
  sigCount : Nat
  entryCount : Nat
  siteCount : Nat
  taskCount : Nat
  size : Nat
  sigTab : Nat
  entryTab : Nat
  siteTab : Nat
  taskTab : Nat
  deriving DecidableEq, Repr

def spineOf (b : List Byte) : Spine :=
  { sigCount := fieldAt b 0x08 4
    entryCount := fieldAt b 0x0C 2
    siteCount := fieldAt b 0x0E 2
    taskCount := fieldAt b 0x10 4
    size := fieldAt b 0x14 4
    sigTab := fieldAt b 0x18 4
    entryTab := fieldAt b 0x1C 4
    siteTab := fieldAt b 0x20 4
    taskTab := fieldAt b 0x24 4 }

/-- The checks of R159 on the 64 B header. -/
def headerOk (b : List Byte) : Bool :=
  let h := spineOf b
  fieldAt b 0 4 == 0x53504E31 && fieldAt b 4 2 == 1 && fieldAt b 6 2 == 0 && fieldAt b 0x2C 20 == 0
    && decide (1 ≤ h.sigCount ∧ h.sigCount ≤ 65536) && decide (1 ≤ h.entryCount ∧ h.entryCount ≤ 256)
    && decide (h.siteCount ≤ 4096) && decide (1 ≤ h.taskCount ∧ h.taskCount ≤ 65536) && decide (64 ≤ h.size)

/-- A table lies in the spine, 8 B aligned. -/
def tableOk (h : Spine) (off n : Nat) : Bool := off % 8 == 0 && decide (off + n ≤ h.size)

/-- A patch site. -/
structure Site where
  off : Nat
  width : Nat
  code : Bool
  deriving DecidableEq, Repr

def siteAt (b : List Byte) : Site := ⟨fieldAt b 0 4, fieldAt b 4 1, fieldAt b 5 1 == 1⟩

/-- Fields of a task record (Tables 2.9, 7.8). -/
def trCodeOff (r : List Byte) : Nat := fieldAt r 0 4
def trCodeLen (r : List Byte) : Nat := fieldAt r 4 2
def trLcore (r : List Byte) : Nat := fieldAt r 6 2
def trArgVa (r : List Byte) : Nat := fieldAt r 8 8
def trTimeout (r : List Byte) : Nat := fieldAt r 0x10 3
def trSeed (r : List Byte) : Nat := fieldAt r 0x14 4
def trTmpl (r : List Byte) : Option Nat := if fieldAt r 0x20 4 = 0xFFFFFFFF then none else some (fieldAt r 0x20 4)

/-- The checks that R51 and R159 make on a task record at FOLIO_OPEN. -/
def recordOk (h : Spine) (r : List Byte) : Bool :=
  fieldAt r 0x13 1 == 0 && fieldAt r 0x18 8 == 0 && fieldAt r 0x24 12 == 0
    && decide (1 ≤ trCodeLen r ∧ trCodeLen r ≤ 4096) && trCodeOff r % 16 == 0
    && decide (trCodeOff r + 16 * trCodeLen r ≤ h.sigCount * 4096) && decide (trLcore r ≤ 319) && trArgVa r % 64 == 0
    && match trTmpl r with
       | none => true
       | some t => t % 64 == 0 && decide (t + 128 ≤ h.sigCount * 4096) && trArgVa r == 0

/-- The checks of R159 on a site. -/
def siteOk (h : Spine) (b : List Byte) (tmpls : List Nat) : Bool :=
  let x := siteAt b
  fieldAt b 6 2 == 0 && decide (fieldAt b 5 1 ≤ 1) && (x.width == 1 || x.width == 2 || x.width == 4 || x.width == 8)
    && x.off % Nat.max 1 x.width == 0 && decide (x.off + x.width ≤ h.sigCount * 4096)
    && (x.code || tmpls.any (fun t => decide (t ≤ x.off) && decide (x.off + x.width ≤ t + 128)))

/-- The n records of `w` bytes in a table. -/
def recordsOf (b : List Byte) (off w n : Nat) : List (List Byte) := (List.range n).map (fun i => sliceAt b (off + w * i) w)

/-- The checks of R159 on a whole spine. -/
def spineOk (b : List Byte) : Bool :=
  let h := spineOf b
  let recs := recordsOf b h.taskTab 48 h.taskCount
  let tmpls := recs.filterMap trTmpl
  (crc32 (patchAt b 0x28 [0, 0, 0, 0])).toNat == fieldAt b 0x28 4
    && tableOk h h.sigTab (8 * h.sigCount) && tableOk h h.entryTab (8 * h.entryCount)
    && tableOk h h.siteTab (8 * h.siteCount) && tableOk h h.taskTab (48 * h.taskCount)
    && (recordsOf b h.entryTab 8 h.entryCount).all (fun e =>
        decide (1 ≤ fieldAt e 4 4) && decide (fieldAt e 0 4 + fieldAt e 4 4 ≤ h.taskCount))
    && recs.all (recordOk h) && (recordsOf b h.siteTab 8 h.siteCount).all (fun x => siteOk h x tmpls)
    && (recordsOf b h.sigTab 8 h.sigCount).all (fun x => fieldAt x 0 2 % 4096 == 0)

/-! ## FOLIO_OPEN (R159) -/

/-- Signatures readable and executable, and the pool readable, writable and executable. -/
def State.foliosMapped (s : State) (c : Nat) (sigs : List Nat) (pool n : Nat) : Bool × State :=
  let r := sigs.foldl (fun (acc : Bool × State) a =>
    let x := acc.2.vaOk c a 4096 [.r, .x]
    (acc.1 && x.1, x.2)) (true, s)
  if pool = 0 ∨ n = 0 then r
  else
    let x := r.2.vaOk c pool (4096 * n) [.r, .w, .x]
    (r.1 && x.1, x.2)

/-- The effect of FOLIO_OPEN. -/
def fxFolioOpen (k : CmdKey) (m : Cmd) (s : State) : State :=
  let hd := fieldAt m.desc 0x10 1
  let va := fieldAt m.desc 0x18 8
  let pool := fieldAt m.desc 0x20 8
  let n := fieldAt m.desc 0x28 4
  let s := s.modCmd k (fun m => { m with handle := hd })
  if Tab.has (s.ctx k.c).folios hd then s.failCmd k St.invalid 0
  else
    let a := s.rdCmd k va 64 [.r]
    match a.1 with
    | .error st => a.2.failCmd k st 0
    | .ok b =>
      if !headerOk b then a.2.failCmd k St.invalid 0
      else
        let r := a.2.rdCmd k va (spineOf b).size [.r]
        match r.1 with
        | .error st => r.2.failCmd k st 0
        | .ok b =>
          if !spineOk b then r.2.failCmd k St.invalid 0
          else
            let sigs := (recordsOf b (spineOf b).sigTab 8 (spineOf b).sigCount).map leNat
            let y := r.2.foliosMapped k.c sigs pool n
            if !y.1 then y.2.failCmd k St.address 0
            else
              let fo : Folio := {
                spineVa := va
                poolVa := pool
                poolSigs := if pool = 0 then 0 else n
                gens := [(0, ⟨sigs, 0⟩)]
                current := 0
                closing := none
                patchers := [] }
              (y.2.modCtx k.c (fun x => { x with folios := Tab.put x.folios hd fo })).endCmd k St.ok

/-- FOLIO_OPEN (R159). -/
def execFolioOpen (k : CmdKey) (s : State) : Host.Outcome State Fault Refusal :=
  onKey k s (fun s => s.actCmd k 2 (fxFolioOpen k))

/-! ## Endpapers (R161) -/

/-- The bytes of an endpaper: from the context's memory, or what the host returned (R161, Table 7.10). -/
def State.endpaper (s : State) (k : CmdKey) (addr n : Nat) (host : Bool) (ep : HostRead) : Except Status (List Byte) × State :=
  if n = 0 then (.ok [], s)
  else if host then
    (match ep with
     | .data b => .ok (sliceAt b 0 (16 * n))
     | .error => .error St.address
     | .poisoned => .error St.poison, s)
  else s.rdCmd k addr (16 * n) [.r]

/-- One entry against the sites of the folio: the offset and the bytes that it gives, or the status that ends the
command. -/
def State.epEntry (s : State) (k : CmdKey) (launch : Bool) (sites : List Site) (e : List Byte) :
    Except Status (Nat × List Byte) × State :=
  let w := fieldAt e 2 1
  let v := fieldAt e 8 8
  match sites[fieldAt e 0 2]? with
  | none => (.error St.endpaper, s)
  | some x =>
    if fieldAt e 3 1 / 2 ≠ 0 ∨ fieldAt e 4 4 ≠ 0 ∨ x.width ≠ w ∨ (launch ∧ x.code) then (.error St.endpaper, s)
    else if fieldAt e 3 1 = 0 then
      (if v < 256 ^ w then .ok (x.off, natLe w v) else .error St.endpaper, s)
    else if v % Nat.max 1 w ≠ 0 then (.error St.endpaper, s)
    else
      let r := s.rdCmd k v w [.r]
      (match r.1 with
       | .ok b => .ok (x.off, b)
       | .error st => .error (if st = St.address then St.endpaper else st), r.2)

/-- All entries in list order; on failure the status and DETAIL, the index of the entry for ENDPAPER_RANGE (Table 7.7). -/
def State.epEntries (s : State) (k : CmdKey) (launch : Bool) (sites : List Site) (b : List Byte) (n : Nat) :
    Except (Status × Nat) (List (Nat × List Byte)) × State :=
  (List.range n).foldl (fun (acc : Except (Status × Nat) (List (Nat × List Byte)) × State) i =>
    match acc.1 with
    | .error e => (.error e, acc.2)
    | .ok l =>
      let r := acc.2.epEntry k launch sites (sliceAt b (16 * i) 16)
      (match r.1 with
       | .ok x => .ok (l ++ [x])
       | .error st => .error (st, if st = St.endpaper then i else 0), r.2)) (.ok [], s)

/-- The values that fall into the bytes at folio offset `base`, applied in order (R162). -/
def applyEp (base : Nat) (b : List Byte) (ps : List (Nat × List Byte)) : List Byte :=
  ps.foldl (fun b p =>
    if base ≤ p.1 ∧ p.1 + p.2.length ≤ base + b.length then patchAt b (p.1 - base) p.2 else b) b

/-! ## LAUNCH (R162, R163) -/

/-- What a launch needs of its folio. -/
structure LaunchPlan where
  sigs : List Nat
  recs : List (List Byte)
  sites : List Site
  deriving DecidableEq, Repr

/-- The records of an entry point and the sites, read from the spine. -/
def State.launchPlan (s : State) (k : CmdKey) (fo : Folio) (entry : Nat) : Except Status LaunchPlan × State :=
  let a := s.rdCmd k fo.spineVa 64 [.r]
  match a.1 with
  | .error st => (.error st, a.2)
  | .ok b =>
    let h := spineOf b
    if h.entryCount ≤ entry then (.error St.invalid, a.2)
    else
      let e := a.2.rdCmd k (fo.spineVa + h.entryTab + 8 * entry) 8 [.r]
      match e.1 with
      | .error st => (.error st, e.2)
      | .ok eb =>
        let t := e.2.rdCmd k (fo.spineVa + h.taskTab + 48 * fieldAt eb 0 4) (48 * fieldAt eb 4 4) [.r]
        let x := t.2.rdCmd k (fo.spineVa + h.siteTab) (8 * h.siteCount) [.r]
        match t.1, x.1 with
        | .ok tb, .ok xb =>
          (.ok ⟨(Tab.get ⟨[], 0⟩ fo.gens fo.current).sigs, recordsOf tb 0 48 (fieldAt eb 4 4),
            (recordsOf xb 0 8 h.siteCount).map siteAt⟩, x.2)
        | .error st, _ => (.error st, x.2)
        | _, .error st => (.error st, x.2)

/-- Templated tasks of a plan. -/
def LaunchPlan.templated (p : LaunchPlan) : Nat := (p.recs.filterMap trTmpl).length

/-- Blocks of 128 B in the arena. -/
def CtxState.arenaBlocks (x : CtxState) : Nat := x.arenaSize * 8192

/-- n free blocks of the arena, if there are so many (R163). -/
def CtxState.freeBlocks (x : CtxState) (n : Nat) : Option (List Nat) :=
  let l := ((List.range (Nat.min x.arenaBlocks (x.arenaUsed.length + n))).filter (fun i => !NSet.mem x.arenaUsed i)).take n
  if l.length = n then some l else none

/-- Whether a launch's arena need does not fit at present, though it could (R163). -/
def State.arenaWaits (s : State) (c : Nat) (d : List Byte) : Bool :=
  match Tab.find (s.ctx c).folios (fieldAt d 0x10 1) with
  | none => false
  | some fo =>
    if 1024 < fieldAt d 0x14 2 then false
    else match (s.launchPlan ⟨c, 0, 0⟩ fo (fieldAt d 0x11 1)).1 with
    | .error _ => false
    | .ok p => decide (p.templated ≤ (s.ctx c).arenaBlocks) && ((s.ctx c).freeBlocks p.templated).isNone

/-- The bytes at a folio offset in a generation. -/
def State.readFolio (s : State) (k : CmdKey) (sigs : List Nat) (off n : Nat) : Except Status (List Byte) × State :=
  (codePieces sigs off n).foldl (fun (acc : Except Status (List Byte) × State) p =>
    match acc.1 with
    | .error e => (.error e, acc.2)
    | .ok b =>
      let r := acc.2.rdCmd k p.1 p.2 [.r]
      (match r.1 with
       | .ok x => .ok (b ++ x)
       | .error e => .error e, r.2)) (.ok [], s)

/-- Step 4 of R162: the arena block of one templated task. -/
def State.fillBlock (s : State) (k : CmdKey) (p : LaunchPlan) (ps : List (Nat × List Byte)) (tmpl va : Nat) :
    Option Status × State :=
  let r := s.readFolio k p.sigs tmpl 128
  match r.1 with
  | .error st => (some st, r.2)
  | .ok b =>
    let w := r.2.vaWrite none k.c va ((applyEp tmpl b ps).map (fun x => (x, false))) [.w]
    (if w.1.fault then some St.address else if w.1.uncorr then some St.uncorrectable else none, w.2.metCmd k false w.1.slow)

/-- Step 4 of R162 for every templated task, with its block's address; none for a task without a template. -/
def State.fillBlocks (s : State) (k : CmdKey) (base : Nat) (p : LaunchPlan) (ps : List (Nat × List Byte)) (blks : List Nat) :
    Option Status × List (Option Nat) × State :=
  let r := p.recs.foldl (fun (acc : (Option Status × List (Option Nat) × List Nat) × State) r =>
    match trTmpl r, acc.1.2.2 with
    | some t, blk :: rest =>
      if acc.1.1.isSome then acc
      else
        let x := acc.2.fillBlock k p ps t (base + 128 * blk)
        ((x.1, acc.1.2.1 ++ [some (base + 128 * blk)], rest), x.2)
    | _, l => ((acc.1.1, acc.1.2.1 ++ [none], l), acc.2)) ((none, [], blks), s)
  (r.1.1, r.1.2.1, r.2)

/-- Step 5 of R162: the tasks join the queues of their cores, in record order. -/
def State.dispatch (s : State) (k : CmdKey) (m : Cmd) (hd gen : Nat) (p : LaunchPlan) (vas : List (Option Nat)) : State :=
  (List.range p.recs.length).foldl (fun (s : State) i =>
    let r := (p.recs[i]?).getD []
    let t : TaskInfo := {
      key := k
      recNo := i
      handle := hd
      gen := gen
      codeOff := trCodeOff r
      codeLen := trCodeLen r
      argVa := ((vas[i]?).getD none).getD (trArgVa r)
      timeout := if trTimeout r = 0 then s.cmdTimeout k.c m.desc else trTimeout r
      seedInit := BitVec.ofNat 32 (trSeed r)
      opId := BitVec.ofNat 32 (fieldAt m.desc 4 4)
      depth := m.depth }
    s.modCore (trLcore r) (fun cs => { cs with queue := cs.queue ++ [t] })) s

/-- The selected core counters of a command's cores, as they stand (R351). -/
def State.coreCounters (s : State) (cores : NSet) : List (Nat × Nat × Nat) :=
  cores.flatMap (fun L => (List.range 8).map (fun i => (L, i, (Tab.get 0 (s.core L).evCtr i).toNat)))

/-- Steps 2 to 5 of R162, once the generation is bound and the cores are checked. -/
def State.launchTasks (s : State) (k : CmdKey) (m : Cmd) (hd gen : Nat) (p : LaunchPlan) (blks : List Nat) (ep : HostRead) :
    State :=
  let d := m.desc
  let n := fieldAt d 0x14 2
  let s := (s.modCtx k.c (fun x => { x with arenaUsed := NSet.union x.arenaUsed blks })).modCmd k
    (fun m => { m with arena := blks })
  let e := s.endpaper k (fieldAt d 0x18 8) n (fieldAt d 0x12 1 % 2 == 1) ep
  match e.1 with
  | .error st => e.2.failCmd k st 0
  | .ok b =>
    let l := e.2.epEntries k true p.sites b n
    match l.1 with
    | .error x => l.2.failCmd k x.1 x.2
    | .ok ps =>
      let f := l.2.fillBlocks k (s.ctx k.c).arenaBase.toNat p ps blks
      match f.1 with
      | some st => f.2.2.failCmd k st 0
      | none => (f.2.2.modCmd k (fun m => { m with tasksLeft := p.recs.length })).dispatch k m hd gen p f.2.1

/-- The generation that a launch binds has one more user (R164). -/
def Folio.bind (fo : Folio) : Folio :=
  let g : Generation := Tab.get ⟨[], 0⟩ fo.gens fo.current
  { fo with gens := Tab.put fo.gens fo.current { g with bound := g.bound + 1 } }

/-- The cores that the tasks of a plan name. -/
def LaunchPlan.cores (p : LaunchPlan) : NSet := (p.recs.map trLcore).foldl NSet.insert []

/-- A launch goes on with a generation whose tasks name only cores of the context's core set (R18, R159), all of them working (R276,
R278). -/
def State.launchOn (s : State) (k : CmdKey) (p : LaunchPlan) (go : State → State) : State :=
  if !p.recs.all (fun t => NSet.mem (s.ctx k.c).coreSet (trLcore t)) then s.failCmd k St.privilege 0
  else if p.recs.any (fun t => (s.core (trLcore t)).failed) then ({ s with rbd.role := 3 }).failCmd k St.partFault 0
  else go s

/-- Step 1 of R162, and the arena blocks of step 2: the generation is bound and the cores checked, and the launch goes on with its plan and its blocks, or ends with the status of Table 7.10 (R160). One with more endpaper
entries than 1024 has no other effect (R156). -/
def State.launchBind (s : State) (k : CmdKey) (m : Cmd) (go : Nat → LaunchPlan → List Nat → State → State) : State :=
  let d := m.desc
  let hd := fieldAt d 0x10 1
  let s := s.modCmd k (fun m => { m with handle := hd })
  match Tab.find (s.ctx k.c).folios hd with
  | none => s.failCmd k St.invalid 0
  | some fo =>
    if fo.closing.isSome ∨ (k.q = 15 ∧ fieldAt d 0x12 1 % 2 = 1) then s.failCmd k St.invalid 0
    else if 1024 < fieldAt d 0x14 2 then s.failCmd k St.endpaper 0
    else
      let s := (s.modCtx k.c (fun x => { x with folios := Tab.put x.folios hd fo.bind })).modCmd k
        (fun m => { m with gen := fo.current, bound := true })
      let r := s.launchPlan k fo (fieldAt d 0x11 1)
      match r.1 with
      | .error st => r.2.failCmd k st 0
      | .ok p =>
        let x := r.2.ctx k.c
        (r.2.modCmd k (fun m => { m with cores := p.cores })).launchOn k p (fun s =>
          if x.arenaBlocks < p.templated then s.failCmd k St.invalid 0
          else match x.freeBlocks p.templated with
            | none => s.failCmd k St.invalid 0
            | some blks => go fo.current p blks s)

/-- The start of a LAUNCH: it binds its generation and takes its arena blocks, in order of start (R162, R163). -/
def State.launchBegin (s : State) (k : CmdKey) (m : Cmd) : State :=
  s.launchBind k m (fun _ _ blks s =>
    (s.modCtx k.c (fun x => { x with arenaUsed := NSet.union x.arenaUsed blks })).modCmd k (fun m => { m with arena := blks }))

/-- The effect of LAUNCH (R160, R162, R278): it goes on with what it took at its start. -/
def fxLaunch (k : CmdKey) (ep : HostRead) (m : Cmd) (s : State) : State :=
  let hd := fieldAt m.desc 0x10 1
  if !m.bound then s.launchBind k m (fun g p blks s => s.launchTasks k m hd g p blks ep)
  else match Tab.find (s.ctx k.c).folios hd with
    | none => s.failCmd k St.invalid 0
    | some fo =>
      let r := s.launchPlan k { fo with current := m.gen } (fieldAt m.desc 0x11 1)
      match r.1 with
      | .error st => r.2.failCmd k st 0
      | .ok p => r.2.launchOn k p (fun s => s.launchTasks k m hd m.gen p m.arena ep)

/-- LAUNCH (R162); one that has not taken its arena blocks waits for room (R163). -/
def execLaunch (k : CmdKey) (ep : HostRead) (s : State) : Host.Outcome State Fault Refusal :=
  onKey k s (fun s => match s.findCmd k with
    | none => s
    | some m => if !m.bound && s.arenaWaits k.c m.desc then s else s.actCmd k 1 (fxLaunch k ep))

/-! ## FOLIO_PATCH (R164, R165) -/

/-- n free pages of a folio's pool. -/
def Folio.freePages (fo : Folio) (n : Nat) : Option (List Nat) :=
  let named := fo.gens.flatMap (fun g => g.2.sigs)
  let l := ((List.range (Nat.min fo.poolSigs (named.length + n))).filter (fun i =>
    !named.contains (fo.poolVa + 4096 * i))).take n
  if l.length = n then some (l.map (fun i => fo.poolVa + 4096 * i)) else none

/-- The signatures that an endpaper touches, in rising order. -/
def touched (ps : List (Nat × List Byte)) : NSet := (ps.map (fun p => p.1 / 4096)).foldl NSet.insert []

/-- Copy one signature into a page of the pool with the entries applied; poison moves with the bytes. -/
def State.patchSig (s : State) (k : CmdKey) (i src dst : Nat) (ps : List (Nat × List Byte)) : Option Status × Bool × State :=
  let r := s.vaRead k.c src 4096 [.r]
  if r.1.fault then (some St.address, false, r.2)
  else if r.1.uncorr then (some St.uncorrectable, false, r.2)
  else
    let b := applyEp (4096 * i) r.1.bytes ps
    let w := r.2.vaWrite none k.c dst (List.zip b r.1.pois) [.w]
    (if w.1.fault then some St.address else if w.1.uncorr then some St.uncorrectable else none, r.1.pois.any id,
      w.2.metCmd k r.1.corr (r.1.slow || w.1.slow))

/-- A patch does its own work: the checks of R165, the endpaper, the new signatures (R164). -/
def State.patchWork (s : State) (k : CmdKey) (m : Cmd) (fo : Folio) (ep : HostRead) : State :=
  let d := m.desc
  let n := fieldAt d 0x14 2
  let g := (fo.current + 1) % 256
  if 4 ≤ fo.gens.length ∨ Tab.has fo.gens g then s.failCmd k St.folioBusy 0
  else
    let p := s.launchPlan k fo 0
    match p.1 with
    | .error st => p.2.failCmd k st 0
    | .ok lp =>
      let e := p.2.endpaper k (fieldAt d 0x18 8) n (fieldAt d 0x12 1 % 2 == 1) ep
      match e.1 with
      | .error st => e.2.failCmd k st 0
      | .ok b =>
        let l := e.2.epEntries k false lp.sites b n
        match l.1 with
        | .error x => l.2.failCmd k x.1 x.2
        | .ok ps =>
          let ts := touched ps
          match fo.freePages ts.length with
          | none => l.2.failCmd k St.folioBusy 0
          | some pages =>
            let r := (List.zip ts pages).foldl (fun (acc : (Option Status × Bool × List Nat) × State) t =>
              if acc.1.1.isSome then acc
              else
                let x := acc.2.patchSig k t.1 ((lp.sigs[t.1]?).getD 0) t.2 ps
                ((x.1, acc.1.2.1 || x.2.1, acc.1.2.2.set t.1 t.2), x.2.2)) ((none, false, lp.sigs), l.2)
            match r.1.1 with
            | some st => r.2.failCmd k st 0
            | none =>
              let s := if r.1.2.1 then r.2.noteCmd k St.poison else r.2
              s.modCmd k (fun m => { m with gen := g, patch := some r.1.2.2, finished := true })

/-- The start of a FOLIO_PATCH: the folio is open and not closing (R160), and the patch takes its place among the patches of its folio, which
run in order of start (R164); one with more endpaper entries than 1024 has no other effect (R156). -/
def State.patchBegin (s : State) (k : CmdKey) (m : Cmd) : State :=
  let hd := fieldAt m.desc 0x10 1
  let s := s.modCmd k (fun m => { m with handle := hd })
  match Tab.find (s.ctx k.c).folios hd with
  | none => s.failCmd k St.invalid 0
  | some fo =>
    if fo.closing.isSome then s.failCmd k St.invalid 0
    else if 1024 < fieldAt m.desc 0x14 2 then s.failCmd k St.endpaper 0
    else
      (s.modCtx k.c (fun x => { x with folios := Tab.put x.folios hd { fo with patchers := fo.patchers ++ [k] } })).modCmd k
        (fun m => { m with bound := true })

/-- A patch that has its place works if no earlier patch of its folio runs (R164). -/
def State.patchTurn (s : State) (k : CmdKey) (ep : HostRead) : State :=
  match s.findCmd k with
  | none => s
  | some m =>
    match Tab.find (s.ctx k.c).folios m.handle with
    | none => s
    | some fo => if m.bound && !m.finished && !m.draining && fo.patchers.head? == some k then s.patchWork k m fo ep else s

/-- The effect of FOLIO_PATCH: with its place taken at its start, or now, it works or waits (R164). -/
def fxFolioPatch (k : CmdKey) (ep : HostRead) (m : Cmd) (s : State) : State :=
  (if m.bound then s else s.patchBegin k m).patchTurn k ep

/-- FOLIO_PATCH (R164). -/
def execFolioPatch (k : CmdKey) (ep : HostRead) (s : State) : Host.Outcome State Fault Refusal :=
  onKey k s (fun s => s.actCmd k 3 (fxFolioPatch k ep))

/-- The effect of FOLIO_PATCH_BEGIN: the patch that waited first is now the folio's running patch (R164, R165). -/
def fxFolioPatchBegin (k : CmdKey) (ep : HostRead) (s : State) : State :=
  match s.findCmd k with
  | none => s
  | some m => if s.alive && m.op == 3 && m.begun then s.patchTurn k ep else s

/-- FOLIO_PATCH_BEGIN (R164, R165). -/
def execFolioPatchBegin (k : CmdKey) (ep : HostRead) (s : State) : Host.Outcome State Fault Refusal :=
  onKey k s (fxFolioPatchBegin k ep)

/-! ## FOLIO_CLOSE (R160) and the end of a use of a folio -/

/-- Whether no launch holds a generation of a folio and no patch of it runs. -/
def Folio.idle (fo : Folio) : Bool := fo.gens.all (fun g => g.2.bound == 0) && fo.patchers.isEmpty

/-- A closing folio that is idle lets its FOLIO_CLOSE complete. -/
def State.closeIfIdle (s : State) (c hd : Nat) : State :=
  match Tab.find (s.ctx c).folios hd with
  | none => s
  | some fo =>
    match fo.closing with
    | some k => if fo.idle then s.modCmd k (fun m => { m with finished := true }) else s
    | none => s

/-- The effect of FOLIO_CLOSE; a handle that is not open is invalid (DEDUCED, log 3). -/
def fxFolioClose (k : CmdKey) (m : Cmd) (s : State) : State :=
  let hd := fieldAt m.desc 0x10 1
  let s := s.modCmd k (fun m => { m with handle := hd })
  match Tab.find (s.ctx k.c).folios hd with
  | none => s.failCmd k St.invalid 0
  | some fo =>
    if fo.closing.isSome then s.failCmd k St.invalid 0
    else (s.modCtx k.c (fun x => { x with folios := Tab.put x.folios hd { fo with closing := some k } })).closeIfIdle k.c hd

/-- FOLIO_CLOSE (R160). -/
def execFolioClose (k : CmdKey) (s : State) : Host.Outcome State Fault Refusal :=
  onKey k s (fun s => s.actCmd k 4 (fxFolioClose k))

/-- Generations that are neither current nor bound cease to be live (R165). -/
def Folio.prune (fo : Folio) : Folio :=
  { fo with gens := Tab.keep fo.gens (fun g x => g == fo.current || decide (0 < x.bound)) }

/-- What the end of a command does to its folio: a launch frees its generation and its arena, a patch makes its
generation current, a close removes the folio (R160, R163 to R165). -/
def State.releaseFolio (s : State) (m : Cmd) : State :=
  let k := m.key
  let s := s.modCtx k.c (fun x => { x with arenaUsed := x.arenaUsed.filter (fun b => !m.arena.contains b) })
  match Tab.find (s.ctx k.c).folios m.handle with
  | none => s
  | some fo =>
    if m.op = 1 ∧ m.bound then
      let g := Tab.get ⟨[], 0⟩ fo.gens m.gen
      let fo := ({ fo with gens := Tab.put fo.gens m.gen { g with bound := g.bound - 1 } }).prune
      (s.modCtx k.c (fun x => { x with folios := Tab.put x.folios m.handle fo })).closeIfIdle k.c m.handle
    else if m.op = 3 then
      let fo := { fo with patchers := fo.patchers.erase k }
      let fo := match m.patch with
        | some sigs => ({ fo with gens := Tab.put fo.gens m.gen ⟨sigs, 0⟩, current := m.gen }).prune
        | none => fo
      (s.modCtx k.c (fun x => { x with folios := Tab.put x.folios m.handle fo })).closeIfIdle k.c m.handle
    else if m.op = 4 ∧ fo.closing = some k then
      (if fo.idle then s.modCtx k.c (fun x => { x with folios := Tab.del x.folios m.handle })
       else s.modCtx k.c (fun x => { x with folios := Tab.put x.folios m.handle { fo with closing := none } }))
    else s

end Sys2Proof.Machine
end

