-- ==== Sys2Proof/Machine/Rings.lean ====
section
/-! DEFINITION. The command front end's rings (R150 to R157, R168, R171, R172): doorbells, fetch, start, completion, and the
idle gate of the fetch unit. -/

namespace Sys2Proof.Machine
open Sys2Proof

/-! ## Context-window writes -/

/-- Whether a context's function is enabled (R17). -/
def State.vfOn (s : State) (c : Nat) : Bool := c == 0 || decide (c ≤ s.sys.numVfs)

/-- Whether BAR0 writes to a context window take effect: the module has power and is out of reset and safe hold, and the PCIe
link is up (R284, R315, R373, R377). -/
def State.barUp (s : State) : Bool := s.alive && s.sys.linkUp

/-- A ring's register write takes effect. -/
def State.ringWrite (s : State) (c n : Nat) (g : Ring → Ring) : State :=
  if s.barUp then (s.modRing c n g).wakeBy 2 else s

/-- The effect of DOORBELL (R152). -/
def fxDoorbell (c n : Nat) (v : BitVec 32) (s : State) : State :=
  let r := s.ring c n
  if !s.barUp then s
  else if r.enable && s.vfOn c && decide ((r.tail - r.head).toNat ≤ (v - r.head).toNat)
      && decide ((v - r.head).toNat ≤ 2 ^ r.log2) then
    ((s.modRing c n (fun r => { r with tail := v })).dbSeen c).wakeBy 1
  else (s.modRing c n (fun r => { r with dbErr := true, dbErrs := r.dbErrs + 1 })).wakeBy 1

/-- DOORBELL (R152). -/
def execDoorbell (c ring : Nat) (v : BitVec 32) (s : State) : Host.Outcome State Fault Refusal :=
  onRing c ring s (fxDoorbell c ring v)

/-- CPL_DOORBELL (R157). -/
def execCplDoorbell (c ring : Nat) (v : BitVec 32) (s : State) : Host.Outcome State Fault Refusal :=
  onRing c ring s (fun s => s.ringWrite c ring (fun r => { r with cplHead := v }))

/-- Fields of CFE_RING_CFG (Table 7.2). -/
def cfgLog2 (v : BitVec 32) : Nat := bits v 4 0
def cfgCplLog2 (v : BitVec 32) : Nat := bits v 12 8
def cfgEnable (v : BitVec 32) : Bool := v.getLsbD 16
def cfgVector (v : BitVec 32) : BitVec 11 := BitVec.ofNat 11 (bits v 31 21)

/-- Whether a ring may be enabled with these sizes (R151, R155). -/
def Ring.canEnable (r : Ring) (v : BitVec 32) : Bool :=
  decide (6 ≤ cfgLog2 v ∧ cfgLog2 v ≤ 16) && decide (6 ≤ cfgCplLog2 v ∧ cfgCplLog2 v ≤ 16) && !r.draining
    && r.base.toNat % Nat.max 4096 (64 * 2 ^ cfgLog2 v) == 0 && r.cplBase.toNat % Nat.max 4096 (64 * 2 ^ cfgCplLog2 v) == 0

/-- A write of CFE_RING_CFG with ENABLE = 1 (R155): on an enabled ring only the vector changes. -/
def Ring.enabled (r : Ring) (v : BitVec 32) : Ring :=
  if r.enable then { r with vector := cfgVector v }
  else if !r.canEnable v then { r with cfgErr := true }
  else { r with
    log2 := cfgLog2 v
    cplLog2 := cfgCplLog2 v
    enable := true
    vector := cfgVector v
    head := 0
    tail := 0
    cplHead := 0
    cplTail := 0
    phase := true
    fetchStop := false
    cplStop := false
    fetched := [] }

/-- RING_ENABLE (R155): the write of a value whose ENABLE bit is 1. -/
def execRingEnable (c ring : Nat) (v : BitVec 32) (s : State) : Host.Outcome State Fault Refusal :=
  onRing c ring s (fun s => if cfgEnable v then s.ringWrite c ring (fun r => r.enabled v) else s)

/-- The completion ring that a command's record goes to (R154). -/
def CtxState.cplRing (x : CtxState) (k : CmdKey) : Nat := if k.q = 15 then x.dqCplRing else k.q

/-- A command that never started, as it waits for its record. -/
def cancelledCmd (k : CmdKey) (d : List Byte) (ts : BitVec 64) : Cmd :=
  { key := k
    desc := d
    tStart := ts
    depth := 0
    gen := 0
    penGen := none
    handle := 0
    conds := [(St.cancelled, 0)]
    tasksLeft := 0
    cores := []
    arena := []
    flags := 0
    begun := true
    finished := true
    draining := false
    bound := false
    patch := none
    cplMap := 0
    coreStart := []
    dieStart := [] }

/-- A ring whose disable has nothing left to wait for stops draining (R171). -/
def State.drainDone (s : State) (c n : Nat) : State :=
  let x := s.ctx c
  if (x.ring n).draining && !x.started.any (fun m => x.cplRing m.key == n)
  then s.modRing c n (fun r => { r with draining := false }) else s

/-- The effect of RING_DISABLE (R171): fetched commands that have not started end with CANCELLED_DISABLED; on a ring that
is not enabled the write sets the fields. -/
def fxRingDisable (c n : Nat) (v : BitVec 32) (s : State) : State :=
  let r := s.ring c n
  if cfgEnable v || !s.barUp then s
  else if !r.enable then s.modRing c n (fun r => { r with
      log2 := cfgLog2 v, cplLog2 := cfgCplLog2 v, vector := cfgVector v })
  else
    let dead := r.fetched.map (fun e => cancelledCmd ⟨c, n, e.1.toNat⟩ e.2 s.sys.ts)
    let s := s.modCtx c (fun x => { x with started := x.started ++ dead })
    (s.modRing c n (fun r => { r with
      enable := false, draining := true, killed := false, fetched := [], vector := cfgVector v })).drainDone c n

/-- RING_DISABLE (R171). -/
def execRingDisable (c ring : Nat) (v : BitVec 32) (s : State) : Host.Outcome State Fault Refusal :=
  onRing c ring s (fun s => (fxRingDisable c ring v s).wakeBy 2)

/-- CFE_CTX_CFG (R155). -/
def execCfeCtxCfg (c : Nat) (v : BitVec 32) (s : State) : Host.Outcome State Fault Refusal :=
  onCtx c s (fun s =>
    if !s.barUp then s
    else
      let t := bits v 14 0
      (s.modCtx c (fun x => if t = 0 ∨ 16777 < t then { x with ctxCfgErr := true }
        else { x with cfgTimeout := t, dqCplRing := bits v 17 16 })).wakeBy 2)

/-! ## Fetch (R153) -/

/-- Whether the front end of a context acts: the module works, the fetch unit is not gated, the function is enabled. -/
def State.feOn (s : State) (c : Nat) : Bool := s.works && !(s.fe (c % 4)).gated && s.vfOn c

/-- The effect of RING_FETCH: a batch of up to 8 slots past HEAD, or a stop with FETCH_FAULT. -/
def fxRingFetch (c n : Nat) (h : HostRead) (s : State) : State :=
  let r := s.ring c n
  if !s.feOn c || !r.enable || r.fetchStop || r.tail == r.head then s
  else match h with
    | .data bs =>
      let k := Nat.min (Nat.min 8 (r.tail - r.head).toNat) (bs.length / 64)
      s.modRing c n (fun r => { r with
        head := r.head + BitVec.ofNat 32 k
        fetched := r.fetched ++ (List.range k).map (fun i => (r.head + BitVec.ofNat 32 i, sliceAt bs (64 * i) 64)) })
    | _ => s.modRing c n (fun r => { r with fetchFault := true, fetchStop := true })

/-- RING_FETCH (R153). -/
def execRingFetch (c ring : Nat) (r : HostRead) (s : State) : Host.Outcome State Fault Refusal :=
  onRing c ring s (fxRingFetch c ring r)

/-! ## Descriptors (R156, Tables 7.4 to 7.6) -/

def dField (d : List Byte) (o n : Nat) : Nat := fieldAt d o n
/-- Bytes [o, 0x40) of a descriptor are 0. -/
def zeroFrom (d : List Byte) (o : Nat) : Bool := (d.drop o).all (· == 0)

/-- Whether an opcode is permitted from a queue (Table 7.5). -/
def opPermitted (q op : Nat) : Bool := if q = 15 then op == 0 || op == 1 || op == 6 || op == 7 || op == 8 else decide (op ≤ 8)

/-- Endpaper fields: EP_ADDR is 16 B aligned unless EP_COUNT is 0. -/
def epOk (d : List Byte) : Bool :=
  decide (dField d 0x12 1 ≤ 1) && dField d 0x13 1 == 0 && dField d 0x16 2 == 0 && zeroFrom d 0x20
    && (dField d 0x14 2 == 0 || dField d 0x18 8 % 16 == 0)

/-- The payload of an opcode holds only permitted values (Table 7.6). -/
def payloadOk (op : Nat) (d : List Byte) : Bool :=
  match op with
  | 0 => zeroFrom d 0x10
  | 1 => epOk d
  | 2 => dField d 0x11 7 == 0 && dField d 0x18 8 % 4096 == 0 && dField d 0x20 8 % 4096 == 0 && zeroFrom d 0x2C
  | 3 => dField d 0x11 1 == 0 && epOk d
  | 4 => zeroFrom d 0x11
  | 5 => decide (dField d 0x10 4 ≤ 2) && dField d 0x14 4 != 0 && zeroFrom d 0x28
  | 6 => decide (dField d 0x10 4 < 2 ^ 20) && dField d 0x14 4 / 2 ^ 17 % 2 ^ 14 == 0
      && (dField d 0x14 4 / 2 ^ 31 == 0 || dField d 0x14 4 % 2 ^ 17 == 0) && zeroFrom d 0x1E
  | 7 => decide (dField d 0x10 4 < 2 ^ 20) && decide (dField d 0x14 4 ≤ 1) && zeroFrom d 0x18
  | 8 => dField d 0x10 8 == 0 && dField d 0x18 8 % 64 == 0 && zeroFrom d 0x20
  | _ => false

/-- Whether a descriptor of a queue is valid (R156). -/
def descOk (q : Nat) (d : List Byte) : Bool :=
  let op := dField d 0 1
  opPermitted q op && decide (dField d 1 1 < 8) && dField d 2 2 == 0 && dField d 0x0B 1 == 0 && payloadOk op d

/-! ## Start (R154) -/

/-- The head of a queue that has not started: its index, depth and descriptor. -/
def CtxState.headOf (x : CtxState) (q : Nat) : Option (BitVec 32 × Nat × List Byte) :=
  if q = 15 then x.dq.head? else ((x.ring q).fetched.head?).map (fun e => (e.1, 0, e.2))

/-- Records of ring n reserved or not yet consumed (R154). -/
def CtxState.reserved (x : CtxState) (n : Nat) : Nat :=
  (x.started.filter (fun m => x.cplRing m.key == n)).length + ((x.ring n).cplTail - (x.ring n).cplHead).toNat

/-- WAIT commands that have started at a front end and have not completed (R183); what was cancelled before its start has latched no
counters (R351). -/
def State.waitsAt (s : State) (iod : Nat) : Nat :=
  ((s.ctxs.filter (fun e => e.1 % 4 == iod)).map (fun e =>
    (e.2.started.filter (fun m => m.op == 7 && !m.dieStart.isEmpty)).length)).sum

/-- Whether queue q of context c can start its next command (R154, R163, R190, R286, R287). -/
def State.startable (s : State) (c q : Nat) : Bool :=
  let x := s.ctx c
  let n := x.cplRing ⟨c, q, 0⟩
  match x.headOf q with
  | none => false
  | some e =>
    let d := e.2.2
    s.feOn c && !x.halted && !x.stopped && (x.ring n).enable && !(x.ring n).cplStop
      && decide (x.reserved n < 2 ^ (x.ring n).cplLog2)
      && (dField d 1 1 % 2 == 0 || !x.started.any (fun m => m.key.q == q))
      && !(descOk q d && dField d 0 1 == 1 && s.arenaWaits c d)
      && !(descOk q d && dField d 0 1 == 7 && decide (64 ≤ s.waitsAt (c % 4)))

/-- The queues of a context in the order of R154. -/
def queueOrder : List Nat := [15, 0, 1, 2, 3]

/-- A list from the place after x on, then from its beginning. -/
def rotateAfter (l : List Nat) (x : Nat) : List Nat :=
  let i := l.idxOf x + 1
  l.drop i ++ l.take i

/-- The queue whose turn it is, round-robin over the four contexts and within each over its five queues (R154). -/
def State.nextQueue (s : State) (iod : Nat) : Option (Nat × Nat) :=
  let fe := s.fe iod
  (rotateAfter [iod, iod + 4, iod + 8, iod + 12] fe.rrCtx).findSome? (fun c =>
    ((rotateAfter queueOrder (Tab.get 3 fe.rrQueue c)).find? (fun q => s.startable c q)).map (fun q => (c, q)))

/-- The private copies of D0 to D3 of every die for a context (R348, R351). -/
def State.dieCounters (s : State) (c : Nat) : List (Nat × Nat × Nat) :=
  (List.range 12).flatMap (fun d => (List.range 4).map (fun i => (d, i, (Tab.get 0 s.obs.priv ((c * 12 + d) * 4 + i)).toNat)))

/-- The generation that a translation entry holds now (R190). -/
def State.entryGen (s : State) (c id : Nat) : Option (BitVec 8) × State :=
  let e := s.penEntry c id
  (e.1.map (fun v => BitVec.ofNat 8 (peGen v)), e.2)

/-- What a command takes at its start: a LAUNCH its generation and its arena blocks, so that the arena goes in order of start (R162, R163);
a FOLIO_PATCH its place (R164); a HOIST of this module and a WAIT the generation of the pennant (R190). -/
def State.atStart (s : State) (k : CmdKey) (m : Cmd) : State :=
  if m.op = 1 then s.launchBegin k m
  else if m.op = 3 then s.patchBegin k m
  else if m.op = 7 ∨ (m.op = 6 ∧ dField m.desc 0x14 4 / 2 ^ 31 = 1) then
    let g := s.entryGen k.c (dField m.desc 0x10 4)
    g.2.modCmd k (fun m => { m with penGen := g.1 })
  else s

/-- The head of queue q of context c starts: an invalid descriptor ends at once (R156), and any other command takes what its start gives it. -/
def State.startCmd (s : State) (c q : Nat) : State :=
  let x := s.ctx c
  match x.headOf q with
  | none => s
  | some e =>
    let k : CmdKey := ⟨c, q, e.1.toNat⟩
    let bad := !descOk q e.2.2
    let m : Cmd := { cancelledCmd k e.2.2 s.sys.ts with
      depth := e.2.1
      conds := if bad then [(St.invalid, 0)] else []
      begun := bad
      finished := bad
      cplMap := x.cplMap
      coreStart := if dField e.2.2 0 1 = 1 then s.coreCounters (s.ctx c).coreSet else []
      dieStart := s.dieCounters c }
    let s := s.modCtx c (fun x => { x with started := x.started ++ [m] })
    let s := if q = 15 then s.modCtx c (fun x => { x with dq := x.dq.drop 1, dqHead := x.dqHead + 1 })
      else s.modRing c q (fun r => { r with fetched := r.fetched.drop 1 })
    let s := s.modFe (c % 4) (fun fe => { fe with rrCtx := c, rrQueue := Tab.put fe.rrQueue c q })
    let s := (s.dieEvent (8 + c % 4) 0x6E 1 (some c)).progress c
    if bad then s else s.atStart k m

/-- COMMAND_START (R154): one start of a front end's turn. -/
def execCommandStart (iod : Nat) (s : State) : Host.Outcome State Fault Refusal :=
  onIod iod s (fun s => match s.nextQueue iod with
    | none => s
    | some cq => s.startCmd cq.1 cq.2)

/-! ## Simple commands -/

/-- NOP (R156). -/
def execNop (k : CmdKey) (s : State) : Host.Outcome State Fault Refusal :=
  onKey k s (fun s => s.actCmd k 0 (fun _ s => s.endCmd k St.ok))

/-- Where a copy's bytes come from (R168, R275). -/
def State.copyFrom (s : State) (k : CmdKey) (dir n va : Nat) (h : HostRead) : Except Status (List (Byte × Bool)) × Bool × State :=
  if dir = 0 then
    match h with
    | .data b => (.ok ((sliceAt b 0 n).map (fun x => (x, false))), false, s)
    | .poisoned => (.ok ((List.replicate n 0).map (fun x => (x, true))), false, s)
    | .error => (.error St.address, false, s)
  else
    let r := s.vaRead k.c va n [.r]
    if r.1.fault then (.error St.address, false, r.2) else (.ok (List.zip r.1.bytes r.1.pois), r.1.uncorr, r.2.metCmd k r.1.corr r.1.slow)

/-- The effect of COPY: poison moves with the bytes and is reported; a poisoned completion of the host poisons what it
was to write (R168, R275; the bytes of poisoned data are free, log 14). -/
def fxCopy (k : CmdKey) (h : HostRead) (m : Cmd) (s : State) : State :=
  let dir := dField m.desc 0x10 1 % 4
  let n := dField m.desc 0x14 4
  let src := dField m.desc 0x18 8
  let dst := dField m.desc 0x20 8
  let a := s.copyFrom k dir n src h
  match a.1 with
  | .error st => a.2.2.failCmd k st 0
  | .ok bs =>
    let s := if bs.any (·.2) then a.2.2.noteCmd k St.poison else a.2.2
    let s := if a.2.1 then s.noteCmd k St.uncorrectable else s
    if dir = 1 then (s.emit (.hostWrite k.c dst (bs.map (·.1)))).endCmd k St.ok
    else
      let w := s.vaWrite none k.c dst bs [.w]
      let t := w.2.metCmd k false w.1.slow
      if w.1.fault then t.failCmd k St.address 0
      else t.endCmd k (if w.1.uncorr then St.uncorrectable else St.ok)

/-- COPY (R168). -/
def execCopy (k : CmdKey) (src : HostRead) (s : State) : Host.Outcome State Fault Refusal :=
  onKey k s (fun s => s.actCmd k 5 (fxCopy k src))

/-- The effect of HOIST: a local hoist uses the entry's generation at the start, a remote one that at the destination
(R190). -/
def fxHoist (k : CmdKey) (m : Cmd) (s : State) : State :=
  let id := dField m.desc 0x10 4
  let v := BitVec.ofNat 48 (dField m.desc 0x18 6)
  if dField m.desc 0x14 4 / 2 ^ 31 = 1 then { s with pen.msgs := s.pen.msgs ++ [⟨k.c, id, m.penGen, .cmd k, .hoist v false⟩] }
  else
    let p : PenMsg := ⟨k.c, id, none, .cmd k, .send (dField m.desc 0x14 4 % 2 ^ 17) v false⟩
    { s with pen.msgs := s.pen.msgs ++ [p] }

/-- HOIST (R190). -/
def execHoist (k : CmdKey) (s : State) : Host.Outcome State Fault Refusal := onKey k s (fun s => s.actCmd k 6 (fxHoist k))

/-- The effect of WAIT: a strike or a watch of amount 1 (R190). -/
def fxWait (k : CmdKey) (m : Cmd) (s : State) : State :=
  let id := dField m.desc 0x10 4
  let op := if dField m.desc 0x14 1 % 2 = 0 then PenOp.strike 1 none 0 else PenOp.watch 1 none 0
  { s with pen.msgs := s.pen.msgs ++ [⟨k.c, id, m.penGen, .cmd k, op⟩] }

/-- WAIT (R190). -/
def execWait (k : CmdKey) (s : State) : Host.Outcome State Fault Refusal := onKey k s (fun s => s.actCmd k 7 (fxWait k))

/-! ## Completion (R157, R351) -/

/-- One delta: the sum over the command's units, modulo 2^48, saturated (R351). -/
def deltaOf (start now : List (Nat × Nat × Nat)) (i : Nat) : Nat :=
  let one := fun (e : Nat × Nat × Nat) =>
    match now.find? (fun f => f.1 == e.1 && f.2.1 == i) with
    | some f => (f.2.2 + 2 ^ 48 - e.2.2) % 2 ^ 48
    | none => 0
  Nat.min ((start.filter (fun e => e.2.1 == i)).map one).sum (2 ^ 32 - 1)

/-- The six deltas of a command. -/
def State.deltas (s : State) (m : Cmd) : List Nat :=
  (List.range 6).map (fun j =>
    let f := nbits m.cplMap.toNat (5 * j + 4) (5 * j)
    if f < 8 then deltaOf m.coreStart (s.coreCounters m.cores) f
    else if 16 ≤ f ∧ f < 20 then deltaOf m.dieStart (s.dieCounters m.key.c) (f - 16)
    else 0)

/-- The record of a command (Table 7.7): DEPTH is that of a LAUNCH, HANDLE that of a folio command or LAUNCH, whether or not it
began (DEDUCED, log 3). -/
def State.recordOf (s : State) (m : Cmd) (st : Status) (detail : BitVec 32) (phase : Bool) : List Byte :=
  natLe 2 st.toNat ++ natLe 1 m.key.q ++ natLe 1 (bit phase + 2 * m.flags.toNat) ++ natLe 4 m.key.idx
    ++ natLe 4 (dField m.desc 0x0C 4) ++ natLe 4 (dField m.desc 4 4) ++ natLe 8 m.tStart.toNat ++ natLe 8 s.sys.ts.toNat
    ++ natLe 1 m.gen ++ natLe 1 (if dField m.desc 0 1 = 1 then m.depth else 0)
    ++ natLe 1 (if decide (1 ≤ dField m.desc 0 1) && decide (dField m.desc 0 1 ≤ 4) then dField m.desc 0x10 1 else 0) ++ [0] ++ natLe 4 detail.toNat
    ++ (s.deltas m).flatMap (natLe 4)

/-- The status and DETAIL of a command's conditions (R9, R162). -/
def Cmd.status (m : Cmd) : Status × BitVec 32 := firstCond (·.1) (St.ok, 0) m.conds

/-- Write the record of a command to its completion ring; a write that fails sets CPL_FAULT (R157, Table 7.3). -/
def State.writeRecord (s : State) (m : Cmd) (wrOk : Bool) : State :=
  let c := m.key.c
  let n := (s.ctx c).cplRing m.key
  let r := s.ring c n
  let st := m.status
  if dField m.desc 1 1 / 4 % 2 = 1 ∧ st.1 = St.ok then s
  else if !wrOk then s.modRing c n (fun r => { r with cplFault := true, cplStop := true })
  else
    let size := 2 ^ r.cplLog2
    let a := r.cplBase.toNat + 64 * (r.cplTail.toNat % size)
    let b := s.recordOf m st.1 st.2 r.phase
    let s := (s.emit (.hostWrite c (a + 8) (b.drop 8))).emit (.hostWrite c a (b.take 8))
    let s := s.modRing c n (fun r => { r with
      cplTail := r.cplTail + 1
      phase := if (r.cplTail.toNat + 1) % size = 0 then !r.phase else r.phase })
    if dField m.desc 1 1 / 2 % 2 = 1 then s.emit (.msix c r.vector.toNat) else s

/-- A command has completed: its record, and what its end frees. -/
def State.completeCmd (s : State) (m : Cmd) (wrOk : Bool) : State :=
  let c := m.key.c
  let n := (s.ctx c).cplRing m.key
  let was := s.moduleBlocked
  let s := (s.writeRecord m wrOk).releaseFolio m
  ((s.modCtx c (fun x => { x with started := x.started.filter (fun x => x.key != m.key) })).drainDone c n).enterModule was

/-- COMMAND_COMPLETE (R154, R157). -/
def execCommandComplete (k : CmdKey) (wrOk : Bool) (s : State) : Host.Outcome State Fault Refusal :=
  onKey k s (fun s => match s.findCmd k with
    | none => s
    | some m => if s.alive && m.finished then s.completeCmd m wrOk else s)

/-! ## The idle gate of the fetch unit (R172) -/

/-- Whether none of the 20 queues of a front end has a command to fetch or start: every tail equals its head (Table 7.13). -/
def State.queuesEmpty (s : State) (iod : Nat) : Bool :=
  [iod, iod + 4, iod + 8, iod + 12].all (fun c =>
    let x := s.ctx c
    x.dq.isEmpty && (List.range 4).all (fun n =>
      let r := x.ring n
      r.fetched.isEmpty && r.tail == r.head))

/-- The effect of FETCH_IDLE_ENTRY: a doorbell that takes effect in cycle d of Table 7.13 aborts the entry when d ≤ 6, and
is a wake request when d = 7 (Table 7.14). -/
def fxFetchIdleEntry (iod : Nat) (db : Option Nat) (s : State) : State :=
  if !s.alive || (s.fe iod).gated || !s.queuesEmpty iod then s
  else match db with
    | none => s.modFe iod (fun fe => { fe with gated := true, dbSeen := false, waking := false })
    | some d =>
      if d ≤ 6 then s else s.modFe iod (fun fe => { fe with gated := true, dbSeen := d == 7, waking := false })

/-- FETCH_IDLE_ENTRY (R172); in host-assisted mode only a write of 1 to 0x2100:03 enters (Table 14.9). -/
def execFetchIdleEntry (iod : Nat) (db : Option Nat) (s : State) : Host.Outcome State Fault Refusal :=
  onIod iod s (fun s => if s.obj 0x2100 2 = 2 then s else fxFetchIdleEntry iod db s)

/-- FETCH_WAKE (R172). -/
def execFetchWake (iod : Nat) (s : State) : Host.Outcome State Fault Refusal :=
  onIod iod s (fun s => if (s.fe iod).gated && (s.fe iod).dbSeen then s.modFe iod (fun fe => { fe with waking := true }) else s)

/-- FETCH_GATE_REOPEN (R172). -/
def execFetchGateReopen (iod : Nat) (s : State) : Host.Outcome State Fault Refusal :=
  onIod iod s (fun s => if (s.fe iod).waking then
    s.modFe iod (fun fe => { fe with gated := false, dbSeen := false, waking := false }) else s)

/-! ## Status registers (Table 7.3) -/

/-- CFE_RING_STATUS. -/
def Ring.status (r : Ring) : Nat :=
  bit (r.enable && !r.fetchStop) + 2 * bit r.dbErr + 4 * bit r.fetchFault + 8 * bit r.cplFault + 16 * bit r.draining
    + 32 * bit r.killed + 64 * bit r.cfgErr

/-- CFE_RING_CFG as a word (Table 7.2). -/
def Ring.cfgWord (r : Ring) : BitVec 32 :=
  BitVec.ofNat 32 (r.log2 + 2 ^ 8 * r.cplLog2 + 2 ^ 16 * bit r.enable + 2 ^ 21 * r.vector.toNat)

/-- The low or high half of a 64-bit register whose offset is a multiple of 8. -/
def half (o : Nat) (v : BitVec 64) : BitVec 32 := if o % 8 = 0 then v.setWidth 32 else (v >>> 32).setWidth 32

/-- A register of ring n at offset r of its block (Table 7.1). -/
def Ring.reg (r : Ring) (o : Nat) : BitVec 32 :=
  match o with
  | 0x00 | 0x04 => half o r.base
  | 0x08 => r.cfgWord
  | 0x0C => BitVec.ofNat 32 r.status
  | 0x10 => r.head
  | 0x14 => r.tail
  | 0x18 | 0x1C => half o r.cplBase
  | 0x20 => r.cplHead
  | 0x24 => r.cplTail
  | _ => 0

/-- CFE_CTX_STATUS of context c. -/
def State.ctxStatus (s : State) (c : Nat) : Nat :=
  let x := s.ctx c
  let dmax := ((x.started.filter (fun m => m.op == 1)).map (·.depth)).foldl Nat.max 0
  bit x.resetSeen + 2 * bit (s.fe (c % 4)).gated + 4 * bit (decide (4096 ≤ x.dq.length)) + 8 * bit x.ctxCfgErr
    + 256 * dmax + 2 ^ 16 * x.dq.length

end Sys2Proof.Machine
end

