-- ==== Sys2Proof/Machine/CollBase.lean ====
section
/-! DEFINITION. What the collective engines share (R224 to R241): descriptors, wire formats, the reduction of R229, packets
between members, and the end of a collective. -/

namespace Sys2Proof.Machine
open Sys2Proof

/-! ## Descriptors (Tables 10.1 to 10.3) -/

/-- Read a collective descriptor. -/
def collDesc (b : List Byte) : CollDesc :=
  { op := fieldAt b 0 1
    redOp := fieldAt b 1 1 % 4
    mtype := fieldAt b 2 1 % 16
    wtype := fieldAt b 2 1 / 16
    dtype := fieldAt b 3 1 % 16
    epoch := BitVec.ofNat 16 (fieldAt b 4 2)
    id := fieldAt b 8 4
    done := BitVec.ofNat 28 (fieldAt b 0x0C 4)
    doneEn := fieldAt b 0x0C 4 / 2 ^ 31 == 1
    srcVa := fieldAt b 0x10 8
    dstVa := fieldAt b 0x18 8
    count := fieldAt b 0x20 8
    groupVa := fieldAt b 0x28 8
    g := (List.range 4).map (fun i => fieldAt b (0x30 + 4 * i) 4)
    spec := b.drop 0x40 }

/-- The member count: the product of the factors. -/
def CollDesc.n (d : CollDesc) : Nat := d.g.foldl (· * ·) 1

/-- Bytes of an element type: BF16 or FP32. -/
def typeSize (t : Nat) : Nat := if t = 4 then 2 else 4
def typeFmt (t : Nat) : Fp.Fmt := if t = 4 then Fp.bf16 else Fp.fp32
def typeOk (t : Nat) : Bool := t == 4 || t == 6

/-- Wire formats that an operation permits (Table 10.2). -/
def wireOk (op w : Nat) : Bool :=
  if op = 1 ∨ op = 3 ∨ op = 4 then decide (w ≤ 3)
  else if op = 2 ∨ op = 6 then decide (w ≤ 4)
  else if op = 5 ∨ op = 0x11 then decide (w ≤ 1)
  else if op = 7 ∨ op = 0x20 then w == 0
  else if op = 0x10 then decide (1 ≤ w) && decide (w ≤ 3)
  else false

/-- Bytes of the operation-specific part from offset o of the descriptor are 0. -/
def specZero (b : List Byte) (o n : Nat) : Bool := ((b.drop o).take n).all (· == 0)

/-- The operation-specific part holds only permitted values (Tables 10.3, 10.6). -/
def specOk (d : CollDesc) (b : List Byte) : Bool :=
  let w := fieldAt b 0x44 4
  let gn := w / 2 ^ 12 % 2 == 1
  match d.op with
  | 1 => decide (w < 2 ^ 14) && specZero b 0x58 40
      && (!gn || (d.redOp == 0 && decide (fieldAt b 0x48 4 < fieldAt b 0x4C 4) && fieldAt b 0x50 8 % 64 == 0))
  | 3 => decide (w < 2 ^ 13) && specZero b 0x58 40
      && (!gn || (d.redOp == 0 && decide (fieldAt b 0x48 4 < fieldAt b 0x4C 4) && fieldAt b 0x50 8 % 64 == 0))
  | 2 => decide (fieldAt b 0x40 4 < 4) && w == 0 && specZero b 0x50 48
  | 4 => specZero b 0x40 64
  | 5 => specZero b 0x60 32
  | 6 => decide (fieldAt b 0x40 4 < d.n) && specZero b 0x44 60
  | 7 => decide (fieldAt b 0x40 4 < d.n) && specZero b 0x44 60
  | 0x20 => specZero b 0x40 64
  | _ =>
    let k := fieldAt b 0x46 1 % 16
    let kc := fieldAt b 0x46 1 / 16
    let t := fieldAt b 0x40 4
    let e := fieldAt b 0x44 2
    decide (1 ≤ t ∧ t ≤ 1048576) && decide (32 ≤ e ∧ e ≤ 65504) && e % 32 == 0 && decide (1 ≤ k ∧ k ≤ kc ∧ kc ≤ 8)
      && decide (fieldAt b 0x47 1 < 8) && decide (1 ≤ fieldAt b 0x48 4 ∧ fieldAt b 0x48 4 ≤ 65536)
      && decide (1 ≤ fieldAt b 0x4C 4 ∧ fieldAt b 0x4C 4 ≤ 65536) && decide (fieldAt b 0x78 4 < 2 ^ 28)
      && decide (fieldAt b 0x7C 4 < 2 ^ 17)

/-- Whether an operation exists. -/
def collOp (op : Nat) : Bool := (decide (1 ≤ op) && decide (op ≤ 7)) || op == 0x10 || op == 0x11 || op == 0x20

/-- The checks of R226 on the bytes of a descriptor. -/
def collDescOk (b : List Byte) : Bool :=
  let d := collDesc b
  let reshard := d.op == 0x20
  collOp d.op && fieldAt b 1 1 / 4 == 0 && decide (d.redOp ≤ 2) && (d.op == 1 || d.op == 3 || d.redOp == 0)
    && fieldAt b 3 1 / 16 == 0 && fieldAt b 6 2 == 0 && fieldAt b 0x0C 4 / 2 ^ 28 % 8 == 0
    && typeOk d.mtype && typeOk d.dtype && (reshard || (decide (1 ≤ d.count) && decide (d.count ≤ 2 ^ 40)))
    && wireOk d.op d.wtype && (d.wtype ≤ 1 || d.count % 32 == 0)
    && (d.op != 7 || (d.mtype == 6 && d.dtype == 6))
    && d.g.all (fun x => decide (1 ≤ x ∧ x ≤ 131072)) && decide (d.n ≤ 131072) && specOk d b

/-- Fields of the operation-specific part. -/
def CollDesc.f (d : CollDesc) (o n : Nat) : Nat := fieldAt d.spec (o - 0x40) n
def CollDesc.postScale (d : CollDesc) : Nat := d.f 0x40 4
def CollDesc.pgroup (d : CollDesc) : Nat := d.f 0x44 4 % 4096
def CollDesc.gnEn (d : CollDesc) : Bool := (d.op == 1 || d.op == 3) && d.f 0x44 4 / 2 ^ 12 % 2 == 1
def CollDesc.updEn (d : CollDesc) : Bool := d.op == 1 && d.f 0x44 4 / 2 ^ 13 % 2 == 1

/-! ## Runs -/

/-- The running collective of a key. -/
def State.findRun (s : State) (k : CollKey) : Option CollRun := s.coll.runs.find? (fun r => r.key.c == k.c && r.d.id == k.id)

/-- Change the running collective of a key. -/
def State.modRun (s : State) (k : CollKey) (g : CollRun → CollRun) : State :=
  { s with coll.runs := s.coll.runs.map (fun r => if r.key.c = k.c ∧ r.d.id = k.id then g r else r) }

def CollRun.ck (r : CollRun) : CollKey := ⟨r.key.c, r.d.id⟩

/-- The place of member m in coordinate i of the group's grid. -/
def gridPos (g : List Nat) (m i : Nat) : Nat := m / (g.take i).foldl (· * ·) 1 % (g[i]?).getD 1

/-- Members that differ from this one in coordinate i alone. -/
def CollRun.line (r : CollRun) (i : Nat) : List Nat :=
  (List.range r.d.n).filter (fun m => m != r.me && (List.range 4).all (fun j =>
    j == i || gridPos r.d.g m j == gridPos r.d.g r.me j))

/-- Members with which this one exchanges data directly (R238): those of its lines for the staged operations, all of them for
the exchanges, root or target for the others (DEDUCED, log 16). -/
def CollRun.partners (r : CollRun) : List Nat :=
  let others := (List.range r.d.n).filter (· != r.me)
  if r.d.op = 4 ∨ r.d.op = 5 ∨ r.d.op = 0x10 ∨ r.d.op = 0x11 then others
  else if r.d.op = 6 ∨ r.d.op = 7 then (if r.me = r.d.f 0x40 4 then others else [r.d.f 0x40 4])
  else (List.range 4).flatMap r.line

/-- Members that this one sends data to. -/
def CollRun.sendsTo (r : CollRun) : List Nat :=
  if r.d.op = 6 ∧ r.me ≠ r.d.f 0x40 4 then [] else if r.d.op = 7 ∨ r.d.op = 0x20 then [] else r.partners

def CollRun.rankOf (r : CollRun) (m : Nat) : Nat := (r.ranks[m]?).getD 0

/-- Whether an update that the collective carries has not begun: it sends nothing (R251). -/
def CollRun.updHeld (r : CollRun) : Bool :=
  match r.upd with
  | some u => u.held
  | none => false

/-- A collective makes real progress now (R235, R236). -/
def State.collProgress (s : State) (k : CollKey) : State :=
  (s.modRun k (fun r => { r with tReal := Nat.max r.tReal s.sys.ts.toNat })).progress k.c

/-- An access of a collective's command was slowed by a stack: so was its progress (R235, R236). -/
def State.collSlow (s : State) (k : CmdKey) (slow : Bool) : State :=
  if slow then
    { s with coll.runs := s.coll.runs.map (fun r => if r.key = k then { r with slow := true, slowTx := true } else r) }
  else s

/-- Bytes that a collective reads whole, or the status that ends it. -/
def State.rdColl (s : State) (k : CmdKey) (va n : Nat) : Except Status (List Byte) × State :=
  let a := s.rdCmd k va n [.r]
  (a.1, a.2.collSlow k (s.vaRead k.c va n [.r]).1.slow)

/-- Bytes that a collective writes: whether the access faulted; an undecodable stripe and a slowed stack are noted (R131, R235, R236). -/
def State.collPut (s : State) (k : CmdKey) (va : Nat) (bs : List (Byte × Bool)) : Bool × State :=
  let w := s.vaWrite none k.c va bs [.w]
  let s := if w.1.uncorr then w.2.noteCmd k St.uncorrectable else w.2
  (w.1.fault, (s.metCmd k false w.1.slow).collSlow k w.1.slow)

/-! ## Packets between members (R203, R205, R225) -/

/-- What a head carries, as numbers. -/
def CollHead.nums (h : CollHead) : List Nat :=
  [h.kind, h.c, h.id, h.epoch.toNat, h.check.toNat, h.member, h.chunk, h.part, bit h.last, h.shard, h.version, h.loc, h.slot, h.token,
    h.choice] ++ h.mask.map bit

/-- The type-specific bytes of a collective packet: their layout is not the spec's (DESIGN CHOICE, log 16). -/
def CollHead.bytes (h : CollHead) : List Byte :=
  let b := (Config.collHead h.nums).take 16
  b ++ List.replicate (16 - b.length) 0

/-- A packet of a collective to a device, over the given flowlet of its flow (R212, R213): it is noted as what it carries, and leaves
through its route; one without a route is lost, and its sender's timeouts notice it (R215, R237). -/
def State.sendCollTo (s : State) (did rank unit flowlet : Nat) (h : CollHead) (bs : List Byte) : State :=
  let fid := flowId h.c unit rank
  let hd : Hdr := {
    ty := 5
    rel := false
    fetch := false
    ctx := h.c
    tag := 0
    dst := did
    hops := 0
    cong := 0
    src := s.myDid
    unit := unit
    route := s.chooseRoute did fid flowlet 0
    bsel := bselOf fid }
  let s := s.emit (.coll did h bs)
  (s.send (hd.bytes ++ h.bytes ++ bs)).getD s

/-- What every packet of a run carries (R225). -/
def CollRun.head (r : CollRun) (kind : Nat) : CollHead where
  kind := kind
  c := r.key.c
  id := r.d.id
  epoch := r.d.epoch
  check := r.check
  member := r.me
  chunk := 0
  part := 0
  last := true
  shard := 0
  version := 0
  loc := 0
  slot := 0
  token := 0
  choice := 0
  mask := []

/-- A message of a collective to a member (R235, R238, R243, R246), in packets of up to 256 B, from the engine of the context's own I/O
die (DESIGN CHOICE, log 16). -/
def State.tellMember (s : State) (r : CollRun) (m kind : Nat) (bs : List Byte) : State :=
  match s.didOfRank (r.rankOf m) with
  | none => s
  | some did =>
    let ps := if bs.isEmpty then [[]] else chunksOf 256 bs.length bs
    ps.zipIdx.foldl (fun (s : State) p =>
      s.sendCollTo did (r.rankOf m) (320 + r.key.c % 4) r.flowlets
        { r.head kind with part := p.2, last := p.2 + 1 == ps.length } p.1) s

/-! ## Wire formats (Table 10.4, R232, R233) -/

/-- The largest exponent in a block; none when every element is 0. -/
def blockExp (xs : List Nat) : Option Int :=
  Fp.ilog2 (Fp.decode Fp.fp32 (xs.foldl (fun m u => Nat.max m (u % 2 ^ 31)) 0))

/-- An exponent within bounds. -/
def clampI (lo hi x : Int) : Int := if x < lo then lo else if hi < x then hi else x

/-- One MX block of FP32 codes on the wire, as exact values with an overflow mark each: `sub` and `hi` give the scale
exponent, `sat` the FP4 rule of R102. -/
def mxBlock (fmt : Fp.Fmt) (sub hi : Int) (sat : Bool) (xs : List Nat) : List (Fp.Val × Bool) :=
  let inf := fun (u : Nat) => (Fp.decode Fp.fp32 u).isInf
  let dead := xs.any (fun u => (Fp.decode Fp.fp32 u).isNan || inf u)
  let x := match blockExp xs with
    | none => -127
    | some t => clampI (-127) hi (t - sub)
  xs.map (fun u =>
    if dead then (Fp.Val.nan, inf u)
    else
      let c := (Fp.encode fmt sat .rne (Fp.mul (Fp.decode Fp.fp32 u) (.fin false 1 (-x)))).1
      (Fp.mul (Fp.decode fmt c) (.fin false 1 x), false))

/-- FP32 codes rounded to a wire format, as exact values with an overflow mark each. -/
def wire (w : Nat) (xs : List Nat) : List (Fp.Val × Bool) :=
  match w with
  | 0 => xs.map (fun u => (Fp.decode Fp.fp32 u, false))
  | 1 => xs.map (fun u =>
      let e := Fp.encode Fp.bf16 false .rne (Fp.decode Fp.fp32 u)
      (Fp.decode Fp.bf16 e.1, e.2))
  | 2 => (chunksOf 32 xs.length xs).flatMap (mxBlock Fp.e4m3 7 127 false)
  | 3 => (chunksOf 32 xs.length xs).flatMap (mxBlock Fp.e5m2 14 127 false)
  | _ => (chunksOf 32 xs.length xs).flatMap (mxBlock Fp.e2m1 2 125 true)

/-- Elements of one chunk of 16 KiB of wire data; for the block formats the spec does not place the scales, and the number
of blocks is free (log 16). -/
def chunkElems (w : Nat) : Nat :=
  if w = 0 then 4096 else if w = 1 then 8192 else 32 * (Config.mxChunk w + 1)

/-- Chunks of n elements. -/
def chunkCount (w n : Nat) : Nat := cdiv n (chunkElems w)

/-- The number of the chunk that element e of a tensor of blocks of `count` elements lies in: each block begins a chunk, at a multiple of
four, so that chunk i of a block is the engine's of IOD(i mod 4) (R224; the numbering is a DESIGN CHOICE, log 16). -/
def chunkNo (w count e : Nat) : Nat := e / count * (4 * cdiv (chunkCount w count) 4) + e % count / chunkElems w

/-- Elements under one bit of a packet's poison mask: 32 B of element data, or an MX block (R274). -/
def markElems (w : Nat) : Nat := if w = 0 then 8 else if w = 1 then 16 else 32

/-- Elements in one packet of up to 256 B; of a block format, whole blocks with their scales (DESIGN CHOICE, log 16). -/
def pktElems (w : Nat) : Nat := if w = 0 then 64 else if w = 1 then 128 else if w = 4 then 480 else 224

/-- Marks as a mask tells them: a bit is set where any of its elements is marked; a block of the tensor begins a mask. -/
def spreadMarks (count w : Nat) (ms : List Bool) : List Bool :=
  (chunksOf count ms.length ms).flatMap (fun b =>
    (chunksOf (markElems w) b.length b).flatMap (fun g => g.map (fun _ => g.any id)))

/-- The mark of element e under a mask. -/
def maskAt (count w : Nat) (mask : List Bool) (e : Nat) : Bool :=
  (mask[e / count * cdiv count (markElems w) + e % count / markElems w]?).getD false

/-- The bytes of elements on the wire. -/
def wireData (w : Nat) (xs : List Nat) : List Byte :=
  if w = 0 then xs.flatMap (natLe 4)
  else if w = 1 then xs.flatMap (fun u => natLe 2 (Fp.encode Fp.bf16 false .rne (Fp.decode Fp.fp32 u)).1)
  else (Config.mxData w xs).take 256

/-! ## Chunks on their way (R224, R237) -/

/-- Whether a copy that was sent is the one that a reference names. -/
def SentChunk.isRef (u : SentChunk) (x : ChunkRef) : Bool := u.dest == x.rank && u.chunk == x.chunk

/-- Cut what goes to a rank into chunks: the elements with their indexes, in order, and the number of each index. -/
def cutChunks (rank : Nat) (no : Nat → Nat) (xs : List (Nat × Nat × Bool)) : List SentChunk :=
  ((xs.map (fun x => (no x.1, x.2))).splitBy (fun a b => a.1 == b.1)).map (fun l => {
    dest := rank
    chunk := (l.headD (0, 0, false)).1
    shard := 0
    version := 0
    loc := 0
    slot := 0
    token := 0
    choice := 0
    elems := l.map (·.2) })

/-- The packets of a chunk: what each carries and its data. -/
def CollRun.packets (r : CollRun) (x : SentChunk) : List (CollHead × List Byte) :=
  let w := r.d.wtype
  let ps := chunksOf (pktElems w) x.elems.length x.elems
  ps.zipIdx.map (fun p =>
    ({ r.head Ck.data with
        chunk := x.chunk
        part := p.2
        last := p.2 + 1 == ps.length
        shard := x.shard
        version := x.version
        loc := x.loc
        slot := x.slot
        token := x.token
        choice := x.choice
        mask := (chunksOf (markElems w) p.1.length p.1).map (fun g => g.any (·.2)) }, wireData w (p.1.map (·.1))))

/-- The packets of a chunk leave its engine, over the run's flowlet. -/
def State.sendPackets (s : State) (r : CollRun) (x : SentChunk) : State :=
  match s.didOfRank x.dest with
  | none => s
  | some did => (r.packets x).foldl (fun (s : State) p => s.sendCollTo did x.dest (320 + x.chunk % 4) r.flowlets p.1 p.2) s

/-- A chunk is sent, and kept until it is acknowledged (R237). -/
def State.sendChunk (s : State) (r : CollRun) (x : SentChunk) : State :=
  (s.sendPackets r x).modRun r.ck (fun r => { r with unacked := r.unacked ++ [x] })

/-! ## The reduction of R229 -/

/-- One FP32 step of a reduction: sum, maximum or minimum. -/
def redStep (op : Nat) (a b : Nat) : Nat :=
  let x := Fp.decode Fp.fp32 a
  let y := Fp.decode Fp.fp32 b
  toF32 (if op = 1 then Fp.max x y else if op = 2 then Fp.min x y else Fp.add x y)

/-- A value on the wire and after it: widened to FP32, with the marks of an overflow when it was narrowed, and when it was widened
(R90, R232). -/
structure Wired where
  val : Nat
  narrow : Bool
  widen : Bool
  deriving DecidableEq, Repr

/-- Contributions as they arrive. -/
def onWire (w : Nat) (xs : List Nat) : List Wired :=
  (wire w xs).map (fun v =>
    let e := Fp.encode Fp.fp32 false .rne v.1
    ⟨e.1, v.2, e.2⟩)

/-- Overflow marks of a narrowing. -/
def narrowMarks (w : Nat) (xs : List (Nat × Bool)) : List Bool := (onWire w (xs.map (·.1))).map (·.narrow)

/-- One stage over the members of a line, in ascending order, with the poison of each element (R229, R274): `here` is the place in the
line of the member that adds an element up; what comes from the others has the poison of its mask. -/
def reduceLine (op w count : Nat) (here : Nat → Nat) (xs : List (List (Nat × Bool))) : List (Nat × Bool) :=
  let vals := xs.map (fun x => (onWire w (x.map (·.1))).map (·.val))
  let pois := xs.zipIdx.map (fun x =>
    let own := x.1.map (·.2)
    (List.zip own (spreadMarks count w own)).zipIdx.map (fun m => if here m.2 = x.2 then m.1.1 else m.1.2))
  List.zip ((vals.drop 1).foldl (List.zipWith (redStep op)) (vals.headD []))
    ((pois.drop 1).foldl (List.zipWith (· || ·)) (pois.headD []))

/-- The elements of a member's chunk that the pool holds, packet by packet, with the poison of their masks (R274). -/
def CollRun.rowOf (r : CollRun) (m chunk : Nat) : List (Nat × Bool) :=
  let ps := (r.pool.map (·.2)).filter (fun p => p.member == m && p.chunk == chunk)
  (List.range ps.length).flatMap (fun i => (ps.filter (fun p => p.part == i)).flatMap (fun p =>
    p.elems.zipIdx.map (fun e => (e.1.toNat, maskAt p.elems.length r.d.wtype p.mask e.2))))

/-- A member's chunk, where it has come in whole and the pool still holds it (R230). -/
def CollRun.chunkOf (r : CollRun) (m chunk : Nat) : Option (List (Nat × Bool)) :=
  let xs := r.rowOf m chunk
  if r.recvd.contains (m, chunk) && !xs.isEmpty then some xs else none

/-- Whether members a and b have the same coordinates below k. -/
def sameBelow (g : List Nat) (k a b : Nat) : Bool := (List.range k).all (fun i => gridPos g a i == gridPos g b i)

/-- Whether they have the same coordinates from k on. -/
def sameFrom (g : List Nat) (k a b : Nat) : Bool := (List.range 4).all (fun i => decide (i < k) || gridPos g a i == gridPos g b i)

/-- The member that differs from m in coordinate k alone, which is q. -/
def withPos (g : List Nat) (m k q : Nat) : Nat :=
  let t := (g.take k).foldl (· * ·) 1
  m - gridPos g m k * t + q * t

/-- Elements of a member of this one's line in coordinate k as they have arrived in its chunks, where they have: contributions that the pool
holds are added as they came (R230); for the others the row's own operand stands (log 16). -/
def CollRun.withArrived (r : CollRun) (owner : Nat → Nat) (k m : Nat) (xs : List (Nat × Bool)) : List (Nat × Bool) :=
  if r.pool.isEmpty then xs
  else
    let d := r.d
    let idx := (List.range xs.length).filter (fun e => sameBelow d.g k (owner e) r.me && gridPos d.g (owner e) k == gridPos d.g r.me k)
    let got := ((idx.map (fun e => (chunkNo d.wtype d.count e, e))).splitBy (fun a b => a.1 == b.1)).flatMap (fun l =>
      List.zip (l.map (·.2)) ((r.chunkOf m (l.headD (0, 0)).1).getD []))
    xs.zipIdx.map (fun x => ((got.find? (fun g => g.1 == x.2)).map (·.2)).getD x.1)

/-- A reduction as this member sees it: the partial results by remaining position (at the end the result alone), the marks of its own
narrowings and widenings, each from the start of a block, and what it sends. -/
structure Reduction where
  lists : List (List (Nat × Bool))
  marks : List (List Bool)
  sends : List SentChunk
  deriving DecidableEq, Repr

/-- Stage k of a reduction (R229): `owner` is the member that an element is reduced for. The member that holds a partial result sends it to
the member of its line that has the owner's coordinate (DEDUCED, log 16); a factor of 1 has no wire and no addition. -/
def Reduction.stage (r : CollRun) (owner : Nat → Nat) (x : Reduction) (k : Nat) : Reduction :=
  let d := r.d
  let gk := (d.g[k]?).getD 1
  if gk = 1 then x
  else
    let pos := r.me / (d.g.take k).foldl (· * ·) 1
    let lists := x.lists.zipIdx.map (fun l =>
      if l.2 / gk = pos / gk ∧ l.2 ≠ pos then r.withArrived owner k (withPos d.g r.me k (l.2 % gk)) l.1 else l.1)
    let lines := chunksOf gk lists.length lists
    let mine := (x.lists[pos]?).getD []
    let part := fun (j : Nat) (ms : List Bool) =>
      chunksOf d.count ms.length (ms.zipIdx.map (fun m => m.1 && sameBelow d.g j (owner m.2) r.me))
    let widened := ((lines[pos / gk]?).getD []).flatMap (fun y => part (k + 1) ((onWire d.wtype (y.map (·.1))).map (·.widen)))
    let sends := ((List.range gk).filter (· != pos % gk)).flatMap (fun q =>
      cutChunks (r.rankOf (withPos d.g r.me k q)) (chunkNo d.wtype d.count)
        ((mine.zipIdx.map (fun e => (e.2, e.1))).filter (fun e => sameBelow d.g k (owner e.1) r.me && gridPos d.g (owner e.1) k == q)))
    { lists := lines.map (reduceLine d.redOp d.wtype d.count (fun e => gridPos d.g (owner e) k))
      marks := x.marks ++ part k (narrowMarks d.wtype mine) ++ widened
      sends := x.sends ++ sends }

/-- The four stages over the members' elements. -/
def CollRun.reduceAll (r : CollRun) (owner : Nat → Nat) (xs : List (List (Nat × Bool))) : Reduction :=
  (List.range 4).foldl (Reduction.stage r owner) ⟨xs, [], []⟩

/-- What a gather makes this member send (DEDUCED, log 16): over coordinate k, what it holds by then, that is the elements of the owners
that have its own coordinates from k on. `no` numbers the chunks, `version` is that of an element's shard. -/
def CollRun.gatherSends (r : CollRun) (owner version no : Nat → Nat) (xs : List (Nat × Nat × Bool)) : List SentChunk :=
  (List.range 4).flatMap (fun k =>
    let gk := (r.d.g[k]?).getD 1
    ((List.range gk).filter (· != gridPos r.d.g r.me k)).flatMap (fun q =>
      (cutChunks (r.rankOf (withPos r.d.g r.me k q)) no (xs.filter (fun e => sameFrom r.d.g k (owner e.1) r.me))).map (fun c =>
        let j := c.chunk / (4 * cdiv (chunkCount r.d.wtype r.d.count) 4)
        { c with shard := j, version := version j })))

/-- POST_SCALE is applied once (R229). -/
def scaleAll (sc : Nat) (xs : List Nat) : List Nat :=
  xs.map (fun x => toF32 (Fp.mul (Fp.decode Fp.fp32 x) (Fp.decode Fp.fp32 sc)))

/-! ## Memory -/

/-- n elements of a type from an address: FP32 codes with poison marks, or the status that ends the collective; an
undecodable stripe is noted in the command. -/
def State.readElems (s : State) (k : CmdKey) (va t n : Nat) : Except Status (List (Nat × Bool)) × State :=
  let r := s.vaRead k.c va (typeSize t * n) [.r]
  let s := if r.1.uncorr then r.2.noteCmd k St.uncorrectable else r.2
  let s := (s.metCmd k r.1.corr r.1.slow).collSlow k r.1.slow
  if r.1.fault then (.error St.address, s)
  else
    (.ok ((chunksOf (typeSize t) n (List.zip r.1.bytes r.1.pois)).map (fun e =>
      (toF32 (Fp.decode (typeFmt t) (leNat (e.map (·.1)))), e.any (·.2)))), s)

/-- Values converted to a type (R98, R99), with overflow marks. -/
def toType (t : Nat) (xs : List Fp.Val) : List (Nat × Bool) := xs.map (fun v => Fp.encode (typeFmt t) false .rne v)

/-- Write element codes of a type, each poisoned or not; none, or the status that ends the collective. -/
def State.writeElems (s : State) (k : CmdKey) (va t : Nat) (xs : List (Nat × Bool)) : Option Status × State :=
  let w := s.collPut k va (xs.flatMap (fun x => bytesP (typeSize t) x.1 x.2))
  (if w.1 then some St.address else none, w.2)

/-- Free bytes at a device virtual address, as far as it is mapped (R238; log 14). -/
def State.vaScramble (s : State) (c va n : Nat) : State :=
  (piecesOf va n).foldl (fun (s : State) p =>
    let x := s.xlate c p.1 [.w]
    match x.1 with
    | some pa => x.2.memScramble pa p.2
    | none => x.2) s

/-- A conversion in the engine of a die overflowed: its flag, the event, and the record's flag (R101, R232). -/
def State.dieOverflow (s : State) (r : CollRun) (die : Nat) : State :=
  ({ s with coll.overflow := NSet.insert s.coll.overflow die }.dieEvent (8 + die) 0x68 1 (some r.key.c)).modCmd r.key
    (fun m => { m with flags := m.flags ||| 1 })

/-- Conversions that overflowed, by element from the start of a block or of a token row: each counts at the engine of the element's chunk
(R101, R224). The spec does not say whose engine converts a row of a DISPATCH or COMBINE: it is taken by the element's place in the
row in the same way (DESIGN CHOICE, log 16). -/
def State.collOverflow (s : State) (r : CollRun) (ovs : List Bool) : State :=
  ((List.range ovs.length).filter (fun i => (ovs[i]?).getD false)).foldl (fun (s : State) i =>
    s.dieOverflow r (i / chunkElems r.d.wtype % 4)) s

/-- Several lists of such marks. -/
def State.collOverflows (s : State) (r : CollRun) (ovs : List (List Bool)) : State := ovs.foldl (fun s o => s.collOverflow r o) s

/-- Poison among what was read or received: POISON_CONSUMED (R274). -/
def State.collPoison (s : State) (r : CollRun) (ps : List Bool) : State :=
  if ps.any id then s.noteCmd r.key St.poison else s

/-! ## The end of a collective -/

/-- Local indexes of the experts of this module in an expert map (Table 10.7). -/
def State.localExperts (s : State) (r : CollRun) : NSet :=
  let e := s.vaRead r.key.c (r.d.f 0x60 8) (8 * r.d.f 0x4C 4) [.r]
  ((recordsOfBytes e.1.bytes).filterMap (fun x =>
    if x % 2 ^ 17 = r.rankOf r.me then some (x / 2 ^ 32 % 1024) else none)).foldl NSet.insert []
where
  recordsOfBytes (b : List Byte) : List Nat := (chunksOf 8 b.length b).map leNat

/-- The destination ranges of a collective, as addresses and lengths. -/
def State.destRanges (s : State) (r : CollRun) : List (Nat × Nat) :=
  let d := r.d
  let e := typeSize d.dtype
  match d.op with
  | 1 => if d.updEn ∧ d.dstVa = 0 then [] else [(d.dstVa, d.count * e)]
  | 2 => [(d.dstVa, d.n * d.count * e)]
  | 4 => [(d.dstVa, d.n * d.count * e)]
  | 5 =>
    let cnt := (s.vaRead r.key.c (d.f 0x50 8) (8 * d.n) [.r]).1.bytes
    let off := (s.vaRead r.key.c (d.f 0x58 8) (8 * d.n) [.r]).1.bytes
    (List.range d.n).map (fun j => (d.dstVa + e * fieldAt off (8 * j) 8, e * fieldAt cnt (8 * j) 8))
  | 7 => if r.me = d.f 0x40 4 then [(d.dstVa, d.count * e)] else []
  | 0x10 =>
    let slab := d.f 0x48 4 * d.f 0x44 2 * e
    (s.localExperts r).map (fun l => (d.dstVa + l * slab, slab))
  | 0x11 => [(d.dstVa, d.f 0x40 4 * d.f 0x44 2 * e)]
  | 0x20 => []
  | _ => [(d.dstVa, d.count * e)]

/-- OUT_VA of an update's entry. -/
def UpdRun.outVa (u : UpdRun) : Nat := fieldAt u.entry 0x48 8

/-- An update that ends without completing after its first write: the header reads FAILED (R264). -/
def State.failHeader (s : State) (r : CollRun) : State :=
  match r.upd with
  | none => s
  | some u =>
    if !u.wrote then s
    else
      let s := s.modCtx r.key.c (fun x => { x with ueStatus := x.ueStatus ||| 2 })
      if u.outVa = 0 then s else (s.vaWrite none r.key.c (u.outVa - 60) (bytesP 4 2 false) [.w]).2

/-- The deltas of an update that ends before they could leave have failed (R266, R268). -/
def State.dropDeltas (s : State) (r : CollRun) : State :=
  match r.upd with
  | none => s
  | some u => u.deltaQ.foldl (fun (s : State) p => s.deltaFailed r.key.c u.group p.1) s

/-- The collective's run is over: its outstanding transactions no longer concern it, a strike of its update that waits is
withdrawn and consumes nothing, and what it had received stays known for packets that come again (R237). -/
def State.dropRun (s : State) (r : CollRun) : State :=
  let s := s.dropDeltas r
  { s with
    coll.ended := s.coll.ended.filter (fun e => !(e.k == r.ck)) ++ [⟨r.ck, r.check, r.me, r.recvd, false⟩]
    pen.slots := Tab.mapV s.pen.slots (fun _ x => { x with
      waiters := x.waiters.filter (fun w => w.src != .engine r.key.c (some r.ck)) })
    coll.runs := s.coll.runs.filter (fun x => !(x.key == r.key))
    fab.trans := s.fab.trans.map (fun (t : Trans) =>
      if t.kind = .coll r.ck then { t with kind := TransKind.other } else t) }

/-- A collective whose own progress, or that of a member it waited for, was slowed says so in its record and in CE_CTX_STATUS (R236). -/
def State.noteSlow (s : State) (r : CollRun) : State :=
  if r.slow then
    (s.modCmd r.key (fun m => { m with flags := m.flags ||| 4 })).modCtx r.key.c (fun x => { x with ceSlow := true })
  else s

/-- Tell every partner that the collective ends here with a failing status (R238). -/
def State.abortAll (s : State) (r : CollRun) (st : Status) (rank : Nat) : State :=
  r.partners.foldl (fun (s : State) m => s.tellMember r m Ck.abort (natLe 2 st.toNat ++ natLe 4 rank)) s

/-- A RESHARD that ends takes its fence with it (R240). -/
def State.dropFence (s : State) (r : CollRun) : State :=
  if r.d.op = 0x20 ∧ (s.ctx r.key.c).fence = some r.key then s.modCtx r.key.c (fun x => { x with fence := none }) else s

/-- A collective ends at this member with a failing status, of this member or of the rank that an abort names: its
destination is unspecified, and every partner is told (R238, R264). -/
def State.failRun (s : State) (r : CollRun) (st : Status) (rank : Nat) : State :=
  let r := (s.findRun r.ck).getD r
  let s := if st = St.epochMismatch then s.modCtx r.key.c (fun x => { x with epochMismatch := true }) else s
  let s := s.noteSlow r
  let s := if r.held then s else
    ((s.destRanges r).foldl (fun (s : State) x => s.vaScramble r.key.c x.1 x.2) s).failHeader r
  let s := if r.held then s else s.abortAll r st rank
  ((s.dropFence r).dropRun r).endCmd r.key st

/-- It ends with a status of this member. -/
def State.failMine (s : State) (r : CollRun) (st : Status) : State := s.failRun r st (r.rankOf r.me)

/-- Whether every rank of the group can be reached; the status of R219 that says why not. -/
def State.groupStatus (s : State) (r : CollRun) : Status :=
  if r.ranks.any s.rankLost then St.peerLost else St.noRoute

/-- Atomics of a collective that are outstanding. -/
def State.collTrans (s : State) (k : CollKey) : Bool := s.fab.trans.any (fun t => t.kind == .coll k)

/-- Whether a collective has nothing left to do or to wait for (R237, R244, R246, R260). -/
def State.runDone (s : State) (r : CollRun) : Bool :=
  r.dataDone && r.unacked.isEmpty && !r.gnWait && r.upd.isNone && !s.collTrans r.ck
    && (match r.disp with
        | some x => x.ownerDone
        | none => true)

/-- The layer counts that wait are added by ATOMIC, as far as the flow table takes them (R212, R244); one without a route is lost. They
go out from the router of the context's own I/O die (DESIGN CHOICE, log 16). -/
def State.sendCounters (s : State) : State :=
  s.coll.counters.foldl (fun (s : State) e =>
    let tail := natLe 6 e.2.2.1 ++ natLe 2 0 ++ natLe 8 e.2.2.2
    match s.form e.1 (320 + e.1 % 4) e.2.1 4 false tail .other with
    | .sent t => t
    | .noRoute t => t
    | .wait => { s with coll.counters := s.coll.counters ++ [e] }) { s with coll.counters := [] }

/-- A dispatch adds its drops and falls to the layer counters (R244). -/
def State.layerCounters (s : State) (r : CollRun) : State :=
  match r.disp with
  | none => s
  | some x =>
    if r.d.f 0x47 1 / 4 % 2 = 0 then s
    else
      let adds := [(0xFF0, x.drops), (0xFF8, x.falls)].map (fun p => (r.key.c, r.d.f 0x7C 4, r.d.f 0x70 8 + p.1, p.2))
      ({ s with coll.counters := s.coll.counters ++ adds }).sendCounters

/-- The status that a command has so far. -/
def State.cmdStatus (s : State) (k : CmdKey) : Status :=
  match s.findCmd k with
  | some m => m.status.1
  | none => St.ok

/-- A collective that is done completes: DONE is hoisted, then the command ends (Table 10.1, R236); with a status whose class
is not 0x00, its partners are told (R238; DEDUCED, log 16). -/
def State.settleRun (s : State) (k : CollKey) : State :=
  match s.findRun k with
  | none => s
  | some r =>
    if !s.runDone r then s
    else
      let s := s.layerCounters r
      let st := s.cmdStatus r.key
      let s := if statusClass st = 0 then s else s.abortAll r st (r.rankOf r.me)
      let s := if r.d.doneEn then
          let h := r.d.done.toNat
          let p : PenMsg := ⟨k.c, handleId h, some (handleGen h), .engine k.c none, .hoist 1 true⟩
          { s with pen.msgs := s.pen.msgs ++ [p] }
        else s
      ((s.noteSlow r).dropRun r).endCmd r.key St.ok

/-- Every collective that includes a rank marked lost ends with PEER_LOST (R237). -/
def State.endLostRuns (s : State) : State :=
  s.coll.runs.foldl (fun (s : State) r => if r.ranks.any s.rankLost then s.failMine r St.peerLost else s) s

/-- Act on the run of a key while it is not held. -/
def State.onRun (s : State) (k : CollKey) (go : CollRun → State → State) : State :=
  if !s.alive then s
  else match s.findRun k with
    | none => s
    | some r => if r.held then s else go r s

/-- The run of an operation that has not yet done its data's work. -/
def State.onOp (s : State) (k : CollKey) (op : Nat) (go : CollRun → State → State) : State :=
  s.onRun k (fun r s => if r.d.op = op ∧ !r.dataDone then go r s else s)

/-- The data's work of a collective is done: what it met is noted, its chunks count as events and leave, the contributions that the pool
held are added up, and it completes when nothing is left (R224, R230, Table 15.2). -/
def State.dataDone (s : State) (r : CollRun) (ovs : List (List Bool)) (ps : List Bool) (n : Nat) (sends : List SentChunk) : State :=
  let s := (s.collOverflows r ovs).collPoison r ps
  let s := (List.range n).foldl (fun (s : State) i => s.dieEvent (8 + i % 4) 0x60 1 (some r.key.c)) s
  let s := (sends.foldl (fun (s : State) x => s.sendChunk r x) s).modRun r.ck (fun r => { r with
    dataDone := true
    pool := [] })
  (s.collProgress r.ck).settleRun r.ck

end Sys2Proof.Machine
end

