-- ==== Sys2Proof/Machine/Response.lean ====
section
/-! DEFINITION. Responses to this module's requests and their timeouts (R219). -/

namespace Sys2Proof.Machine
open Sys2Proof

/-- A transaction ends; one of a collective fails it, or lets it complete (R228, R219);
layer counts that wait for a flow entry are tried again (R212). -/
def State.endAny (s : State) (t : Trans) (st : Status) (echo : Option Nat) : State :=
  let s := (s.endTrans t st echo).sendCounters
  match t.kind with
  | .coll k =>
    match s.findRun k with
    | none => s
    | some r => if statusClass st = 0 then s.settleRun k else s.failMine r st
  | _ => s

/-! ## Responses and timeouts (R219) -/

/-- The outstanding request that a response answers: the TAG is its sender's (Table 9.4). -/
def State.transOf (s : State) (pk : List Byte) : Option Trans :=
  s.fab.trans.find? (fun t => t.tag.toNat == (hdrOf pk).tag)

/-- The task of a core notes what its transaction met (R9). -/
def State.noteTrans (s : State) (t : Trans) (st : Status) : State :=
  if st = St.okCorr then match t.kind with
    | .put L _ => s.modCore L (fun cs => if cs.putsOut.contains t.tag.toNat then cs.note st else cs)
    | .get L q _ _ => s.modCore L (fun cs => if cs.owns q then cs.note st else cs)
    | _ => s
  else s

/-- The destination words of a GET whose data was poisoned are poisoned, which its task's POISON shows (R56, R274). -/
def State.poisonGet (s : State) (t : Trans) : State :=
  match t.kind with
  | .get L q a n => s.modCore L (fun cs => if cs.owns q then (cs.poisonRange (.tm, a, n)).poisoned else cs)
  | _ => s

/-- The effect of DATA: a GET's bytes reach tile memory as they arrive (R216). -/
def fxData (port : Nat) (pk : List Byte) (s : State) : State :=
  s.ingress port 9 pk (fun s =>
    match s.transOf pk with
    | none => s
    | some t =>
      let s := match t.kind with
        | .get L q a n =>
          if (s.core L).owns q then
            (s.modCore L (fun cs => cs.store false a ((pkData pk).take n))).moverBytes L n n
          else s
        | _ => s
      (s.noteTrans t (pkStatus pk)).endAny t (pkStatus pk) (some (pkEcho pk)))

/-- DATA (R216). -/
def execData (port : Nat) (pk : List Byte) (s : State) : Host.Outcome State Fault Refusal := onPortIn port s (fxData port pk)

/-- The effect of E2E_TIMEOUT: PEER_LOST where the rank is marked lost, ROUTE_UNAVAILABLE otherwise (R219). -/
def fxE2eTimeout (tag : Nat) (s : State) : State :=
  if !s.alive then s
  else match s.fab.trans.find? (fun t => t.tag.toNat == tag) with
    | none => s
    | some t => s.endAny t (if s.rankLost t.rank then St.peerLost else St.noRoute) none

/-- E2E_TIMEOUT (R219). -/
def execE2eTimeout (tag : Nat) (s : State) : Host.Outcome State Fault Refusal := .next (fxE2eTimeout tag s)

end Sys2Proof.Machine
end

