-- ==== Sys2Proof/Machine/UpdateBase.lean ====
section
/-! DEFINITION. Parameter groups and update programs (R250 to R256, R261, R265, R266): the entry and its checks, the
micro-operations, and the deltas of an element's bytes. -/

namespace Sys2Proof.Machine
open Sys2Proof

/-! ## The entry (Table 11.1) -/

def UpdRun.e (u : UpdRun) (o n : Nat) : Nat := fieldAt u.entry o n
def enLen (b : List Byte) : Nat := fieldAt b 0 1 % 128
def enValid (b : List Byte) : Bool := fieldAt b 0 1 / 128 == 1
def enPhase (b : List Byte) : Nat := fieldAt b 1 1 % 4
def enParEn (b : List Byte) : Bool := fieldAt b 1 1 / 4 % 2 == 1
def enSr (b : List Byte) : Bool := fieldAt b 1 1 / 8 % 2 == 1
def enNset (b : List Byte) : Nat := fieldAt b 1 1 / 16
/-- Element types of W, the states and the working copy (0 FP32, 1 BF16). -/
def enWt (b : List Byte) : Nat := if fieldAt b 2 1 % 2 = 1 then 4 else 6
def enSt (b : List Byte) : Nat := if fieldAt b 2 1 / 2 % 2 = 1 then 4 else 6
def enOt (b : List Byte) : Nat := if fieldAt b 2 1 / 4 % 2 = 1 then 4 else 6
def enNstate (b : List Byte) : Nat := fieldAt b 2 1 / 8 % 8
def enStep (b : List Byte) : Nat := fieldAt b 4 4
def enVersion (b : List Byte) : Nat := fieldAt b 8 4
def enProg (b : List Byte) : Nat := fieldAt b 0x18 8
def enW (b : List Byte) : Nat := fieldAt b 0x20 8
def enS (b : List Byte) (k : Nat) : Nat := fieldAt b (0x28 + 8 * k) 8
def enOut (b : List Byte) : Nat := fieldAt b 0x48 8
def enGbuf (b : List Byte) : Nat := fieldAt b 0x50 8
def enDir (b : List Byte) : Nat := fieldAt b 0x58 8
def enK (b : List Byte) (i : Nat) : Nat := fieldAt b (0x60 + 4 * i) 4
def enParOff (b : List Byte) : Nat := fieldAt b 0xA0 8
/-- Whether a group's parity is marked stale (R268). -/
def enParStale (b : List Byte) : Bool := fieldAt b 0xCC 1 % 2 == 1
def enP1Done (b : List Byte) : Nat := fieldAt b 0xA8 4
def enPreReady (b : List Byte) : Nat := fieldAt b 0xAC 4

/-- The checks of Table 11.1 and R252 on an entry. -/
def entryOk (b : List Byte) : Bool :=
  let ph := enPhase b
  enValid b && decide (1 ≤ enLen b ∧ enLen b ≤ 64) && decide (ph ≤ 2) && fieldAt b 2 1 / 64 == 0 && fieldAt b 3 1 == 0
    && decide (enNstate b ≤ 4) && decide (fieldAt b 0xA8 4 < 2 ^ 28) && decide (fieldAt b 0xAC 4 < 2 ^ 28)
    && decide (fieldAt b 0xCC 4 ≤ 1) && specZero b 0xD0 48
    && enProg b % 256 == 0 && enW b % typeSize (enWt b) == 0
    && (List.range (enNstate b)).all (fun k => enS b k % typeSize (enSt b) == 0)
    && enOut b % 64 == 0 && enGbuf b % 4 == 0 && enDir b % 4 == 0
    && (ph != 2 || (decide (1 ≤ fieldAt b 0xB4 1 ∧ fieldAt b 0xB4 1 ≤ 64) && (fieldAt b 0xB5 1 == 2 || fieldAt b 0xB5 1 == 4)))

/-! ## Programs (R253, R254) -/

def uOp (w : BitVec 32) : Nat := bits w 31 26
def uDst (w : BitVec 32) : Nat := bits w 25 20
def uA (w : BitVec 32) : Nat := bits w 19 14
def uB (w : BitVec 32) : Nat := bits w 13 8
def uC (w : BitVec 32) : Nat := bits w 7 2

/-- Sources of a micro-operation (Table 11.4); 0 for an undefined one. -/
def uArity (op : Nat) : Nat :=
  if op = 4 ∨ op = 0x0C ∨ op = 0x0D then 3
  else if op = 6 ∨ op = 7 ∨ op = 0x0A ∨ op = 0x0B ∨ op = 0x0E ∨ op = 0x0F then 1
  else if 1 ≤ op ∧ op ≤ 9 then 2 else 0

/-- Whether a code may be a source (Table 11.3). -/
def uSrcOk (b : List Byte) (x : Nat) : Bool :=
  decide (x ≤ 0x21) || (decide (0x22 ≤ x ∧ x ≤ 0x25) && decide (x - 0x22 < enNstate b)) || decide (0x26 ≤ x ∧ x ≤ 0x28)
    || (x == 0x29 && enPhase b != 0) || (x == 0x2A && enPhase b == 2) || x == 0x2B || x == 0x2C

/-- Whether a code may be a destination. -/
def uDstOk (b : List Byte) (x : Nat) : Bool :=
  decide (x ≤ 0x0F) || x == 0x21 || (decide (0x22 ≤ x ∧ x ≤ 0x25) && decide (x - 0x22 < enNstate b))
    || (x == 0x30 && enOut b != 0)

/-- The sources that a micro-operation names. -/
def uSources (w : BitVec 32) : List Nat := [uA w, uB w, uC w].take (uArity (uOp w))

/-- The checks of R254 on a program. -/
def progOk (b : List Byte) (p : List (BitVec 32)) : Bool :=
  p.all (fun w =>
    let n := uArity (uOp w)
    n != 0 && uDstOk b (uDst w) && (uSources w).all (uSrcOk b) && (decide (2 ≤ n) || uB w == 0) && (n == 3 || uC w == 0)
      && bits w 1 0 == 0)
    && [0x21, 0x22, 0x23, 0x24, 0x25, 0x30].all (fun x => decide ((p.filter (fun w => uDst w == x)).length ≤ 1))

/-- Whether a program writes, or reads, a code. -/
def writes (p : List (BitVec 32)) (x : Nat) : Bool := p.any (fun w => uDst w == x)
def reads (p : List (BitVec 32)) (x : Nat) : Bool := p.any (fun w => (uSources w).contains x)

/-- The result of a micro-operation on FP32 codes (Table 11.4, R255). -/
def uExec (op a b c : Nat) : Nat :=
  let x := Fp.decode Fp.fp32 a
  let y := Fp.decode Fp.fp32 b
  let z := Fp.decode Fp.fp32 c
  match op with
  | 0x01 => toF32 (Fp.add x y)
  | 0x02 => toF32 (Fp.sub x y)
  | 0x03 => toF32 (Fp.mul x y)
  | 0x04 => toF32 (Fp.add (Fp.mul x y) z)
  | 0x05 => toF32 (Fp.div x y)
  | 0x06 => toF32 (Fp.sqrt x)
  | 0x07 => Fp.rsqrtW (BitVec.ofNat 32 a)
  | 0x08 => toF32 (Fp.max x y)
  | 0x09 => toF32 (Fp.min x y)
  | 0x0A => toF32 (Fp.abs x)
  | 0x0B => if x.isNan ∨ x.isZero then toF32 x else if x.isNeg then 0xBF800000 else 0x3F800000
  | 0x0C => toF32 (Fp.min (Fp.max x y) z)
  | 0x0D => if Fp.cmp z (.fin false 0 0) = some .gt then toF32 x else toF32 y
  | 0x0E => Fp.exp2W (BitVec.ofNat 32 a)
  | _ => Fp.log2W (BitVec.ofNat 32 a)

/-- The operands of one element: constants of the entry, t, GNORM, and the element's G, W, S0 to S3 and PDIR. -/
structure UpdIn where
  entry : List Byte
  t : Nat
  gnorm : Nat
  g : Nat
  w : Nat
  st : List Nat
  dir : Nat
  deriving DecidableEq, Repr

/-- The value of a source code, given what the program has written so far. -/
def UpdIn.src (i : UpdIn) (wr : Tab Nat) (x : Nat) : Nat :=
  match Tab.find wr x with
  | some v => v
  | none =>
    if x ≤ 0x0F then 0
    else if x ≤ 0x1F then enK i.entry (x - 0x10)
    else match x with
      | 0x20 => i.g
      | 0x21 => i.w
      | 0x26 => fieldAt i.entry 0x0C 4
      | 0x27 => fieldAt i.entry 0x10 4
      | 0x28 => toF32 (Fp.fromInt i.t)
      | 0x29 => i.gnorm
      | 0x2A => i.dir
      | 0x2B => 0
      | 0x2C => 0x3F800000
      | _ => (i.st[x - 0x22]?).getD 0

/-- Run a program on one element: what it has written, by code. -/
def UpdIn.run (i : UpdIn) (p : List (BitVec 32)) : Tab Nat :=
  p.foldl (fun wr w => Tab.put wr (uDst w) (uExec (uOp w) (i.src wr (uA w)) (i.src wr (uB w)) (i.src wr (uC w)))) []

/-! ## Reading the entry (R250) -/

/-- An update before its entry is read. -/
def UpdRun.init (group : Nat) : UpdRun where
  group := group
  entry := []
  prog := []
  phase := 0
  held := true
  chunks := []
  norms := []
  members := []
  p1Done := false
  gnorm := none
  p2 := false
  wrote := false
  deltas := 0
  deltaQ := []
  strike := .none

/-- The permissions that an update needs of its tensors: addresses, lengths, permissions. -/
def tensorNeeds (b : List Byte) (p : List (BitVec 32)) (count : Nat) : List (Nat × Nat × List Perm) :=
  let outCopy := enOut b != 0 && !writes p 0x30
  let pr := fun (r w : Bool) => (if r then [Perm.r] else []) ++ (if w then [Perm.w] else [])
  (enW b, count * typeSize (enWt b), pr (reads p 0x21 || outCopy || (writes p 0x21 && enParEn b)) (writes p 0x21))
    :: (List.range (enNstate b)).map (fun k =>
        (enS b k, count * typeSize (enSt b), pr (reads p (0x22 + k) || (writes p (0x22 + k) && enParEn b)) (writes p (0x22 + k))))
    ++ (if enOut b = 0 then []
        else [(enOut b - 64, 64, [Perm.r, Perm.w]), (enOut b, count * typeSize (enOt b), [Perm.w])])
    ++ (if enPhase b = 0 then [] else [(enGbuf b, 4 * count, [Perm.r, Perm.w])])
    ++ (if enPhase b = 2 then [(enDir b, 4 * count, [Perm.r])] else [])

/-- Whether every needed range is mapped so. -/
def State.needsOk (s : State) (c : Nat) (l : List (Nat × Nat × List Perm)) : Bool × State :=
  l.foldl (fun (acc : Bool × State) x =>
    if x.2.2.isEmpty then acc
    else
      let y := acc.2.vaOk c x.1 x.2.1 x.2.2
      (acc.1 && y.1, y.2)) (true, s)

/-- The snapshot of a group's entry, with the program, or the status that ends the collective (R250, R252, R264); in mode 2
every update runs as PHASE 1, and host software applies it (R271): its phase is 3 here; the entry and the program are checked as they
are written. -/
def State.readEntry (s : State) (k : CmdKey) (group count : Nat) : Except Status UpdRun × State :=
  let a := s.rdCmd k (s.entryVa k.c group) 256 [.r, .w]
  if (s.ctx k.c).ueGtab.toNat % 2 ^ 20 ≠ 0 then (.error St.invalid, s)
  else match a.1 with
  | .error st => (.error st, a.2)
  | .ok b =>
    if !entryOk b then (.error St.invalid, a.2)
    else
      let p := a.2.rdCmd k (enProg b) (4 * enLen b) [.r]
      match p.1 with
      | .error st => (.error st, p.2)
      | .ok pb =>
        let prog := (chunksOf 4 64 pb).map (fun x => BitVec.ofNat 32 (leNat x))
        if !progOk b prog then (.error St.invalid, p.2)
        else
          let b := if s.obj 0x2400 2 = 2 then patchAt b 1 (natLe 1 (fieldAt b 1 1 / 4 * 4 + 1)) else b
          let t := p.2.needsOk k.c (tensorNeeds b prog count)
          if !t.1 then (.error St.address, t.2)
          else
            let h := if enOut b = 0 then (.ok (List.replicate 64 0), t.2) else t.2.rdCmd k (enOut b - 64) 64 [.r]
            match h.1 with
            | .error st => (.error st, h.2)
            | .ok hb =>
              if fieldAt hb 4 1 / 2 % 2 = 1 then (.error St.invalid, h.2)
              else
                let ph := if s.obj 0x2400 2 = 2 then 3 else enPhase b
                (.ok { UpdRun.init group with entry := b, prog := prog, held := false, phase := ph }, h.2)

/-! ## Parity deltas (R265, R266) -/

/-- Parity configuration of a context (Table 11.8). -/
def CtxState.parP (x : CtxState) : Nat := bits x.parCfg 5 5 + 1
def CtxState.parJ (x : CtxState) : Nat := bits x.parCfg 10 6
def CtxState.parSenders (x : CtxState) : Nat := bits x.parCfg 26 11

/-- Maximal runs of consecutive bytes that changed, with the offset of each. -/
def changedRuns (base : Nat) (old new : List Byte) : List (Nat × List Byte) :=
  let ds := List.zipWith (· ^^^ ·) old new
  let r := (List.range ds.length).foldl (fun (acc : List (Nat × List Byte) × Bool) i =>
    let d := (ds[i]?).getD 0
    if d = 0 then (acc.1, false)
    else match acc.2, acc.1 with
      | true, (o, bs) :: rest => ((o, bs ++ [d]) :: rest, true)
      | _, l => ((base + i, [d]) :: l, true)) ([], false)
  r.1.reverse

/-- The delta packets of a change: the I/O die whose engine made it, shard, offset and up to 256 B each. -/
def deltaPackets (die p j base : Nat) (old new : List Byte) : List (Nat × Nat × Nat × List Byte) :=
  (changedRuns base old new).flatMap (fun r =>
    let cs := chunksOf 256 r.2.length r.2
    (List.range cs.length).flatMap (fun i =>
      let b := (cs[i]?).getD []
      (die, 0, r.1 + 256 * i, b) :: (if p = 2 then [(die, 1, r.1 + 256 * i, b.map (gfMul (gfPow j)))] else [])))

/-- The type-specific bytes and the data of a parity-delta packet (Table 11.7). -/
def deltaTail (shard group off : Nat) (bs : List Byte) : List Byte :=
  natLe 1 (0xA + 16 * shard) ++ [0] ++ natLe 2 bs.length ++ natLe 4 group ++ natLe 8 off ++ bs

/-- Send the deltas that wait, as far as the flow table takes them; a holder that cannot be reached makes the group's
parity stale (R268). -/
def State.sendDeltas (s : State) (k : CollKey) : State :=
  match s.findRun k with
  | none => s
  | some r =>
    match r.upd with
    | none => s
    | some u =>
      let x := s.ctx k.c
      let go := u.deltaQ.foldl (fun (acc : State × List (Nat × Nat × Nat × List Byte) × Nat) p =>
        let holder := if p.2.1 = 0 then x.parHolder0.toNat else x.parHolder1.toNat
        match acc.1.form k.c (320 + p.1) holder 5 false (deltaTail p.2.1 u.group p.2.2.1 p.2.2.2) (.delta k u.group) with
        | .sent t => (t.dieEvent (8 + p.1) 0x69 1 (some k.c), acc.2.1, acc.2.2 + 1)
        | .noRoute t => (t.deltaFailed k.c u.group p.1, acc.2.1, acc.2.2)
        | .wait => (acc.1, acc.2.1 ++ [p], acc.2.2)) (s, [], 0)
      go.1.modRun k (fun r => { r with upd := r.upd.map (fun u => { u with deltaQ := go.2.1, deltas := u.deltas + go.2.2 }) })

end Sys2Proof.Machine
end

