-- ==== Sys2Proof/Machine/CollPacket.lean ====
section
/-! DEFINITION. Data packets of collectives (R225, R230, R236, R237, R244): reading and writing the members' data, chunks as they come in,
and token rows at their owner. -/

namespace Sys2Proof.Machine
open Sys2Proof

/-! ## Members' data -/

/-- Whether the members' contributions have the lengths that the operation takes; this member's own is read from memory. -/
def CollRun.insOk (r : CollRun) (ins : List MemberIn) (n : Nat) : Bool :=
  ins.length == r.d.n && ins.zipIdx.all (fun x => x.2 == r.me || x.1.elems.length == n)

/-- Go on with n elements of a type from an address, or end the collective. -/
def State.withElems (s : State) (r : CollRun) (va t n : Nat) (go : List (Nat × Bool) → State → State) : State :=
  let e := s.readElems r.key va t n
  match e.1 with
  | .error st => e.2.failMine r st
  | .ok xs => go xs e.2

/-- Write elements and go on, or end the collective. -/
def State.putElems (s : State) (r : CollRun) (va t : Nat) (xs : List (Nat × Bool)) (go : State → State) : State :=
  let w := s.writeElems r.key va t xs
  match w.1 with
  | some st => w.2.failMine r st
  | none => go w.2

/-- Go on with bytes of the context, or end the collective. -/
def State.withBytes (s : State) (r : CollRun) (va n : Nat) (go : List Byte → State → State) : State :=
  let a := s.rdColl r.key va n
  match a.1 with
  | .error st => a.2.failMine r st
  | .ok b => go b a.2

/-- What member m contributes: the words, poisoned as its mask says, which begins anew at each block of `count` elements (R274). -/
def contribution (ins : List MemberIn) (w count m : Nat) : List (Nat × Bool) :=
  match ins[m]? with
  | some i => i.elems.zipIdx.map (fun e => (e.1.toNat, maskAt count w i.mask e.2))
  | none => []

/-- Elements with their indexes. -/
def indexed (xs : List (Nat × Bool)) : List (Nat × Nat × Bool) := xs.zipIdx.map (fun e => (e.2, e.1))

/-- The squared norm of FP32 values in binary64, in the order of R119 with WIDE = 1. -/
def sqNorm64 (xs : List Nat) : BitVec 64 :=
  let vs := xs.map (Fp.decode Fp.fp32)
  let sq := fun (x : Fp.Val) => rnd Fp.f64 (Fp.mul x x)
  let ls := laneSums 32 sq (fun a x => rnd Fp.f64 (Fp.add a (Fp.mul x x))) vs
  BitVec.ofNat 64 (Fp.enc Fp.f64 ((treeSum (fun a b => rnd Fp.f64 (Fp.add a b)) 8 ls).getD (.fin false 0 0)))

/-- The two norms of R246 are this member's; they go to the others. -/
def State.gnOwn (s : State) (r : CollRun) (src block : List Nat) : State :=
  if !r.d.gnEn then s
  else
    let a := sqNorm64 src
    let b := sqNorm64 block
    let s := (List.range r.d.n).foldl (fun (s : State) m =>
      if m = r.me then s else s.tellMember r m Ck.gnSums (natLe 8 a.toNat ++ natLe 8 b.toNat)) s
    s.modRun r.ck (fun r => { r with gn := some (a, b), gnWait := true })

/-- Read the blocks of a source, one by one. -/
def State.readBlocks (s : State) (r : CollRun) (bs : List (Nat × Nat)) :
    Except Status (List (List (Nat × Bool))) × State :=
  bs.foldl (fun (acc : Except Status (List (List (Nat × Bool))) × State) b =>
    match acc.1 with
    | .error st => (.error st, acc.2)
    | .ok l =>
      let e := acc.2.readElems r.key b.1 r.d.mtype b.2
      match e.1 with
      | .error st => (.error st, e.2)
      | .ok xs => (.ok (l ++ [xs]), e.2)) (.ok [], s)

/-! ## Packets (R225, R236, R237, R241, R244) -/

/-- The slab row of a local expert's slot at its owner (R242). -/
def CollRun.rowVa (r : CollRun) (base t loc slot : Nat) : Nat :=
  base + (loc * r.d.f 0x48 4 + slot) * (r.d.f 0x44 2 * typeSize t)

/-- The slot entry of a token row (Table 10.7). -/
def slotEntry (origin choice token : Nat) : List Byte := natLe 8 (origin + 2 ^ 17 * choice + 2 ^ 32 * token)

/-- A token row is written into its slot with its slot entry (R233, R244): overflow marks, or the status that ends it. -/
def State.writeRow (s : State) (r : CollRun) (origin loc slot token choice : Nat) (row : List (Nat × Bool)) : State :=
  let d := r.d
  let out := toType d.dtype ((wire d.wtype (row.map (·.1))).map (·.1))
  let s := s.collOverflow r (out.map (·.2))
  let w := s.writeElems r.key (r.rowVa d.dstVa d.dtype loc slot) d.dtype (List.zip (out.map (·.1)) (row.map (·.2)))
  match w.1 with
  | some st => w.2.failMine r st
  | none =>
    let va := d.f 0x70 8 + 0x1000 + 8 * (d.f 0x48 4 * loc + slot)
    let e := w.2.collPut r.key va ((slotEntry (r.rankOf origin) choice token).map (fun b => (b, false)))
    if e.1 then e.2.failMine r St.address
    else
      (e.2.collPoison r (row.map (·.2))).modRun r.ck (fun r =>
        { r with disp := r.disp.map (fun x => { x with rowsIn := x.rowsIn - 1 }) })

/-- Whether a token row fits the dispatch it belongs to. -/
def CollRun.rowOk (r : CollRun) (pk : CollPkt) (n : Nat) : Bool :=
  n == r.d.f 0x44 2 && decide (pk.slot < r.d.f 0x48 4) && decide (pk.loc ≤ 1019)
    && decide (pk.choice < r.d.f 0x46 1 % 16) && decide (pk.token < 2 ^ 20)

/-- The rounds of a dispatch: those that a choice may fall through, or one (R243; DEDUCED, log 16). -/
def CollDesc.rounds (d : CollDesc) : Nat :=
  if d.f 0x47 1 % 2 = 1 then d.f 0x46 1 / 16 - d.f 0x46 1 % 16 + 1 else 1

/-- The owner's role in a dispatch is complete when all its granted rows are written: FILL of each local expert, then READY
(R244). -/
def State.ownerEnds (s : State) (k : CollKey) : State :=
  match s.findRun k with
  | none => s
  | some r =>
    match r.disp with
    | none => s
    | some x =>
      if x.ownerDone ∨ x.ownRound ≤ r.d.rounds ∨ x.rowsIn ≠ 0 then s
      else
        let mine := x.emap.zipIdx.filter (fun w => w.1 % 2 ^ 17 == r.rankOf r.me)
        let z := mine.foldl (fun (acc : Bool × State) w =>
          let v := acc.2.collPut r.key (r.d.f 0x70 8 + 4 * (w.1 / 2 ^ 32 % 1024)) (bytesP 4 (Tab.get 0 x.granted w.2) false)
          (acc.1 || v.1, v.2)) (false, s)
        if z.1 then z.2.failMine r St.address
        else
          let h := r.d.f 0x78 4
          let p : PenMsg := ⟨k.c, handleId h, some (handleGen h), .engine k.c none, .hoist 1 true⟩
          let s := { z.2 with pen.msgs := z.2.pen.msgs ++ [p] }
          s.modRun k (fun r => { r with disp := r.disp.map (fun x => { x with ownerDone := true }) })

/-- The VC that a collective packet came on (R205). -/
def collVc (pk : CollPkt) : Nat := 4 + bit pk.vc5

/-- Acknowledge a packet's chunk to the member that sent it, from the engine of the chunk (R237). -/
def State.sendAck (s : State) (r : CollRun) (pk : CollPkt) : State :=
  s.sendCollTo pk.src (r.rankOf pk.member) (320 + pk.chunk % 4) r.flowlets { r.head Ck.ack with chunk := pk.chunk } []

/-- Whether all packets of a member's chunk have come in. -/
def CollRun.whole (r : CollRun) (m chunk : Nat) : Bool :=
  let ps := (r.parts.filter (fun p => p.1 == m && p.2.1 == chunk)).map (·.2.2)
  ps.any (fun l => l.2 && (List.range l.1).all (fun i => ps.any (fun p => p.1 == i)))

/-- Whether the pool keeps a packet: a contribution until it is added up, a token row until all of it is here (R230, R244, R245). -/
def CollRun.holds (r : CollRun) : Bool := r.d.op == 0x10 || (!r.dataDone && (r.d.op == 1 || r.d.op == 3 || r.d.op == 0x11))

/-- A packet is noted, once. -/
def CollRun.takePart (r : CollRun) (port : Nat) (pk : CollPkt) : CollRun :=
  if r.parts.any (fun p => p.1 == pk.member && p.2.1 == pk.chunk && p.2.2.1 == pk.part) then r
  else { r with
    parts := r.parts ++ [(pk.member, pk.chunk, pk.part, pk.last)]
    pool := if r.holds then r.pool ++ [(port, pk)] else r.pool }

/-- A whole token row leaves the pool for its slot (R244). -/
def State.takeRow (s : State) (r : CollRun) (pk : CollPkt) : State :=
  if r.d.op ≠ 0x10 then s
  else
    let row := r.rowOf pk.member pk.chunk
    let s := s.modRun r.ck (fun r => { r with
      pool := r.pool.filter (fun e => !(e.2.member == pk.member && e.2.chunk == pk.chunk)) })
    if r.rowOk pk row.length then s.writeRow r pk.member pk.loc pk.slot pk.token pk.choice row else s

/-- A data packet of a running collective: it is progress, and a chunk whose packets have all come in is acknowledged, a duplicate again
(R236, R237, R244). -/
def State.acceptColl (s : State) (port : Nat) (r : CollRun) (pk : CollPkt) : State :=
  let k := r.ck
  let s := s.collProgress k
  if r.recvd.contains (pk.member, pk.chunk) then (if pk.last then s.sendAck r pk else s)
  else
    let r := r.takePart port pk
    let s := s.modRun k (fun x => { x with parts := r.parts, pool := r.pool })
    if !r.whole pk.member pk.chunk then s
    else
      let s := s.takeRow r pk
      if (s.findRun k).isNone then s
      else
        let s := s.modRun k (fun x => { x with
          recvd := x.recvd ++ [(pk.member, pk.chunk)]
          parts := x.parts.filter (fun p => !(p.1 == pk.member && p.2.1 == pk.chunk)) })
        ((s.sendAck r pk).ownerEnds k).settleRun k

end Sys2Proof.Machine
end

