-- ==== Sys2Proof/Machine/Router.lean ====
section
/-! DEFINITION. The token router (R242 to R245): claims, grants, token rows and the gate-weighted sum. -/

namespace Sys2Proof.Machine
open Sys2Proof

/-! ## Fields (Tables 10.6, 10.7) -/

def CollDesc.tokens (d : CollDesc) : Nat := d.f 0x40 4
def CollDesc.rowElems (d : CollDesc) : Nat := d.f 0x44 2
def CollDesc.choices (d : CollDesc) : Nat := d.f 0x46 1 % 16
def CollDesc.cands (d : CollDesc) : Nat := d.f 0x46 1 / 16
def CollDesc.capacity (d : CollDesc) : Nat := d.f 0x48 4
def CollDesc.experts (d : CollDesc) : Nat := d.f 0x4C 4

/-- Owner rank and local index of an expert. -/
def DispRun.owner (x : DispRun) (e : Nat) : Nat := (x.emap[e]?).getD 0 % 2 ^ 17
def DispRun.loc (x : DispRun) (e : Nat) : Nat := (x.emap[e]?).getD 0 / 2 ^ 32 % 1024

/-- The candidate of token t at a position. -/
def DispRun.candAt (x : DispRun) (d : CollDesc) (t pos : Nat) : Nat :=
  if pos < d.cands then (x.cand[t * d.cands + pos]?).getD 0xFFFFFFFF else 0xFFFFFFFF

/-- Change the dispatch of a run. -/
def State.modDisp (s : State) (k : CollKey) (g : DispRun → DispRun) : State :=
  s.modRun k (fun r => { r with disp := r.disp.map g })

/-! ## The origin's choices -/

/-- A choice is dropped: its route entry says so, the rest of the entry being free (R243, R244, log 14). -/
def State.dropChoice (s : State) (r : CollRun) (t j : Nat) : State :=
  let f := s.free
  let v := f.1 % 2 ^ 17 + f.1 / 2 ^ 17 % 2 ^ 10 * 2 ^ 32 + f.1 / 2 ^ 27 % 2 ^ 16 * 2 ^ 48
  let w := f.2.collPut r.key (r.d.f 0x68 8 + 8 * (r.d.choices * t + j)) (bytesP 8 v false)
  if w.1 then w.2.failMine r St.address
  else (w.2.dieEvent (8 + r.key.c % 4) 0x65 1 (some r.key.c)).modDisp r.ck (fun x => { x with drops := x.drops + 1 })

/-- The claims of a round for the experts of one owner: a count for each expert and choice (R243). -/
def DispRun.claimsTo (x : DispRun) (d : CollDesc) (owner : Nat) : List Claim :=
  let es := (x.mine.map (fun m => (x.candAt d m.1 m.2.2, m.2.1))).filter (fun e => x.owner e.1 == owner)
  es.eraseDups.map (fun e => ⟨e.1, e.2, (es.filter (· == e)).length⟩)

def claimBytes (l : List Claim) : List Byte := l.flatMap (fun c => natLe 4 c.expert ++ natLe 1 c.choice ++ natLe 4 c.count)
def grantBytes (l : List Grant) : List Byte :=
  l.flatMap (fun g => natLe 4 g.expert ++ natLe 1 g.choice ++ natLe 4 g.count ++ natLe 4 g.base)

/-- Send a round's counts to every member, and keep this member's own (R243). -/
def State.sendClaims (s : State) (k : CollKey) : State :=
  match s.findRun k with
  | none => s
  | some r =>
    match r.disp with
    | none => s
    | some x =>
      let s := (List.range r.d.n).foldl (fun (s : State) m =>
        if m = r.me then s else s.tellMember r m Ck.claims (claimBytes (x.claimsTo r.d (r.rankOf m)))) s
      s.modDisp k (fun y => { y with claims := y.claims ++ [(r.me, x.claimsTo r.d (r.rankOf r.me))] })

/-- A token row on its way: its place at the owner, its token and choice, and its elements (R244, R245). -/
def rowChunk (rank key loc slot token choice : Nat) (row : List (Nat × Bool)) : SentChunk where
  dest := rank
  chunk := key
  shard := 0
  version := 0
  loc := loc
  slot := slot
  token := token
  choice := choice
  elems := row

/-- One granted choice: its route entry, and its row on its way to the owner, or into this member's own slab (R244). -/
def State.sendRow (s : State) (r : CollRun) (x : DispRun) (t j e slot : Nat) : State :=
  let d := r.d
  let v := x.owner e + 2 ^ 17 + x.loc e * 2 ^ 32 + slot * 2 ^ 48
  let key := d.choices * t + j
  let w := s.collPut r.key (d.f 0x68 8 + 8 * key) (bytesP 8 v false)
  if w.1 then w.2.failMine r St.address
  else w.2.withElems r (d.srcVa + t * d.rowElems * typeSize d.mtype) d.mtype d.rowElems (fun row s =>
    let s := (s.collOverflow r (narrowMarks d.wtype row)).collPoison r (row.map (·.2))
    let s := s.dieEvent (8 + key % 4) 0x64 1 (some r.key.c)
    if x.owner e = r.rankOf r.me then s.writeRow r r.me (x.loc e) slot t j row
    else s.sendChunk r (rowChunk (x.owner e) key (x.loc e) slot t j row))

/-- The claims of a round with their grants: granted ones with their slots in ascending token order, and the rejected. -/
def DispRun.assign (x : DispRun) (d : CollDesc) : List (Nat × Nat × Nat × Nat) × List (Nat × Nat) :=
  let gs := x.grants.flatMap (·.2)
  let step := fun (acc : Tab Nat × List (Nat × Nat × Nat × Nat) × List (Nat × Nat)) (m : Nat × Nat × Nat) =>
    let e := x.candAt d m.1 m.2.2
    let key := e * 8 + m.2.1
    let i := Tab.get 0 acc.1 key
    let seen := Tab.put acc.1 key (i + 1)
    match gs.find? (fun g => g.expert == e && g.choice == m.2.1) with
    | some g => if i < g.count then (seen, acc.2.1 ++ [(m.1, m.2.1, e, g.base + i)], acc.2.2)
        else (seen, acc.2.1, acc.2.2 ++ [(m.1, m.2.1)])
    | none => (seen, acc.2.1, acc.2.2 ++ [(m.1, m.2.1)])
  (x.mine.foldl step ([], [], [])).2

/-- The next candidate of token t that it neither holds nor claims: its position, if there is one (R243). -/
def DispRun.nextCand (x : DispRun) (d : CollDesc) (t : Nat) (fallen : List (Nat × Nat × Nat)) : Option Nat :=
  let busy := (x.got.filter (fun g => g.1 == t)).map (·.2)
    ++ ((x.mine ++ fallen).filter (fun m => m.1 == t)).map (fun m => x.candAt d t m.2.2)
  let from' := Tab.get d.choices x.cursor t
  ((List.range (d.cands - from')).map (· + from')).find? (fun p => !busy.contains (x.candAt d t p))

/-- One rejected choice: it falls to the token's next candidate, or is dropped (R243). -/
def State.reject (s : State) (r : CollRun) (acc : List (Nat × Nat × Nat)) (tj : Nat × Nat) :
    List (Nat × Nat × Nat) × State :=
  match (s.findRun r.ck).bind (·.disp) with
  | none => (acc, s)
  | some x =>
    if r.d.f 0x47 1 % 2 = 0 then (acc, s.dropChoice r tj.1 tj.2)
    else match x.nextCand r.d tj.1 acc with
      | none => (acc, s.dropChoice r tj.1 tj.2)
      | some p =>
        let s := s.modDisp r.ck (fun x => { x with cursor := Tab.put x.cursor tj.1 (p + 1) })
        if x.candAt r.d tj.1 p = 0xFFFFFFFF then (acc, s.dropChoice r tj.1 tj.2)
        else (acc ++ [(tj.1, tj.2, p)],
          (s.dieEvent (8 + r.key.c % 4) 0x66 1 (some r.key.c)).modDisp r.ck (fun x => { x with falls := x.falls + 1 }))

/-- All grants of a round are in: rows start, rejected choices fall, and the next round's claims go out; after the last round
the origin's part is done but for acknowledgements (R243, R244). -/
def State.takeRound (s : State) (r : CollRun) (x : DispRun) : State :=
  let k := r.ck
  let a := x.assign r.d
  let s := s.modDisp k (fun x => { x with got := x.got ++ a.1.map (fun g => (g.1, g.2.2.1)) })
  let s := a.1.foldl (fun (s : State) g =>
    if (s.findRun k).isNone then s else s.sendRow r x g.1 g.2.1 g.2.2.1 g.2.2.2) s
  let z := a.2.foldl (fun (acc : List (Nat × Nat × Nat) × State) tj => acc.2.reject r acc.1 tj) ([], s)
  if x.round < r.d.rounds then
    (z.2.modDisp k (fun x => { x with round := x.round + 1, mine := z.1, grants := [] })).sendClaims k
  else (z.2.modDisp k (fun x => { x with round := x.round + 1, mine := [], grants := [] })).dataDone r [] [] 0 []

/-! ## The owner's grants -/

/-- The grants of one round, over choices, then members (R243): rows granted per expert, and each member's grants. -/
def DispRun.grantAll (x : DispRun) (r : CollRun) : Tab Nat × List (Nat × Grant) :=
  let cl := fun (m : Nat) => ((x.claims.find? (fun c => c.1 == m)).map (·.2)).getD []
  let pairs := (List.range r.d.choices).flatMap (fun j => (List.range r.d.n).flatMap (fun m =>
    ((cl m).filter (fun c => c.choice == j && x.owner c.expert == r.rankOf r.me && decide (c.expert < r.d.experts))).map
      (fun c => (m, c))))
  pairs.foldl (fun (acc : Tab Nat × List (Nat × Grant)) p =>
    let c := p.2
    let have' := Tab.get 0 acc.1 c.expert
    let g := Nat.min c.count (r.d.capacity - have')
    (Tab.put acc.1 c.expert (have' + g), acc.2 ++ [(p.1, ⟨c.expert, c.choice, g, have'⟩)])) (x.granted, [])

/-- Claims of every member are in: the round is granted. -/
def State.grantRound (s : State) (r : CollRun) (x : DispRun) : State :=
  let a := x.grantAll r
  let of := fun (m : Nat) => (a.2.filter (fun g => g.1 == m)).map (·.2)
  let s := (List.range r.d.n).foldl (fun (s : State) m =>
    if m = r.me then s else s.tellMember r m Ck.grants (grantBytes (of m))) s
  let rest := (List.range r.d.n).foldl (fun (l : List (Nat × List Claim)) m =>
    l.eraseP (fun c => c.1 == m)) x.claims
  s.modDisp r.ck (fun x => { x with
    granted := a.1
    claims := rest
    ownRound := x.ownRound + 1
    rowsIn := x.rowsIn + (a.2.map (fun g => g.2.count)).sum
    grants := x.grants ++ [(r.me, of r.me)] })

/-- A dispatch goes on as far as it can: `fuel` rounds of either role at most. -/
def State.pump (s : State) (k : CollKey) : Nat → State
  | 0 => s
  | fuel + 1 =>
    match s.findRun k with
    | none => s
    | some r =>
      match r.disp with
      | none => s
      | some x =>
        if x.ownRound ≤ r.d.rounds ∧ (List.range r.d.n).all (fun m => x.claims.any (fun c => c.1 == m)) then
          (s.grantRound r x).pump k fuel
        else if x.round ≤ r.d.rounds ∧ (List.range r.d.n).all (fun m => x.grants.any (fun g => g.1 == m)) then
          (s.takeRound r x).pump k fuel
        else (s.ownerEnds k).settleRun k

/-! ## DISPATCH, CLAIM_COUNT, GRANT -/

/-- The checks of R242 on the expert map and the candidates. -/
def dispOk (r : CollRun) (emap cand : List Nat) : Bool :=
  emap.all (fun w => r.ranks.contains (w % 2 ^ 17) && decide (w / 2 ^ 32 % 1024 ≤ 1019))
    && cand.all (fun c => decide (c < r.d.experts) || c == 0xFFFFFFFF)

/-- The effect of DISPATCH: round 1 begins (R242, R243). -/
def fxDispatch (r : CollRun) (s : State) : State :=
  let d := r.d
  if r.disp.isSome then s
  else s.withBytes r (d.f 0x60 8) (8 * d.experts) (fun eb s =>
    s.withBytes r (d.f 0x50 8) (4 * d.cands * d.tokens) (fun cb s =>
      let emap := (chunksOf 8 d.experts eb).map leNat
      let cand := (chunksOf 4 (d.cands * d.tokens) cb).map leNat
      if !dispOk r emap cand then s.failMine r St.invalid
      else
        let all := (List.range d.tokens).flatMap (fun t => (List.range d.choices).map (fun j => (t, j, j)))
        let none' := fun (m : Nat × Nat × Nat) => (cand[m.1 * d.cands + m.2.2]?).getD 0 == 0xFFFFFFFF
        let x : DispRun := {
          emap := emap
          cand := cand
          round := 1
          mine := all.filter (fun m => !none' m)
          grants := []
          cursor := []
          got := []
          drops := 0
          falls := 0
          ownRound := 1
          claims := (s.coll.claims.filter (fun e => e.1 == r.ck)).map (·.2)
          granted := []
          rowsIn := 0
          ownerDone := false }
        let s := { s with coll.claims := s.coll.claims.filter (fun e => !(e.1 == r.ck)) }
        let s := s.modRun r.ck (fun r => { r with disp := some x })
        let s := (all.filter none').foldl (fun (s : State) m => s.dropChoice r m.1 m.2.1) s
        ((s.collProgress r.ck).sendClaims r.ck).pump r.ck 20))

/-- DISPATCH (R243). -/
def execDispatch (k : CollKey) (s : State) : Host.Outcome State Fault Refusal :=
  onCtx k.c s (fun s => s.onOp k 0x10 fxDispatch)

/-- The effect of CLAIM_COUNT: an origin's counts of one round (R243); those that come before the DISPATCH has read its tables wait for it
(R241). -/
def fxClaimCount (k : CollKey) (m : Nat) (cs : List Claim) (r : CollRun) (s : State) : State :=
  if r.d.op = 0x10 ∧ r.disp.isNone then { s with coll.claims := s.coll.claims ++ [(k, m, cs)] }
  else if r.disp.isNone ∨ r.d.n ≤ m ∨ m = r.me then s
  else ((s.modDisp k (fun x => { x with claims := x.claims ++ [(m, cs)] })).collProgress k).pump k 20

/-- The effect of GRANT: an owner's grants of this round (R243). -/
def fxGrant (k : CollKey) (m : Nat) (gs : List Grant) (r : CollRun) (s : State) : State :=
  match r.disp with
  | none => s
  | some x =>
    if r.d.n ≤ m ∨ m = r.me ∨ r.dataDone ∨ x.grants.any (fun g => g.1 == m) then s
    else ((s.modDisp k (fun x => { x with grants := x.grants ++ [(m, gs)] })).collProgress k).pump k 20

/-! ## COMBINE (R245) -/

/-- The filled slots of one local expert: slot entries from its FILL word on, or the status that ends the collective (R245, R275). -/
def State.slotsOf (s : State) (r : CollRun) (l : Nat) : Except Status (List (Nat × Nat × Nat)) × State :=
  let f := s.rdColl r.key (r.d.f 0x70 8 + 4 * l) 4
  match f.1 with
  | .error st => (.error st, f.2)
  | .ok fb =>
    let n := Nat.min (leNat fb) r.d.capacity
    let e := f.2.rdColl r.key (r.d.f 0x70 8 + 0x1000 + 8 * (r.d.capacity * l)) (8 * n)
    match e.1 with
    | .error st => (.error st, e.2)
    | .ok eb => (.ok ((List.range n).map (fun i => (l, i, fieldAt eb (8 * i) 8))), e.2)

/-- The filled slots of this member's experts: local index, slot, and the slot entry. -/
def State.filledSlots (s : State) (r : CollRun) : Except Status (List (Nat × Nat × Nat)) × State :=
  let m := s.rdColl r.key (r.d.f 0x60 8) (8 * r.d.experts)
  match m.1 with
  | .error st => (.error st, m.2)
  | .ok mb =>
    let ls := (((chunksOf 8 r.d.experts mb).map leNat).filter (fun w => w % 2 ^ 17 == r.rankOf r.me)).map (fun w => w / 2 ^ 32 % 1024)
    (ls.foldl NSet.insert []).foldl (fun (acc : Except Status (List (Nat × Nat × Nat)) × State) l =>
      match acc.1 with
      | .error _ => acc
      | .ok xs =>
        let y := acc.2.slotsOf r l
        match y.1 with
        | .error st => (.error st, y.2)
        | .ok ys => (.ok (xs ++ ys), y.2)) (.ok [], m.2)

/-- The owner sends each filled slot to the origin and token of its slot entry (R245). -/
def State.sendSlots (s : State) (r : CollRun) : State :=
  let d := r.d
  let f := s.filledSlots r
  match f.1 with
  | .error st => f.2.failMine r st
  | .ok xs => xs.foldl (fun (s : State) x =>
    let origin := x.2.2 % 2 ^ 17
    if (s.findRun r.ck).isNone ∨ origin = r.rankOf r.me then s
    else s.withElems r (r.rowVa d.srcVa d.mtype x.1 x.2.1) d.mtype d.rowElems (fun row s =>
      let key := d.capacity * x.1 + x.2.1
      let s := (s.collOverflow r (narrowMarks d.wtype row)).collPoison r (row.map (·.2))
      s.sendChunk r (rowChunk origin key x.1 x.2.1 (x.2.2 / 2 ^ 32 % 2 ^ 20) (x.2.2 / 2 ^ 17 % 8) row)))
    f.2

/-- Gates of one token: the words of the kept choices with RENORM applied (R245). -/
def gatesOf (renorm : Bool) (gs : List Nat) (valid : List Bool) : List Nat :=
  let kept := ((List.zip gs valid).filter (·.2)).map (·.1)
  match renorm, kept with
  | true, g :: rest =>
    let sum := rest.foldl (redStep 0) g
    gs.map (fun x => toF32 (Fp.div (Fp.decode Fp.fp32 x) (Fp.decode Fp.fp32 sum)))
  | _, _ => gs

/-- y := fma(h, o, y) over the kept choices, element by element, from +0. -/
def weighted (d : CollDesc) (n : Nat) (rows : List (Nat × List Nat)) : List Nat :=
  rows.foldl (fun (y : List Nat) r =>
    let o := (wire d.wtype r.2).map (·.1)
    List.zipWith (fun y o => toF32 (Fp.add (Fp.mul (Fp.decode Fp.fp32 r.1) o) (Fp.decode Fp.fp32 y))) y o)
    (List.replicate n 0)

/-- The output row of token t. -/
def State.combineToken (s : State) (r : CollRun) (ins : List MemberIn) (routes : List Nat) (gates : List (Nat × Bool)) (t : Nat) :
    State :=
  let d := r.d
  let k := d.choices
  let ent := fun (j : Nat) => (routes[k * t + j]?).getD 0
  let valid := (List.range k).map (fun j => ent j / 2 ^ 17 % 2 == 1)
  let gt := (List.range k).map (fun j => (gates[k * t + j]?).getD (0, false))
  let h := gatesOf (decide (d.f 0x47 1 / 2 % 2 = 1)) (gt.map (·.1)) valid
  let kept := (List.range k).filter (fun j => (valid[j]?).getD false)
  let own := s.readBlocks r ((kept.filter (fun j => ent j % 2 ^ 17 == r.rankOf r.me)).map (fun j =>
    (r.rowVa d.srcVa d.mtype (ent j / 2 ^ 32 % 1024) (ent j / 2 ^ 48), d.rowElems)))
  match own.1 with
  | .error st => own.2.failMine r st
  | .ok mine =>
    let z := kept.foldl (fun (acc : List (Nat × List Nat) × Bool × List (List (Nat × Bool))) j =>
      let hj := (h[j]?).getD 0
      let gp := ((gt[j]?).map (·.2)).getD false
      if ent j % 2 ^ 17 = r.rankOf r.me then
        let row := acc.2.2.headD []
        (acc.1 ++ [(hj, row.map (·.1))], acc.2.1 || gp || row.any (·.2), acc.2.2.drop 1)
      else
        let owner := r.ranks.idxOf (ent j % 2 ^ 17)
        let c := (r.chunkOf owner (d.capacity * (ent j / 2 ^ 32 % 1024) + ent j / 2 ^ 48)).getD
          (contribution ins d.wtype d.rowElems (k * t + j))
        (acc.1 ++ [(hj, c.map (·.1))], acc.2.1 || gp || c.any (·.2), acc.2.2)) ([], false, mine)
    let out := toType d.dtype ((weighted d d.rowElems z.1).map (Fp.decode Fp.fp32))
    (own.2.collOverflows r (mine.map (narrowMarks d.wtype) ++ [out.map (·.2)])).putElems r
      (d.dstVa + t * d.rowElems * typeSize d.dtype) d.dtype (out.map (fun e => (e.1, z.2.1))) (fun s => s.collPoison r [z.2.1])

/-- Whether the returned rows have the lengths that the route table calls for. -/
def CollRun.rowsFit (r : CollRun) (ins : List MemberIn) (routes : List Nat) : Bool :=
  ins.length == r.d.choices * r.d.tokens
    && (List.zip ins routes).all (fun x => x.2 / 2 ^ 17 % 2 == 0 || x.2 % 2 ^ 17 == r.rankOf r.me
      || x.1.elems.length == r.d.rowElems)

/-- The effect of COMBINE; `ins` holds the returned row of token t and choice j at place K·t + j, for a row that the pool does not hold. -/
def fxCombine (ins : List MemberIn) (r : CollRun) (s : State) : State :=
  let d := r.d
  let n := d.choices * d.tokens
  s.withBytes r (d.f 0x68 8) (8 * n) (fun rb s =>
    let routes := (chunksOf 8 n rb).map leNat
    if !r.rowsFit ins routes then s
    else s.withElems r (d.f 0x58 8) 6 n (fun gates s =>
      let s := s.sendSlots r
      let s := (List.range d.tokens).foldl (fun (s : State) t =>
        if (s.findRun r.ck).isNone then s else s.combineToken r ins routes gates t) s
      if (s.findRun r.ck).isNone then s else s.dataDone r [] [] 0 []))

/-- COMBINE (R245). -/
def execCombine (k : CollKey) (ins : List MemberIn) (s : State) : Host.Outcome State Fault Refusal :=
  onCtx k.c s (fun s => s.onOp k 0x11 (fxCombine ins))

end Sys2Proof.Machine
end

