-- ==== Sys2Proof/Machine/CollArrive.lean ====
section
/-! DEFINITION. Collective packets as they arrive (R225, R235 to R238, R241, R243, R246): early traffic, other epochs and checks, duplicates, and
what messages of a collective do. -/

namespace Sys2Proof.Machine
open Sys2Proof

/-! ## Gradient-noise statistics (R246) -/

/-- The sum of binary64 values in order. -/
def sum64 (xs : List (BitVec 64)) : Fp.Val :=
  match xs with
  | [] => .fin false 0 0
  | x :: t => t.foldl (fun a y => rnd Fp.f64 (Fp.add a (Fp.decode Fp.f64 y.toNat))) (Fp.decode Fp.f64 x.toNat)

/-- The statistics: S_local, S_global, |G|², tr(Σ), B_noise as FP32 codes with overflow marks, and GNEG. -/
def gnStats (n b gb : Nat) (sl sg : Fp.Val) : List (Nat × Bool) × Bool :=
  let r := rnd Fp.f64
  let num := fun (x : Nat) => Fp.fromInt (Int.ofNat x)
  let local' := r (Fp.div sl (num n))
  let g2 := r (Fp.div (r (Fp.sub (r (Fp.mul (num gb) sg)) (r (Fp.mul (num b) local')))) (num (gb - b)))
  let inv := fun (x : Nat) => r (Fp.div Fp.one (num x))
  let tr := r (Fp.div (r (Fp.sub local' sg)) (r (Fp.sub (inv b) (inv gb))))
  let gneg := Fp.cmp g2 (.fin false 0 0) == some .lt || Fp.cmp g2 (.fin false 0 0) == some .eq
  let noise := if gneg then Fp.Val.inf false else r (Fp.div tr g2)
  let f := fun (v : Fp.Val) => Fp.encode Fp.fp32 false .rne v
  ([f local', f sg, f g2, f tr, if gneg then (0x7F800000, false) else f noise], gneg)

/-- The effect of GN_EXCHANGE: the members' norms, in member order, give the record of Table 10.8; each overflow of its FP32 values counts, at
the engine of the context's own I/O die (R101; which engine is a DESIGN CHOICE, log 16). -/
def fxGnExchange (k : CollKey) (sums : List (BitVec 64 × BitVec 64)) (r : CollRun) (s : State) : State :=
  match r.gn with
  | none => s
  | some own =>
    if !r.gnWait || sums.length ≠ r.d.n then s
    else
      let all := sums.zipIdx.map (fun x => if x.2 = r.me then own else x.1)
      let sl := sum64 (all.map (·.1))
      let sg := sum64 (all.map (·.2))
      let b := r.d.f 0x48 4
      let gb := r.d.f 0x4C 4
      let t := gnStats r.d.n b gb sl sg
      let bytes := natLe 2 r.d.pgroup ++ natLe 2 (1 + 2 * bit t.2) ++ natLe 4 r.d.id ++ natLe 8 (Fp.enc Fp.f64 sl)
        ++ natLe 8 (Fp.enc Fp.f64 sg) ++ natLe 4 b ++ natLe 4 gb ++ t.1.flatMap (fun x => natLe 4 x.1) ++ natLe 4 r.d.n
        ++ List.replicate 8 0
      let s := (t.1.filter (·.2)).foldl (fun (s : State) _ => s.dieOverflow r (k.c % 4)) s
      let w := s.collPut r.key (r.d.f 0x50 8) (bytes.map (fun x => (x, false)))
      if w.1 then w.2.failMine r St.address
      else
        let s := w.2.modRun k (fun r => { r with gnWait := false })
        (s.collProgress k).settleRun k

/-! ## Progress (R236) -/

/-- The effect of PROGRESS_PACKET (R236). -/
def fxProgressPacket (k : CollKey) (t : Nat) (slow : Bool) (r : CollRun) (s : State) : State :=
  let s := if slow then s.modRun k (fun r => { r with slow := true, slowTx := true }) else s
  if r.tReal < t then (s.modRun k (fun r => { r with tReal := t })).progress k.c else s

/-! ## Early traffic and arrival (R241) -/

def collKeyOf (pk : CollPkt) : CollKey := ⟨pk.c, pk.id⟩

/-- Whether a packet is an abort. -/
def isAbort (pk : CollPkt) : Bool :=
  match pk.msg with
  | some (.abort _ _) => true
  | _ => false

/-- The collective that has ended here whose duplicate or message a packet is (R237, R238): a copy that is sent again of a chunk that was
received, or a message other than claims, of the same check. An abort is one until a member has begun another collective of the
COLL_ID (DESIGN CHOICE, log 16: a COLL_ID may be used again). -/
def State.endedOf (s : State) (pk : CollPkt) : Option EndedRun :=
  s.coll.ended.find? (fun e => e.k == (collKeyOf pk) && e.check == pk.chk && (match pk.msg with
    | none => pk.again && e.recvd.contains (pk.member, pk.chunk)
    | some (.claims _ _) => false
    | some (.abort _ _) => !e.anew
    | some _ => true))

/-- Whether a packet is early: of the next epoch, or of a collective that has not started here; one that is held has not, but for an abort
of one that waits for another update (R238, R240, R251). -/
def State.isEarly (s : State) (pk : CollPkt) : Bool :=
  let x := s.ctx pk.c
  pk.epoch == x.epoch + 1 || (pk.epoch == x.epoch && (match s.findRun (collKeyOf pk) with
    | none => (s.endedOf pk).isNone
    | some r => r.held || (r.updHeld && !isAbort pk)))

/-- Whether a packet must be left in its port and VC buffer: it is early, and the share of the port's I/O die is full. -/
def State.mustStick (s : State) (port : Nat) (pk : CollPkt) : Bool :=
  s.isEarly pk && decide (s.obj 0x2302 0 < s.earlyUnits (portDie port) + collUnits pk)

/-- A member that sends a chunk for the first time has begun another collective of the COLL_ID: it sends no chunk of the last one again. -/
def State.beginAnew (s : State) (pk : CollPkt) : State :=
  if pk.msg.isSome ∨ pk.again then s
  else { s with coll.ended := s.coll.ended.map (fun e =>
    if e.k = (collKeyOf pk) then { e with recvd := e.recvd.filter (fun x => x.1 != pk.member), anew := true } else e) }

/-- An early packet is held in the pool, against the share of the port's I/O die. -/
def State.holdEarly (s : State) (port : Nat) (pk : CollPkt) : State :=
  let s := s.beginAnew pk
  { s with coll.early := s.coll.early ++ [(port, pk)] }

/-- What a packet to the device that sent one carries, for a collective that may not run here. -/
def headFor (pk : CollPkt) (kind me : Nat) : CollHead where
  kind := kind
  c := pk.c
  id := pk.id
  epoch := pk.epoch
  check := pk.chk
  member := me
  chunk := pk.chunk
  part := 0
  last := true
  shard := 0
  version := 0
  loc := 0
  slot := 0
  token := 0
  choice := 0
  mask := []

/-- An abort to the device that sent a packet (R225, R241). -/
def State.answerAbort (s : State) (pk : CollPkt) (st : Status) : State :=
  s.sendCollTo pk.src pk.src (320 + pk.c % 4) 1 (headFor pk Ck.abort 0) (natLe 2 st.toNat ++ natLe 4 s.rbd.rank.toNat)

/-- A packet with another epoch is dropped, counted and answered with an abort. -/
def State.dropColl (s : State) (port : Nat) (pk : CollPkt) : State :=
  let die := portDie port
  (({ s with coll.epochDrop := NSet.insert s.coll.epochDrop die }).dieEvent (8 + die) 0x63 1 (some pk.c)).answerAbort pk St.epochMismatch

/-- The abort of a packet is recorded (R238): the flag, the originating rank and the event, at the context's own I/O die (log 16). An abort
whose status has class 0x00 is none. -/
def State.noteAbort (s : State) (pk : CollPkt) : State :=
  match pk.msg with
  | some (.abort st rank) =>
    let die := pk.c % 4
    if statusClass st = 0 then s
    else ({ s with
      coll.abortRx := NSet.insert s.coll.abortRx die
      coll.abortRank := Tab.put s.coll.abortRank die (BitVec.ofNat 17 rank) }).dieEvent (8 + die) 0x62 1 (some pk.c)
  | _ => s

/-- What a packet of a running collective says takes effect (R236, R237, R238, R243, R246). -/
def State.collMsg (s : State) (k : CollKey) (r : CollRun) : CollMsg → State
  | .ack x => (s.modRun k (fun r => { r with unacked := r.unacked.filter (fun u => !u.isRef x) })).settleRun k
  | .progress t slow => fxProgressPacket k t slow r s
  | .abort st rank => if statusClass st = 0 then s else s.failRun r st rank
  | .claims m l => fxClaimCount k m l r s
  | .grants m l => fxGrant k m l r s
  | .sums l => fxGnExchange k l r s

/-- A packet for a collective that has ended here: a chunk that comes again is discarded and acknowledged again (R237). -/
def State.afterEnd (s : State) (pk : CollPkt) : State :=
  match s.endedOf pk with
  | none => s
  | some e => if pk.msg.isNone && pk.last then s.sendCollTo pk.src pk.src (320 + pk.chunk % 4) 1 (headFor pk Ck.ack e.me) [] else s

/-- A collective packet that is not early: of this epoch and of a running collective with the same check, or dropped, or the end of the
collective (R225, R241). -/
def State.collGo (s : State) (port : Nat) (pk : CollPkt) : State :=
  if pk.epoch ≠ (s.ctx pk.c).epoch then s.dropColl port pk
  else match s.findRun (collKeyOf pk) with
    | none => s.afterEnd pk
    | some r =>
      if pk.chk ≠ r.check then (s.failMine r St.invalid).answerAbort pk St.invalid
      else match pk.msg with
        | none => s.acceptColl port r pk
        | some m => s.collMsg (collKeyOf pk) r m

/-- A collective packet that has left its port's buffer (R238, R241). -/
def State.collIn (s : State) (port : Nat) (pk : CollPkt) : State :=
  if s.isEarly pk then ((s.noteAbort pk).holdEarly port pk).dieEvent (8 + portDie port) 0x63 1 (some pk.c)
  else if pk.epoch ≠ (s.ctx pk.c).epoch then s.dropColl port pk
  else (s.noteAbort pk).collGo port pk

/-- A collective packet at a port: it is left in its buffer without its credits where the share is full, or behind one that was left
there; otherwise its units go back at once (R206, R207, R241). -/
def State.collArrive (s : State) (port : Nat) (pk : CollPkt) : State :=
  if s.coll.stuck.any (fun e => e.1 == port && collVc e.2 == collVc pk) || s.mustStick port pk then
    ({ s with coll.stuck := s.coll.stuck ++ [(port, pk)] }).holdUnits port (collVc pk) (collUnits pk)
  else (s.passUnits port (collVc pk) (collUnits pk)).collIn port pk

/-- The packets left in their buffers are looked at again, in order within a port and VC: those that need no room, or have it, leave. -/
def State.unstick (s : State) : State :=
  (s.coll.stuck.foldl (fun (acc : State × List (Nat × Nat)) e =>
    let q := (e.1, collVc e.2)
    if acc.2.contains q || acc.1.mustStick e.1 e.2 then
      ({ acc.1 with coll.stuck := acc.1.coll.stuck ++ [e] }, acc.2 ++ [q])
    else ((acc.1.freeUnits e.1 (collVc e.2) (collUnits e.2)).collIn e.1 e.2, acc.2)) ({ s with coll.stuck := [] }, [])).1

/-- The early traffic of a context is looked at again (R240 step 4, R241). -/
def State.takeEarly (s : State) (c : Nat) : State :=
  let mine := s.coll.early.filter (fun e => e.2.c == c)
  let s := { s with coll.early := s.coll.early.filter (fun e => e.2.c != c) }
  (mine.foldl (fun (s : State) e => if s.isEarly e.2 then s.holdEarly e.1 e.2 else s.collGo e.1 e.2) s).unstick

/-- A collective packet comes in: in standby it wakes the module (R316), and a gated engine group wakes (R310). -/
def State.collComes (s : State) (port : Nat) (pk : CollPkt) : State :=
  if !s.alive || !ctxOk pk.c then s
  else if s.didLost pk.src then s.passUnits port (collVc pk) (collUnits pk)
  else if s.pwr.state = 2 ∨ s.pwr.state = 3 then s.wakeBy 3 else ((s.wakeBy 3).wakeEngine (portDie port)).collArrive port pk

/-- COLL (R241). -/
def execColl (port : Nat) (pk : CollPkt) (s : State) : Host.Outcome State Fault Refusal :=
  onPortIn port s (fun s => s.collComes port pk)

/-- The packet that says a message. -/
def tagPkt (t : CollTag) (m : CollMsg) : CollPkt where
  src := t.src
  c := t.c
  id := t.id
  epoch := t.epoch
  chk := t.chk
  member := 0
  chunk := 0
  part := 0
  last := true
  vc5 := t.vc5
  elems := []
  mask := []
  loc := 0
  slot := 0
  token := 0
  choice := 0
  again := false
  msg := some m

/-- CHUNK_ACK (R237): the copy that went to a rank is acknowledged. -/
def execChunkAck (t : CollTag) (x : ChunkRef) (s : State) : Host.Outcome State Fault Refusal :=
  onTag t s (fun s => s.collComes t.port (tagPkt t (.ack x)))

/-- PROGRESS_PACKET (R236). -/
def execProgressPacket (t : CollTag) (tReal : Nat) (slow : Bool) (s : State) : Host.Outcome State Fault Refusal :=
  onTag t s (fun s => s.collComes t.port (tagPkt t (.progress tReal slow)))

/-- ABORT (R238): the collective ends with the carried status, and the abort is forwarded. -/
def execAbort (t : CollTag) (st : BitVec 16) (rank : Nat) (s : State) : Host.Outcome State Fault Refusal :=
  onTag t s (fun s => s.collComes t.port (tagPkt t (.abort st rank)))

/-- CLAIM_COUNT (R243). -/
def execClaimCount (t : CollTag) (origin : Nat) (claims : List Claim) (s : State) : Host.Outcome State Fault Refusal :=
  onTag t s (fun s => s.collComes t.port (tagPkt t (.claims origin claims)))

/-- GRANT (R243). -/
def execGrant (t : CollTag) (owner : Nat) (grants : List Grant) (s : State) : Host.Outcome State Fault Refusal :=
  onTag t s (fun s => s.collComes t.port (tagPkt t (.grants owner grants)))

/-- GN_EXCHANGE (R246). -/
def execGnExchange (t : CollTag) (sums : List (BitVec 64 × BitVec 64)) (s : State) : Host.Outcome State Fault Refusal :=
  onTag t s (fun s => s.collComes t.port (tagPkt t (.sums sums)))

end Sys2Proof.Machine
end

