-- ==== Sys2Proof/Machine/Collective.lean ====
section
/-! DEFINITION. Collectives (R224 to R241, R246, R262): the COLLECTIVE command, the operations on the members' data, chunks,
progress, aborts, early traffic, the re-shard fence and the gradient-noise statistics. -/

namespace Sys2Proof.Machine
open Sys2Proof

/-! ## Start (R224 to R226, R237, R239, R250, R251) -/

/-- The rank list of a descriptor, or the status that ends the command (R226). -/
def State.rankList (s : State) (k : CmdKey) (d : CollDesc) : Except Status (List Nat) × State :=
  let a := s.rdCmd k d.groupVa (4 * d.n) [.r]
  match a.1 with
  | .error st => (.error st, a.2)
  | .ok b =>
    let ws := (chunksOf 4 d.n b).map leNat
    (if ws.all (fun w => decide (w < 2 ^ 17)) && ws.eraseDups.length == ws.length && ws.contains s.rbd.rank.toNat
     then .ok ws else .error St.invalid, a.2)

/-- The fields that every member must agree on (R225), as bytes. -/
def CollDesc.agreed (d : CollDesc) (ranks : List Nat) : List Byte :=
  natLe 1 d.op ++ natLe 1 d.redOp ++ natLe 1 (d.mtype + 16 * d.wtype) ++ natLe 1 d.dtype ++ natLe 2 d.epoch.toNat
    ++ natLe 4 d.id ++ natLe 8 d.count ++ d.g.flatMap (natLe 4) ++ ranks.flatMap (natLe 4)

/-- A collective that starts. -/
def CollRun.init (k : CmdKey) (d : CollDesc) (ranks : List Nat) (me : Nat) : CollRun where
  key := k
  d := d
  ranks := ranks
  me := me
  check := Config.collCheck (d.agreed ranks)
  held := false
  tReal := 0
  sentProg := 0
  slow := false
  slowTx := false
  unacked := []
  flowlets := 1
  recvd := []
  parts := []
  pool := []
  dataDone := false
  sent := 0
  grad := []
  gn := none
  gnWait := false
  shardWait := false
  disp := none
  upd := none
  fenceStage := 0
  notices := []

/-- A collective ends before it has sent or written anything: its partners are told (R237, R238, R250); a RESHARD takes its fence with it
(R240). -/
def State.failStart (s : State) (r : CollRun) (st : Status) : State :=
  ((s.abortAll r st (r.rankOf r.me)).dropFence r |>.dropRun r).endCmd r.key st

/-- Whether another update of the same group of the context is under way (R251). -/
def State.updBusy (s : State) (r : CollRun) : Bool :=
  s.coll.runs.any (fun x => x.key.c == r.key.c && !(x.key == r.key) && !x.held && x.d.updEn && x.d.pgroup == r.d.pgroup
    && (match x.upd with
        | some u => !u.held
        | none => true))

/-- A collective with UPD_EN reads its group's entry, or is held before it does (R250, R251). -/
def State.takeEntry (s : State) (k : CollKey) : State :=
  match s.findRun k with
  | none => s
  | some r =>
    if !r.d.updEn then s
    else if s.updBusy r then s.modRun k (fun r => { r with upd := some (UpdRun.init r.d.pgroup) })
    else
      let e := s.readEntry r.key r.d.pgroup r.d.count
      match e.1 with
      | .error st => e.2.failStart r st
      | .ok u => (e.2.modCtx k.c (fun x => { x with groupCount := Tab.put x.groupCount r.d.pgroup r.d.count })).modRun k
          (fun r => { r with upd := some u })

/-- A collective that is not held begins: its group must be reachable (R237, R219). -/
def State.beginRun (s : State) (k : CollKey) : State :=
  match s.findRun k with
  | none => s
  | some r =>
    let others := r.ranks.filter (· != r.rankOf r.me)
    if others.any s.rankLost then s.failStart r St.peerLost
    else if others.any (fun x => (s.didOfRank x).isNone) then s.failStart r St.noRoute
    else (s.takeEntry k).takeEarly k.c

/-- A collective that starts under another epoch ends (R239). -/
def State.epochFails (s : State) (k : CmdKey) : State :=
  (s.modCtx k.c (fun x => { x with epochMismatch := true })).failCmd k St.epochMismatch 0

/-- The start of a COLLECTIVE wakes the module's engine groups (R310; log 23). -/
def State.wakeEngines (s : State) : State := (List.range 4).foldl State.wakeEngine s

/-- Start the collective of a valid descriptor (R225, R239, R240). -/
def State.startRun (s : State) (k : CmdKey) (d : CollDesc) (ranks : List Nat) : State :=
  let x := s.ctx k.c
  let key : CollKey := ⟨k.c, d.id⟩
  let r := CollRun.init k d ranks (ranks.idxOf s.rbd.rank.toNat)
  let next := d.epoch == x.epoch + 1
  if (s.findRun key).isSome then s.failCmd k St.invalid 0
  else if x.fence.isSome then
    if next then { s with coll.runs := s.coll.runs ++ [{ r with held := true }] } else s.epochFails k
  else if d.op = 0x20 then
    if !next then s.epochFails k
    else
      let early := (s.coll.notices.filter (fun e => e.1 == k.c && e.2.1 == d.id)).map (·.2.2)
      let s := { s with
        coll.runs := s.coll.runs ++ [{ r with notices := early.foldl NSet.insert [] }]
        coll.notices := s.coll.notices.filter (fun e => !(e.1 == k.c && e.2.1 == d.id)) }
      (s.modCtx k.c (fun x => { x with fence := some k })).beginRun key
  else if d.epoch ≠ x.epoch then s.epochFails k
  else ({ s with coll.runs := s.coll.runs ++ [r] }).beginRun key

/-- The effect of COLLECTIVE (R224, R226, R239, R248, R271). -/
def fxCollective (k : CmdKey) (m : Cmd) (s : State) : State :=
  if s.obj 0x2300 1 = 0 then s.failCmd k St.cancelled 0
  else
    let a := s.rdCmd k (dField m.desc 0x18 8) 128 [.r]
    match a.1 with
    | .error st => a.2.failCmd k st 0
    | .ok b =>
      let d := collDesc b
      if !collDescOk b then a.2.failCmd k St.invalid 0
      else if (d.op = 0x10 ∨ d.op = 0x11) ∧ s.obj 0x2310 1 = 0 then a.2.failCmd k St.cancelled 0
      else if d.updEn ∧ s.obj 0x2400 1 = 0 then a.2.failCmd k St.cancelled 0
      else
        let g := a.2.rankList k d
        match g.1 with
        | .error st => g.2.failCmd k st 0
        | .ok ranks => g.2.wakeEngines.startRun k d ranks

/-- COLLECTIVE (R224): while 256 run, it waits. -/
def execCollective (k : CmdKey) (s : State) : Host.Outcome State Fault Refusal :=
  onKey k s (fun s => if 256 ≤ s.coll.runs.length then s else s.actCmd k 8 (fxCollective k))

/-! ## The operations -/

/-- The effect of REDUCE_SCATTER: block m of the reduction (R229, R246, R249); every member's contribution is its whole source. -/
def fxReduceScatter (ins : List MemberIn) (r : CollRun) (s : State) : State :=
  let d := r.d
  if !r.insOk ins (d.n * d.count) || r.updHeld then s
  else s.withElems r d.srcVa d.mtype (d.n * d.count) (fun own s =>
    let red := r.reduceAll (fun e => e / d.count)
      ((List.range d.n).map (fun m => if m = r.me then own else contribution ins d.wtype d.count m))
    let mine := ((red.lists.headD []).drop (r.me * d.count)).take d.count
    let res := scaleAll d.postScale (mine.map (·.1))
    let pois := mine.map (·.2)
    let out := toType d.dtype (res.map (Fp.decode Fp.fp32))
    let keep := !(d.updEn && d.dstVa == 0)
    let fin := fun (s : State) =>
      let s := if d.updEn then s.modRun r.ck (fun r => { r with
          grad := List.zip (res.map (BitVec.ofNat 32)) pois }) else s
      (s.gnOwn r (own.map (·.1)) res).dataDone r [] (pois ++ own.map (·.2)) (chunkCount d.wtype d.count) red.sends
    if keep then
      (s.collOverflows r (red.marks ++ [out.map (·.2)])).putElems r d.dstVa d.dtype (List.zip (out.map (·.1)) pois) fin
    else fin (s.collOverflows r red.marks))

/-- REDUCE_SCATTER (R229). -/
def execReduceScatter (k : CollKey) (ins : List MemberIn) (s : State) : Host.Outcome State Fault Refusal :=
  onCtx k.c s (fun s => s.onOp k 1 (fxReduceScatter ins))

/-- The member that forms element e of an ALL_REDUCE. -/
def CollRun.formedBy (r : CollRun) (e : Nat) : Nat :=
  ((List.range r.d.n).find? (fun b =>
    decide (Config.reducedStart b r.d.count r.d.n ≤ e) && decide (e < Config.reducedStart (b + 1) r.d.count r.d.n))).getD 0

/-- The effect of ALL_REDUCE: every member holds the result in the wire format, widened (R229). -/
def fxAllReduce (ins : List MemberIn) (r : CollRun) (s : State) : State :=
  let d := r.d
  if !r.insOk ins d.count then s
  else s.withElems r d.srcVa d.mtype d.count (fun own s =>
    let red := r.reduceAll r.formedBy
      ((List.range d.n).map (fun m => if m = r.me then own else contribution ins d.wtype d.count m))
    let sum := red.lists.headD []
    let res := scaleAll d.postScale (sum.map (·.1))
    let bad := sum.map (·.2)
    let w := wire d.wtype res
    let out := toType d.dtype (w.map (·.1))
    let pois := (List.zip bad (spreadMarks d.count d.wtype bad)).zipIdx.map (fun p =>
      if r.formedBy p.2 = r.me then p.1.1 else p.1.2)
    let formed := w.zipIdx.map (fun v => v.1.2 && r.formedBy v.2 == r.me)
    let block := (indexed (List.zip res bad)).filter (fun e => r.formedBy e.1 == r.me)
    let base := 4 * cdiv (chunkCount d.wtype d.count) 4
    let gather := r.gatherSends r.formedBy (fun _ => 0) (fun e => base + chunkNo d.wtype d.count e) (indexed (List.zip res bad))
    (s.collOverflows r (red.marks ++ [formed, out.map (·.2)])).putElems r d.dstVa d.dtype (List.zip (out.map (·.1)) pois) (fun s =>
      (s.gnOwn r (own.map (·.1)) (block.map (·.2.1))).dataDone r [] (pois ++ own.map (·.2))
        (chunkCount d.wtype d.count) (red.sends ++ gather)))

/-- ALL_REDUCE (R229). -/
def execAllReduce (k : CollKey) (ins : List MemberIn) (s : State) : Host.Outcome State Fault Refusal :=
  onCtx k.c s (fun s => s.onOp k 3 (fxAllReduce ins))

/-- Version v meets VMODE against the entry e of the version record (R234, R263). -/
def versionOk (vmode v e : Nat) : Bool :=
  if vmode = 2 then v == e
  else if vmode = 3 then v == e || decide (1 ≤ (v + 2 ^ 32 - e) % 2 ^ 32 ∧ (v + 2 ^ 32 - e) % 2 ^ 32 ≤ 2 ^ 31 - 1)
  else true

/-- What the shard header of a gather says: proceed with a version, wait, or do not send (R262). -/
inductive ShardHdr where
  | go (version : Nat)
  | busy
  | failed
  deriving DecidableEq, Repr

def shardHdr (b : List Byte) : ShardHdr :=
  let w := fieldAt b 4 1
  if w % 2 = 1 then .busy else if w / 2 % 2 = 1 then .failed else .go (fieldAt b 0 4)

/-- One member's shard of a gather: written, with its version under VMODE 1, or passed over with STALE_SHARD. -/
def State.takeShard (s : State) (r : CollRun) (vrec : List Byte) (j : Nat) (sent : Bool) (version : Nat)
    (xs : List (Nat × Bool)) : Option Status × State :=
  let d := r.d
  let vmode := d.f 0x40 4
  if vmode ≠ 0 ∧ (!sent ∨ !versionOk vmode version (fieldAt vrec (4 * j) 4)) then
    (none, s.noteCmd r.key St.staleShard)
  else
    let out := toType d.dtype ((wire d.wtype (xs.map (·.1))).map (·.1))
    let w := (s.collOverflow r (out.map (·.2))).writeElems r.key (d.dstVa + j * d.count * typeSize d.dtype) d.dtype
      (List.zip (out.map (·.1)) (xs.map (·.2)))
    match w.1 with
    | some st => (some st, w.2)
    | none =>
      if vmode = 1 then
        let v := w.2.collPut r.key (d.f 0x48 8 + 4 * j) (bytesP 4 version false)
        (if v.1 then some St.address else none, v.2)
      else (none, w.2)

/-- The gather once this member's header allows it: own shard `own`, sent or not, of a version. -/
def State.gatherGo (s : State) (r : CollRun) (ins : List MemberIn) (sent : Bool) (version : Nat) : State :=
  let d := r.d
  s.withElems r d.srcVa d.mtype d.count (fun own s =>
    let shard := fun (j : Nat) => match ins[j]? with
      | some i => if j = r.me then (sent, version, own) else (!i.failed, i.version.toNat, contribution ins d.wtype d.count j)
      | none => (sent, version, own)
    let go := fun (vrec : List Byte) (s : State) =>
      let step := fun (acc : Option Status × State) (j : Nat) =>
        match acc.1 with
        | some _ => acc
        | none =>
          let y := shard j
          acc.2.takeShard r vrec j y.1 y.2.1 y.2.2
      let z := (List.range d.n).foldl step (none, s)
      match z.1 with
      | some st => z.2.failMine r st
      | none =>
        let mine := if sent then [narrowMarks d.wtype own] else []
        let all := (List.range d.n).flatMap (fun j =>
          if (shard j).1 then (indexed (shard j).2.2).map (fun e => (j * d.count + e.1, e.2)) else [])
        let sends := r.gatherSends (fun e => e / d.count) (fun j => (shard j).2.1) (chunkNo d.wtype d.count) all
        z.2.dataDone r mine ((List.range d.n).flatMap (fun j => (shard j).2.2.map (·.2)))
          (if sent then chunkCount d.wtype d.count else 0) sends
    if 2 ≤ d.f 0x40 4 then s.withBytes r (d.f 0x48 8) (4 * d.n) go else go [] s)

/-- The effect of ALL_GATHER (R233, R234, R262). -/
def fxAllGather (ins : List MemberIn) (r : CollRun) (s : State) : State :=
  let d := r.d
  if !r.insOk ins d.count || r.shardWait then s
  else if d.f 0x40 4 = 0 then s.gatherGo r ins true 0
  else if d.srcVa < 64 then s.failMine r St.address
  else s.withBytes r (d.srcVa - 64) 64 (fun b s =>
    match shardHdr b with
    | .busy => s.modRun r.ck (fun r => { r with shardWait := true })
    | .failed => s.gatherGo r ins false 0
    | .go v => s.gatherGo r ins true v)

/-- ALL_GATHER (R262). -/
def execAllGather (k : CollKey) (ins : List MemberIn) (s : State) : Host.Outcome State Fault Refusal :=
  onCtx k.c s (fun s => s.onOp k 2 (fxAllGather ins))

/-- The effect of SHARD_HEADER_RELEASE: a waiting gather goes on once BUSY = 0 (R262). -/
def fxShardHeaderRelease (r : CollRun) (s : State) : State :=
  if !r.shardWait then s
  else s.withBytes r (r.d.srcVa - 64) 64 (fun b s =>
    if shardHdr b = .busy then s else s.modRun r.ck (fun r => { r with shardWait := false }))

/-- SHARD_HEADER_RELEASE (R262). -/
def execShardHeaderRelease (k : CollKey) (s : State) : Host.Outcome State Fault Refusal :=
  onCtx k.c s (fun s => s.onOp k 2 fxShardHeaderRelease)

/-- One block that a member sent to this one is converted and written: none, or the status that ends the collective. -/
def State.takeBlock (s : State) (r : CollRun) (va : Nat) (xs : List (Nat × Bool)) : Option Status × State :=
  let out := toType r.d.dtype ((wire r.d.wtype (xs.map (·.1))).map (·.1))
  (s.collOverflow r (out.map (·.2))).writeElems r.key va r.d.dtype (List.zip (out.map (·.1)) (xs.map (·.2)))

/-- Blocks in member order, each at its address. -/
def State.takeBlocks (s : State) (r : CollRun) (bs : List (Nat × List (Nat × Bool))) : Option Status × State :=
  bs.foldl (fun (acc : Option Status × State) b =>
    match acc.1 with
    | some _ => acc
    | none => acc.2.takeBlock r b.1 b.2) (none, s)

/-- Finish an exchange: the blocks that come in are written, then those of `own` that are not this member's leave, each to its member with
the numbering of its chunks. -/
def State.exchange (s : State) (r : CollRun) (bs : List (Nat × List (Nat × Bool))) (own : List (List (Nat × Bool))) (chunks : Nat)
    (sends : List SentChunk) : State :=
  let z := s.takeBlocks r bs
  match z.1 with
  | some st => z.2.failMine r st
  | none => z.2.dataDone r (own.map (narrowMarks r.d.wtype))
      (own.flatMap (fun b => b.map (·.2)) ++ bs.flatMap (fun b => b.2.map (·.2))) chunks sends

/-- The effect of ALL_TO_ALL: block j goes to member j, and comes from member j (R226). -/
def fxAllToAll (ins : List MemberIn) (r : CollRun) (s : State) : State :=
  let d := r.d
  if !r.insOk ins d.count then s
  else s.withElems r d.srcVa d.mtype (d.n * d.count) (fun own s =>
    let block := fun (j : Nat) => (own.drop (j * d.count)).take d.count
    let bs := (List.range d.n).map (fun j =>
      (d.dstVa + j * d.count * typeSize d.dtype, if j = r.me then block j else contribution ins d.wtype d.count j))
    let sends := ((List.range d.n).filter (· != r.me)).flatMap (fun j =>
      cutChunks (r.rankOf j) (fun e => chunkNo d.wtype d.count (j * d.count + e)) (indexed (block j)))
    s.exchange r bs ((List.range d.n).map block) (chunkCount d.wtype (d.n * d.count)) sends)

/-- ALL_TO_ALL (R226). -/
def execAllToAll (k : CollKey) (ins : List MemberIn) (s : State) : Host.Outcome State Fault Refusal :=
  onCtx k.c s (fun s => s.onOp k 4 (fxAllToAll ins))

/-- The effect of ALL_TO_ALLV: counts and offsets from the tables; SCNT[j] elements from SOFF[j] go to member j, and what a member sends
must be as long as RCNT says (R227). -/
def fxAllToAllv (ins : List MemberIn) (r : CollRun) (s : State) : State :=
  let d := r.d
  let n := 8 * d.n
  if ins.length ≠ d.n then s
  else s.withBytes r (d.f 0x40 8) n (fun sc s => s.withBytes r (d.f 0x48 8) n (fun so s =>
    s.withBytes r (d.f 0x50 8) n (fun rc s => s.withBytes r (d.f 0x58 8) n (fun ro s =>
      let at8 := fun (b : List Byte) (j : Nat) => fieldAt b (8 * j) 8
      let theirs := fun (j : Nat) => contribution ins d.wtype (2 ^ 40) j
      let lenOf := fun (j : Nat) => if j = r.me then at8 sc j else (theirs j).length
      if (List.range d.n).any (fun j => at8 rc j != lenOf j) then s.failMine r St.invalid
      else
        let e := s.readBlocks r ((List.range d.n).map (fun j => (d.srcVa + at8 so j * typeSize d.mtype, at8 sc j)))
        match e.1 with
        | .error st => e.2.failMine r st
        | .ok own =>
          let bs := (List.range d.n).map (fun j =>
            (d.dstVa + at8 ro j * typeSize d.dtype, if j = r.me then (own[j]?).getD [] else theirs j))
          let sends := ((List.range d.n).filter (· != r.me)).flatMap (fun j =>
            cutChunks (r.rankOf j) (fun x => x / chunkElems d.wtype) (indexed ((own[j]?).getD [])))
          e.2.exchange r bs own (chunkCount d.wtype (own.map (·.length)).sum) sends))))

/-- ALL_TO_ALLV (R227). -/
def execAllToAllv (k : CollKey) (ins : List MemberIn) (s : State) : Host.Outcome State Fault Refusal :=
  onCtx k.c s (fun s => s.onOp k 5 (fxAllToAllv ins))

/-- The effect of BROADCAST: the root's elements, in the wire format, at every member (R233). -/
def fxBroadcast (ins : List MemberIn) (r : CollRun) (s : State) : State :=
  let d := r.d
  let root := d.f 0x40 4
  if ins.length ≠ d.n then s
  else if r.me = root then
    s.withElems r d.srcVa d.mtype d.count (fun own s =>
      let sends := r.partners.flatMap (fun m => cutChunks (r.rankOf m) (chunkNo d.wtype d.count) (indexed own))
      s.exchange r [(d.dstVa, own)] [own] (chunkCount d.wtype d.count) sends)
  else if (contribution ins d.wtype d.count root).length ≠ d.count then s
  else s.exchange r [(d.dstVa, contribution ins d.wtype d.count root)] [] (chunkCount d.wtype d.count) []

/-- BROADCAST (R233). -/
def execBroadcast (k : CollKey) (ins : List MemberIn) (s : State) : Host.Outcome State Fault Refusal :=
  onCtx k.c s (fun s => s.onOp k 6 (fxBroadcast ins))

/-- The atomic additions of one chunk of ACCUMULATE, from element `i` of the source on, each by the engine of its element's chunk (R224):
where it stopped and why. -/
def State.addChunk (s : State) (r : CollRun) (i : Nat) (xs : List (Nat × Bool)) : Nat × Option Status × Bool × State :=
  xs.foldl (fun (acc : Nat × Option Status × Bool × State) x =>
    if acc.2.1.isSome || acc.2.2.1 then acc
    else if x.2 then (acc.1 + 1, none, false, acc.2.2.2.noteCmd r.key St.poison)
    else
      let tail := natLe 6 (r.d.dstVa + 4 * acc.1) ++ natLe 2 1 ++ natLe 8 x.1
      match acc.2.2.2.form r.key.c (320 + acc.1 / 4096 % 4) (r.rankOf (r.d.f 0x40 4)) 4 false tail (.coll r.ck) with
      | .sent t => (acc.1 + 1, none, false, t)
      | .noRoute t => (acc.1, some (t.groupStatus r), false, t)
      | .wait => (acc.1, none, true, acc.2.2.2)) (i, none, false, s)

/-- The effect of ACCUMULATE: the next 4096 elements, once those before are added (R228). -/
def fxAccumulate (r : CollRun) (s : State) : State :=
  let d := r.d
  if s.collTrans r.ck then s
  else s.withElems r (d.srcVa + 4 * r.sent) 6 (Nat.min 4096 (d.count - r.sent)) (fun xs s =>
    let z := s.addChunk r r.sent xs
    match z.2.1 with
    | some st => z.2.2.2.failMine r st
    | none =>
      let s := (z.2.2.2.modRun r.ck (fun r => { r with sent := z.1 })).collProgress r.ck
      if d.count ≤ z.1 then s.dataDone r [] [] (chunkCount 0 d.count) [] else s)

/-- ACCUMULATE (R228). -/
def execAccumulate (k : CollKey) (s : State) : Host.Outcome State Fault Refusal :=
  onCtx k.c s (fun s => s.onOp k 7 fxAccumulate)

/-! ## The re-shard fence (R240) -/

/-- Fence notices to the members that differ in coordinate i alone, as MGMT packets. -/
def State.sendNotices (s : State) (r : CollRun) (i : Nat) : State :=
  (r.line i).foldl (fun (s : State) m =>
    match s.didOfRank (r.rankOf m) with
    | some did => s.mgmt did Mg.fenceNotice (natLe 1 r.key.c ++ natLe 4 r.d.id ++ natLe 4 r.me)
    | none => s) s

/-- The epoch rises: the held collectives and the early traffic are released, and the RESHARD completes (R240 step 4). -/
def State.raiseEpoch (s : State) (r : CollRun) : State :=
  let c := r.key.c
  let s := s.modCtx c (fun x => { x with epoch := x.epoch + 1, fence := none })
  let held := s.coll.runs.filter (fun x => x.held && x.key.c == c)
  let s := held.foldl (fun (s : State) h =>
    if h.d.op = 0x20 then (s.dropRun h).epochFails h.key
    else (s.modRun h.ck (fun x => { x with held := false })).beginRun h.ck) s
  ((s.takeEarly c).modRun r.ck (fun x => { x with dataDone := true })).settleRun r.ck

/-- The fence goes on as far as the notices that have come in allow: `fuel` stages at most. -/
def State.fenceGo (s : State) (k : CollKey) : Nat → State
  | 0 => s
  | fuel + 1 =>
    match s.findRun k with
    | none => s
    | some r =>
      if r.fenceStage = 0 then s
      else if 4 < r.fenceStage then s.raiseEpoch r
      else if (r.line (r.fenceStage - 1)).all (fun m => NSet.mem r.notices m) then
        let s := s.sendNotices r r.fenceStage
        (s.modRun k (fun x => { x with fenceStage := x.fenceStage + 1 })).fenceGo k fuel
      else s

/-- The effect of RESHARD: once every earlier collective of the context has completed, the notices begin. -/
def fxReshard (r : CollRun) (s : State) : State :=
  let waits := s.coll.runs.any (fun x => x.key.c == r.key.c && !(x.key == r.key) && !x.held)
  if r.fenceStage ≠ 0 || waits || (s.ctx r.key.c).fence ≠ some r.key then s
  else
    let s := s.sendNotices r 0
    ((s.modRun r.ck (fun x => { x with fenceStage := 1 })).collProgress r.ck).fenceGo r.ck 6

/-- RESHARD (R240). -/
def execReshard (k : CollKey) (s : State) : Host.Outcome State Fault Refusal :=
  onCtx k.c s (fun s => s.onOp k 0x20 fxReshard)

/-- The effect of FENCE_NOTICE: kept until its RESHARD has started here, or taken by it. -/
def fxFenceNotice (k : CollKey) (m : Nat) (s : State) : State :=
  if !s.alive then s
  else match s.findRun k with
    | none => { s with coll.notices := s.coll.notices ++ [(k.c, k.id, m)] }
    | some r =>
      if r.held then { s with coll.notices := s.coll.notices ++ [(k.c, k.id, m)] }
      else if r.d.op ≠ 0x20 then s
      else ((s.modRun k (fun x => { x with notices := NSet.insert x.notices m })).collProgress k).fenceGo k 6

/-- FENCE_NOTICE (R240). -/
def execFenceNotice (k : CollKey) (member : Nat) (s : State) : Host.Outcome State Fault Refusal :=
  onCtx k.c s (fxFenceNotice k member)

/-! ## Chunks, progress and aborts (R235 to R238) -/

/-- The effect of CHUNK_RESEND: the copy leaves again over a new flowlet. -/
def fxChunkResend (k : CollKey) (x : ChunkRef) (r : CollRun) (s : State) : State :=
  match r.unacked.find? (·.isRef x) with
  | none => s
  | some u =>
    let s := s.modRun k (fun r => { r with flowlets := r.flowlets + 1 })
    (s.sendPackets { r with flowlets := r.flowlets + 1 } u).dieEvent (8 + x.chunk % 4) 0x61 1 (some k.c)

/-- CHUNK_RESEND (R237). -/
def execChunkResend (k : CollKey) (x : ChunkRef) (s : State) : Host.Outcome State Fault Refusal :=
  onCtx k.c s (fun s => s.onRun k (fxChunkResend k x))

/-- CHUNK_TIMEOUT (R237): the collective fails with the status of R219. -/
def execChunkTimeout (k : CollKey) (x : ChunkRef) (s : State) : Host.Outcome State Fault Refusal :=
  onCtx k.c s (fun s => s.onRun k (fun r s =>
    if r.unacked.any (·.isRef x) then s.failMine r (s.groupStatus r) else s))

/-- The members that wait on this one for data: it has not yet sent it, they have not acknowledged it, or its update is under way
(R235). -/
def CollRun.waiting (r : CollRun) : List Nat :=
  r.sendsTo.filter (fun m => !r.dataDone || r.upd.isSome || r.unacked.any (fun u => u.dest == r.rankOf m))

/-- The effect of PROGRESS_SEND: T_REAL to every member that waits for data, when it has advanced since the last (R235); a held update sends
nothing (R251). -/
def fxProgressSend (k : CollKey) (r : CollRun) (s : State) : State :=
  if r.tReal ≤ r.sentProg || r.updHeld then s
  else
    let s := r.waiting.foldl (fun (s : State) m =>
      s.tellMember r m Ck.progress (natLe 8 r.tReal ++ natLe 1 (bit r.slowTx))) s
    s.modRun k (fun r => { r with sentProg := r.tReal, slowTx := false })

/-- PROGRESS_SEND (R235). -/
def execProgressSend (k : CollKey) (s : State) : Host.Outcome State Fault Refusal :=
  onCtx k.c s (fun s => s.onRun k (fxProgressSend k))

/-! ## Status registers (Tables 10.10, 10.11) -/

/-- CE_STATUS of I/O die i. -/
def State.ceStatus (s : State) (i : Nat) : Nat :=
  bit (s.coll.runs.any (fun r => r.unacked.any (fun u => u.chunk % 4 == i) || r.parts.any (fun p => p.2.1 % 4 == i)
      || r.pool.any (fun e => e.2.chunk % 4 == i))) + 2 * bit (NSet.mem s.coll.overflow i)
    + 4 * bit (NSet.mem s.coll.abortRx i) + 8 * bit (NSet.mem s.coll.epochDrop i) + 16 * bit (s.epochHeld i)
    + 256 * (Tab.get 0 s.coll.abortRank i).toNat

/-- CE_CTX_STATUS of context c. -/
def State.ceCtxStatus (s : State) (c : Nat) : Nat :=
  let x := s.ctx c
  x.epoch.toNat + 2 ^ 16 * bit x.fence.isSome + 2 ^ 17 * bit ((s.coll.early ++ s.coll.stuck).any (fun e => e.2.c == c))
    + 2 ^ 18 * bit x.epochMismatch + 2 ^ 19 * bit x.ceSlow

end Sys2Proof.Machine
end

