-- ==== Sys2Proof/Machine/Update.lean ====
section
/-! DEFINITION. The update engine (R249 to R271): chunks, the two phases, completion, and parity deltas at their holder. -/

namespace Sys2Proof.Machine
open Sys2Proof

/-! ## One element (R254 to R256) -/

/-- The tensors that a program writes: operand code, address, element type and offset in the protected image, if any. -/
structure Dest where
  code : Nat
  va : Nat
  ty : Nat
  img : Option Nat
  deriving DecidableEq, Repr

/-- The destinations of an update in the order of R256. -/
def UpdRun.dests (u : UpdRun) (count : Nat) : List Dest :=
  let b := u.entry
  let wBytes := count * typeSize (enWt b)
  let sBytes := count * typeSize (enSt b)
  (if writes u.prog 0x21 then [(⟨0x21, enW b, enWt b, some 0⟩ : Dest)] else [])
    ++ ((List.range (enNstate b)).filter (fun k => writes u.prog (0x22 + k))).map (fun k =>
        (⟨0x22 + k, enS b k, enSt b, some (wBytes + k * sBytes)⟩ : Dest))
    ++ (if enOut b = 0 then [] else [(⟨0x30, enOut b, enOt b, none⟩ : Dest)])

/-- The value stored to a destination. -/
def UpdIn.stored (i : UpdIn) (wr : Tab Nat) (code : Nat) : Nat :=
  if code = 0x30 then (match Tab.find wr 0x30 with
    | some v => v
    | none => i.src wr 0x21)
  else i.src wr code

/-- Codes stored for one element, with overflow marks; a BF16 store with SR draws once (R256). -/
def UpdRun.element (u : UpdRun) (i : UpdIn) (ds : List Dest) (seed : BitVec 32) : List (Nat × Bool) × BitVec 32 :=
  let wr := i.run u.prog
  ds.foldl (fun (acc : List (Nat × Bool) × BitVec 32) d =>
    let v := Fp.decode Fp.fp32 (i.stored wr d.code)
    if d.ty = 4 ∧ enSr u.entry then
      let x := Fp.seedStep acc.2
      (acc.1 ++ [Fp.encode Fp.bf16 false (.sr (Fp.drawOf x)) v], x)
    else (acc.1 ++ [Fp.encode (typeFmt d.ty) false .rne v], acc.2)) ([], seed)

/-- The update number t of a group (Table 11.3). -/
def UpdRun.t (u : UpdRun) : Nat := enStep u.entry + 1

/-- The generator of chunk i (R256). -/
def UpdRun.chunkSeed (u : UpdRun) (i : Nat) : BitVec 32 :=
  BitVec.ofNat 32 (fieldAt u.entry 0x14 4) ^^^ BitVec.ofNat 32 u.t ^^^ BitVec.ofNat 32 (i * 2 ^ 16)

/-! ## Updates and cuts (R290) -/

/-- Holders that must acknowledge a step marker: P of them, none where no parity group is configured. -/
def CtxState.holders (x : CtxState) : Nat := if bits x.parCfg 4 0 = 0 then 0 else x.parP

/-- Whether the first write of an update must wait for the cut being taken (R290). -/
def State.cutHolds (s : State) (r : CollRun) (u : UpdRun) : Bool :=
  let x := s.ctx r.key.c
  !u.wrote && enParEn u.entry && (match x.cut with
    | some k => !(k.copied && decide (x.holders ≤ k.acked.length))
    | none => false)

/-- Whether an update of a context is held now under R290: one that has come to its first write, while the cut is not recorded at the holders. -/
def State.heldUnder (s : State) (c : Nat) : Bool :=
  (s.ctx c).cutHeld && s.coll.runs.any (fun r => r.key.c == c && (match r.upd with
    | some u => s.cutHolds r u
    | none => false))

/-- The update is held: CUT_STATUS.HELD. -/
def State.noteHeld (s : State) (r : CollRun) : State := s.modCtx r.key.c (fun x => { x with cutHeld := true })

/-! ## One chunk (R257, R258) -/

/-- Elements [lo, hi) of chunk i of a block. -/
def chunkSpan (w count i : Nat) : Nat × Nat := (i * chunkElems w, Nat.min count ((i + 1) * chunkElems w))

/-- Elements of a tensor as FP32 codes, where the program needs them. -/
def State.tensor (s : State) (r : CollRun) (need : Bool) (va t lo n : Nat) :
    Except Status (List (Nat × Bool)) × State :=
  if need then s.readElems r.key (va + lo * typeSize t) t n else (.ok (List.replicate n (0, false)), s)

/-- The shard header shows BUSY before the first write (R261). -/
def State.markBusy (s : State) (r : CollRun) (u : UpdRun) : State :=
  if u.wrote then s
  else
    let s := if enOut u.entry = 0 then s else (s.collPut r.key (enOut u.entry - 60) (bytesP 4 1 false)).2
    s.modRun r.ck (fun r => { r with upd := r.upd.map (fun u => { u with wrote := true }) })

/-- The old bytes of a destination's elements, for the deltas. -/
def State.oldBytes (s : State) (r : CollRun) (d : Dest) (lo n : Nat) : List Byte × State :=
  let e := s.vaRead r.key.c (d.va + lo * typeSize d.ty) (typeSize d.ty * n) [.r]
  (e.1.bytes, e.2.collSlow r.key e.1.slow)

/-- Write one destination of a chunk, and form its deltas (R266). -/
def State.writeDest (s : State) (r : CollRun) (u : UpdRun) (d : Dest) (lo : Nat) (xs : List (Nat × Bool)) :
    Option Status × State :=
  let par := enParEn u.entry && s.obj 0x2401 2 != 0 && d.img.isSome
  let old := if par then s.oldBytes r d lo xs.length else ([], s)
  let w := old.2.writeElems r.key (d.va + lo * typeSize d.ty) d.ty xs
  let x := s.ctx r.key.c
  let new := xs.flatMap (fun e => natLe (typeSize d.ty) e.1)
  let base := enParOff u.entry + d.img.getD 0 + lo * typeSize d.ty
  let die := lo / chunkElems r.d.wtype % 4
  let ps := if par then deltaPackets die x.parP x.parJ base old.1 new else []
  (w.1, w.2.modRun r.ck (fun r => { r with upd := r.upd.map (fun u => { u with deltaQ := u.deltaQ ++ ps }) }))

/-- Run the program over the elements of chunk i with gradient g, and write its destinations (R254, R255, R257). -/
def State.runChunk (s : State) (r : CollRun) (u : UpdRun) (i : Nat) (g : List (Nat × Bool)) : State :=
  let b := u.entry
  let sp := chunkSpan r.d.wtype r.d.count i
  let n := sp.2 - sp.1
  let outCopy := enOut b != 0 && !writes u.prog 0x30
  let tw := s.tensor r (reads u.prog 0x21 || outCopy) (enW b) (enWt b) sp.1 n
  let ts := (List.range (enNstate b)).foldl (fun (acc : Except Status (List (List (Nat × Bool))) × State) k =>
    match acc.1 with
    | .error st => (.error st, acc.2)
    | .ok l =>
      let e := acc.2.tensor r (reads u.prog (0x22 + k)) (enS b k) (enSt b) sp.1 n
      match e.1 with
      | .error st => (.error st, e.2)
      | .ok x => (.ok (l ++ [x]), e.2)) (.ok [], tw.2)
  let td := ts.2.tensor r (enPhase b == 2 && reads u.prog 0x2A) (enDir b) 6 sp.1 n
  match tw.1, ts.1, td.1 with
  | .ok w, .ok st, .ok dir =>
    let s := td.2.markBusy r u
    let ds := u.dests r.d.count
    let at' := fun (l : List (Nat × Bool)) (e : Nat) => (l[e]?).getD (0, false)
    let out := (List.range n).foldl (fun (acc : List (List (Nat × Bool) × Bool) × BitVec 32) e =>
      let x : UpdIn := {
        entry := b
        t := u.t
        gnorm := (u.gnorm.getD 0).toNat
        g := (at' g e).1
        w := (at' w e).1
        st := st.map (fun l => (at' l e).1)
        dir := (at' dir e).1 }
      let bad := (at' g e).2 || (at' w e).2 || st.any (fun l => (at' l e).2) || (at' dir e).2
      let y := u.element x ds acc.2
      (acc.1 ++ [(y.1, bad)], y.2)) ([], u.chunkSeed i)
    let col := fun (j : Nat) => out.1.map (fun o => (at' o.1 j, o.2))
    let z := ds.zipIdx.foldl (fun (acc : Option Status × State) d =>
      match acc.1 with
      | some _ => acc
      | none => acc.2.writeDest r u d.1 sp.1 ((col d.2).map (fun c => (c.1.1, c.2)))) (none, s)
    let die := i % 4
    let ovs := (out.1.flatMap (fun o => o.1.map (·.2))).filter id
    let s := if ovs.isEmpty then z.2 else
      (({ z.2 with coll.ueOverflow := NSet.insert z.2.coll.ueOverflow die }).dieEvent (8 + die) 0x68 ovs.length
        (some r.key.c)).modCmd r.key (fun m => { m with flags := m.flags ||| 1 })
    let s := if out.1.any (·.2) then
      ({ s with coll.uePoison := NSet.insert s.coll.uePoison die }).noteCmd r.key St.poison else s
    let s := ({ s with coll.lastPgroup := Tab.put s.coll.lastPgroup die (BitVec.ofNat 12 u.group) }).dieEvent (8 + die) 0x67 n
      (some r.key.c)
    match z.1 with
    | some st => (s.sendDeltas r.ck).failMine r st
    | none => ((s.modRun r.ck (fun r => { r with upd := r.upd.map (fun u => { u with chunks := NSet.insert u.chunks i }) })).sendDeltas
        r.ck).collProgress r.ck
  | .error st, _, _ => td.2.failMine r st
  | _, .error st, _ => td.2.failMine r st
  | _, _, .error st => td.2.failMine r st

/-- Phase 1 of chunk i: the gradient goes to GBUF_VA, with its norm (R258). -/
def State.bufferChunk (s : State) (r : CollRun) (u : UpdRun) (i : Nat) (g : List (Nat × Bool)) : State :=
  let sp := chunkSpan r.d.wtype r.d.count i
  s.putElems r (enGbuf u.entry + 4 * sp.1) 6 g (fun s =>
    let s := s.modRun r.ck (fun r => { r with upd := r.upd.map (fun u => { u with
      chunks := NSet.insert u.chunks i, norms := Tab.put u.norms i (sqNorm64 (g.map (·.1))) }) })
    let s := { s with coll.lastPgroup := Tab.put s.coll.lastPgroup (i % 4) (BitVec.ofNat 12 u.group) }
    (s.collPoison r (g.map (·.2))).collProgress r.ck)

/-- The effect of UPDATE_CHUNK: a final chunk, once (R249, R257). -/
def fxUpdateChunk (i : Nat) (r : CollRun) (s : State) : State :=
  match r.upd with
  | none => s
  | some u =>
    if u.held || !r.dataDone || NSet.mem u.chunks i || decide (chunkCount r.d.wtype r.d.count ≤ i) then s
    else
      let sp := chunkSpan r.d.wtype r.d.count i
      let g := ((r.grad.drop sp.1).take (sp.2 - sp.1)).map (fun x => (x.1.toNat, x.2))
      if u.phase != 0 then s.bufferChunk r u i g
      else if s.cutHolds r u then s.noteHeld r
      else s.runChunk r u i g

/-- UPDATE_CHUNK (R257). -/
def execUpdateChunk (k : CollKey) (chunk : Nat) (s : State) : Host.Outcome State Fault Refusal :=
  onCtx k.c s (fun s => s.onRun k (fxUpdateChunk chunk))

/-- UPDATE_HOLD_RELEASE (R251): the first update held for its group proceeds when none of the group is under way, and the traffic that was early
for it is looked at again (R241). -/
def execUpdateHoldRelease (k : CollKey) (s : State) : Host.Outcome State Fault Refusal :=
  onCtx k.c s (fun s => s.onRun k (fun r s =>
    let first := s.coll.runs.find? (fun x => x.key.c == k.c && x.d.updEn && x.d.pgroup == r.d.pgroup && x.updHeld)
    if r.updHeld && !s.updBusy r && first == some r then (s.takeEntry k).takeEarly k.c else s))

/-! ## The norm (R258, Table 11.5) -/

/-- Change the update of a run. -/
def State.modUpd (s : State) (k : CollKey) (g : UpdRun → UpdRun) : State :=
  s.modRun k (fun r => { r with upd := r.upd.map g })

/-- NORM2: the chunk norms in ascending chunk order. -/
def UpdRun.norm2 (u : UpdRun) : BitVec 64 := BitVec.ofNat 64 (Fp.enc Fp.f64 (sum64 (u.norms.map (·.2))))

/-- The updates of a context on a norm set that have completed phase 1 with the same t and wait for its norm, in ascending
PGROUP order. -/
def State.setRuns (s : State) (c nset t : Nat) : List (CollRun × UpdRun) :=
  ((s.coll.runs.filterMap (fun r => if r.key.c = c then r.upd.map (fun u => (r, u)) else none)).filter (fun x =>
    x.2.p1Done && x.2.gnorm.isNone && enNset x.2.entry == nset && x.2.t == t)).mergeSort (fun a b => a.2.group ≤ b.2.group)

/-- The exchange of some updates over a rank list: this module's sum goes out once; with every member's in, GNORM (R258). -/
def State.exchangeNorm (s : State) (us : List (CollRun × UpdRun)) (ranks : List Nat) : State :=
  match us with
  | [] => s
  | x :: _ =>
    let me := ranks.idxOf s.rbd.rank.toNat
    let own := BitVec.ofNat 64 (Fp.enc Fp.f64 (sum64 (us.map (fun u => u.2.norm2))))
    let got := us.foldl (fun (t : Tab (BitVec 64)) u => u.2.members.foldl (fun t e => Tab.put t e.1 e.2) t) []
    let first := !Tab.has got me
    let got := Tab.put got me own
    let s := if first then ranks.foldl (fun (s : State) rk =>
        if rk = s.rbd.rank.toNat then s
        else match s.didOfRank rk with
          | some did => s.mgmt did Mg.norm (natLe 1 x.1.key.c ++ natLe 4 x.1.d.id ++ natLe 4 me ++ natLe 8 own.toNat)
          | none => s) s
      else s
    let s := us.foldl (fun (s : State) u => s.modUpd u.1.ck (fun u => { u with members := got })) s
    if (List.range ranks.length).all (fun m => Tab.has got m) then
      let total := sum64 ((List.range ranks.length).map (fun m => Tab.get 0 got m))
      let g := toF32 (Fp.sqrt total)
      us.foldl (fun (s : State) u =>
        (s.putEntry u.1.key.c u.2.group 0xC8 (natLe 4 g)).modUpd u.1.ck (fun u => { u with gnorm := some (BitVec.ofNat 32 g) })) s
    else s

/-- The norm-set entry n of a context: COUNT and the rank list, or the status that ends the collective. -/
def State.normSet (s : State) (r : CollRun) (n : Nat) : Except Status (Nat × List Nat) × State :=
  let a := s.rdCmd r.key ((s.ctx r.key.c).ueNset.toNat + 32 * n) 32 [.r]
  match a.1 with
  | .error st => (.error st, a.2)
  | .ok b =>
    let cnt := fieldAt b 0 2
    let m := fieldAt b 4 4
    if !(decide (1 ≤ cnt ∧ cnt ≤ 4096) && decide (1 ≤ m ∧ m ≤ 131072)) then (.error St.invalid, a.2)
    else
      let l := a.2.rdCmd r.key (fieldAt b 8 8) (4 * m) [.r]
      match l.1 with
      | .error st => (.error st, l.2)
      | .ok lb =>
        let ranks := (chunksOf 4 m lb).map leNat
        (if ranks.contains s.rbd.rank.toNat then .ok (cnt, ranks) else .error St.invalid, l.2)

/-- The norm exchange goes on as far as it can (R258). -/
def State.normGo (s : State) (k : CollKey) : State :=
  match s.findRun k with
  | none => s
  | some r =>
    match r.upd with
    | none => s
    | some u =>
      if !u.p1Done || u.gnorm.isSome then s
      else if enNset u.entry = 0 then s.exchangeNorm [(r, u)] r.ranks
      else
        let e := s.normSet r (enNset u.entry)
        match e.1 with
        | .error st => e.2.failMine r st
        | .ok cr =>
          let us := e.2.setRuns k.c (enNset u.entry) u.t
          if us.length < cr.1 then e.2 else e.2.exchangeNorm us cr.2

/-- The effect of PHASE1_DONE: NORM2, P1_DONE, and the exchange begins (R258). -/
def fxPhase1Done (r : CollRun) (s : State) : State :=
  match r.upd with
  | none => s
  | some u =>
    if u.held || u.phase == 0 || u.p1Done || !r.dataDone
        || !(List.range (chunkCount r.d.wtype r.d.count)).all (fun i => NSet.mem u.chunks i) then s
    else
      let s := s.putEntry r.key.c u.group 0xC0 (natLe 8 u.norm2.toNat)
      let h := enP1Done u.entry
      let p : PenMsg := ⟨r.key.c, handleId h, some (handleGen h), .engine r.key.c none, .hoist 1 true⟩
      let s := if h = 0 then s else { s with pen.msgs := s.pen.msgs ++ [p] }
      (s.modUpd r.ck (fun u => { u with p1Done := true })).normGo r.ck

/-- PHASE1_DONE (R258). -/
def execPhase1Done (k : CollKey) (s : State) : Host.Outcome State Fault Refusal :=
  onCtx k.c s (fun s => s.onRun k fxPhase1Done)

/-- The effect of NORM_EXCHANGE: member m of the exchange sends its sum; it is progress (R236, R258). -/
def fxNormExchange (k : CollKey) (m : Nat) (v : BitVec 64) (r : CollRun) (s : State) : State :=
  if r.upd.isNone || r.updHeld then s
  else ((s.modUpd k (fun u => { u with members := Tab.put u.members m v })).collProgress k).normGo k

/-- NORM_EXCHANGE (R258). -/
def execNormExchange (k : CollKey) (member : Nat) (norm : BitVec 64) (s : State) : Host.Outcome State Fault Refusal :=
  onCtx k.c s (fun s => s.onRun k (fxNormExchange k member norm))

/-! ## Phase 2 (R258) -/

/-- What the strike of PRE_READY comes to: struck, still to wait, or stale. -/
inductive Struck where
  | yes
  | wait
  | stale
  deriving DecidableEq, Repr

/-- Strike a local counting pennant by 1 for the update of a collective: one that does not proceed is recorded at the tail of the
slot's strikers (Table 8.5, R258). -/
def State.engineStrike (s : State) (k : CollKey) (h : Nat) : Struck × State :=
  let c := k.c
  let m : PenMsg := ⟨c, handleId h, some (handleGen h), .engine c (some k), .strike 1 none 0⟩
  let e := s.penEntry c (handleId h)
  match e.1 with
  | none => (.stale, e.2.stale m)
  | some v =>
    let key := slotKey (peHome v) (peIdx v)
    let x := e.2.slot key
    if !peV v ∨ BitVec.ofNat 8 (peGen v) ≠ handleGen h ∨ x.gen ≠ handleGen h then (.stale, e.2.stale m)
    else if x.meets 1 && !x.waiters.any (·.strike) then (.yes, e.2.setSlot key (x.consume 1))
    else (.wait, e.2.setSlot key { x with waiters := x.waiters ++ [⟨m.src, true, 1, none, c, m.id, 0, s.sys.ts⟩] })

/-- The program over every chunk, with the buffered gradient. -/
def State.phase2Go (s : State) (r : CollRun) : State :=
  let s := (List.range (chunkCount r.d.wtype r.d.count)).foldl (fun (s : State) i =>
    match (s.findRun r.ck).bind (·.upd) with
    | none => s
    | some u =>
      let sp := chunkSpan r.d.wtype r.d.count i
      s.withElems r (enGbuf u.entry + 4 * sp.1) 6 (sp.2 - sp.1) (fun g s => s.runChunk r u i g)) s
  s.modUpd r.ck (fun u => { u with p2 := true })

/-- The effect of PHASE2_START; host software applies the update in mode 2 (R271). -/
def fxPhase2Start (r : CollRun) (s : State) : State :=
  match r.upd with
  | none => s
  | some u =>
    if u.gnorm.isNone || u.p2 then s
    else if u.phase != 3 && s.cutHolds r u then s.noteHeld r
    else if u.phase = 3 then s.modUpd r.ck (fun u => { u with p2 := true })
    else if u.phase = 2 then
      match u.strike with
      | .waits => s
      | .done => s.phase2Go r
      | .stale => s.failMine r St.penStale
      | .none =>
        let z := s.engineStrike r.ck (enPreReady u.entry)
        match z.1 with
        | .wait => z.2.modUpd r.ck (fun u => { u with strike := .waits })
        | .stale => z.2.failMine r St.penStale
        | .yes => z.2.phase2Go r
    else s.phase2Go r

/-- PHASE2_START (R258). -/
def execPhase2Start (k : CollKey) (s : State) : Host.Outcome State Fault Refusal :=
  onCtx k.c s (fun s => s.onRun k fxPhase2Start)

/-! ## Completion (R260) -/

/-- Whether every element of the update is written. -/
def CollRun.allWritten (r : CollRun) (u : UpdRun) : Bool :=
  if u.phase = 0 then
    r.dataDone && (List.range (chunkCount r.d.wtype r.d.count)).all (fun i => NSet.mem u.chunks i)
  else u.p2

/-- Bytes that an update writes at its end; without the permission the collective ends with ADDRESS_FAULT, and where the stripe cannot be
decoded with UNCORRECTABLE_MEMORY (R131, R264). -/
def State.putEnd (s : State) (r : CollRun) (va : Nat) (bs : List Byte) (go : State → State) : State :=
  let w := s.vaWrite none r.key.c va (bs.map (fun b => (b, false))) [.w]
  let s := (w.2.metCmd r.key false w.1.slow).collSlow r.key w.1.slow
  if w.1.fault then s.failMine r St.address
  else if w.1.uncorr then s.failMine r St.uncorrectable
  else go s

/-- The effect of UPDATE_COMPLETE: when nothing else of the collective is left and no delta is outstanding, the header, then STEP and VERSION
of the entry; where the collective ends with a status whose class is not 0x00, the header reads FAILED instead and the entry keeps them
(R260, R264). -/
def fxUpdateComplete (r : CollRun) (s : State) : State :=
  let s := s.sendDeltas r.ck
  match s.findRun r.ck with
  | none => s
  | some r =>
    match r.upd with
    | none => s
    | some u =>
      let ends := fun (s : State) => (s.modRun r.ck (fun r => { r with upd := none })).settleRun r.ck
      if u.held || !r.allWritten u || u.deltas != 0 || !u.deltaQ.isEmpty || !s.runDone { r with upd := none } then s
      else if statusClass (s.cmdStatus r.key) ≠ 0 then ends (s.failHeader r)
      else
        let ver := (enVersion u.entry + 1) % 2 ^ 32
        let hdr := natLe 4 ver ++ natLe 4 0 ++ natLe 4 u.group ++ natLe 4 u.t
        let entry := fun (s : State) => s.putEnd r (s.entryVa r.key.c u.group + 4) (natLe 4 u.t ++ natLe 4 ver) ends
        if enOut u.entry = 0 then entry s else s.putEnd r (enOut u.entry - 64) hdr entry

/-- UPDATE_COMPLETE (R260). -/
def execUpdateComplete (k : CollKey) (s : State) : Host.Outcome State Fault Refusal :=
  onCtx k.c s (fun s => s.onRun k fxUpdateComplete)

/-! ## Parity at the holder (R267) -/

/-- Fields of a parity-delta packet (Table 11.7), and whether they are well formed. -/
def pdLen (pk : List Byte) : Nat := fieldAt pk 0x12 2
/-- The parity shard that a delta is for. -/
def pdShard (pk : List Byte) : Bool := fieldAt pk 0x10 1 / 16 % 2 == 1
def pdOffset (pk : List Byte) : Nat := fieldAt pk 0x18 8
def pdOk (pk : List Byte) : Bool :=
  fieldAt pk 0x10 1 % 16 == 0xA && fieldAt pk 0x10 1 / 32 == 0 && fieldAt pk 0x11 1 == 0
    && decide (1 ≤ pdLen pk ∧ pdLen pk ≤ 256) && decide (fieldAt pk 0x14 4 < 2 ^ 12) && pk.length == 32 + pdLen pk

/-- Write one combined block: parity := parity xor combined delta; the packets that no other block holds are answered. -/
def State.flushBlock (s : State) (die : Nat) (p : ParBlock) : State :=
  let l := (Tab.get [] s.coll.combine die).erase p
  let s := { s with coll.combine := Tab.put s.coll.combine die l }
  let lo := (p.counts.headD (0, 0)).1
  let hi := ((p.counts.getLast?).getD (0, 0)).1 + 1
  let va := (s.ctx p.c).parImage.toNat + 4096 * p.block + lo
  let old := s.vaRead p.c va (hi - lo) [.r, .w, .fab]
  let new := (List.zip old.1.bytes old.1.pois).zipIdx.map (fun x => (x.1.1 ^^^ p.bytes.read (lo + x.2), x.1.2))
  let z := if old.1.fault then (St.address, old.2)
    else if old.1.uncorr then (St.uncorrectable, old.2)
    else
      let w := old.2.vaWrite none p.c va new [.w, .fab]
      (if w.1.fault then St.address else if w.1.uncorr then St.uncorrectable else St.ok, w.2)
  (p.packets.filter (fun pk => !l.any (fun q => q.packets.contains pk))).foldl (fun (s : State) pk => s.answer pk z.1) z.2

/-- Combine the delta bytes of a packet that fall into one block. -/
def State.combineInto (s : State) (die c block : Nat) (pk : List Byte) (bs : List (Nat × Byte)) : State :=
  let l := Tab.get [] s.coll.combine die
  let isIt := fun (p : ParBlock) => p.c == c && p.block == block
  let s := if l.any isIt ∨ l.length < 256 then s else match l with
    | [] => s
    | p :: _ => s.flushBlock die p
  let l := Tab.get [] s.coll.combine die
  let fresh : ParBlock := ⟨c, block, [], [], s.sys.ts, []⟩
  let p := (l.find? isIt).getD fresh
  let p := bs.foldl (fun (p : ParBlock) b => { p with
    bytes := p.bytes.write b.1 (p.bytes.read b.1 ^^^ b.2), counts := Tab.put p.counts b.1 (Tab.get 0 p.counts b.1 + 1) }) p
  let p := { p with packets := p.packets ++ [pk] }
  let l := if l.any isIt then l.map (fun q => if isIt q then p else q) else l ++ [p]
  { s with coll.combine := Tab.put s.coll.combine die l }

/-- The effect of PARITY_DELTA. -/
def fxParityDelta (port : Nat) (pk : List Byte) (s : State) : State :=
  s.ingress port 5 pk (fun s =>
    if !pdOk pk then s.discard port
    else
      let s := s.wakeEngine (portDie port)
      let off := pdOffset pk
      let bs := (pk.drop 32).zipIdx.map (fun b => (off + b.2, b.1))
      let s := s.modCtx (hdrOf pk).ctx (fun x =>
        { x with heldBytes := Nat.max x.heldBytes (off + pdLen pk), heldShard := pdShard pk })
      ((bs.map (fun b => b.1 / 4096)).eraseDups).foldl (fun (s : State) blk =>
        s.combineInto (portDie port) (hdrOf pk).ctx blk pk
          ((bs.filter (fun b => b.1 / 4096 == blk)).map (fun b => (b.1 % 4096, b.2)))) s)

/-- PARITY_DELTA (R267). -/
def execParityDelta (port : Nat) (pk : List Byte) (s : State) : Host.Outcome State Fault Refusal :=
  onPortIn port s (fxParityDelta port pk)

/-- The effect of PARITY_FLUSH: block i of a die's buffer, when every byte it has received has the deltas of all senders,
when its time has passed, or for space (R267). -/
def fxParityFlush (die i : Nat) (why : FlushCause) (s : State) : State :=
  match (Tab.get [] s.coll.combine die)[i]? with
  | none => s
  | some p =>
    let full := p.counts.all (fun e => decide ((s.ctx p.c).parSenders ≤ e.2))
    if !s.alive || (why == .allSenders && !full) then s else s.flushBlock die p

/-- PARITY_FLUSH (R267). -/
def execParityFlush (iod i : Nat) (why : FlushCause) (s : State) : Host.Outcome State Fault Refusal :=
  onIod iod s (fxParityFlush iod i why)

/-- PRECONDITIONER_FALLBACK (R259): the group's counter and the module's count one more. -/
def execPreconditionerFallback (c group : Nat) (s : State) : Host.Outcome State Fault Refusal :=
  onCtx c s (fun s =>
    if !s.alive || decide (4096 ≤ group) then s
    else
      let e := s.vaRead c (s.entryVa c group + 0xBC) 4 [.r, .w]
      let s := e.2.putEntry c group 0xBC (natLe 4 (leNat e.1.bytes + 1))
      ({ s with coll.fallbacks := s.coll.fallbacks + 1 }).dieEvent 8 0x6B 1 (some c))

/-! ## Status registers (Tables 11.11, 11.12) -/

/-- UE_STATUS of I/O die i. -/
def State.ueStatusOf (s : State) (i : Nat) : Nat :=
  let busy := s.coll.runs.any (fun r => r.dataDone && (match r.upd with
    | some u => !u.held && (List.range (chunkCount r.d.wtype r.d.count)).any (fun j => j % 4 == i && !NSet.mem u.chunks j)
    | none => false))
  bit busy + 2 * bit (NSet.mem s.coll.ueOverflow i) + 4 * bit (NSet.mem s.coll.uePoison i)
    + 8 * bit (decide (256 ≤ (Tab.get [] s.coll.combine i).length)) + 256 * (Tab.get 0 s.coll.lastPgroup i).toNat

/-- UE_CTX_STATUS of context c. -/
def State.ueCtxStatus (s : State) (c : Nat) : Nat :=
  let us := s.coll.runs.filterMap (fun r => if r.key.c = c then r.upd else none)
  (s.ctx c).ueStatus.toNat % 4 + 4 * bit (us.any (fun u => u.p1Done && u.gnorm.isNone && enNset u.entry != 0))
    + 8 * bit (us.any (fun u => u.phase == 2 && u.gnorm.isSome && !u.p2))

/-- Updates in progress (0x2402:00). -/
def State.ueActive (s : State) : Nat := (s.coll.runs.filter (fun r => r.upd.isSome && !r.updHeld)).length

end Sys2Proof.Machine
end

