-- ==== Sys2Proof/Machine/Reset.lean ====
section
/-! DEFINITION. The resets of Table 12.10 (R195, R302, R303, R336, R378), as operations that several commands share. -/

namespace Sys2Proof.Machine
open Sys2Proof

/-! ## Killing work -/

/-- A core's task is killed; a rebinding that waited for its siblings goes on (R75). -/
def State.killCore (s : State) (L : Nat) (st : Status) : State :=
  let due := (s.core L).rebindDue
  let s := s.killTask L st
  if due then (s.rebind L).2 else s

/-- The cores that run or hold a task of context c. -/
def State.coresOf (s : State) (c : Nat) : List Nat :=
  (s.cores.filter (fun e => (e.2.task.map (·.key.c)) == some c || e.2.queue.any (fun t => t.key.c == c))).map (·.1)

/-- The tasks of context c end, running and queued ones. -/
def State.killTasksOf (s : State) (c : Nat) : State :=
  (s.coresOf c).foldl (fun (s : State) L =>
    let s := s.modCore L (fun cs => { cs with queue := cs.queue.filter (fun t => t.key.c != c) })
    if ((s.core L).task.map (·.key.c)) == some c then s.killCore L St.cancelled else s) s

/-! ## Pennants (R195) -/

/-- A slot that a reset empties: no waiter, value 0, and the generation of its entry. -/
def State.emptySlot (s : State) (key : Nat) : State :=
  let x := s.slot key
  let g : Option (BitVec 8) × State := match x.own with
    | some o => let e := s.penEntry o.1 o.2; (e.1.map (fun v => BitVec.ofNat 8 (peGen v)), e.2)
    | none => (none, s)
  g.2.setSlot key { x with value := 0, f := false, waiters := [], gen := g.1.getD x.gen }

/-- Every slot whose owner satisfies p is emptied. -/
def State.emptySlots (s : State) (p : Slot → Bool) : State :=
  ((s.pen.slots.filter (fun e => p e.2)).map (·.1)).foldl State.emptySlot s

/-- A context reset ends the waits of the context, drops its messages and empties its slots. -/
def State.penReset (s : State) (c : Nat) : State :=
  let s := { s with
    pen.msgs := s.pen.msgs.filter (fun m => m.c != c)
    pen.emptyRounds := Tab.put s.pen.emptyRounds c 0
    pen.suspects := NSet.remove s.pen.suspects c
    pen.slots := Tab.mapV s.pen.slots (fun _ x => { x with waiters := x.waiters.filter (fun w => w.c != c) })
    pen.outcomes := s.pen.outcomes.filter (fun o => match o.src with
      | .cmd k => k.c != c
      | .remote _ _ _ _ _ x => x != c
      | .engine x _ => x != c
      | _ => true)
    fab.relHeld := s.fab.relHeld.filter (fun r => (hdrOf r.pk).ctx != c) }
  s.emptySlots (fun x => (x.own.map (·.1)) == some c)

/-! ## Umasel (R336) -/

/-- The place of a path's queue: the service mailboxes of all contexts form one path (R346). -/
def pathNo : UmPath → Nat
  | .t1s => 0
  | .mbox => 1
  | .svc _ => 2
  | .fabric _ => 3

/-- The requests that wait on a path. -/
def State.umQueue (s : State) (p : UmPath) : List UmReq := Tab.get [] s.um.queues (pathNo p)

/-- The requests of one mailbox are dropped without a response, forwarded ones and a rank map's load among them. -/
def State.dropReqs (s : State) (p : UmPath) : State :=
  { s with
    um.queues := Tab.put s.um.queues (pathNo p) ((s.umQueue p).filter (fun r => !(r.path == p)))
    xl.rankLoadReq := if (s.xl.rankLoadReq.map (·.path)) == some p then none else s.xl.rankLoadReq
    um.fwd := s.um.fwd.filter (fun e => !(e.1 == p))
    um.fwdTags := ((List.zip s.um.fwd s.um.fwdTags).filter (fun e => !(e.1.1 == p))).map (·.2) }

/-- A context's service mailbox takes its reset values (R336). -/
def State.svcReset (s : State) (c : Nat) : State := (s.modCtx c (fun x => { x with svc := Mbox.reset })).dropReqs (.svc c)

/-- The PF mailbox takes its reset values. -/
def State.mboxReset (s : State) : State := { s with um.mbox := Mbox.reset }.dropReqs .mbox

/-- Every queued request, session and segmented write is gone (R332, R334, R336). -/
def State.mcReset (s : State) : State :=
  { s with
    um.mbox := Mbox.reset
    um.queues := []
    um.sessions := []
    um.locks := []
    um.fwd := []
    um.fwdTags := []
    xl.rankLoad := none
    xl.rankLoadReq := none
    rbd.recRank := none
    ctxs := Tab.mapV s.ctxs (fun _ x => { x with svc := Mbox.reset }) }

/-! ## Context reset -/

/-- The rings and queues of a context after its reset: rings disabled, the device queue empty, folios closed, the arena
free, no stop in force. -/
def CtxState.afterReset (x : CtxState) : CtxState :=
  { x with
    rings := Tab.mapV x.rings (fun _ r => { r with enable := false, draining := false, fetched := [] })
    dq := []
    dqHead := x.dqNext
    arenaUsed := []
    folios := []
    started := []
    halted := false
    epochStop := none
    stopped := false
    qblocked := false
    quiesce := []
    fence := none }

/-- The packets of a context that were left in their port and VC buffers are discarded, and free them (R241, R302). -/
def State.dropStuck (s : State) (c : Nat) : State :=
  ((s.coll.stuck.filter (fun e => e.2.c == c)).foldl (fun (s : State) e => s.freeUnits e.1 (collVc e.2) (collUnits e.2))
    { s with coll.stuck := s.coll.stuck.filter (fun e => e.2.c != c) }).unstick

/-- A reset closes every session, with what its segmented writes hold (R332, R334). -/
def State.closeSessions (s : State) : State :=
  { s with um.sessions := [], um.locks := s.um.locks.filter (fun e => e.2.session == 0) }

/-- Context c is reset: its commands are killed without records; its collectives abort their peers, and its updates leave
FAILED headers (R302, R303); every session closes (R332). -/
def State.ctxReset (s : State) (c : Nat) : State :=
  let s := (s.coll.runs.filter (fun r => r.key.c == c)).foldl (fun (s : State) r => s.failMine r St.cancelled) s
  let s := s.modCtx c CtxState.afterReset
  let s := (s.killTasksOf c).penReset c
  let s := { s with
    coll.early := s.coll.early.filter (fun e => e.2.c != c)
    coll.claims := s.coll.claims.filter (fun e => e.1.c != c)
    coll.ended := s.coll.ended.filter (fun e => e.k.c != c)
    coll.counters := s.coll.counters.filter (fun e => e.1 != c)
    coll.notices := s.coll.notices.filter (fun e => e.1 != c)
    fab.trans := s.fab.trans.map (fun (t : Trans) => if t.c = c then { t with kind := TransKind.other } else t)
    xl.tlb := []
    xl.ptInvalDone := true }
  ((s.dropStuck c).svcReset c).closeSessions

/-! ## Warm reset -/

/-- A core after a warm reset: tile and accumulator memory, binding and counters stay (R14, R45, R347, R348). -/
def CoreState.afterWarm (cs : CoreState) (L : Nat) : CoreState :=
  { CoreState.init L with
    tm := cs.tm
    am := cs.am
    tmPoison := cs.tmPoison
    amPoison := cs.amPoison
    tmErr := cs.tmErr
    amErr := cs.amErr
    suspect := cs.suspect
    physIdx := cs.physIdx
    rebindCount := cs.rebindCount
    failed := cs.failed
    rebindDue := cs.rebindDue
    evSel := cs.evSel
    evCtr := cs.evCtr
    ctr := cs.ctr
    wakes := cs.wakes }

/-- A context after a warm reset: core set, layout epoch, RESET_SEEN, free pages and sealed cuts stay (R239, Table 12.10). -/
def CtxState.afterWarm (x : CtxState) (c : Nat) : CtxState :=
  { CtxState.init c with
    coreSet := x.coreSet
    epoch := x.epoch
    resetSeen := x.resetSeen
    vaPages := x.vaPages
    groupCount := x.groupCount
    heldBytes := x.heldBytes
    heldShard := x.heldShard
    cutGlobal := x.cutGlobal
    cutStepGlobal := x.cutStepGlobal
    cutStepLocal := x.cutStepLocal
    cutState := if x.sealLocal.isSome then 3 else 0
    sealGlobal := x.sealGlobal
    sealLocal := x.sealLocal }

/-- A port after a warm reset: its lanes stay trained, its link layer restarts (Table 12.10), and its RWS flags stay (Table 9.9). -/
def Port.afterWarm (x : Port) : Port :=
  { Port.reset with
    st := x.st
    lr := x.lr
    spared := x.spared
    peerDid := x.peerDid
    peerPort := x.peerPort
    crcErr := x.crcErr
    laneFail := x.laneFail
    linkDown := x.linkDown
    lanes := x.lanes
    ctr := x.ctr }

/-- A stack after a warm reset: contents, state and stale map stay; self-refresh ends but for OFFLINE_THERMAL (R138, R311). -/
def Stack.afterWarm (x : Stack) : Stack := { x with selfRef := x.st == 2 }

/-- The slot of a cut that is not sealed yet is no longer valid (R303): VALID of its record is cleared. -/
def State.spoilCut (s : State) (c : Nat) : State :=
  match (s.ctx c).cut with
  | some k => if k.sealed then s else (s.vaWrite none c ((s.ctx c).cutBase.toNat + k.slot * (s.ctx c).cutSize.toNat * 2 ^ 20 + 0x34)
      (bytesP 4 0 false) [.w]).2
  | none => s

/-- The state after a warm reset, bring-up standing at step 3 with MGMT_READY = 2 (Table 12.10, R378); a module that holds
a rank announces a transient loss (R301). -/
def State.warmReset (s : State) : State :=
  let s := (List.range 16).foldl State.spoilCut s
  let s := { s with
    pen.msgs := []
    pen.emptyRounds := []
    pen.suspects := []
    pen.modBlocked := false
    pen.outcomes := [] }.emptySlots (fun _ => true)
  let due := (s.cores.filter (fun e => e.2.rebindDue)).map (·.1)
  let s := { s with
    sys.ready := 2
    sys.step := 3
    sys.trainDone := false
    sys.fabDone := false
    sys.warmUp := true
    sys.tsCd := s.tsAligned
    sys.alertN := true
    xl.tlb := []
    xl.ptInvalDone := true
    cores := Tab.mapV s.cores (fun L cs => cs.afterWarm L)
    mem.gather := []
    mem.portWait := []
    mem.acks := []
    mem.readWait := []
    mem.stack := Tab.mapV s.mem.stack (fun _ x => x.afterWarm)
    ctxs := Tab.mapV s.ctxs (fun c x => x.afterWarm c)
    fes := []
    fab.ports := Tab.mapV s.fab.ports (fun _ x => x.afterWarm)
    fab.flows := []
    fab.trans := []
    fab.relHeld := []
    fab.putsIn := []
    coll := { Coll.reset with fallbacks := s.coll.fallbacks }
    rbd.safeHold := false
    rbd.role := if s.rbd.safeHold then 2 else s.rbd.role
    rbd.suspicions := []
    rbd.seals := []
    rbd.probes := []
    rbd.beats := []
    pwr.state := 0
    pwr.engines := []
    obs.dumpState := if s.obs.dumpState = 1 then 0 else s.obs.dumpState
    obs.measuring := false
    obs.linkN := []
    obs.linkOff := s.obs.linkOff.filter (fun e => decide (e.1 < 1000)) }
  let s := due.foldl (fun (s : State) L => (s.rebind L).2) s
  let s := s.mcReset
  match s.myRank with
  | some r => s.tellCoord Mg.transientLoss (natLe 4 r)
  | none => s

/-! ## Cold reset -/

/-- The state after a cold reset: all but the supplies, the latched straps, the boot flash and the fuses is lost (Table
12.10). A module that was in safe hold is retired (R285). THERMTRIP stays until the reset finds the module cool (R322). -/
def State.coldReset (s : State) (cool : Bool) : State :=
  let trip := s.pwr.thermTrip && !cool
  { State.reset with
    pending := s.pending
    freeCtr := s.freeCtr
    out := s.out
    sys := { Sys.reset with
      vaux := s.sys.vaux
      vin48 := s.sys.vin48
      modResetN := s.sys.modResetN
      perstN := s.sys.perstN
      thermtripN := !trip
      strapTest := s.sys.strapTest
      strapDid := s.sys.strapDid
      strapNode := s.sys.strapNode
      activeSlot := s.sys.activeSlot
      slotImage := s.sys.slotImage
      revoked := s.sys.revoked
      antiRollback := s.sys.antiRollback
      eventLog := s.sys.eventLog
      cfgStore := s.sys.cfgStore
      cfgDoms := s.sys.cfgDoms }
    rbd.role := if s.rbd.safeHold then 2 else 0
    pwr.thermTrip := trip
    um.keys := s.um.keys }

/-- Power-on of the always-on domain, or its loss: what the boot flash and the fuses hold stays (R368). -/
def State.auxPower (s : State) (on : Bool) : State :=
  let t := s.coldReset true
  { t with sys.vaux := on }

end Sys2Proof.Machine
end

