-- ==== Sys2Proof/Machine/Bringup.lean ====
section
/-! DEFINITION. Resets, pins, supplies and bring-up (16, R302, R312, R313): from power to MGMT_READY = 4. -/

namespace Sys2Proof.Machine
open Sys2Proof

/-- Whether the always-on domain has power and the module is out of reset (R368, R369). -/
def State.mcOn (s : State) : Bool := s.sys.vaux && s.sys.modResetN

/-- Whether a warm reset can run: the dies are up, and the module is not in safe hold, which RBD_SAFE_HOLD_EXIT leaves
(R285, R378). -/
def State.warmable (s : State) : Bool := s.alive && s.sys.regulators && decide (2 ≤ s.sys.ready)

/-! ## Resets as events -/

/-- COLD_RESET (R302). -/
def execColdReset (cool : Bool) (s : State) : Host.Outcome State Fault Refusal :=
  .next (if s.sys.vaux then s.coldReset cool else s)

/-- WARM_RESET (R378). -/
def execWarmReset (s : State) : Host.Outcome State Fault Refusal := .next (if s.warmable then s.warmReset else s)

/-- CONTEXT_RESET (R302). -/
def execContextReset (c : Nat) (s : State) : Host.Outcome State Fault Refusal :=
  onCtx c s (fun s => if s.mcOn then s.ctxReset c else s)

/-- The effect of FLR: of the PF, which disables the VFs and gives its configuration space its defaults (R383), or of an
enabled VF. -/
def fxFlr (fn : Nat) (s : State) : State :=
  if !s.mcOn || !s.sys.linkUp then s
  else if fn = 0 then
    let s := (List.range 16).foldl State.ctxReset s
    ({ s with sys.numVfs := 0, sys.bar2Pf := 1, sys.bar2Vf := 1 }).mboxReset
  else if fn ≤ s.sys.numVfs then s.ctxReset fn
  else s

/-- FLR (R302). -/
def execFlr (fn : Nat) (s : State) : Host.Outcome State Fault Refusal := onCtx fn s (fxFlr fn)

/-! ## Supplies -/

/-- VAUX3P3_RISE (R312, R368): a cold reset begins. -/
def execVaux3p3Rise (s : State) : Host.Outcome State Fault Refusal :=
  .next (if s.sys.vaux then s else s.auxPower true)

/-- VAUX3P3_LOSS (R368): ALERT_N and THERMTRIP_N are high-impedance (R365). -/
def execVaux3p3Loss (s : State) : Host.Outcome State Fault Refusal := .next (s.auxPower false)

/-- VIN48_RISE (R374). -/
def execVin48Rise (s : State) : Host.Outcome State Fault Refusal := .next { s with sys.vin48 := true }

/-- VIN48_LOSS (R367): with the regulators on, a cold reset that waits for VIN48. -/
def execVin48Loss (s : State) : Host.Outcome State Fault Refusal :=
  let t := if s.sys.regulators then s.coldReset false else s
  .next { t with sys.vin48 := false }

/-! ## Control signals (Table 16.3) -/

/-- The effect of MOD_RESET_N: low is a cold reset; its deassertion latches the straps (R371). -/
def fxModResetN (high : Bool) (did : BitVec 17) (node : BitVec 4) (test cool : Bool) (s : State) : State :=
  if !s.sys.vaux then s
  else if !high then
    let t := s.coldReset cool
    { t with sys.modResetN := false }
  else if s.sys.modResetN then s
  else { s with sys.modResetN := true, sys.strapDid := did, sys.strapNode := node, sys.strapTest := test }

/-- MOD_RESET_N (R369, R371). -/
def execModResetN (high : Bool) (did : BitVec 17) (node : BitVec 4) (test : Bool) (cool : Bool) (s : State) :
    Host.Outcome State Fault Refusal := .next (fxModResetN high did node test cool s)

/-- The effect of PERST_N; `us` is how long an assertion lasts. The PCIe controller and its configuration space are reset
(R383); after a deassertion that followed MGMT_READY = 4, an assertion of at least 100 µs is a warm reset. -/
def fxPerstN (high : Bool) (us : Nat) (s : State) : State :=
  if !s.sys.vaux then { s with sys.perstN := high }
  else if high then { s with sys.perstN := true, sys.perstSeenHigh := s.sys.perstSeenHigh || s.sys.everReady }
  else
    let warm := s.sys.perstSeenHigh && decide (100 ≤ us) && s.warmable
    let s := { s with
      sys.perstN := false
      sys.perstSeenHigh := false
      sys.linkUp := false
      sys.numVfs := 0
      sys.bar2Pf := 1
      sys.bar2Vf := 1 }
    if warm then s.warmReset else s

/-- PERST_N (R369). -/
def execPerstN (high : Bool) (us : Nat) (s : State) : Host.Outcome State Fault Refusal := .next (fxPerstN high us s)

/-- WAKE_N (R369, R370): wake source 5 of standby when held low for 1 µs. -/
def execWakeN (ns : Nat) (s : State) : Host.Outcome State Fault Refusal :=
  .next (if 1000 ≤ ns then s.wakeBy 5 else s)

/-- PCIE_LINK_TRAINING (R373): the boot ROM has configured the controller and PERST_N is deasserted. -/
def execPcieLinkTraining (s : State) : Host.Outcome State Fault Refusal :=
  .next (if s.mcOn && s.sys.perstN && s.sys.pcieConfigured then { s with sys.linkUp := true } else s)

/-- SRIOV_NUMVFS (R17). -/
def execSriovNumvfs (n : Nat) (s : State) : Host.Outcome State Fault Refusal :=
  .next (if s.sys.linkUp && decide (n ≤ 15) then { s with sys.numVfs := n } else s)

/-- BAR2_RESIZE (R383): a power of two, up to 64 GiB for the PF and up to 4 GiB for the VFs. -/
def execBar2Resize (pf : Bool) (gib : Nat) (s : State) : Host.Outcome State Fault Refusal :=
  .next (if !s.sys.linkUp then s
    else if pf then (if [1, 2, 4, 8, 16, 32, 64].contains gib then { s with sys.bar2Pf := gib } else s)
    else if [1, 2, 4].contains gib then { s with sys.bar2Vf := gib } else s)

/-! ## Secure boot (R341 to R343) -/

/-- Whether an image is accepted: part, digest, a signature by a fused key that is not revoked, and its security version (R341). -/
def State.imageOk (s : State) (img : List Byte) : Bool :=
  Config.imageSound img && [0, 1].any (fun n => !NSet.mem s.sys.revoked n && Config.imageSigned img n)
    && decide (s.sys.antiRollback ≤ Config.imageSecVersion img)

/-- The image of slot n, if the slot holds one. -/
def State.slotOk (s : State) (n : Nat) : Bool :=
  match Tab.find s.sys.slotImage n with
  | some img => s.imageOk img
  | none => false

/-- The boot ROM starts slot n, which is recorded. -/
def State.startSlot (s : State) (n : Nat) : State :=
  { s with
    sys.booting := false
    sys.recoveryBoot := false
    sys.alertN := !s.rbd.safeHold
    sys.runSecVer := Config.imageSecVersion ((Tab.find s.sys.slotImage n).getD [])
    sys.eventLog := s.sys.eventLog ++ [(n, true)] }

/-- Slot n is rejected, which is recorded. -/
def State.rejectSlot (s : State) (n : Nat) : State := { s with sys.eventLog := s.sys.eventLog ++ [(n, false)] }

/-- Recovery boot: the dies in reset, the regulators off, MGMT_READY 0, ALERT_N asserted (R343, Table 16.3); bring-up starts again at step 2
when an image is accepted. -/
def State.toRecoveryBoot (s : State) : State :=
  { s with
    sys.booting := false
    sys.recoveryBoot := true
    sys.alertN := false
    sys.ready := 0
    sys.step := 2
    sys.regulators := false
    sys.pllLock := s.sys.pllLock &&& 0x1000 }

/-- The effect of SECURE_BOOT: the active slot, then the other one; with neither, recovery boot (R342, R343). A cold boot
checks images in step 2; a management controller that restarts alone checks them at once (R281, R344). -/
def fxSecureBoot (s : State) : State :=
  if !s.mcOn || !s.sys.booting || decide (s.sys.step < 2) then s
  else
    let a := s.sys.activeSlot
    if s.slotOk a then s.startSlot a
    else
      let s := s.rejectSlot a
      if s.slotOk (1 - a) then s.startSlot (1 - a)
      else
        let s := s.rejectSlot (1 - a)
        s.toRecoveryBoot

/-- SECURE_BOOT (R342). -/
def execSecureBoot (s : State) : Host.Outcome State Fault Refusal := .next (fxSecureBoot s)

/-! ## Bring-up (Table 16.6) -/

/-- The configuration store is loaded (R329): the values of objects that live in State beside the dictionary go there. A
module retired by a safe hold stays retired (R285). -/
def State.loadConfig (s : State) : State :=
  { s with
    um.vals := s.sys.cfgStore.filter (fun e => !(decide (0x501000 ≤ e.1) && decide (e.1 < 0x501C00)) && e.1 != 0x400200)
    um.doms := s.sys.cfgDoms
    obs.dieSel := (s.sys.cfgStore.filter (fun e => decide (0x501000 ≤ e.1) && decide (e.1 < 0x501C00))).map (fun e =>
      ((e.1 / 256 - 0x5010) * 16 + (e.1 % 256 - 1), BitVec.ofNat 8 e.2))
    rbd.role := if s.rbd.role = 2 then 2 else Tab.get 0 s.sys.cfgStore 0x400200 }

/-- The regulators are ramped and every PLL has locked, or REFCLK_100M is out of tolerance and the module holds (R374). -/
def State.lockPlls (s : State) (ok : Bool) : State :=
  if !ok then { s with sys.pllLock := 0, sys.ready := 1, sys.mcOnPll := false }
  else { s with sys.regulators := true, sys.pllLock := 0x1FFF, sys.step := 4, sys.ready := if s.sys.warmUp then 2 else 1 }

/-- The physical core n fails its self-test: a spare leaves the pool, a bound core is rebound; a die without 40 working
cores ends in safe hold (R13, R375). -/
def State.coreFails (s : State) (n : Nat) : State :=
  let d := n / 48
  let i := n % 48
  if s.rbd.safeHold then s
  else if 40 ≤ i then { s with spares := Tab.put s.spares d (NSet.insert (Tab.get [] s.spares d) i) }
  else
    let r := s.rebind (40 * d + i)
    if r.1 then r.2 else r.2.enterSafeHold 9 d

/-- The self-test of step 4, spares first. -/
def State.selfTest (s : State) (fails : List Nat) : State :=
  let fs := (fails.filter (· < 384)).eraseDups
  (fs.filter (fun n => 40 ≤ n % 48) ++ fs.filter (fun n => n % 48 < 40)).foldl State.coreFails s

/-- A lane of a die's UCIe links is repaired at their training: counted, and logged as a rebinding (Table 12.2, Table 15.1). -/
def State.laneRepair (s : State) (d : Nat) : State := (s.dieCtrAdd d 4 1).logRebind 3 d d

/-- The lane repairs of step 4: numbers from 384 on name the dies (DESIGN CHOICE: how a command's operand names them, log 22). -/
def State.laneRepairs (s : State) (fails : List Nat) : State :=
  ((fails.filter (fun v => decide (384 ≤ v) && decide (v < 396))).map (· - 384)).foldl State.laneRepair s

/-- Stacks that fail training in step 5a: with re-stripe at boot the module starts in 21+2 without the first of them; a
third failed stack ends in safe hold (R144, R375). -/
def State.trainStacks (s : State) (fails : List Nat) : State :=
  let fs := (fails.filter (· < 24)).eraseDups
  let s := fs.foldl (fun (s : State) n => (s.modStk n (fun x => { x with trainFail := true })).failStack n) s
  match s.failedStacks[2]? with
  | some n => s.enterSafeHold 8 n
  | none =>
    match fs with
    | n :: _ =>
      if s.obj 0x7010 3 = 1 ∧ !s.sys.warmUp ∧ !s.mem.layout21 then
        (({ s with mem.layout21 := true, mem.removed := some n } : State).setStackState n 6).settleBypass
      else s
    | [] => s

/-- A stack that a warm reset found in RETRAINING goes to CATCH_UP (R137, R378), and a step of the re-stripe whose journal is present
is replayed (R144). -/
def State.resumeStacks (s : State) : State :=
  ((List.range 24).foldl (fun (s : State) n => if (s.stk n).st = 3 then (s.toCatchUp n).settleBypass else s) s).restripeWrite

/-- Step 5a. -/
def State.stepTrain (s : State) (fails : List Nat) : State :=
  let s := s.trainStacks fails
  if s.rbd.safeHold then s
  else
    let s := if s.sys.warmUp then s.resumeStacks else s
    { s with sys.trainDone := true, sys.ready := 3 }

/-- Step 5b: striped memory is written with zero in full stripes, parity included (R375). -/
def State.stepFill (s : State) : State :=
  if !s.sys.trainDone || s.sys.fillDone then s
  else { s with sys.fillDone := true, sys.ready := 3, mem.units := [], mem.poisonTab := [] }

/-- The effect of BRING_UP_STEP_END: a step ends only in its turn. -/
def fxBringUpStepEnd (b : BringStep) (fails : List Nat) (s : State) : State :=
  if !s.mcOn || s.pwr.thermTrip || s.rbd.safeHold then s
  else match b with
    | .s1 => if s.sys.step = 1 then { s with sys.step := 2, sys.pcieConfigured := true } else s
    | .s2 =>
      if s.sys.step = 2 && !s.sys.booting && !s.sys.recoveryBoot && !s.sys.strapTest then
        ({ s with sys.step := 3, sys.ready := 1 }).loadConfig
      else s
    | .s3 => if s.sys.step = 3 ∧ s.sys.vin48 then s.lockPlls fails.isEmpty else s
    | .s4 =>
      if s.sys.step = 4 then
        let s := s.laneRepairs fails
        let s := if s.sys.warmUp then s else s.selfTest fails
        if s.rbd.safeHold then s else { s with sys.step := 5, sys.ready := 2, fab.did := some s.myDid }
      else s
    | .s5a => if s.sys.step = 5 ∧ !s.sys.trainDone then s.stepTrain fails else s
    | .s5b => if s.sys.step = 5 then s.stepFill else s
    | .s5c => if s.sys.step = 5 then { s with sys.fabDone := true, sys.ready := 3 } else s
    | .s6 =>
      if s.sys.step = 5 && s.sys.trainDone && s.sys.fillDone && s.sys.fabDone then
        { s with sys.step := 6, sys.ready := 4, sys.everReady := true, sys.warmUp := false }
      else s

/-- BRING_UP_STEP_END (R374). -/
def execBringUpStepEnd (step : BringStep) (fails : List Nat) (s : State) : Host.Outcome State Fault Refusal :=
  .next (fxBringUpStepEnd step fails s)

/-- REFCLK_RETRY (R374): the check of step 3 is repeated while the module holds. -/
def execRefclkRetry (ok : Bool) (s : State) : Host.Outcome State Fault Refusal :=
  .next (if s.alive && s.sys.step == 3 && s.sys.vin48 && s.sys.pllLock == 0 then s.lockPlls ok else s)

/-- MC_CLOCK_SWITCH (R312). -/
def execMcClockSwitch (s : State) : Host.Outcome State Fault Refusal :=
  .next (if s.sys.pllLock.getLsbD 12 && s.pwr.state != 2 then { s with sys.mcOnPll := true } else s)

/-! ## Failures of clocks, links and control -/

/-- A PLL is no longer locked: of a die, safe hold (R313); of the management controller, its oscillator (R312). -/
def fxPllLockLoss (die : Nat) (s : State) : State :=
  if s.sys.pllLock.getLsbD die then
    let s := { s with sys.pllLock := s.sys.pllLock &&& ~~~ (1#13 <<< die) }
    if die = 12 then { s with sys.mcOnPll := false } else if s.alive then s.enterSafeHold 4 die else s
  else s

/-- PLL_LOCK_LOSS (R313); die 12 is the management controller's. -/
def execPllLockLoss (die : Nat) (s : State) : Host.Outcome State Fault Refusal :=
  if die = 12 then .next (fxPllLockLoss 12 s) else onDie die s (fxPllLockLoss die)

/-- The links of a compute die that are lost. -/
def State.lostLinks (s : State) (cd : Nat) : NSet := Tab.get [] s.sys.dieLinks cd

/-- The effect of DIE_LINK_FAILURE: traffic takes the other I/O dies, the event is counted; with two links lost the die is
beyond reach (R12, R277). -/
def fxDieLinkFailure (cd iod : Nat) (s : State) : State :=
  if !s.alive || !s.sys.regulators || NSet.mem (s.lostLinks cd) iod then s
  else
    let s := { s with
      sys.dieLinks := Tab.put s.sys.dieLinks cd (NSet.insert (s.lostLinks cd) iod)
      sys.dieLinkEvents := s.sys.dieLinkEvents + 1 }
    let s := s.logRebind 3 cd iod
    if 2 ≤ (s.lostLinks cd).length then s.enterSafeHold 3 cd else s

/-- DIE_LINK_FAILURE (R12). -/
def execDieLinkFailure (cd iod : Nat) (s : State) : Host.Outcome State Fault Refusal :=
  onCd cd s (fun s => if iodOk iod then fxDieLinkFailure cd iod s else s)

/-- CONTROL_CHECK_FAILURE (R277, R283): a check failure, or a compute die that stops answering on the sideband. -/
def execControlCheckFailure (unit : Nat) (lost : Bool) (s : State) : Host.Outcome State Fault Refusal :=
  onDie unit s (fun s => if s.alive then s.enterSafeHold (if lost && decide (unit < 8) then 3 else 4) unit else s)

end Sys2Proof.Machine
end

