-- ==== Sys2Proof/Machine/Dump.lean ====
section
/-! DEFINITION. The hang dump (R359 to R362): its region, its header, and what begins one. -/

namespace Sys2Proof.Machine
open Sys2Proof

/-- The physical address and size of the dump region (R361). -/
def dumpBase : Nat := 0x0000FC000000
def dumpSize : Nat := 0x04000000

/-- The header with the section directory (Table 15.8): cause, times, identities, sections, CRC and VALID. -/
def State.dumpHeader (s : State) (secs : List (Nat × Nat)) (crc valid : Nat) : List Byte :=
  let h := natLe 4 0x444D5031 ++ natLe 1 s.obs.dumpCause ++ natLe 1 secs.length ++ [0, 0] ++ natLe 8 s.obs.dumpTrigger.toNat
    ++ natLe 8 s.obs.dumpOffset.toNat ++ natLe 4 s.myDid ++ natLe 4 (s.myRank.getD 0x1FFFF) ++ natLe 4 crc ++ natLe 4 valid
    ++ List.replicate 24 0 ++ secs.flatMap (fun e => natLe 8 e.1 ++ natLe 8 e.2)
  h ++ List.replicate (4096 - h.length) 0

/-- Where the six sections lie after the header, given their sizes. -/
def sectionsAt (off : Nat) : List Nat → List (Nat × Nat)
  | [] => []
  | n :: ns => (off, n) :: sectionsAt (off + n) ns

/-! ## The sections (R360, R361, Table 15.9): the spec lists what an entry holds and gives it no layout, so an entry's bytes are an opaque
function of what it holds (DESIGN CHOICE, log 14) -/

/-- The integer part of a temperature as eight unsigned bits (Table 6.11; log 17). -/
def tempByte (t : BitVec 32) : Nat :=
  match f32 t.toNat with
  | .fin false m (.ofNat e) => Nat.min 255 (m * 2 ^ e)
  | .fin false m (.negSucc e) => Nat.min 255 (m / 2 ^ (e + 1))
  | _ => 0

/-- MEM_STACK_STATUS[n] (Table 6.11). -/
def State.stackStatus (s : State) (n : Nat) : Nat :=
  let x := s.stk n
  x.st + 8 * bit x.refresh2x + 16 * bit x.throttled + 32 * bit (!x.stale.isEmpty) + 64 * bit x.suspended + 128 * bit x.temp.isSome
    + 256 * tempByte (x.temp.getD 0) + 2 ^ 16 * bit x.odCorr + 2 ^ 17 * bit x.odUncorr + 2 ^ 18 * bit x.trainFail

/-- The entries of a table as keys and values. -/
def tabNats {w : Nat} (t : Tab (BitVec w)) : List Nat := t.flatMap (fun e => [e.1, e.2.toNat])

/-- The bytes of an entry of kind k, of a size that the spec states. -/
def dumpEntry (k n : Nat) (vals : List Nat) : List Byte :=
  let b := (Config.dumpRecord k vals).take n
  b ++ List.replicate (n - b.length) 0

/-- A section of at most 8 MiB, so that all of them fit in the region. -/
def dumpSection (bs : List Byte) : List Byte := bs.take (2 ^ 23)

/-- What identifies a task. -/
def TaskInfo.nats (x : TaskInfo) : List Nat := [x.key.c, x.key.q, x.key.idx, x.recNo, x.opId.toNat]

/-- What the record of core L holds: registers, status registers, vector registers and masks, the unit queues with their scoreboard blocks, the
task queue, the counters, RBD_CORE_MAP, OPERATOR_ID, and the capture and stop timestamps. -/
def State.coreNats (s : State) (L : Nat) : List Nat :=
  let cs := s.core L
  let ts := fun (l : List Nat) => l.length :: l
  ts (tabNats cs.a) ++ ts (tabNats cs.l) ++ [bit cs.p, cs.pc, cs.seed.toNat, cs.seqTaskStatus.toNat, cs.mxuStatus.toNat]
    ++ (List.range 4).map (fun p => (cs.mxuPartStatus p).toNat) ++ [cs.vxuStatus.toNat] ++ ts (tabNats cs.v) ++ ts (tabNats cs.m)
    ++ ts (cs.inflight.flatMap (fun i => [i.unit.ctorIdx, i.seq, i.pc] ++ ts i.rd ++ ts i.wr)) ++ ts (cs.queue.flatMap TaskInfo.nats)
    ++ ts (tabNats cs.evSel) ++ ts (tabNats cs.evCtr) ++ [cs.mapWord.toNat, (cs.task.elim 0 (fun x => x.opId.toNat)), s.sys.tsCd.toNat,
      (Tab.get 0 s.obs.stopTs L).toNat]

/-- Section 0: 320 records of 16 KiB. -/
def State.dumpCores (s : State) : List Byte := (List.range 320).flatMap (fun L => dumpEntry 0 16384 (s.coreNats L))

/-- What the record of a waiter at a slot holds: context, handle, home, index, kind, amount, who waits, and when it came. -/
def waiterNats (key : Nat) (x : Slot) (w : Waiter) : List Nat :=
  [w.c, w.id, x.gen.toNat, key / 2 ^ 14, key % 2 ^ 14, bit w.strike, w.n, w.src.unitNo, (match w.src with
    | .cmd k => k.idx
    | _ => 0), w.came.toNat]

/-- Section 1: the recorded waiters, then the QBLOCKED handles of each context. -/
def State.dumpWaits (s : State) : List Byte :=
  s.pen.slots.flatMap (fun e => e.2.waiters.flatMap (fun w => dumpEntry 1 32 (waiterNats e.1 e.2 w)))
    ++ (List.range 16).flatMap (fun c => Config.dumpRecord 2 (c :: (s.awaited c)))

/-- Section 2: the registers of each context's rings and front end, then 64 B per started command; when a command last made progress is
free. -/
def State.dumpQueues (s : State) : List Byte × State :=
  (List.range 16).foldl (fun (acc : List Byte × State) c =>
    let x := s.ctx c
    let regs := (List.range 64).map (fun i => ((x.ring (i / 16)).reg (4 * (i % 16))).toNat)
      ++ [x.cfgTimeout, x.dqCplRing, s.ctxStatus c, x.arenaBase.toNat, x.arenaSize]
    x.started.foldl (fun (acc : List Byte × State) m =>
      let f := acc.2.free
      (acc.1 ++ dumpEntry 4 64 [m.key.q, m.key.idx, m.op, fieldAt m.desc 4 4, m.tStart.toNat, f.1, s.cmdTimeout c m.desc], f.2))
      (acc.1 ++ Config.dumpRecord 3 (c :: regs), acc.2)) ([], s)

/-- Section 3: the ports with their occupancies and retry buffers, the pools, the flow tables, and the running collectives with the members
whose data they wait for. -/
def State.dumpFabric (s : State) : List Byte :=
  (List.range 76).flatMap (fun p =>
      let x := s.port p
      Config.dumpRecord 5 ([p, s.fabPortStatus p, (Tab.get 0 s.obs.stopTs (320 + p)).toNat, x.retry.length] ++ x.used.flatMap (fun e => [e.1, e.2])))
    ++ (List.range 4).flatMap (fun k => Config.dumpRecord 6 [k, s.fabPoolStatus k, (Tab.get 0 s.obs.stopTs (396 + k)).toNat])
    ++ s.fab.flows.flatMap (fun f => Config.dumpRecord 7 [f.c, f.unit, f.rank, f.route.toNat, f.bsel, f.count, f.echo.toNat])
    ++ s.coll.runs.flatMap (fun r => Config.dumpRecord 8 ([r.key.c, r.d.id, r.d.epoch.toNat, r.unacked.length, r.tReal]
        ++ (if r.dataDone then [] else r.partners)))

/-- Section 4: the stacks, the gather buffers with the writes that are not yet acknowledged, and the watermark. -/
def State.dumpMemory (s : State) : List Byte :=
  (List.range 24).flatMap (fun n => Config.dumpRecord 9 [n, s.stackStatus n])
    ++ Config.dumpRecord 10 (s.mem.gather.map (·.stripe) ++ s.mem.acks.flatMap (fun e => [e.1, e.2]) ++ [s.mem.watermark])

/-- Section 5: every counter of cores, stacks, ports and dies. -/
def State.dumpCounters (s : State) : List Byte :=
  s.cores.flatMap (fun e => Config.dumpRecord 11 (e.1 :: tabNats e.2.ctr))
    ++ s.mem.stack.flatMap (fun e => Config.dumpRecord 14 (e.1 :: tabNats e.2.ctr))
    ++ s.fab.ports.flatMap (fun e => Config.dumpRecord 12 (e.1 :: tabNats e.2.ctr))
    ++ Config.dumpRecord 13 (tabNats s.obs.dieSel ++ tabNats s.obs.dieCtr ++ tabNats s.obs.dieAlways)

/-- The effect of HANG_DUMP_COMPLETE: the dump lies in memory, is held, and its event follows (R360). -/
def fxHangDumpComplete (s : State) : State :=
  if s.obs.dumpState ≠ 1 then s
  else
    let q := s.dumpQueues
    let body := [s.dumpCores, s.dumpWaits, q.1, s.dumpFabric, s.dumpMemory, s.dumpCounters].map dumpSection
    let secs := sectionsAt 4096 (body.map (·.length))
    let all := body.flatMap (fun b => b)
    let s := q.2
    let crc := crc32 (s.dumpHeader secs 0 0 ++ all)
    let s := (s.memWrite dumpBase (s.dumpHeader secs crc.toNat 1 ++ all)).2
    ({ s with obs.dumpState := 2 }).event 0x0601 s.obs.dumpCause

/-- HANG_DUMP_COMPLETE (R360). -/
def execHangDumpComplete (s : State) : Host.Outcome State Fault Refusal := .next (fxHangDumpComplete s)

/-- HANG_DUMP_TRIGGER (R359): a trigger of Table 15.7 that a unit raises. -/
def execHangDumpTrigger (cause : Nat) (s : State) : Host.Outcome State Fault Refusal :=
  .next (if s.mcOn && decide (cause ≤ 5) then s.dump cause else s)

end Sys2Proof.Machine
end

