-- ==== Sys2Proof/Machine/Stop.lean ====
section
/-! DEFINITION. Timeouts of tasks and commands, and kills (R55, R169 to R171, R280). -/

namespace Sys2Proof.Machine
open Sys2Proof

/-! ## Killing a command -/

/-- What a command has at pennants and in flight for them is dropped, and consumes nothing (R169). -/
def State.dropCmdPen (s : State) (k : CmdKey) : State :=
  let mine := fun (src : PenSrc) => match src with
    | .cmd j => j == k
    | _ => false
  { s with
    pen.slots := Tab.mapV s.pen.slots (fun _ x => { x with waiters := x.waiters.filter (fun w => !mine w.src) })
    pen.msgs := s.pen.msgs.filter (fun m => !mine m.src)
    pen.outcomes := s.pen.outcomes.filter (fun o => !mine o.src)
    fab.trans := s.fab.trans.map (fun (t : Trans) => match t.kind with
      | .hoist src _ => if mine src then { t with kind := TransKind.other } else t
      | _ => t) }

/-- The cores that run or hold tasks of a launch. -/
def State.coresOfCmd (s : State) (k : CmdKey) : List Nat :=
  (s.cores.filter (fun e => (e.2.task.map (·.key)) == some k || e.2.queue.any (fun t => t.key == k))).map (·.1)

/-- Tasks of a launch that have not started are discarded (R169). -/
def State.discardTasks (s : State) (k : CmdKey) : State :=
  (s.coresOfCmd k).foldl (fun (s : State) L =>
    let n := ((s.core L).queue.filter (fun t => t.key == k)).length
    let s := s.modCore L (fun cs => { cs with queue := cs.queue.filter (fun t => t.key != k) })
    s.modCmd k (fun m => { m with tasksLeft := m.tasksLeft - n })) s

/-- The started command k is killed with a status: its tasks, waits, messages and collective end, and it is finished. The
code is the command's own, noted before its tasks report (R162). -/
def State.killCmd (s : State) (k : CmdKey) (st : Status) : State :=
  match s.findCmd k with
  | none => s
  | some m =>
    if m.finished then s
    else
      let s := s.modCmd k (fun m => { m with conds := m.conds ++ [(st, 0)] })
      let s := ((s.coll.runs.filter (fun r => r.key == k)).foldl (fun (s : State) r => s.failMine r st) s).dropCmdPen k
      let s := s.discardTasks k
      let s := (s.coresOfCmd k).foldl (fun (s : State) L => s.killCore L st) s
      s.modCmd k (fun m => { m with finished := true })

/-! ## The legacy policy (R170) -/

/-- The records of every context's fetched commands that have not completed: the expired one TIMEOUT_KILLED, every other
CANCELLED_DISABLED; one that has ended and waits for its record has not completed (R154, R170). -/
def State.legacyRecords (s : State) (k : CmdKey) : State :=
  (s.ctxs.map (·.1)).foldl (fun (s : State) c =>
    let x := s.ctx c
    let waiting := x.rings.flatMap (fun e => e.2.fetched.map (fun f => cancelledCmd ⟨c, e.1, f.1.toNat⟩ f.2 s.sys.ts))
    (x.started ++ waiting).foldl (fun (s : State) m =>
      s.writeRecord { m with conds := [(if m.key = k then St.killed else St.cancelled, 0)] } true) s) s

/-- The legacy policy at the first expiry: records, FAILED headers of the updates that have begun to write (R264), the dump if it is enabled,
a warm reset, RESET_SEEN in every context and a message on the vector of each ring that was enabled. -/
def State.legacyReset (s : State) (k : CmdKey) : State :=
  let s := s.coll.runs.foldl State.failHeader (s.legacyRecords k)
  let on := s.ctxs.flatMap (fun e => (e.2.rings.filter (fun r => r.2.enable)).map (fun r => (e.1, r.2.vector.toNat)))
  let s := fxHangDumpComplete (s.dump 4)
  let s := s.warmReset
  let s := (List.range 16).foldl (fun (s : State) c => s.modCtx c (fun x => { x with resetSeen := true })) s
  on.foldl (fun (s : State) r => s.emit (.msix r.1 r.2)) s

/-! ## Commands (R169) -/

/-- The destination bytes of a COPY that expires are unspecified; the host's are its own (log 4). -/
def State.spoilCopy (s : State) (m : Cmd) : State :=
  if m.op ≠ 5 ∨ dField m.desc 0x10 1 % 4 = 1 then s
  else s.vaScramble m.key.c (dField m.desc 0x20 8) (dField m.desc 0x14 4)

/-- The running tasks of a launch stop issue and drain (R55). -/
def State.drainTasks (s : State) (k : CmdKey) : State :=
  (s.coresOfCmd k).foldl (fun (s : State) L =>
    (s.modCore L (fun cs => { cs.stop St.drained with drain := true })).settle L) s

/-- Whether an expired command has work in flight that may finish. -/
def State.inFlight (s : State) (m : Cmd) : Bool :=
  m.begun && (match m.op with
    | 1 => s.cores.any (fun e => (e.2.task.map (·.key)) == some m.key)
    | 6 => true
    | 8 => s.coll.runs.any (fun r => r.key == m.key && !r.held)
    | _ => false)

/-- The drain of R169 begins: no new work; a command with nothing in flight ends at once. -/
def State.expire (s : State) (m : Cmd) : State :=
  let k := m.key
  let s := (s.dump 0).modCmd k (fun m => { m with conds := m.conds ++ [(St.drained, 0)], draining := true })
  let s := s.spoilCopy m
  let s := if m.op = 7 then s.dropCmdPen k else s
  let s := (s.discardTasks k).drainTasks k
  if s.inFlight m then s
  else
    let s := (s.coll.runs.filter (fun r => r.key == k)).foldl (fun (s : State) r => s.failMine r St.drained) s
    (s.modCmd k (fun m => { m with finished := true })).progress k.c

/-- COMMAND_TIMEOUT (R168 to R170). -/
def execCommandTimeout (k : CmdKey) (s : State) : Host.Outcome State Fault Refusal :=
  onKey k s (fun s => match s.findCmd k with
    | none => s
    | some m =>
      if !s.alive || m.finished || m.draining then s
      else if s.obj 0x2100 1 = 1 then s.legacyReset k
      else s.expire m)

/-- Something of a draining command was killed: it is TIMEOUT_KILLED, not TIMEOUT_DRAINED (R169). -/
def State.notDrained (s : State) (k : CmdKey) : State :=
  s.modCmd k (fun m => if m.draining then { m with conds := m.conds.filter (fun c => c.1 != St.drained) } else m)

/-- COMMAND_DRAIN_EXPIRY (R169). -/
def execCommandDrainExpiry (k : CmdKey) (s : State) : Host.Outcome State Fault Refusal :=
  onKey k s (fun s => match s.findCmd k with
    | none => s
    | some m => if s.alive && m.draining && !m.finished then (s.killCmd k St.killed).notDrained k else s)

/-! ## Tasks (R55) -/

/-- The effect of TASK_TIMEOUT: issue stops and the core's units drain; a task that had ended already only drains. -/
def fxTaskTimeout (L : Nat) (s : State) : State :=
  let cs := s.core L
  match cs.task with
  | none => s
  | some t =>
    if !s.alive || cs.drain then s
    else if s.obj 0x2100 1 = 1 then s.legacyReset t.key
    else
      let cs := if cs.ended.isSome then cs.condition St.drained else cs.stop St.drained
      ((s.dump 0).setCore L { cs with drain := true }).settle L

/-- TASK_TIMEOUT (R55). -/
def execTaskTimeout (core : Nat) (s : State) : Host.Outcome State Fault Refusal := onCore core s (fxTaskTimeout core)

/-- The effect of TASK_DRAIN_EXPIRY: what remains is killed. -/
def fxTaskDrainExpiry (L : Nat) (s : State) : State :=
  match (s.core L).task with
  | none => s
  | some t => if (s.core L).drain then (s.killCore L St.killed).notDrained t.key else s

/-- TASK_DRAIN_EXPIRY (R55). -/
def execTaskDrainExpiry (core : Nat) (s : State) : Host.Outcome State Fault Refusal :=
  onCore core s (fxTaskDrainExpiry core)

/-! ## Rings (R171) -/

/-- A command that has ended and whose record is not yet written has not completed: it ends with CANCELLED_DISABLED (R154, R171). -/
def State.cancelEnded (s : State) (k : CmdKey) : State :=
  s.modCmd k (fun m => if m.finished then { m with conds := [(St.cancelled, 0)] } else m)

/-- The effect of RING_DRAIN_EXPIRY: the ring's started commands that remain are killed; DRAINING clears with their
records. -/
def fxRingDrainExpiry (c n : Nat) (s : State) : State :=
  let x := s.ctx c
  if !(x.ring n).draining then s
  else
    let left := (x.started.filter (fun m => x.cplRing m.key == n && m.conds != [(St.cancelled, 0)])).map (·.key)
    let s := left.foldl (fun (s : State) k => (s.killCmd k St.cancelled).cancelEnded k) s
    (s.modRing c n (fun r => { r with killed := r.killed || !left.isEmpty })).drainDone c n

/-- RING_DRAIN_EXPIRY (R171). -/
def execRingDrainExpiry (c ring : Nat) (s : State) : Host.Outcome State Fault Refusal :=
  onRing c ring s (fxRingDrainExpiry c ring)

end Sys2Proof.Machine
end

