-- ==== Sys2Proof/Machine/Access.lean ====
section
/-! DEFINITION. Access to the objects of the dictionary (R326 to R335): which objects exist, the levels held on each path,
what an object reads as, and the checks that a write passes. -/

namespace Sys2Proof.Machine
open Sys2Proof

/-! ## Objects (R326) -/

/-- The rows that hold objects of an index. -/
def rowsOf (idx : Nat) : List ObjRow := objRows.filter (fun r => decide (r.lo ≤ idx) && decide (idx ≤ r.hi))

/-- The highest subindex of an index. -/
def topSub (idx : Nat) : Nat := (rowsOf idx).foldl (fun a r => Nat.max a r.sHi) 0

/-- Subindex 0 of an index without a named object there: read-only, the highest subindex (R326). -/
def subZero (idx : Nat) : ObjRow :=
  ⟨idx, idx, 0, 0, "HIGHEST_SUBINDEX", .u8, some 0, none, [topSub idx], false, true, false, .any⟩

/-- The object of an index and subindex. -/
def objAt (idx sub : Nat) : Option ObjRow :=
  match objRow idx sub with
  | some r => some r
  | none => if sub = 0 ∧ !(rowsOf idx).isEmpty then some (subZero idx) else none

/-! ## Levels (Tables 14.2, 14.3) -/

/-- The level that a path grants without a session, for a write or a read; a service mailbox serves no object. -/
def State.pathLevel (s : State) (p : UmPath) (wr : Bool) : Nat :=
  match p with
  | .t1s => if wr then (if s.obj 0x1011 3 = 1 then 1 else 0) else 1
  | .mbox => if wr then 1 else 2
  | .svc _ => 0
  | .fabric _ => 1

/-- The open session n of a path. -/
def State.session (s : State) (p : UmPath) (n : Nat) : Option Session :=
  match Tab.find s.um.sessions n with
  | some x => if x.opened && x.path == p then some x else none
  | none => none

/-- The level that a request holds (R330). -/
def State.level (s : State) (rq : Req) (wr : Bool) : Nat :=
  let l := s.pathLevel rq.path wr
  match s.session rq.path rq.session with
  | some x => Nat.max l x.level
  | none => l

/-! ## Values -/

/-- MEM_STATE (Table 6.12). -/
def State.memState (s : State) : Nat :=
  let n := s.failedStacks.length
  if s.mem.restripe = 2 then 3
  else if 3 ≤ n then 6
  else if s.mem.layout21 then (if n = 0 then 4 else 5)
  else n

/-- PWR_STATUS (Table 13.8). -/
def State.pwrStatus (s : State) : Nat :=
  let set := fun (l : NSet) => l.foldl (fun a i => a + 2 ^ i) 0
  let d := s.coreDiv
  s.pwr.state + 8 * bit (decide (s.pwr.duty < 16) || decide (s.obj 0x3020 1 < d)) + 16 * s.pwr.duty
    + 2 ^ 9 * (if d = 6 then 0 else if d = 8 then 1 else 2) + 2 ^ 12 * set s.pwr.cdThrottle
    + 2 ^ 20 * set s.pwr.iodThrottle + 2 ^ 24 * bit s.pwr.thermTrip + 2 ^ 25 * bit s.pwr.limitHit

/-- The mean of the samples of the last 100 ms, as F32; none taken yet reads 0. -/
def State.inputW (s : State) : Nat :=
  if s.pwr.samples.isEmpty then 0
  else toF32 (Fp.div (Fp.fromInt s.pwr.samples.sum) (Fp.fromInt s.pwr.samples.length))

/-- The number of a function, and the index of its enable object; command fetch has none (Table 14.9, R282). -/
def fnNo : FuncId → Nat
  | .fetch => 0
  | .deadlock => 1
  | .collective => 2
  | .router => 3
  | .update => 4
  | .scrub => 5
  | .retrain => 6
  | .restripe => 7
  | .fabRetrain => 8
  | .tsAlign => 9
  | .recovery => 10

/-- The index of a function's objects: its enable, mode and DISABLE_STATE. -/
def fnIdx : FuncId → Nat
  | .fetch => 0x2100
  | .deadlock => 0x2200
  | .collective => 0x2300
  | .router => 0x2310
  | .update => 0x2400
  | .scrub => 0x7020
  | .retrain => 0x7030
  | .restripe => 0x7010
  | .fabRetrain => 0x6030
  | .tsAlign => 0x5100
  | .recovery => 0x4003

/-- The functions that have an enable object. -/
def fnAll : List FuncId :=
  [.deadlock, .collective, .router, .update, .scrub, .retrain, .restripe, .fabRetrain, .tsAlign, .recovery]

/-- Whether a function has work in flight that a drain waits for (R282; a step of a re-stripe, a scrubbed stripe and a
detection are whole within their commands). -/
def State.fnBusy (s : State) (f : FuncId) : Bool :=
  match f with
  | .collective => s.coll.runs.any (fun r => r.d.op != 0x10 && r.d.op != 0x11)
  | .router => s.coll.runs.any (fun r => r.d.op == 0x10 || r.d.op == 0x11)
  | .update => s.coll.runs.any (fun r => r.upd.isSome)
  | .retrain => (List.range 24).any (fun n => (s.stk n).st == 3)
  | .tsAlign => s.obs.measuring
  | .recovery => decide (2 ≤ s.rbd.recState) && decide (s.rbd.recState ≤ 5)
  | _ => false

/-- DISABLE_STATE of a function: a drain is over when nothing is in flight. -/
def State.disableState (s : State) (f : FuncId) : Nat :=
  let v := Tab.get 0 s.rbd.disable (fnNo f)
  if v = 1 ∧ !s.fnBusy f then 2 else v

/-- RBD_STOP_STATE (R286, R287): halted contexts, then a stop that is pending, then stopped: the cut is globally sealed, and this module and every
other one that is not lost has drained (log 21). -/
def State.stopStateOf (s : State) : Nat :=
  if s.ctxs.any (fun e => e.2.halted) then 3
  else
    let l := s.ctxs.filter (fun e => e.2.epochStop.isSome)
    let done := fun (x : CtxState) => x.stopped && (match x.epochStop with
      | some k => decide (k ≤ x.cutStepGlobal.toNat)
      | none => false) && x.started.isEmpty
    if l.isEmpty then 0 else if l.all (fun e => done e.2 && !s.fab.trans.any (fun t => t.c == e.1)
      && s.shapeDids.all (fun d => s.didLost d || Config.peerDrained d e.1 s.sys.ts.toNat)) then 2 else 1

/-- The work of a background activity: whether it is disabled, by its enable or a share of 0, whether it has work, and whether what it
has to do is put off (Table 14.10; log 17). -/
def State.bgWork (s : State) (i : Nat) : Bool × Bool × Bool :=
  match i with
  | 1 => (s.obj 0x7020 1 == 0, s.works && (s.obj 0x7020 2 != 2 || Tab.has s.um.doms 0x702005), false)
  | 2 =>
    let catching := (List.range 24).any (fun n => (s.stk n).st == 4)
    (s.obj 0x7010 1 == 0 && !catching, catching || s.mem.restripe == 2, false)
  | 3 => (s.obj 0x7030 1 == 0, s.fnBusy .retrain, s.mem.retrainDue)
  | 4 => (s.obj 0x6031 2 == 0, s.alive && (List.range 76).any (fun p => portUp (s.port p).st), false)
  | 5 => (s.obj 0x4040 2 == 0, s.works, false)
  | _ => (false, s.um.events.any (fun e => !e.2.isEmpty), false)

/-- The status of a background activity (R340): 0 idle, 1 running, 2 deferred, 3 disabled, 4 failed. -/
def State.bgStatus (s : State) (i : Nat) : Nat :=
  let w := s.bgWork i
  if w.1 then 3
  else if Tab.get 0 s.um.bg i = 4 then 4
  else if w.2.2 || (w.2.1 && Config.bgDeferred i s.sys.ts.toNat) then 2
  else bit w.2.1

/-- Spare cores left on a compute die (Table 12.12). -/
def State.sparesLeft (s : State) (d : Nat) : Nat :=
  ((List.range 8).filter (fun i => !NSet.mem (Tab.get [] s.spares d) (40 + i))).length

/-- The version of the image in a slot: 0 without an accepted one (Table 14.15). -/
def State.slotVersion (s : State) (n : Nat) : Nat :=
  if s.slotOk n then (Config.imageVersion ((Tab.find s.sys.slotImage n).getD [])).toNat else 0

/-- The value of an object of a scalar type, as a number in its encoding: what State holds for the objects that report, what
was written or the default for the others. -/
def State.objVal (s : State) (idx sub : Nat) : Nat :=
  if 0x5010 ≤ idx ∧ idx ≤ 0x501B ∧ sub ≠ 0 then (Tab.get 0 s.obs.dieSel ((idx - 0x5010) * 16 + (sub - 1))).toNat
  else if 0x5020 ≤ idx ∧ idx ≤ 0x502B ∧ sub ≠ 0 then (Tab.get 0 s.obs.dieCtr ((idx - 0x5020) * 16 + (sub - 1))).toNat
  else if 0x5030 ≤ idx ∧ idx ≤ 0x503B ∧ sub ≠ 0 then (Tab.get 0 s.obs.dieAlways ((idx - 0x5030) * 8 + sub)).toNat
  else if 0x5300 ≤ idx ∧ idx ≤ 0x5317 ∧ sub ≠ 0 then (Tab.get 0 (s.stk (idx - 0x5300)).ctr sub).toNat
  else if 0x5400 ≤ idx ∧ idx ≤ 0x553F ∧ sub ≠ 0 then
    let cs := s.core (idx - 0x5400)
    if sub ≤ 8 then (Tab.get 0 cs.ctr sub).toNat else (Tab.get 0 cs.evCtr (sub - 9)).toNat
  else if 0x5800 ≤ idx ∧ idx ≤ 0x584B ∧ sub ≠ 0 then (Tab.get 0 (s.port (idx - 0x5800)).ctr sub).toNat
  else match (if sub = 0x0F then fnAll.find? (fun f => fnIdx f == idx) else none) with
  | some f => s.disableState f
  | none => match idx, sub with
    | 0x1003, 1 => s.slotVersion 0
    | 0x1003, 2 => s.slotVersion 1
    | 0x1004, 0 => s.sys.ready
    | 0x1011, 1 => Config.mac.toNat
    | 0x1011, 2 => Tab.get (s.sys.strapNode.toNat + 1) s.um.vals 0x101102
    | 0x1030, 3 => s.sys.activeSlot
    | 0x2200, 4 => s.pen.dldEvents.toNat
    | 0x2201, 3 => s.censusState
    | 0x2303, 0 => s.coll.runs.length
    | 0x2402, 0 => s.ueActive
    | 0x3000, 0 => s.pwr.state
    | 0x3000, 1 => s.pwrStatus
    | 0x3001, 1 => s.inputW
    | 0x3001, 2 => (Config.sensor 1 s.sys.ts.toNat).toNat
    | 0x3001, 3 => (Config.sensor 0 s.sys.ts.toNat).toNat
    | 0x3020, 2 => s.sys.pllLock.toNat
    | 0x3107, 1 => s.pwr.wakeSource
    | 0x3107, 2 => s.pwr.wakeTime.toNat
    | 0x3107, 3 => s.pwr.standbyTime.toNat
    | 0x4002, 0 => s.rbd.role
    | 0x4003, 3 => s.rbd.recState
    | 0x4003, 4 => s.rbd.lastLost.toNat
    | 0x4004, 0 => s.coordRank.getD 0
    | 0x4007, 0 => s.rbd.rank.toNat
    | 0x4010, 4 => s.stopStateOf
    | 0x4020, 0 => bit s.rbd.safeHold
    | 0x4020, 1 => s.rbd.cause.toNat
    | 0x4020, 4 => s.rbd.time.toNat
    | 0x4030, 2 => s.rbd.wdExpiries.toNat
    | 0x5100, 5 => s.obs.tsOffset.toNat
    | 0x5100, 6 => s.obs.tsError.toNat
    | 0x5100, 8 => s.obs.tsMeasure.toNat
    | 0x5E00, 0 => s.obs.dumpState
    | 0x5E00, 5 => s.obs.dumpMissed.toNat
    | 0x5F00, 3 => s.obs.traceFaults.toNat
    | 0x6000, 0 => s.myDid
    | 0x7000, 0 => s.memState
    | 0x7003, 0 => s.unavailCount
    | 0x7010, 4 => s.mem.watermark
    | 0x7010, 5 => s.restripeStatus
    | _, _ =>
      if sub = 0 then (match objRow idx 0 with
        | some _ => s.obj idx 0
        | none => topSub idx)
      else if idx = 0x2600 then s.bgStatus sub
      else if idx = 0x3200 then ((Tab.get 0x7FC00000#32 s.pwr.dieTemp (sub - 1))).toNat
      else if idx = 0x4000 then s.sparesLeft (sub - 1)
      else if idx = 0x6003 then s.fabPortStatus (sub - 1)
      else if idx = 0x7001 then s.stackStatus (sub - 1)
      else if idx = 0x7002 then ((s.stk (sub - 1)).temp.getD 0x7FC00000#32).toNat
      else s.obj idx sub

/-- One entry of RBD_LOG (R276; log 17). -/
def rebindEntry (e : BitVec 64 × Nat × Nat × Nat) : List Byte := Config.rebindEntry e.1 e.2.1 e.2.2.1 e.2.2.2

/-- The rank map as a byte string: entry r at byte 4r (R29). -/
def State.rankMapBytes (s : State) : List Byte := (List.range 131072).flatMap (fun r => natLe 4 (s.rankEntry r))

/-- The bytes of an object of type STR or DOMAIN from offset o, n of them at most, and its length. -/
def State.objBytes (s : State) (idx sub o n : Nat) : List Byte × Nat :=
  let cut := fun (l : List Byte) => ((l.drop o).take n, l.length)
  match idx, sub with
  | 0x1000, _ => cut [0x54, 0x57, 0x2D, 0x43, 0x32, 0x34]
  | 0x1001, _ => cut ([0x54, 0x57] ++ (List.range 10).map (fun i => BitVec.ofNat 8 (0x30 + (Config.serial i).toNat % 10)))
  | 0x2200, _ => cut (Config.dldStates ((List.range 16).map s.blocked) s.moduleBlocked)
  | 0x4003, _ => cut ((List.range 4).flatMap (fun i => natLe 4 (Tab.get 0 s.rbd.recTimes i)))
  | 0x4005, _ => cut (s.rbd.log.flatMap rebindEntry)
  | 0x4006, _ => cut s.rankMapBytes
  | 0x5E00, _ => if s.obs.dumpState = 2 then ((s.memRead (dumpBase + o) (Nat.min n (dumpSize - o))).1.bytes, dumpSize) else ([], 0)
  | 0x8030, _ => cut Config.fuses
  | _, _ => cut (Tab.get [] s.um.doms (idx * 256 + sub))

/-- The value of an object as its frame carries it. -/
def State.objFrame (s : State) (r : ObjRow) (idx sub : Nat) : List Byte :=
  match r.ty with
  | .str => (s.objBytes idx sub 0 200).1
  | _ => natLe r.ty.len (s.objVal idx sub)

/-! ## Checks (R335, R343, Table 14.6) -/

/-- Whether an object may be reached while the boot ROM still checks images or the module is in recovery boot (R343):
identity, and on the 10BASE-T1S port the firmware objects; with STRAP_TEST high only the 0x8000 range (R371). -/
def State.bootAllows (s : State) (p : UmPath) (idx : Nat) (wr : Bool) : Bool :=
  if s.sys.strapTest then decide (0x8000 ≤ idx) && decide (idx ≤ 0x8FFF)
  else if s.inBoot then
    p == .t1s && ((!wr && decide (0x1000 ≤ idx) && decide (idx ≤ 0x1004)) || idx == 0x1030)
  else true

/-- Whether a value lies in an object's range (R327, R335); D0 of the shape is 16, D1 and D2 at most 16 (R209). -/
def inRange (r : ObjRow) (idx sub v : Nat) : Bool :=
  decide (v < 256 ^ r.ty.len) && (match r.ty with
    | .f32 => !(f32 v).isNan && !(f32 v).isInf
    | _ => true)
  && (match r.range with
    | .any => true
    | .nat lo hi => decide (lo ≤ v) && decide (v ≤ hi)
    | .oneOf vs => vs.contains v
    | .fp lo hi => f32le (f32 lo) (f32 v) && f32le (f32 v) (f32 hi))
  && (idx != 0x6001 || (if sub = 1 then v == 16 else sub == 4 || decide (v ≤ 16)))
  && (!(decide (0x5010 ≤ idx) && decide (idx ≤ 0x501B)) || v == 0
    || (if idx < 0x5018 then decide (0x40 ≤ v) && decide (v ≤ 0x46) else decide (0x60 ≤ v) && decide (v ≤ 0x6E)))

/-- Why a write of an object is refused before its value is looked at: DETAIL of Table 14.6. -/
def State.writeRefusal (s : State) (rq : Req) (idx sub : Nat) : Option Nat :=
  if !s.bootAllows rq.path idx true then some 0x0B
  else match rq.path with
    | .svc _ => some 0x11
    | _ =>
      match objAt idx sub with
      | none => some 0x01
      | some r =>
        match r.wr with
        | none => some 0x03
        | some l =>
          if r.fixed then some 0x03
          else if s.level rq true < l then some 0x04
          else match Tab.find s.um.locks (idx * 256 + sub) with
            | some k => if k.path == rq.path && k.session == rq.session && r.ty == .domain then none else some 0x07
            | none => none

/-- Why a write of value v is refused. -/
def State.valueRefusal (s : State) (rq : Req) (idx sub v : Nat) : Option Nat :=
  match s.writeRefusal rq idx sub with
  | some d => some d
  | none =>
    match objAt idx sub with
    | none => some 0x01
    | some r => if r.ty = .domain then some 0x01 else if inRange r idx sub v then none else some 0x06

/-- What an accepted write does: its DETAIL, 0 for OK, and the state after it. -/
abbrev Act := State → Nat × State

/-- An action object: its write does something and stores nothing. -/
def doAct (go : State → State) : Act := fun s => (0, go s)

/-- The answer of a request that a command carries as its operand. -/
def State.answerTo (s : State) (p : UmPath) (detail : Nat) : State := s.emit (.answer p detail)

/-- A write that a command carries as its operand: refused, or done, and answered (R335). -/
def State.umTry (s : State) (rq : Req) (idx sub v : Nat) (act : Act) : State :=
  if !s.mcOn then s
  else match s.valueRefusal rq idx sub v with
    | some d => s.answerTo rq.path d
    | none => let r := act s; r.2.answerTo rq.path r.1

/-- The same, for a write whose effect is a reset or a restart of the management controller: the answer, if the spec gives
one, goes before it (R336). -/
def State.umTryReset (s : State) (rq : Req) (idx sub v : Nat) (ok : State → Bool) (answered : Bool) (go : State → State) : State :=
  if !s.mcOn then s
  else match s.valueRefusal rq idx sub v with
    | some d => s.answerTo rq.path d
    | none =>
      if !ok s then s.answerTo rq.path 0x0D
      else if answered then go (s.answerTo rq.path 0) else go s

end Sys2Proof.Machine
end

