-- ==== Sys2Proof/Machine/Func.lean ====
section
/-! DEFINITION. Enabling, disabling and modes of functions (R282, R339), and the gate request of the front ends. -/

namespace Sys2Proof.Machine
open Sys2Proof

/-- A function is enabled. -/
def State.fnOn (s : State) (f : FuncId) : State :=
  let s := s.setObj (fnIdx f) 1 1
  { s with
    rbd.disable := Tab.del s.rbd.disable (fnNo f)
    rbd.reenable := NSet.remove s.rbd.reenable (fnNo f) }

/-- A write of 0: new work is refused at once; the drain of what is in flight begins, or is over at once (R282). -/
def State.fnDisable (s : State) (f : FuncId) : State :=
  let s := s.setObj (fnIdx f) 1 0
  let s := { s with rbd.reenable := NSet.remove s.rbd.reenable (fnNo f) }
  if Tab.get 0 s.rbd.disable (fnNo f) ≠ 0 then s
  else { s with rbd.disable := Tab.put s.rbd.disable (fnNo f) (if s.fnBusy f then 1 else 2) }

/-- A write of 1: during a drain it takes effect when the drain ends (R282). -/
def State.fnEnable (s : State) (f : FuncId) : State :=
  if s.disableState f = 1 then { s with rbd.reenable := NSet.insert s.rbd.reenable (fnNo f) } else s.fnOn f

/-- Drains that have ended: DISABLE_STATE is 2, and a function whose enable was written meanwhile is enabled. -/
def State.settleDrains (s : State) : State :=
  fnAll.foldl (fun (s : State) f =>
    if Tab.get 0 s.rbd.disable (fnNo f) = 1 ∧ !s.fnBusy f then
      let s := { s with rbd.disable := Tab.put s.rbd.disable (fnNo f) 2 }
      if NSet.mem s.rbd.reenable (fnNo f) then s.fnOn f else s
    else s) s

/-- What remains of a function's work is killed (R282). -/
def State.fnKill (s : State) (f : FuncId) : State :=
  let runs := fun (p : CollRun → Bool) => (s.coll.runs.filter p).foldl (fun (s : State) r => s.failMine r St.cancelled) s
  match f with
  | .collective => runs (fun r => r.d.op != 0x10 && r.d.op != 0x11)
  | .router => runs (fun r => r.d.op == 0x10 || r.d.op == 0x11)
  | .update => runs (fun r => r.upd.isSome)
  | .retrain => (List.range 24).foldl (fun (s : State) n => if (s.stk n).st = 3 then (s.toCatchUp n).settleBypass else s) s
  | .tsAlign => { s with obs.measuring := false }
  | .recovery => { s with rbd.recState := 0 }
  | _ => s

/-- FUNCTION_DISABLE (R282); command fetch has no enable object. -/
def execFunctionDisable (rq : Req) (f : FuncId) (s : State) : Host.Outcome State Fault Refusal :=
  .next (if f = .fetch then (if s.mcOn then s.answerTo rq.path 0x01 else s)
    else s.umTry rq (fnIdx f) 1 0 (doAct (fun s => s.fnDisable f)))

/-- FUNCTION_ENABLE (R282). -/
def execFunctionEnable (rq : Req) (f : FuncId) (s : State) : Host.Outcome State Fault Refusal :=
  .next (if f = .fetch then (if s.mcOn then s.answerTo rq.path 0x01 else s)
    else s.umTry rq (fnIdx f) 1 1 (doAct (fun s => s.fnEnable f)))

/-- The effect of DISABLE_DRAIN_EXPIRY: the remaining work is killed and DISABLE_STATE reads 3; an enable written meanwhile
takes effect. -/
def fxDisableDrainExpiry (f : FuncId) (s : State) : State :=
  if s.disableState f ≠ 1 then s
  else
    let s := s.fnKill f
    let s := { s with rbd.disable := Tab.put s.rbd.disable (fnNo f) 3 }
    if NSet.mem s.rbd.reenable (fnNo f) then s.fnOn f else s

/-- DISABLE_DRAIN_EXPIRY (R282). -/
def execDisableDrainExpiry (f : FuncId) (s : State) : Host.Outcome State Fault Refusal := .next (fxDisableDrainExpiry f s)

/-- FUNCTION_MODE (R339): work that starts after the write uses the new mode. -/
def execFunctionMode (rq : Req) (f : FuncId) (v : Nat) (s : State) : Host.Outcome State Fault Refusal :=
  .next (s.umTry rq (fnIdx f) 2 v (doAct (fun s => s.setObj (fnIdx f) 2 v)))

/-- A write of 1 to CFE_GATE_REQUEST: every idle front end enters its gated state (Table 14.9, R172; in host-assisted mode). -/
def State.gateRequest (s : State) : State := (List.range 4).foldl (fun (s : State) k => fxFetchIdleEntry k none s) s

/-- MEM_RESTRIPE_START (R140): in host-assisted mode a write of 1 starts a re-stripe. -/
def actRestripe : Act := fun s => if s.obj 0x7010 2 = 2 then (0, s.tryRestripe) else (0x0D, s)

/-- MEM_RESTRIPE_START (R140). -/
def execMemRestripeStart (rq : Req) (v : Nat) (s : State) : Host.Outcome State Fault Refusal :=
  .next (s.umTry rq 0x7010 6 v actRestripe)

end Sys2Proof.Machine
end

