-- ==== Sys2Proof/Machine/Halt.lean ====
section
/-! DEFINITION. Stopping a job (R286, R287), safe hold, resets, role and restart of the management controller as requests
(R281, R283, R285, R293, R302). -/

namespace Sys2Proof.Machine
open Sys2Proof

/-! ## Emergency halt and resume (R286) -/

/-- The contexts that a mask names: bit 16 stands for all of them. -/
def maskCtxs (m : Nat) : List Nat := (List.range 16).filter (fun c => m.testBit c || m.testBit 16)

/-- Context c halts: no command starts, and every started one is killed without a drain. -/
def State.haltCtx (s : State) (c : Nat) : State :=
  let s := s.modCtx c (fun x => { x with halted := true })
  ((s.ctx c).started.map (·.key)).foldl (fun (s : State) k => s.killCmd k St.cancelled) s

/-- The units that latch a stop timestamp: cores 0-319, ports 320-395, engine groups 396-399 (R286). -/
def stopUnits : List Nat := List.range 400

/-- The contexts of a mask halt; every core, engine and port latches its stop timestamp for the dump, and the halt goes on along the dimensions
when it is news here (R286, R359). -/
def State.halt (s : State) (m : Nat) : State :=
  let cs := (maskCtxs m).filter (fun c => !(s.ctx c).halted)
  if cs.isEmpty then s
  else
    let s := cs.foldl State.haltCtx { s with obs.stopTs := stopUnits.map (fun u => (u, s.sys.ts)) }
    s.lineDids.foldl (fun (s : State) d => s.mgmt d Mg.halt (natLe 4 m)) (s.dump 3)

/-- RBD_HALT (R286). -/
def execRbdHalt (rq : Req) (v : Nat) (s : State) : Host.Outcome State Fault Refusal :=
  .next (s.umTry rq 0x4010 1 v (doAct (fun s => s.halt v)))

/-- EMERGENCY_HALT (R286): the halt arrives by packet. -/
def execEmergencyHalt (mask : BitVec 17) (s : State) : Host.Outcome State Fault Refusal :=
  .next (if s.alive then s.halt mask.toNat else s)

/-- The contexts of a mask may start commands again; an epoch stop of theirs ends. -/
def State.resume (s : State) (m : Nat) : State :=
  (maskCtxs m).foldl (fun (s : State) c =>
    s.modCtx c (fun x => { x with halted := false, epochStop := none, stopped := false })) s

/-- RBD_RESUME (R286). -/
def execRbdResume (rq : Req) (v : Nat) (s : State) : Host.Outcome State Fault Refusal :=
  .next (s.umTry rq 0x4010 3 v (doAct (fun s => s.resume v)))

/-! ## Epoch stop (R287) -/

/-- A context stops starting commands once its cut k is sealed here. -/
def State.epochStop (s : State) (v : Nat) : State :=
  let k := v % 2 ^ 32
  s.modCtx (nbits v 35 32) (fun x => { x with
    epochStop := some k
    stopped := x.sealLocal.isSome && decide (k ≤ x.cutStepLocal.toNat) })

/-- A write of RBD_EPOCH_STOP: every module is told (R287); bits above the context are no value of the object (log 17). -/
def actEpochStop (v : Nat) : Act := fun s => if 2 ^ 36 ≤ v then (0x06, s)
  else (0, (s.epochStop v).tellAll Mg.epochStop (natLe 8 v))

/-- RBD_EPOCH_STOP (R287). -/
def execRbdEpochStop (rq : Req) (v : Nat) (s : State) : Host.Outcome State Fault Refusal :=
  .next (s.umTry rq 0x4010 2 v (actEpochStop v))

/-! ## Safe hold and resets as requests -/

/-- RBD_SAFE_HOLD_ENTER (R283). -/
def execRbdSafeHoldEnter (rq : Req) (v : Nat) (s : State) : Host.Outcome State Fault Refusal :=
  .next (s.umTry rq 0x4020 3 v (doAct (fun s => s.enterSafeHold 7 0xFF)))

/-- Whether safe hold can be left by a warm reset (R285). -/
def State.holdLeavable (s : State) : Bool := s.rbd.safeHold && s.sys.regulators && !s.pwr.thermTrip

/-- RBD_SAFE_HOLD_EXIT (R285): a warm reset, after which the module is retired. -/
def execRbdSafeHoldExit (rq : Req) (v : Nat) (s : State) : Host.Outcome State Fault Refusal :=
  .next (s.umTryReset rq 0x4020 2 v State.holdLeavable true State.warmReset)

/-- RBD_WARM_RESET (R302); not in safe hold, which RBD_SAFE_HOLD_EXIT leaves (R285). -/
def execRbdWarmReset (rq : Req) (v : Nat) (s : State) : Host.Outcome State Fault Refusal :=
  .next (s.umTryReset rq 0x4021 1 v State.warmable true State.warmReset)

/-- RBD_COLD_RESET (R302). -/
def execRbdColdReset (rq : Req) (v : Nat) (cool : Bool) (s : State) : Host.Outcome State Fault Refusal :=
  .next (s.umTryReset rq 0x4021 2 v (fun _ => true) true (fun s => s.coldReset cool))

/-- The contexts of a mask are reset. -/
def State.resetCtxs (s : State) (m : Nat) : State :=
  ((List.range 16).filter (fun c => m.testBit c)).foldl State.ctxReset s

/-- RBD_CONTEXT_RESET (R302). -/
def execRbdContextReset (rq : Req) (v : Nat) (s : State) : Host.Outcome State Fault Refusal :=
  .next (s.umTry rq 0x4021 3 v (doAct (fun s => s.resetCtxs v)))

/-! ## Role (R285, R293) -/

/-- A write of RBD_ROLE: a retired module returns to service only as a hot spare (R285); as one, it is a spare that the coordinator of a recovery
without one finds (R300). -/
def actRole (v : Nat) : Act := fun s =>
  if s.rbd.role = 2 ∧ v ≠ 1 ∧ v ≠ 2 then (0x0D, s) else (0, { s with rbd.role := v })

/-- RBD_ROLE (R293). -/
def execRbdRole (rq : Req) (v : Nat) (s : State) : Host.Outcome State Fault Refusal :=
  .next (s.umTry rq 0x4002 0 v (actRole v))

/-! ## The management watchdog (R281) -/

/-- Timestamp counts in 60 s (R16). -/
def minuteCounts : Nat := 48000000000

/-- The management controller restarts alone: its requests and sessions are gone, and the boot ROM checks the slots (R281,
R344). -/
def State.restartMc (s : State) : State :=
  let t := s.mcReset
  { t with sys.booting := true, sys.recoveryBoot := false }

/-- The effect of MGMT_WATCHDOG_EXPIRY: a second expiry within 60 s ends in safe hold (R283). -/
def fxMgmtWatchdogExpiry (s : State) : State :=
  if !s.mcOn then s
  else
    let n := s.rbd.wdExpiries + 1
    let again := match s.rbd.wdLast with
      | some t => decide ((s.sys.ts - t).toNat < minuteCounts)
      | none => false
    let s := { s with rbd.wdExpiries := n, rbd.wdLast := some s.sys.ts }
    let s := (if again && s.alive then s.enterSafeHold 5 0xFF else s).event 0x0204 n.toNat
    s.restartMc

/-- MGMT_WATCHDOG_EXPIRY (R281). -/
def execMgmtWatchdogExpiry (s : State) : Host.Outcome State Fault Refusal := .next (fxMgmtWatchdogExpiry s)

end Sys2Proof.Machine
end

