-- ==== Sys2Proof/Machine/Power.lean ====
section
/-! DEFINITION. Power gating (R306 to R311), module standby (R314 to R317), the clock divisor and the power limiter (R318 to
R320), and the thermal limits of the dies (R321). -/

namespace Sys2Proof.Machine
open Sys2Proof

/-! ## Cores (R306 to R309) -/

/-- Whether a core is idle (R306). -/
def CoreState.idle (cs : CoreState) : Bool := cs.task.isNone && cs.queue.isEmpty && cs.inflight.isEmpty

/-- A core's logic at the values of a task start; its memories and sticky flags stay (Tables 13.1, 13.2), and so does
SEQ_TASK_STATUS with the PC that it shows. -/
def CoreState.logicReset (cs : CoreState) : CoreState :=
  { cs with
    gate := .on
    a := []
    aPoison := []
    l := []
    p := false
    seed := 0
    code := []
    imemErr := []
    mode := 0
    parts := Tab.mapV cs.parts (fun _ x => { Part.reset with faultSrc := x.faultSrc })
    v := []
    vPoison := []
    vErr := []
    m := []
    mPoison := []
    vl := 64 }

/-- A core leaves gating; the wake is counted (R307). -/
def CoreState.wake (cs : CoreState) : CoreState :=
  let cs := cs.logicReset
  CoreState.event { cs with wakes := cs.wakes + 1 } 0x0F 1

/-- Whether domains may change their gating: the module is up and not in standby. -/
def State.mayGate (s : State) : Bool := s.alive && s.sys.regulators && s.pwr.state == 0

/-- The effect of CORE_GATE_ENTRY: an access in step k before step 3 of Table 13.2 aborts the entry; a later one is held until the
entry ends, and the core wakes at once (R308). -/
def fxCoreGateEntry (L : Nat) (acc : Option Nat) (s : State) : State :=
  let cs := s.core L
  if !s.mayGate || !cs.idle || cs.gate != .on || s.obj 0x3105 1 != 1 then s
  else match acc with
    | none => s.modCore L (fun cs => { cs with gate := .gated })
    | some k => if k < 3 then s else s.modCore L CoreState.wake

/-- CORE_GATE_ENTRY (R306, R308). -/
def execCoreGateEntry (core : Nat) (acc : Option Nat) (s : State) : Host.Outcome State Fault Refusal :=
  onCore core s (fxCoreGateEntry core acc)

/-- CORE_WAKE (R307). -/
def execCoreWake (core : Nat) (s : State) : Host.Outcome State Fault Refusal :=
  onCore core s (fun s => if s.mayGate && (s.core core).gate == .gated then s.modCore core CoreState.wake else s)

/-! ## Engines (R310) -/

/-- Whether the engine groups have nothing in progress; the combine buffer is kept while they are off (Table 13.1). -/
def State.engineIdle (s : State) : Bool := s.coll.runs.isEmpty

/-- ENGINE_GATE_ENTRY (R310): what arrives before its end is the next command, which finds the group on, or wakes it. -/
def execEngineGateEntry (iod : Nat) (s : State) : Host.Outcome State Fault Refusal :=
  onIod iod s (fun s =>
    if s.mayGate && s.engineIdle && s.obj 0x3105 1 == 1 then { s with pwr.engines := Tab.put s.pwr.engines iod .gated } else s)

/-- ENGINE_WAKE (R310). -/
def execEngineWake (iod : Nat) (s : State) : Host.Outcome State Fault Refusal :=
  onIod iod s (fun s => if s.mayGate then s.wakeEngine iod else s)

/-! ## Stacks (R311) -/

/-- STACK_SELF_REFRESH_ENTRY (R311): an idle stack in use enters self-refresh, and the entry is counted. -/
def execStackSelfRefreshEntry (stack : Nat) (s : State) : Host.Outcome State Fault Refusal :=
  onStack stack s (fun s =>
    let x := s.stk stack
    if s.mayGate && s.obj 0x3105 1 == 1 && !x.selfRef && (x.st == 0 || x.st == 1 || x.st == 4) then
      (s.modStk stack (fun x => { x with selfRef := true })).stkCtr stack 7 1
    else s)

/-- STACK_WAKE (R311): not under OFFLINE_THERMAL. -/
def execStackWake (stack : Nat) (s : State) : Host.Outcome State Fault Refusal :=
  onStack stack s (fun s => if s.mayGate then s.touch stack else s)

/-! ## Standby (R314 to R317) -/

/-- Whether a ring has a command to fetch or fetched. -/
def Ring.waiting (r : Ring) : Bool := !r.fetched.isEmpty || (r.enable && r.tail != r.head)

/-- The conditions of R314 that the state shows. -/
def State.restful (s : State) : Bool :=
  s.works && s.obj 0x3106 1 == 1
    && s.ctxs.all (fun e => e.2.started.isEmpty && e.2.dq.isEmpty && e.2.rings.all (fun r => !r.2.waiting)
      && e.2.cutState != 1 && e.2.cutState != 2)
    && s.coll.runs.isEmpty && s.mem.restripe != 2 && s.rbd.recState == 0

/-- Standby: compute dies and cores off with their memories retained, stacks in self-refresh, engines gated, ports QUIET, the
management controller on its oscillator (R312, R315). -/
def State.standby (s : State) : State :=
  let s := { s with
    pwr.state := 2
    pwr.standbyTime := s.sys.ts
    pwr.engines := (List.range 4).map (fun k => (k, Gate.gated))
    sys.mcOnPll := false
    sys.pllLock := s.sys.pllLock &&& 0x1F00 }
  let s := (List.range 320).foldl (fun (s : State) L => s.modCore L (fun cs => { cs with gate := .gated })) s
  let s := (List.range 24).foldl (fun (s : State) n =>
    if (s.stk n).selfRef then s else (s.modStk n (fun x => { x with selfRef := true })).stkCtr n 7 1) s
  (List.range 76).foldl (fun (s : State) p =>
    if (s.port p).st = 2 ∨ (s.port p).st = 3 then (s.portCtr p 5 1).setPortState p 4 else s) s

/-- Standby entry begins (Table 13.8: STATE 1); a wake event aborts it until the supplies go (R316). -/
def State.standbyBegin (s : State) : State := { s with pwr.state := 1 }

/-- Standby entry ends once no write gathers or waits (R315; log 23). -/
def State.standbyEnd (s : State) : State :=
  if s.pwr.state = 1 ∧ s.mem.gather.isEmpty ∧ s.mem.portWait.isEmpty then s.standby else s

/-- STANDBY_ENTRY (R314, R316): the timer has run out with its conditions met, and the entry begins. -/
def execStandbyEntry (s : State) : Host.Outcome State Fault Refusal := .next (if s.restful then s.standbyBegin else s)

/-- A write of PWR_STANDBY_REQUEST: standby is entered under the conditions of R314 without the timer. -/
def actStandby : Act := fun s => if s.restful then (0, s.standbyBegin) else (0x0D, s)

/-- PWR_STANDBY_REQUEST (R314). -/
def execPwrStandbyRequest (rq : Req) (v : Nat) (s : State) : Host.Outcome State Fault Refusal :=
  .next (s.umTry rq 0x3106 3 v actStandby)

/-- PWR_WAKE_REQUEST (R317). -/
def execPwrWakeRequest (rq : Req) (v : Nat) (s : State) : Host.Outcome State Fault Refusal :=
  .next (s.umTry rq 0x3106 4 v (doAct (fun s => s.wakeBy 6)))

/-- The end of Table 13.4: the compute dies' counters are loaded, PLLs locked, cores and engines released, stacks awake but for
OFFLINE_THERMAL (R315, R316); the management controller runs on its PLL if that is locked (R312), and a retraining that is due begins
(R311). -/
def State.standbyExit (s : State) : State :=
  State.startRetrain { s with
    pwr.state := 0
    pwr.engines := []
    sys.tsCd := s.sys.ts
    sys.mcOnPll := s.sys.pllLock.getLsbD 12
    sys.pllLock := s.sys.pllLock ||| 0x00FF
    cores := Tab.mapV s.cores (fun _ cs => cs.logicReset)
    mem.stack := Tab.mapV s.mem.stack (fun _ x => x.afterWarm) }

/-- The effect of STANDBY_WAKE: a source of Table 13.5 wakes the module, and the exit completes (log 23). -/
def fxStandbyWake (code : Nat) (s : State) : State :=
  if code = 0 ∨ 9 < code ∨ s.pwr.thermTrip then s
  else
    let s := s.wakeBy code
    if s.pwr.state = 3 then s.standbyExit else s

/-- STANDBY_WAKE (R316). -/
def execStandbyWake (code : Nat) (s : State) : Host.Outcome State Fault Refusal := .next (fxStandbyWake code s)

/-! ## Clock divisor and limiter (R318 to R320) -/

/-- CLK_CORE_DIV (R318). -/
def execClkCoreDiv (rq : Req) (v : Nat) (s : State) : Host.Outcome State Fault Refusal :=
  .next (s.umTry rq 0x3020 1 v (doAct (fun s => s.setObj 0x3020 1 v)))

/-- The number of the last samples that exceed a limit without a gap. -/
def runAbove (lim : Nat) (ws : List Nat) : Nat := (ws.reverse.takeWhile (fun w => decide (lim < w))).length

/-- Whether the samples reach a bound of R319: the average of a whole window of 100 ms, a single sample, or the length of a run. -/
def boundHit (lim : Nat) (ws : List Nat) : Bool :=
  (decide (10000 ≤ ws.length) && decide (lim * ws.length ≤ ws.sum)) || (match ws.getLast? with
    | some w => decide (6 * lim ≤ 5 * w)
    | none => false) || decide (1000 ≤ runAbove lim ws)

/-- A sample of module input power joins the window of the last 100 ms. -/
def State.sample (s : State) (w : Nat) : State :=
  let ws := s.pwr.samples ++ [w]
  let ws := ws.drop (ws.length - 10000)
  { s with
    pwr.samples := ws
    pwr.limitHit := s.pwr.limitHit || boundHit (s.obj 0x3010 1) ws }

/-- POWER_SAMPLE (R319). -/
def execPowerSample (watts : Nat) (s : State) : Host.Outcome State Fault Refusal :=
  .next (if s.sys.regulators && !s.pwr.thermTrip then s.sample watts else s)

/-- The effective divisor's code: 0 for 6, 1 for 8, 2 for 12. -/
def State.divCode (s : State) : Nat := if s.coreDiv = 6 then 0 else if s.coreDiv = 8 then 1 else 2

/-- The effect of LIMITER_STEP: DUTY down by one to 4, then the divisor one step slower (R320); engaging it is an event. -/
def fxLimiterStep (s : State) : State :=
  if !s.mayGate then s
  else
    let was := s.pwr.duty == 16 && s.coreDiv == s.obj 0x3020 1
    let s : State := if 4 < s.pwr.duty then { s with pwr.duty := s.pwr.duty - 1 }
      else { s with pwr.effDiv := Nat.min 2 (s.divCode + 1) }
    let s := { s with pwr.limiterSteps := s.pwr.limiterSteps + 1 }
    if was then s.event 0x0403 s.pwrStatus else s

/-- LIMITER_STEP (R320): a bound of R319 is at risk. -/
def execLimiterStep (s : State) : Host.Outcome State Fault Refusal := .next (fxLimiterStep s)

/-- Whether the average is below 95 % of the limit. -/
def State.belowLimit (s : State) : Bool :=
  decide (100 * s.pwr.samples.sum < 95 * s.obj 0x3010 1 * s.pwr.samples.length) || s.pwr.samples.isEmpty

/-- The effect of LIMITER_RESTORE_STEP: the divisor, then DUTY, one step back (R320). -/
def fxLimiterRestoreStep (s : State) : State :=
  if !s.mayGate || !s.belowLimit then s
  else if s.obj 0x3020 1 < s.coreDiv then { s with pwr.effDiv := s.divCode - 1 }
  else { s with
    pwr.effDiv := 0
    pwr.duty := Nat.min 16 (s.pwr.duty + 1) }

/-- LIMITER_RESTORE_STEP (R320). -/
def execLimiterRestoreStep (s : State) : Host.Outcome State Fault Refusal := .next (fxLimiterRestoreStep s)

/-! ## Die temperature (R321, R322) -/

/-- Whether a die's throttle is set. -/
def State.dieThrottled (s : State) (d : Nat) : Bool :=
  if d < 8 then NSet.mem s.pwr.cdThrottle d else NSet.mem s.pwr.iodThrottle (d - 8)

/-- Set or clear a die's throttle. -/
def State.setThrottle (s : State) (d : Nat) (on : Bool) : State :=
  let up := fun (t : NSet) (i : Nat) => if on then NSet.insert t i else NSet.remove t i
  if d < 8 then { s with pwr.cdThrottle := up s.pwr.cdThrottle d } else { s with pwr.iodThrottle := up s.pwr.iodThrottle (d - 8) }

/-- The release value of Table 13.6: the lower of 97 °C and PWR_T_THROTTLE less 3 °C. -/
def State.dieRelease (s : State) : Fp.Val := Fp.min (.fin false 97 0) (Fp.sub (f32 (s.obj 0x3201 1)) (.fin false 3 0))

/-- The effect of DIE_TEMP_READING (Table 13.6). -/
def fxDieTempReading (d : Nat) (t : BitVec 32) (s : State) : State :=
  if !s.sys.vaux then s
  else
    let v := f32 t.toNat
    let s := { s with pwr.dieTemp := Tab.put s.pwr.dieTemp d t }
    if f32le (.fin false 110 0) v then s.thermalTrip
    else if f32le (f32 (s.obj 0x3201 1)) v then
      if s.dieThrottled d then s else let s := s.setThrottle d true; s.event 0x0403 s.pwrStatus
    else if f32le v s.dieRelease then s.setThrottle d false
    else s

/-- DIE_TEMP_READING (R321). -/
def execDieTempReading (die : Nat) (t : BitVec 32) (s : State) : Host.Outcome State Fault Refusal :=
  onDie die s (fxDieTempReading die t)

/-- DIE_THROTTLE_STEP (R321): a throttled die's duty goes down by 1/16 to 4/16; a released one's goes up by 1/16. -/
def execDieThrottleStep (die : Nat) (s : State) : Host.Outcome State Fault Refusal :=
  onDie die s (fun s =>
    let x := Tab.get 16 s.pwr.dieDuty die
    let y := if s.dieThrottled die then (if 4 < x then x - 1 else x) else Nat.min 16 (x + 1)
    { s with pwr.dieDuty := Tab.put s.pwr.dieDuty die y })

end Sys2Proof.Machine
end

