-- ==== Sys2Proof/Machine/Manage.lean ====
section
/-! DEFINITION. The configuration store (R329), firmware update (R344) and wear management (R340). -/

namespace Sys2Proof.Machine
open Sys2Proof

/-! ## The configuration store -/

/-- Whether an object is stored: writable, not fixed, neither an action nor a status register (R329). -/
def storable (key : Nat) : Bool :=
  match objRow (key / 256) (key % 256) with
  | some r => r.wr.isSome && r.rd.isSome && !r.fixed && key != 0x300001 && !decide (key / 256 = 0x6003)
      && !decide (key / 256 = 0x7001)
  | none => false

/-- The current values of the storable scalar objects that differ from their defaults, with those that take their default from
straps and those that State holds beside the dictionary. -/
def State.configVals (s : State) : Tab Nat :=
  let t := s.um.vals.filter (fun e => storable e.1)
  let t := Tab.put (Tab.put t 0x101102 (s.objVal 0x1011 2)) 0x600000 s.myDid
  let t := Tab.put t 0x400200 s.rbd.role
  s.obs.dieSel.foldl (fun (t : Tab Nat) e => Tab.put t ((0x5010 + e.1 / 16) * 256 + (e.1 % 16 + 1)) e.2.toNat) t

/-- Every storable value goes to the boot flash (R329). -/
def State.storeConfig (s : State) : State :=
  { s with
    sys.cfgStore := s.configVals
    sys.cfgDoms := s.um.doms.filter (fun e => storable e.1) }

/-- MGMT_CONFIG_STORE (R329). -/
def execMgmtConfigStore (rq : Req) (v : Nat) (s : State) : Host.Outcome State Fault Refusal :=
  .next (s.umTry rq 0x1020 1 v (doAct State.storeConfig))

/-- The store is erased; no current value changes (R329). -/
def State.clearConfig (s : State) : State := { s with sys.cfgStore := [], sys.cfgDoms := [] }

/-- MGMT_CONFIG_CLEAR (R329). -/
def execMgmtConfigClear (rq : Req) (v : Nat) (s : State) : Host.Outcome State Fault Refusal :=
  .next (s.umTry rq 0x1020 2 v (doAct State.clearConfig))

/-! ## Firmware update (R341, R344) -/

/-- Whether the inactive slot holds an image that R341 accepts. -/
def State.activatable (s : State) : Bool := s.slotOk (1 - s.sys.activeSlot)

/-- The inactive slot becomes active, and the management controller restarts alone. -/
def State.activate (s : State) : State := { s with sys.activeSlot := 1 - s.sys.activeSlot }.restartMc

/-- MGMT_FW_ACTIVATE (R344): the restart leaves the request without a response (R336). -/
def execMgmtFwActivate (rq : Req) (v : Nat) (s : State) : Host.Outcome State Fault Refusal :=
  .next (s.umTryReset rq 0x1030 2 v State.activatable false State.activate)

/-- The anti-rollback count rises to the running image's security version (R344). -/
def State.commit (s : State) : State := { s with sys.antiRollback := Nat.max s.sys.antiRollback s.sys.runSecVer }

/-- MGMT_FW_COMMIT (R344). -/
def execMgmtFwCommit (rq : Req) (v : Nat) (s : State) : Host.Outcome State Fault Refusal :=
  .next (s.umTry rq 0x1030 4 v (doAct State.commit))

/-! ## Wear management (R340) -/

/-- A core moves to a spare while it has no task, if its die has one (R276). -/
def State.rotate (s : State) (L : Nat) : State :=
  if coreOk L && (s.core L).idle && !(s.core L).failed && (s.spareOf (L / 40)).isSome then (s.rebind L).2 else s

/-- A physical core of a die fails its self-test: a spare leaves the pool, an idle logical core bound to it moves away. -/
def State.selfTestFails (s : State) (d i : Nat) : State :=
  match (List.range 40).find? (fun j => (s.core (d * 40 + j)).physIdx == i) with
  | some j => s.rotate (d * 40 + j)
  | none =>
    if 40 ≤ i ∧ i < 48 then { s with spares := Tab.put s.spares d (NSet.insert (Tab.get [] s.spares d) i) } else s

/-- The effect of WEAR_MANAGEMENT: `bad` lists the tested physical cores that fail (die, index), `aged` the logical cores with
their aging above the die mean, compared with the margin of 0x4040:03. Guardbands change no result (R96). -/
def fxWearManagement (aged bad : List (Nat × Nat)) (s : State) : State :=
  if !s.works then s
  else
    let s := (bad.filter (fun e => cdOk e.1)).foldl (fun (s : State) e => s.selfTestFails e.1 e.2) s
    (aged.filter (fun e => decide (s.obj 0x4040 3 < e.2))).foldl (fun (s : State) e => s.rotate e.1) s

/-- WEAR_MANAGEMENT (R340). -/
def execWearManagement (aged bad : List (Nat × Nat)) (s : State) : Host.Outcome State Fault Refusal :=
  .next (fxWearManagement aged bad s)

end Sys2Proof.Machine
end

