-- ==== Sys2Proof/Machine/Cut.lean ====
section
/-! DEFINITION. Step-epoch cuts (R287 to R291): a request, the copy, markers and acknowledgements, the seals, and the
restoration of a cut (R298). -/

namespace Sys2Proof.Machine
open Sys2Proof

/-! ## Groups and slots (R265, R288) -/

/-- Entry p of a group table. -/
def State.groupEntry (s : State) (c gtab p : Nat) : List Byte := (s.vaRead c (gtab + 256 * p) 256 [.r]).1.bytes

/-- The groups whose protected images a cut copies: valid, with PAR_EN. -/
def State.cutGroups (s : State) (c gtab : Nat) : List (Nat × List Byte) :=
  ((List.range 4096).map (fun p => (p, s.groupEntry c gtab p))).filter (fun e => enValid e.2 && enParEn e.2)

/-- The tensors of a protected image: address and bytes, W first (R265). -/
def imageParts (b : List Byte) (count : Nat) : List (Nat × Nat) :=
  (enW b, count * typeSize (enWt b)) :: (List.range (enNstate b)).map (fun k => (enS b k, count * typeSize (enSt b)))

/-- Bytes of a protected image. -/
def imageSize (b : List Byte) (count : Nat) : Nat := (imageParts b count).foldl (fun a p => a + p.2) 0

/-- COUNT of a group: that of its last update. -/
def CtxState.countOf (x : CtxState) (p : Nat) : Nat := Tab.get 0 x.groupCount p

/-- IMAGE_BYTES: the greatest PAR_OFF plus image size over the groups. -/
def State.imageBytes (s : State) (c gtab : Nat) : Nat :=
  (s.cutGroups c gtab).foldl (fun a e => Nat.max a (enParOff e.2 + imageSize e.2 ((s.ctx c).countOf e.1))) 0

/-- HELD_OFF of an image of n bytes (Table 12.6; log 21). -/
def heldOff (n : Nat) : Nat := cdiv (0x10000 + n) (2 ^ 21) * 2 ^ 21

/-- Bytes of the parity image that this module holds; none without an image base. -/
def CtxState.heldSize (x : CtxState) : Nat := if x.parImage = 0 then 0 else x.heldBytes

/-- Senders whose markers a cut waits for (R289): none where this module holds no parity. -/
def CtxState.markersDue (x : CtxState) : Nat := if x.parImage = 0 then 0 else x.parSenders

/-- Bytes that a slot needs. -/
def State.slotNeed (s : State) (c : Nat) : Nat :=
  let x := s.ctx c
  heldOff (s.imageBytes c x.ueGtab.toNat) + x.heldSize + 0x10000 * x.markersDue

/-- The address of slot n of a context. -/
def CtxState.slotVa (x : CtxState) (n : Nat) : Nat := x.cutBase.toNat + n * (x.cutSize.toNat * 2 ^ 20)

/-- Write plain bytes for the module's own purposes. -/
def State.putVa (s : State) (c va : Nat) (bs : List Byte) : State :=
  (s.vaWrite none c va (bs.map (fun b => (b, false))) [.w]).2

/-- Copy n bytes between device virtual addresses, poison marks with them, and whether the source could be read. -/
def State.tryCopy (s : State) (c src dst n : Nat) : Bool × State :=
  let r := s.vaRead c src n [.r]
  (!r.1.fault && !r.1.uncorr, (r.2.vaWrite none c dst (List.zip r.1.bytes r.1.pois) [.w]).2)

/-- Copy n bytes between device virtual addresses. -/
def State.copyVa (s : State) (c src dst n : Nat) : State := (s.tryCopy c src dst n).2

/-! ## The request (R289) -/

/-- Whether a request of cut k is refused: while a cut is being copied, for one that is not newer than the global one, with a fence pending, and in too
small a slot. -/
def State.cutRefuses (s : State) (c k : Nat) : Bool :=
  let x := s.ctx c
  x.cutState == 1 || decide (k ≤ x.cutStepGlobal.toNat) || x.fence.isSome
    || decide (x.cutSize.toNat * 2 ^ 20 < s.slotNeed c)

/-- The effect of RBD_CUT_CTL: the cut goes into the slot that does not hold the newest globally sealed one; its VALID is
cleared and copying begins. -/
def fxRbdCutCtl (c k : Nat) (s : State) : State :=
  if !s.barUp then s
  else
    let s := s.wakeBy 2
    if s.cutRefuses c k then s.modCtx c (fun x => { x with cutRefused := true })
    else
      let x := s.ctx c
      let n := match x.sealGlobal with
        | some g => 1 - g.slot
        | none => 0
      let s := s.putVa c (x.slotVa n + 0x34) (natLe 4 0)
      s.modCtx c (fun x => { x with
        cutState := 1
        sealLocal := if x.sealGlobal.isSome then x.sealGlobal else none
        cutHeld := s.heldUnder c
        cut := some ⟨k, n, false, [], false, 0, []⟩ })

/-- RBD_CUT_CTL (R289). -/
def execRbdCutCtl (c : Nat) (v : BitVec 32) (s : State) : Host.Outcome State Fault Refusal :=
  onCtx c s (fxRbdCutCtl c v.toNat)

/-! ## The record (Table 12.6) -/

/-- A cut whose images are copied: their extent, and STEP and VERSION of each group, as they stand at the copy (R289). -/
def State.cutCopied (s : State) (c : Nat) (k : Cut) : Cut :=
  let gt := (s.ctx c).ueGtab.toNat
  { k with
    copied := true
    image := s.imageBytes c gt
    steps := (s.cutGroups c gt).map (fun e => (e.1, enStep e.2, enVersion e.2)) }

/-- The cut record of a module, with its time of seal, CRC and VALID. -/
def State.cutRecord (s : State) (c : Nat) (k : Cut) (tSeal crc valid : Nat) : List Byte :=
  let x := s.ctx c
  let n := k.image
  let sv := (List.range 4096).flatMap (fun p => match k.steps.find? (fun e => e.1 == p) with
    | some e => natLe 4 e.2.1 ++ natLe 4 e.2.2
    | none => natLe 8 0)
  natLe 4 0x43555431 ++ natLe 4 k.step ++ natLe 2 x.epoch.toNat ++ [0, 0] ++ natLe 4 (s.rbd.rank.toNat % 2 ^ 17) ++ natLe 8 n
    ++ natLe 8 (heldOff n) ++ natLe 8 x.heldSize ++ natLe 8 tSeal ++ natLe 4 crc ++ natLe 4 valid ++ natLe 8 0 ++ sv

/-! ## The seal (R289) -/

/-- The markers of step k that have come in, by sender. -/
def CtxState.marksOf (x : CtxState) (k : Nat) : List (Nat × List Byte) :=
  (x.marks.filter (fun m => m.1 == k)).map (fun m => (m.2.1, m.2.2))

/-- A parity byte formed from the copied images of the senders whose markers of a step are in: their xor, weighted by α^j for shard 1 (R289). The
images stand in other modules' slots (log 21). -/
def CtxState.parityByte (x : CtxState) (c step off : Nat) : Byte :=
  (x.marksOf step).foldl (fun (b : Byte) m =>
    let v := Config.peerImage (fieldAt m.2 0x0C 4 % 2 ^ 17) c step off
    b ^^^ (if x.heldShard then gfMul (gfPow m.1) v else v)) 0

/-- The held parity of a group that is marked stale is formed anew from the images of its members, in the slot at `va` and in the live image alike
(R289). -/
def State.renewStale (s : State) (c va step : Nat) : State :=
  let x := s.ctx c
  ((s.cutGroups c x.ueGtab.toNat).filter (fun e => enParStale e.2)).foldl (fun (s : State) e =>
    let n := Nat.min (imageSize e.2 (x.countOf e.1)) (x.heldSize - enParOff e.2)
    let bs := (List.range n).map (fun i => x.parityByte c step (enParOff e.2 + i))
    (s.putVa c (va + enParOff e.2) bs).putVa c (x.parImage.toNat + enParOff e.2) bs) s

/-- As a holder: the held parity and the senders' records go into the slot, and each marker is acknowledged. -/
def State.holdCut (s : State) (c : Nat) (k : Cut) : State :=
  let x := s.ctx c
  if x.parImage = 0 then s
  else
    let va := x.slotVa k.slot
    let off := heldOff k.image
    let s := (s.copyVa c x.parImage.toNat (va + off) x.heldSize).renewStale c (va + off) k.step
    (x.marksOf k.step).foldl (fun (s : State) m =>
      let s := s.putVa c (va + off + x.heldSize + 0x10000 * m.1) m.2
      match s.didOfRank (fieldAt m.2 0x0C 4 % 2 ^ 17) with
      | some did => s.mgmt did Mg.cutMarkerAck (natLe 1 c ++ natLe 4 k.step ++ natLe 4 m.1)
      | none => s) s

/-- A report of a local seal is kept, in place of an earlier one of that rank (R291). -/
def State.noteSeal (s : State) (r : SealReport) : State :=
  { s with rbd.seals := s.rbd.seals.filter (fun q => !(q.c == r.c && q.step == r.step && q.rank == r.rank)) ++ [r] }

/-- The coordinator hears of a local seal of this module; its own it keeps itself (R289). -/
def State.reportSeal (s : State) (c step epoch : Nat) : State :=
  if s.isCoord then s.noteSeal ⟨c, step, s.rbd.rank.toNat % 2 ^ 17, epoch⟩
  else s.tellCoord Mg.cutSealed (natLe 1 c ++ natLe 4 step ++ natLe 2 epoch)

/-- The cut is locally sealed once its copy is complete and every sender's marker is in: the record is written with VALID,
and the coordinator hears of it; an epoch stop at this cut takes hold (R287, R289). -/
def State.trySeal (s : State) (c : Nat) : State :=
  let x := s.ctx c
  match x.cut with
  | none => s
  | some k =>
    if !k.copied || k.sealed || decide ((x.marksOf k.step).length < x.markersDue) then s
    else
      let s := s.holdCut c k
      let t := s.sys.ts.toNat
      let crc := (crc32 (s.cutRecord c k t 0 0)).toNat
      let s := s.putVa c (x.slotVa k.slot) (s.cutRecord c k t crc 1)
      let stop := match x.epochStop with
        | some n => decide (n ≤ k.step)
        | none => false
      let s := s.modCtx c (fun x => { x with
        cut := some { k with sealed := true }
        cutState := 3
        cutGlobal := false
        cutStepLocal := BitVec.ofNat 32 k.step
        sealLocal := some ⟨x.slotVa k.slot, k.slot, x.ueGtab.toNat, x.parImage.toNat⟩
        marks := x.marks.filter (fun m => decide (k.step < m.1))
        stopped := x.stopped || stop })
      s.reportSeal c k.step x.epoch.toNat

/-! ## Copy and markers -/

/-- Whether an update of the context that has begun to write is not complete: its step's state is not yet the cut's. -/
def State.updating (s : State) (c : Nat) : Bool :=
  s.coll.runs.any (fun r => r.key.c == c && (match r.upd with
    | some u => u.wrote
    | none => false))

/-- The copy of the protected images into the slot. -/
def State.copyImages (s : State) (c n : Nat) : State :=
  let x := s.ctx c
  (s.cutGroups c x.ueGtab.toNat).foldl (fun (s : State) e =>
    ((imageParts e.2 (x.countOf e.1)).foldl (fun (acc : State × Nat) p =>
      (acc.1.copyVa c p.1 acc.2 p.2, acc.2 + p.2)) (s, x.slotVa n + 0x10000 + enParOff e.2)).1) s

/-- The ranks of the holders of this module's parity. -/
def CtxState.holderRanks (x : CtxState) : List Nat := [x.parHolder0.toNat, x.parHolder1.toNat].take x.holders

/-- The effect of CUT_COPY_COMPLETE: nothing of the step is still being written and every delta is acknowledged; step markers
with the record go to the holders (R289). -/
def fxCutCopyComplete (c : Nat) (s : State) : State :=
  match (s.ctx c).cut with
  | none => s
  | some k =>
    if !s.alive || k.copied || s.updating c then s
    else
      let k := s.cutCopied c k
      let s := s.copyImages c k.slot
      let x := s.ctx c
      let rec' := s.cutRecord c k 0 0 0
      let s := x.holderRanks.foldl (fun (s : State) r => match s.didOfRank r with
        | some did => s.mgmt did Mg.cutMarker (natLe 1 c ++ natLe 4 x.parJ ++ natLe 4 k.step ++ rec')
        | none => s) s
      (s.modCtx c (fun x => { x with cutState := 2, cut := some k })).trySeal c

/-- CUT_COPY_COMPLETE (R289). -/
def execCutCopyComplete (c : Nat) (s : State) : Host.Outcome State Fault Refusal := onCtx c s (fxCutCopyComplete c)

/-- The effect of STEP_MARKER: the sender's record is kept, in place of an earlier one of that step. -/
def fxStepMarker (c sender step : Nat) (record : List Byte) (s : State) : State :=
  if !s.alive then s
  else (s.modCtx c (fun x => { x with
      marks := x.marks.filter (fun m => !(m.1 == step && m.2.1 == sender)) ++ [(step, sender, record)]
      heldBytes := Nat.max x.heldBytes (fieldAt record 0x10 8) })).trySeal c

/-- STEP_MARKER (R289). -/
def execStepMarker (c sender : Nat) (step : BitVec 32) (record : List Byte) (s : State) : Host.Outcome State Fault Refusal :=
  onCtx c s (fxStepMarker c sender step.toNat record)

/-- STEP_MARKER_ACK (R290): with every holder's acknowledgement, updates are no longer held. -/
def execStepMarkerAck (c holder : Nat) (s : State) : Host.Outcome State Fault Refusal :=
  onCtx c s (fun s => if !s.alive then s else s.modCtx c (fun x => match x.cut with
    | none => x
    | some k =>
      let k := { k with acked := NSet.insert k.acked holder }
      { x with cut := some k, cutHeld := x.cutHeld && !(k.copied && decide (x.holders ≤ k.acked.length)) }))

/-! ## The global seal (R291) -/

/-- A declaration about cut k reaches this module: MISMATCH, or the newest globally sealed cut. The recovery mode of observation ends
with the first cut sealed globally after the resume (R355); a planned rank move may follow (R278). -/
def State.takeSeal (s : State) (c : Nat) (step : BitVec 32) (mismatch : Bool) : State :=
  if mismatch then s.modCtx c (fun x => { x with cutMismatch := true })
  else
    let s := s.modCtx c (fun x =>
      if x.cutState = 3 ∧ x.cutStepLocal = step then
        { x with cutGlobal := true, cutStepGlobal := step, sealGlobal := x.sealLocal }
      else { x with cutStepGlobal := step })
    { s with
      obs.recoveryMode := s.obs.recoveryMode && s.rbd.recState != 0
      rbd.moveDue := true
      rbd.seals := s.rbd.seals.filter (fun r => r.c != c || decide (step.toNat < r.step)) }

/-- The layout epochs with which the working ranks have reported cut k locally sealed: none while a report is missing (R291). -/
def State.sealEpochs (s : State) (c step : Nat) : Option (List Nat) :=
  s.workingRanks.mapM (fun e =>
    (s.rbd.seals.find? (fun r => r.c == c && r.step == step && r.rank == e.1)).map (·.epoch))

/-- Whether epochs differ. -/
def differ (es : List Nat) : Bool := es.any (· != es.headD 0)

/-- The effect of CUT_GLOBAL_SEAL: the coordinator declares once every working rank has reported, by the epochs of the reports, and broadcasts the
declaration; another module takes it as the broadcast says. -/
def fxCutGlobalSeal (c : Nat) (step : BitVec 32) (mismatch : Bool) (s : State) : State :=
  if !s.alive then s
  else if !s.isCoord then s.takeSeal c step mismatch
  else match s.sealEpochs c step.toNat with
    | none => s
    | some es => (s.tellAll Mg.cutGlobal (natLe 1 c ++ natLe 4 step.toNat ++ [BitVec.ofNat 8 (bit (differ es))])).takeSeal c step (differ es)

/-- CUT_GLOBAL_SEAL (R291). -/
def execCutGlobalSeal (c : Nat) (step : BitVec 32) (mismatch : Bool) (s : State) : Host.Outcome State Fault Refusal :=
  onCtx c s (fxCutGlobalSeal c step mismatch)

/-- RBD_CUT_STATUS (Table 12.8). -/
def State.cutStatus (s : State) (c : Nat) : Nat :=
  let x := s.ctx c
  x.cutState + 4 * bit x.cutGlobal + 8 * ((x.sealGlobal.map (·.slot)).getD 0) + 16 * bit (s.heldUnder c) + 32 * bit x.cutRefused
    + 64 * bit x.cutMismatch

/-! ## Restoring a cut (R298, R301) -/

/-- Whether the record at a slot is that of a valid cut: MAGIC, VALID and CRC. -/
def recordValid (b : List Byte) : Bool :=
  b.length == 0x8040 && fieldAt b 0 4 == 0x43555431 && fieldAt b 0x34 4 % 2 == 1
    && (crc32 (patchAt b 0x30 (List.replicate 8 0))).toNat == fieldAt b 0x30 4

/-- One group goes back to its cut: W and the states, STEP and VERSION, and the shard header; and whether its image could be read. -/
def State.restoreGroup (s : State) (c : Nat) (g : Seal) (record : List Byte) (e : Nat × List Byte) : Bool × State :=
  let p := e.1
  let b := e.2
  let st := fieldAt record (0x40 + 8 * p) 4
  let ver := fieldAt record (0x44 + 8 * p) 4
  let r := (imageParts b ((s.ctx c).countOf p)).foldl (fun (acc : (Bool × State) × Nat) q =>
    let y := acc.1.2.tryCopy c acc.2 q.1 q.2
    ((acc.1.1 && y.1, y.2), acc.2 + q.2)) ((true, s), g.va + 0x10000 + enParOff b)
  let s := r.1.2.putVa c (g.gtab + 256 * p + 4) (natLe 4 st ++ natLe 4 ver)
  (r.1.1, if enOut b = 0 then s else s.putVa c (enOut b - 64) (natLe 4 ver ++ natLe 4 0))

/-- Every group, the layout epoch and the held parity go back to the cut; and whether the slot could be read (R298). -/
def State.tryRestore (s : State) (c : Nat) (g : Seal) : Bool × State :=
  let r := s.vaRead c g.va 0x8040 [.r]
  let b := r.1.bytes
  if r.1.fault || r.1.uncorr || !recordValid b then (false, r.2)
  else
    let t := (r.2.cutGroups c g.gtab).foldl (fun (acc : Bool × State) e =>
      let y := acc.2.restoreGroup c g b e
      (acc.1 && y.1, y.2)) (true, r.2)
    let s := t.2.modCtx c (fun x => { x with epoch := BitVec.ofNat 16 (fieldAt b 8 2) })
    if g.par = 0 then (t.1, s)
    else
      let y := s.tryCopy c (g.va + fieldAt b 0x18 8) g.par (fieldAt b 0x20 8)
      (t.1 && y.1, y.2)

end Sys2Proof.Machine
end

