-- ==== Sys2Proof/Machine/Observe.lean ====
section
/-! DEFINITION. Requests for the hang dump (R359) and the alignment of timestamps across modules (R356, R357). -/

namespace Sys2Proof.Machine
open Sys2Proof

/-! ## The hang dump -/

/-- OBS_DUMP_REQUEST (R359). -/
def execObsDumpRequest (rq : Req) (v : Nat) (s : State) : Host.Outcome State Fault Refusal :=
  .next (s.umTry rq 0x5E00 2 v (doAct (fun s => s.dump 5)))

/-- A write of OBS_DUMP_RELEASE: a dump that is held is released; one that is being written is not (log 17). -/
def actDumpRelease : Act := fun s =>
  if s.obs.dumpState = 1 then (0x0D, s) else (0, { s with obs.dumpState := 0 })

/-- OBS_DUMP_RELEASE (R359). -/
def execObsDumpRelease (rq : Req) (v : Nat) (s : State) : Host.Outcome State Fault Refusal :=
  .next (s.umTry rq 0x5E00 4 v actDumpRelease)

/-! ## Timestamp alignment -/

/-- The device identifier of the reference module: that of OBS_TS_REF's valid entry, else 0 (R356). -/
def State.tsRef (s : State) : Nat :=
  let e := s.rankEntry (s.obj 0x5100 4)
  if e.testBit 17 then e % 2 ^ 17 else 0

/-- The dimensions in which this module differs from the reference, the last one corrected first. -/
def State.tsDims (s : State) : List Nat := ((List.range 4).filter (fun k => coord s.myDid k != coord s.tsRef k)).reverse

/-- Whether a port has a usable peer. -/
def State.tsUsable (s : State) (p : Nat) : Bool := portUp (s.port p).st

/-- A measured port with a usable peer, toward coordinate v of dimension k. -/
def State.tsLink (s : State) (k v : Nat) : Option Nat :=
  (s.bundle s.myDid k v).find? (fun p => Tab.has s.obs.linkOff p && s.tsUsable p)

/-- The port and the module before this one on the way from the reference, and whether that is a detour: the minimal route's, else in the
last dimension an intermediate, else that of the next route (R214, R357). -/
def State.tsBefore (s : State) : Option (Nat × Nat × Bool) :=
  s.tsDims.findSome? (fun k =>
    let v := coord s.tsRef k
    match s.tsLink k v with
    | some p => some (p, setCoord s.myDid k v, false)
    | none => (s.intermediates k v).findSome? (fun i => (s.tsLink k i).map (fun p => (p, setCoord s.myDid k i, true))))

/-- OBS_TS_OFFSET and OBS_TS_ERROR from the link offsets: nothing at the reference; else the link's offset and, where the module before this one is
not the reference, that module's own, which the links before it give (R356; log 14). -/
def State.composeTs (s : State) : State :=
  if s.obj 0x5100 1 = 0 ∨ s.obj 0x5100 2 = 2 then s
  else
    let hops := s.tsDims.length
    if hops = 0 then { s with obs.tsOffset := 0, obs.tsError := 0 }
    else match s.tsBefore with
      | none => s
      | some (p, did, detour) =>
        let th := Tab.get 0 s.obs.linkOff p
        let before : Int := if did = s.tsRef then 0 else Config.peerOffset did s.tsRef s.obs.tsMeasure.toNat
        { s with
          obs.tsOffset := BitVec.ofInt 64 (th + before)
          obs.tsError := BitVec.ofNat 32 (20 * (hops + bit detour)) }

/-- A measurement starts: the exchanges of every port are counted anew. -/
def State.startMeasure (s : State) : State :=
  { s with
    obs.measuring := true
    obs.tsMeasure := s.sys.ts
    obs.linkN := []
    obs.linkOff := s.obs.linkOff.filter (fun e => decide (e.1 < 1000)) }

/-- A measurement starts on every module of the installation: the others are told (R357). -/
def State.measureTs (s : State) : State := s.startMeasure.tellAll Mg.tsMeasure []

/-- A write of OBS_TS_MEASURE; with alignment disabled new work is refused (R282). -/
def actTsMeasure : Act := fun s => if s.obj 0x5100 1 = 0 then (0x0D, s) else (0, s.measureTs)

/-- OBS_TS_MEASURE (R357). -/
def execObsTsMeasure (rq : Req) (v : Nat) (s : State) : Host.Outcome State Fault Refusal :=
  .next (s.umTry rq 0x5100 7 v actTsMeasure)

/-- The effect of TS_EXCHANGE: twice the offset of the peer joins the sum of the port (kept at 1000 + port); with the 64th the
average is the link's offset, and the module's offset is composed. -/
def fxTsExchange (p t1 t2 t3 t4 : Nat) (s : State) : State :=
  let n := Tab.get 0 s.obs.linkN p
  if !s.alive || s.obj 0x5100 1 == 0 || s.obj 0x5100 2 == 2 || !s.tsUsable p || decide (64 ≤ n) then s
  else
    let th2 : Int := ((t2 : Int) - t1) - ((t4 : Int) - t3)
    let sum := Tab.get 0 s.obs.linkOff (1000 + p) + th2
    let s := { s with
      obs.linkN := Tab.put s.obs.linkN p (n + 1)
      obs.linkOff := Tab.put s.obs.linkOff (1000 + p) sum }
    if n + 1 < 64 then s
    else
      let s := ({ s with obs.linkOff := Tab.put (Tab.del s.obs.linkOff (1000 + p)) p (sum / 128) }).composeTs
      if (List.range 76).all (fun q => !s.tsUsable q || Tab.get 0 s.obs.linkN q == 64) then { s with obs.measuring := false } else s

/-- TS_EXCHANGE (R356). -/
def execTsExchange (port : Nat) (t1 t2 t3 t4 : Nat) (s : State) : Host.Outcome State Fault Refusal :=
  onPort port s (fxTsExchange port t1 t2 t3 t4)

end Sys2Proof.Machine
end

