-- ==== Sys2Proof/Machine/Rank.lean ====
section
/-! DEFINITION. The rank map and its load (R27 to R29), heartbeats and the declaration of a loss (R293 to R295), and the steps
of a recovery (R278, R297 to R301). -/

namespace Sys2Proof.Machine
open Sys2Proof

/-! ## The rank map (R29) -/

/-- Fields of an entry: DID, VALID, LOST. -/
def reDid (e : BitVec 32) : Nat := e.toNat % 2 ^ 17
def reValid (e : BitVec 32) : Bool := e.getLsbD 17
def reLost (e : BitVec 32) : Bool := e.getLsbD 18

/-- The entry that binds a rank to a device identifier. -/
def reBound (did : Nat) : BitVec 32 := BitVec.ofNat 32 (did % 2 ^ 17 + 2 ^ 17)

/-- The PAR_ registers of the rank that this spare takes, for every context (R297; log 21). -/
def State.takeParity (s : State) (rank : Nat) : State :=
  (List.range 16).foldl (fun (s : State) c => s.modCtx c (fun x => { x with
    parCfg := BitVec.ofNat 32 (Config.parReg rank c 0)
    parHolder0 := BitVec.ofNat 17 (Config.parReg rank c 1)
    parHolder1 := BitVec.ofNat 17 (Config.parReg rank c 2)
    parImage := BitVec.ofNat 64 (Config.parReg rank c 3) })) s

/-- RBD_RANK follows the map: the rank whose valid entry holds this module's identifier, or NONE. A spare that takes a rank is a
working module with that rank's PAR_ registers, and wakes from standby (R293, R297, R316); a module whose identifier is marked lost enters safe
hold (R279). -/
def State.takeRank (s : State) : State :=
  let me := s.myDid
  let r := (s.xl.rankMap.find? (fun e => reValid e.2 && reDid e.2 == me)).map (·.1)
  let was := s.myRank
  let s := { s with rbd.rank := match r with
    | some n => BitVec.ofNat 18 n
    | none => 0x20000 }
  let s : State := if s.rbd.role != 1 then s else match r with
    | some n => { s with rbd.role := 0 }.takeParity n
    | none => s
  let s := if r.isSome && was.isNone then s.wakeBy 8 else s
  if s.didLost me then s.enterSafeHold 6 0xFF else s

/-- The states of this module's ports are published to the modules of its lines (R214, R297). -/
def State.publishPorts (s : State) : State :=
  s.fab.ports.foldl (fun (s : State) e =>
    s.lineDids.foldl (fun (s : State) d => s.mgmt d Mg.portState [BitVec.ofNat 8 e.1, BitVec.ofNat 8 e.2.st]) s) s

/-- The rank map has changed: this module's rank follows it, packets toward a neighbour that is lost now go another way, and the port states are
published (R214, R297). -/
def State.followMap (s : State) : State := s.takeRank.rerouteAll.publishPorts

/-- A map is installed in the four copies at once, its reserved bits read as 0 (R7); collectives that name a lost rank end, and a new reference module composes
the timestamp offset again (R29, R237, R356). -/
def State.installMap (s : State) (m : List (BitVec 32)) : State :=
  let t := (m.zipIdx.map (fun e => (e.2, e.1 &&& 0x7FFFF#32))).filter (fun e => e.2 != 0)
  let was := s.tsRef
  let s := ({ s with xl.rankMap := t }).endLostRuns.followMap
  if s.tsRef = was then s else s.composeTs

/-- The role of a module: this one's own, or what another reports (R29; log 22). -/
def State.roleOf (s : State) (did : Nat) : Nat := if did = s.myDid then s.rbd.role else Config.peerRole did s.sys.ts.toNat

/-- Whether a module is a spare or retired. -/
def State.offDuty (s : State) (did : Nat) : Bool := s.roleOf did == 1 || s.roleOf did == 2

/-- The checks of a map: every valid identifier inside the shape and named once, and none that of a spare or retired module. -/
def State.mapOk (s : State) (m : List (BitVec 32)) : Bool :=
  let ds := (m.filter reValid).map reDid
  ds.all s.inShape && ds.dedup.length == ds.length && !ds.any s.offDuty

/-- Whether a module of the shape can be reached from here. -/
def State.reaches (s : State) (did : Nat) : Bool :=
  let h : Hdr := ⟨6, false, false, 0, 0, did, 0, 0, s.myDid, 328, 0, 0⟩
  did == s.myDid || (s.routeOn none none (h.bytes ++ List.replicate 16 0)).isSome

/-- Modules whose acknowledgement a load waits for: those of the shape that are not lost and can be reached. -/
def State.loadDids (s : State) : List Nat := s.shapeDids.filter (fun d => !s.didLost d && s.reaches d)

/-- The load is complete when every module has acknowledged. -/
def State.loadDone (s : State) : Bool :=
  match s.xl.rankLoad with
  | none => false
  | some (_, acked) => s.loadDids.all (fun d => NSet.mem acked d)

/-- Whether a context of any module has a started command (R29; log 22). -/
def State.anyBusy (s : State) : Bool :=
  s.ctxs.any (fun e => !e.2.started.isEmpty) || s.shapeDids.any (fun d => Config.peerBusy d s.sys.ts.toNat)

/-- The refusal of a map by its contents or by the state of the job: DETAIL, 0 for none. A write while an earlier load still awaits
acknowledgements is refused with 0x0D (DESIGN CHOICE, log 22). -/
def State.mapRefusal (s : State) (m : List (BitVec 32)) : Nat :=
  if m.length ≠ 131072 then 0x05
  else if !s.mapOk m then 0x06
  else if s.anyBusy || s.rbd.recState != 0 || s.xl.rankLoad.isSome then 0x0D
  else 0

/-- A load begins: the map goes to every module of the shape, this one included. -/
def State.loadMap (s : State) (rq : UmReq) (m : List (BitVec 32)) : State :=
  let s := { s with xl.rankLoad := some (m, []), xl.rankLoadReq := some rq }
  (s.tellAll Mg.rankMap (m.flatMap (fun e => natLe 4 e.toNat))).installMap m

/-- Microseconds between two timestamps (R16). -/
def State.microsSince (s : State) (t : BitVec 64) : Nat := (s.sys.ts - t).toNat / 800

/-- A step of the recovery ends: its duration is recorded, and the next one begins (Table 12.12). -/
def State.recMark (s : State) (i : Nat) : State :=
  { s with rbd.recTimes := Tab.put s.rbd.recTimes i (s.microsSince s.rbd.recTs), rbd.recTs := s.sys.ts }

/-- Step 2 of a recovery is complete: its duration, and its event (R297, Table 15.6); a job that has a spare goes on to step 3. -/
def State.stepTwoDone (s : State) (rank : Nat) : State :=
  let s := (s.recMark 1).event2 0x0202 2 rank
  { s with rbd.recState := if s.rbd.recState = 2 ∨ s.rbd.recState = 3 then 4 else s.rbd.recState }

/-- The request whose load has ended is answered; a request that came as an operand has no frame, and the distribution of a recovery ends its
step 2. -/
def State.endLoad (s : State) : Option UmReq × State :=
  let t : State := { s with xl.rankLoad := none, xl.rankLoadReq := none }
  (s.xl.rankLoadReq, match s.rbd.recRank with
    | some r => { t with rbd.recRank := none }.stepTwoDone r
    | none => t)

/-- An operand's load is answered as soon as it is complete. -/
def State.settleLoad (s : State) : State :=
  if !s.loadDone then s
  else match s.xl.rankLoadReq with
    | some rq => if rq.bs.isEmpty then s.endLoad.2.answerTo rq.path 0 else s
    | none => s

/-- The effect of RBD_RANK_MAP: the whole map arrives with the final segment. -/
def fxRbdRankMap (rq : Req) (m : List (BitVec 32)) (s : State) : State :=
  if !s.mcOn then s
  else match s.writeRefusal rq 0x4006 0 with
    | some d => s.answerTo rq.path d
    | none =>
      let d := s.mapRefusal m
      if d ≠ 0 then s.answerTo rq.path d else (s.loadMap ⟨rq.path, []⟩ m).settleLoad

/-- RBD_RANK_MAP (R29). -/
def execRbdRankMap (rq : Req) (m : List (BitVec 32)) (s : State) : Host.Outcome State Fault Refusal :=
  .next (fxRbdRankMap rq m s)

/-- A distributed map is taken; where a recovery has halted this module, its step 2 ends here (R297). -/
def State.takeMap (s : State) (m : List (BitVec 32)) : State :=
  let s := s.installMap m
  if s.rbd.recState = 2 ∨ s.rbd.recState = 3 then s.stepTwoDone s.rbd.lastLost.toNat else s

/-- RANK_MAP_INSTALL (R29): a distributed map arrives and is acknowledged to the module that loads it; one that a lost module sends is
discarded (R279). -/
def execRankMapInstall (m : RankMapMsg) (s : State) : Host.Outcome State Fault Refusal :=
  .next (if !s.alive || s.didLost m.src then s else (s.takeMap m.map).mgmt m.src Mg.rankMapAck (natLe 4 s.myDid))

/-- The port of the first usable neighbour, in port order (R29). -/
def State.askPort (s : State) : Option Nat :=
  (List.range 76).find? (fun p => portUp (s.port p).st && !s.didLost (s.port p).peerDid.toNat && (match s.neighbourOf p with
    | some (k, v) => !s.unusable k v
    | none => false))

/-- The effect of RANK_MAP_REQUEST: a module without a map asks its first usable neighbour, and installs the answer. -/
def fxRankMapRequest (p : Nat) (m : Option (List (BitVec 32))) (s : State) : State :=
  if !s.alive || s.askPort != some p || !s.xl.rankMap.isEmpty then s
  else
    let s := s.mgmt (s.port p).peerDid.toNat Mg.rankMapAsk (natLe 4 s.myDid)
    match m with
    | some m => s.installMap m
    | none => s

/-- RANK_MAP_REQUEST (R29). -/
def execRankMapRequest (port : Nat) (m : Option (List (BitVec 32))) (s : State) : Host.Outcome State Fault Refusal :=
  onPort port s (fxRankMapRequest port m)

/-! ## Heartbeats and suspicion (R294) -/

/-- The 15 modules of this module's dimension-0 line: its watchers, whom it watches. -/
def State.watchers (s : State) : List Nat :=
  ((List.range (s.dimSize 0)).filter (fun v => v != coord s.myDid 0)).map (fun v => setCoord s.myDid 0 v)

/-- HEARTBEAT_SEND (R294): the I/O dies' agents send while the dies have power and the ports are trained. -/
def execHeartbeatSend (s : State) : Host.Outcome State Fault Refusal :=
  .next (if s.alive && s.sys.regulators then
    s.watchers.foldl (fun (s : State) d => s.mgmt d Mg.heartbeat (natLe 4 s.myDid)) s else s)

/-- HEARTBEAT (R294). -/
def execHeartbeat (did : Nat) (s : State) : Host.Outcome State Fault Refusal :=
  .next (if s.alive && s.watchers.contains did && !s.didLost did then { s with rbd.beats := Tab.put s.rbd.beats did s.sys.ts }
    else s)

/-- HEARTBEAT_TIMEOUT (R294): a suspicion goes to the coordinator. -/
def execHeartbeatTimeout (did : Nat) (s : State) : Host.Outcome State Fault Refusal :=
  .next (if s.alive && s.watchers.contains did && !s.didLost did then
    s.tellCoordBut (some did) Mg.suspicion (natLe 4 did) else s)

/-- The rank that a device identifier holds. -/
def State.rankOfDid (s : State) (did : Nat) : Option Nat := (s.workingRanks.find? (fun e => e.2 == did)).map (·.1)

/-- The coordinator declares a module lost: recorded, whether or not recovery is enabled, and step 1 of the chain ends (R282, R294, Table 12.7). -/
def State.declareLost (s : State) (did : Nat) : State :=
  let s := s.recMark 0
  let rank := (s.rankOfDid did).getD s.rbd.lastLost.toNat
  ({ s with
    rbd.lastLost := BitVec.ofNat 17 rank
    rbd.declared := NSet.insert s.rbd.declared did
    rbd.probes := s.rbd.probes.filter (· != did)
    rbd.suspicions := s.rbd.suspicions.filter (fun e => e.1 != did) } : State).event2 0x0202 1 rank

/-- A route by way of an intermediate of the first dimension that has one (R211). -/
def State.detour (s : State) (did : Nat) : Option Nat :=
  (List.range 4).findSome? (fun k =>
    if coord s.myDid k = coord did k then none
    else (pickHash (s.intermediates k (coord did k)) (flowId 0 328 did) 1).map (setRouteField 0 k))

/-- The coordinator's probe of a module goes over two routes, as far as there are two (R294). -/
def State.probe (s : State) (did : Nat) : State :=
  let bs := natLe 4 s.myDid
  let s := match s.detour did with
    | some r => (mgFrames Mg.probe bs).foldl (fun (s : State) f =>
        let pk := s.mgmtPacket did f
        (s.send (withHdr { hdrOf pk with route := r } pk)).getD s) s
    | none => s
  s.mgmt did Mg.probe bs

/-- The effect of SUSPICION at the coordinator, or at the next one where the coordinator itself is suspected (R295): two watchers declare the
module lost; one makes the coordinator probe it. A watcher that is marked lost is not heard (R279). -/
def fxSuspicion (watcher did : Nat) (s : State) : State :=
  if !s.alive || !s.isCoordBut did || s.didLost did || s.didLost watcher then s
  else
    let s := if s.rbd.suspicions.contains (did, watcher) then s
      else { s with rbd.suspicions := s.rbd.suspicions ++ [(did, watcher)] }
    let s := if s.rbd.recState = 0 then { s with rbd.recState := 1, rbd.recTs := s.sys.ts } else s
    if 2 ≤ (s.rbd.suspicions.filter (fun e => e.1 == did)).length then s.declareLost did
    else if s.rbd.probes.contains did then s
    else ({ s with rbd.probes := s.rbd.probes ++ [did] } : State).probe did

/-- SUSPICION (R294). -/
def execSuspicion (watcher did : Nat) (s : State) : Host.Outcome State Fault Refusal := .next (fxSuspicion watcher did s)

/-- A probe is answered: the module is not lost, and with no other suspicion the recovery is idle again (R294). -/
def State.probeAnswered (s : State) (did : Nat) : State :=
  let s := { s with
    rbd.probes := s.rbd.probes.filter (· != did)
    rbd.suspicions := s.rbd.suspicions.filter (fun e => e.1 != did) }
  { s with rbd.recState := if s.rbd.recState = 1 ∧ s.rbd.suspicions.isEmpty then 0 else s.rbd.recState }

/-- PROBE_TIMEOUT (R294). -/
def execProbeTimeout (did : Nat) (s : State) : Host.Outcome State Fault Refusal :=
  .next (if s.alive && s.rbd.probes.contains did then s.declareLost did else s)

/-! ## Recovery (Table 12.7) -/

/-- The parity of every group of a context is stale, or no longer so (R268, R298). -/
def State.markParity (s : State) (c : Nat) (stale : Bool) : State :=
  let x := s.ctx c
  let s := (s.cutGroups c x.ueGtab.toNat).foldl (fun (s : State) e => s.putEntry c e.1 0xCC (natLe 4 (bit stale))) s
  if stale then s.modCtx c (fun x => { x with ueStatus := x.ueStatus ||| 1 }) else s

/-! ### Parity groups and spares (R292, R293) -/

/-- The ranks of the holders of the parity of the module of a rank: its own registers say so, and the runtime's configuration for another
(R265; log 21). -/
def State.holdersOf (s : State) (c rank : Nat) : List Nat :=
  if s.myRank = some rank then (s.ctx c).holderRanks
  else
    let g := Config.parReg rank c 0
    if g % 32 = 0 then [] else [Config.parReg rank c 1 % 2 ^ 17, Config.parReg rank c 2 % 2 ^ 17].take (g / 32 % 2 + 1)

/-- Ranks of a context that are lost in this recovery. -/
def State.lostRanks (s : State) (c : Nat) : List Nat := (s.rbd.losses.filter (fun l => l.c == c)).map (·.rank)

/-- Whether a loss leaves some group short of its tolerance of P: more than P modules lost among its members and its holders together (R292,
R300). -/
def State.groupShort (s : State) (c : Nat) : Bool :=
  s.xl.rankMap.any (fun q =>
    let h := s.holdersOf c q.1
    decide (h.length < ((s.lostRanks c).filter (fun r => h.contains r || s.holdersOf c r == h)).length))

/-- The usable spare of lowest device identifier (R293). -/
def State.usableSpare (s : State) : Option Nat :=
  (List.range (2 ^ 17)).find? (fun d => s.inShape d && s.roleOf d == 1 && !s.didLost d && s.reaches d
    && !s.workingRanks.any (fun e => e.2 == d))

/-! ### Step 2 (R297) -/

/-- The device that the map gives a rank. -/
def State.holderOf (s : State) (rank : Nat) : Nat := reDid (Tab.get 0 s.xl.rankMap rank)

/-- Whether this module coordinates the recovery of a rank: the live working module of lowest rank but for the one lost (R295). -/
def State.leads (s : State) (rank : Nat) : Bool := s.isCoordBut (s.holderOf rank)

/-- Whether step 2 has bound a spare to a rank already, and that spare is not itself lost: the step is repeated (R295). -/
def State.boundAlready (s : State) (c rank : Nat) (spare : Option Nat) : Bool :=
  s.rbd.losses.any (fun l => l.c == c && l.rank == rank && l.bound)
    && (if s.leads rank then !NSet.mem s.rbd.declared (s.holderOf rank) else spare == some (s.holderOf rank))

/-- A rank moves to a device (R276, R297). -/
def State.bindRank (s : State) (rank did : Nat) : State :=
  ({ s with xl.rankMap := Tab.put s.xl.rankMap rank (reBound did) }.logRebind 4 rank did).followMap

/-- The end of step 2 on this module. The coordinator distributes the map, and its step ends when every module has acknowledged it (R297);
on another module it ends as the map arrives. -/
def State.endStepTwo (s : State) (lead : Bool) (rank : Nat) : State :=
  if lead then
    let s := s.tellAll Mg.rankMap ((List.range 131072).flatMap (fun r => natLe 4 (s.rankEntry r)))
    let s : State := { s with xl.rankLoad := some ([], [s.myDid]), rbd.recRank := some rank }
    if s.loadDone then s.endLoad.2 else s
  else s

/-- A rank's device is marked lost: its collectives end, parity it held is stale, and the loss is one of this recovery's (R237, R297, R298). -/
def State.markLost (s : State) (c rank : Nat) : State :=
  let old := s.holderOf rank
  let lost : Loss := ⟨c, rank, old, false⟩
  let s := ({ s with
    rbd.lostDids := NSet.insert s.rbd.lostDids old
    rbd.losses := s.rbd.losses.filter (fun l => !(l.c == c && l.rank == rank)) ++ [lost]
    xl.rankMap := Tab.put s.xl.rankMap rank (reBound old ||| (1#32 <<< 18)) } : State).endLostRuns
  if (s.ctx c).holderRanks.contains rank then s.markParity c true else s

/-- Step 2 on this module: halt, the lost rank's device marked lost, a spare bound or none found, and the map distributed by
the coordinator (R297, R300). The coordinator chooses the spare, and finds where a group is left short of its tolerance: the job then stays
halted; another module takes both as told, and without a spare waits for the map. -/
def State.haltRebind (s : State) (c rank : Nat) (spare : Option Nat) (short : Bool) : State :=
  let lead := s.leads rank
  let again := s.boundAlready c rank spare
  let s := (s.halt (2 ^ c)).modCtx c (fun x => { x with halted := true })
  let s := { s with obs.recoveryMode := true, rbd.recWait := none, rbd.recConfirm := false, rbd.recState := 2 }
  if again then ({ s with rbd.recState := 3 } : State).endStepTwo lead rank
  else
    let s := s.markLost c rank
    if (if lead then s.groupShort c else short) then ({ s.followMap with rbd.recState := 7 } : State).endStepTwo lead rank
    else match (if lead then s.usableSpare else spare) with
      | some did =>
        let s := s.bindRank rank did
        ({ s with
          rbd.recState := 3
          rbd.losses := s.rbd.losses.map (fun (l : Loss) => if l.c = c ∧ l.rank = rank then { l with bound := true } else l) }
          : State).endStepTwo lead rank
      | none => ({ s.followMap with rbd.recState := if lead then 6 else 2 } : State).endStepTwo lead rank

/-- The effect of RECOVERY_HALT_REBIND: with recovery disabled the loss is only recorded; in mode 2 the coordinator waits for
the host's confirmation (R282, R304). Repeated in state 6, it finds a spare that has been named since (R300). -/
def fxRecoveryHaltRebind (c rank : Nat) (spare : Option Nat) (short : Bool) (s : State) : State :=
  if !s.alive then s
  else
    let s := { s with rbd.lastLost := BitVec.ofNat 17 rank }
    if s.obj 0x4003 1 = 0 then s
    else if s.obj 0x4003 2 = 2 ∧ s.leads rank ∧ !s.rbd.recConfirm then
      { s with rbd.recWait := some rank }
    else s.haltRebind c rank spare short

/-- RECOVERY_HALT_REBIND (R297). -/
def execRecoveryHaltRebind (c rank : Nat) (spare : Option Nat) (short : Bool) (s : State) : Host.Outcome State Fault Refusal :=
  onCtx c s (fxRecoveryHaltRebind c rank spare short)

/-- RBD_RECOVERY_CONFIRM: accepted while step 2 waits for it. -/
def actConfirm : Act := fun s => if s.rbd.recWait.isSome then (0, { s with rbd.recConfirm := true }) else (0x0D, s)

/-- RBD_RECOVERY_CONFIRM (R304). -/
def execRbdRecoveryConfirm (rq : Req) (v : Nat) (s : State) : Host.Outcome State Fault Refusal :=
  .next (s.umTry rq 0x4003 6 v actConfirm)

/-! ### Step 3 (R298) -/

/-- Step 3 is complete on this module: its duration, and its event (Table 15.6). -/
def State.stepThreeDone (s : State) : State :=
  let s := (s.recMark 2).event2 0x0202 3 s.rbd.lastLost.toNat
  { s with rbd.recState := 5 }

/-- A survivor goes back to its cut; one whose slot cannot be read joins the recovery as lost, and says so to the coordinator (R298, R300). -/
def State.restoreCut (s : State) (c : Nat) (g : Seal) : State :=
  let r := s.tryRestore c g
  if r.1 then r.2.stepThreeDone else r.2.tellCoordBut (some s.myDid) Mg.slotLost (natLe 4 s.myDid)

/-- What this module's cut gives the spare of a lost rank: as a member of its parity group the slot image; as a holder the held copy, and the lost
rank's record (R298). The index j of the lost rank is that of its registers (log 21). -/
def State.sendPart (s : State) (c : Nat) (g : Seal) (l : Loss) : State :=
  let r := s.vaRead c g.va 0x8040 [.r]
  let s := r.2
  let img := fieldAt r.1.bytes 0x10 8
  let ho := fieldAt r.1.bytes 0x18 8
  let hb := fieldAt r.1.bytes 0x20 8
  let dest := s.holderOf l.rank
  let hs := s.holdersOf c l.rank
  let s := if (s.ctx c).holderRanks == hs && !hs.isEmpty && s.myRank != some l.rank then
      let x := s.vaRead c (g.va + 0x10000) img [.r]
      x.2.mgmt dest Mg.cutPart (natLe 1 c ++ [0] ++ natLe 2 (s.ctx c).parJ ++ x.1.bytes)
    else s
  if !(s.myRank.any (fun me => hs.contains me)) then s
  else
    let x := s.vaRead c (g.va + ho) hb [.r]
    let y := x.2.vaRead c (g.va + ho + hb + 0x10000 * (Config.parReg l.rank c 0 / 64 % 32)) 0x8040 [.r]
    y.2.mgmt dest Mg.cutPart (natLe 1 c ++ [1] ++ natLe 2 (bit (s.ctx c).heldShard) ++ y.1.bytes ++ x.1.bytes)

/-- The parts of every lost rank that has a spare. -/
def State.sendParts (s : State) (c : Nat) (g : Seal) : State :=
  (s.rbd.losses.filter (fun l => l.c == c && l.bound)).foldl (fun (s : State) l => s.sendPart c g l) s

/-- xor of two strings, the shorter one going on with zeros. -/
def xorPad (a b : List Byte) : List Byte :=
  (List.range (Nat.max a.length b.length)).map (fun i => (a[i]?).getD 0 ^^^ (b[i]?).getD 0)

/-- What a shard says of the lost members' images, once those that are here are taken out: weighted by α^j for shard 1. -/
def rebuildLeft (p : RebuildIn) (second : Bool) (shard : List Byte) : List Byte :=
  p.members.foldl (fun a m => xorPad a (if second then mulU (gfPow m.1) m.2 else m.2)) shard

/-- The lost image of member j of a group of n: received directly; else from shard 0 or shard 1 where it alone is missing, and by the Reed-Solomon
decoding of both shards where another member is missing too (R298, R266). -/
def rebuiltImage (p : RebuildIn) (n j : Nat) : List Byte :=
  match p.direct with
  | some d => d
  | none =>
    let a := gfPow j
    match p.shard0.map (rebuildLeft p false), p.shard1.map (rebuildLeft p true) with
    | some x, some y =>
      match (List.range n).find? (fun i => i != j && !p.members.any (fun m => m.1 == i)) with
      | some i => mulU (gfInv (a ^^^ gfPow i)) (xorPad y (mulU (gfPow i) x))
      | none => x
    | some x, none => x
    | none, some y => mulU (gfInv a) y
    | none, none => []

/-- The spare holds its cut state: the record, and the image 64 KiB on, as in a slot (R288, R298). -/
def State.takeImage (s : State) (c : Nat) (p : RebuildIn) : State :=
  let x := s.ctx c
  let s := (s.memWrite p.base p.record).2
  (s.memWrite (p.base + 0x10000) (rebuiltImage p (bits x.parCfg 4 0) x.parJ)).2

/-- The effect of RECOVERY_STATE_REBUILD, once step 2 has ended (R296): a survivor sends what the lost ranks' spares need and goes back to its cut; a
spare's image is formed and written where firmware puts it (log 13). In states 6 and 7 the job stays halted (R300). -/
def fxRecoveryStateRebuild (c : Nat) (p : RebuildIn) (s : State) : State :=
  if !s.alive || s.rbd.recState != 4 then s
  else match (s.ctx c).sealGlobal with
    | some g => (s.sendParts c g).restoreCut c g
    | none => (if s.myRank.isNone then s else s.takeImage c p).stepThreeDone

/-- RECOVERY_STATE_REBUILD (R298). -/
def execRecoveryStateRebuild (c : Nat) (p : RebuildIn) (s : State) : Host.Outcome State Fault Refusal :=
  onCtx c s (fxRecoveryStateRebuild c p)

/-! ### Step 4 (R299) -/

/-- The effect of RECOVERY_RESUME, once step 3 has ended: the context is reset, the recovery is over, and its event raised (R296, R299); a module whose
rank has moved is retired (R278). -/
def fxRecoveryResume (c : Nat) (s : State) : State :=
  if !s.alive || s.rbd.recState != 5 then s
  else
    let s := (s.ctxReset c).recMark 3
    ({ s with
      rbd.recState := 0
      rbd.losses := s.rbd.losses.filter (fun l => l.c != c)
      rbd.declared := []
      rbd.role := if s.rbd.retiring then 2 else s.rbd.role
      rbd.retiring := false } : State).event2 0x0202 4 s.rbd.lastLost.toNat

/-- RECOVERY_RESUME (R299). -/
def execRecoveryResume (c : Nat) (s : State) : Host.Outcome State Fault Refusal := onCtx c s (fxRecoveryResume c)

/-- The effect of TRANSIENT_LOSS: the job halts and cut c is restored, without a rebinding (R301); with recovery disabled neither (R282). -/
def fxTransientLoss (c : Nat) (s : State) : State :=
  if !s.alive || s.obj 0x4003 1 == 0 then s
  else
    let s := (s.halt (2 ^ c)).modCtx c (fun x => { x with halted := true })
    let s := { s with obs.recoveryMode := true, rbd.recState := 4 }
    match (s.ctx c).sealGlobal with
    | some g => s.restoreCut c g
    | none => s.stepThreeDone

/-- TRANSIENT_LOSS (R301). -/
def execTransientLoss (c rank : Nat) (s : State) : Host.Outcome State Fault Refusal :=
  onCtx c s (fun s => if (s.didOfRank rank).isSome then fxTransientLoss c s else s)

/-- The effect of HELD_PARITY_REBUILD: at the new holder the image is written; the groups it held report no stale parity any
more (R298). -/
def fxHeldParityRebuild (c : Nat) (image : List (Nat × List Byte)) (s : State) : State :=
  if !s.alive then s
  else
    let base := (s.ctx c).parImage.toNat
    let s := image.foldl (fun (s : State) (e : Nat × List Byte) => s.putVa c (base + e.1) e.2) s
    s.markParity c false

/-- HELD_PARITY_REBUILD (R298). -/
def execHeldParityRebuild (c : Nat) (image : List (Nat × List Byte)) (s : State) : Host.Outcome State Fault Refusal :=
  onCtx c s (fxHeldParityRebuild c image)

/-! ## Planned rank move (R278) -/

/-- The cut image that a retiring module sends to its spare: its PAR_ registers and the whole slot of a context (R278, R297). -/
def State.sendImage (s : State) (c did : Nat) : State :=
  let x := s.ctx c
  match x.sealGlobal with
  | none => s
  | some g =>
    let b := (s.vaRead c g.va 0x8040 [.r]).1.bytes
    let par := natLe 4 x.parCfg.toNat ++ natLe 4 x.parHolder0.toNat ++ natLe 4 x.parHolder1.toNat ++ natLe 8 x.parImage.toNat
    s.mgmt did Mg.cutImage (natLe 1 c ++ par ++ (s.vaRead c g.va (fieldAt b 0x18 8 + fieldAt b 0x20 8) [.r]).1.bytes)

/-- The contexts of the job: those with a globally sealed cut; on a module that holds none, as the spare, every context (DEDUCED, log 13). -/
def State.jobCtxs (s : State) : List Nat :=
  let l := (List.range 16).filter (fun c => (s.ctx c).sealGlobal.isSome)
  if l.isEmpty then List.range 16 else l

/-- Step 2 of Table 12.7 without a loss: the job halts, the retiring module sends its cut image to the spare, the rank moves, and the coordinator
distributes the map. The retiring module takes role 2 at the end of step 4. -/
def State.moveRank (s : State) (rank spare : Nat) : State :=
  let cs := s.jobCtxs
  let lead := s.isCoord
  let mine := s.myRank == some rank
  let s := s.halt (cs.foldl (fun a c => a + 2 ^ c) 0)
  let s := { s with
    obs.recoveryMode := true
    rbd.recWait := none
    rbd.recConfirm := false
    rbd.recTs := s.sys.ts
    rbd.recState := 3
    rbd.moveDue := false
    rbd.retiring := mine }
  let s := if mine then cs.foldl (fun (s : State) c => s.sendImage c spare) s else s
  (s.bindRank rank spare).endStepTwo lead rank

/-- Whether the coordinator may move a rank: its module has asked for retirement, and a cut has been sealed globally since the last move (R278). -/
def State.mayMove (s : State) (rank : Nat) : Bool := s.rbd.recState == 0 && s.rbd.moveDue && s.roleOf (s.holderOf rank) == 3

/-- The effect of PLANNED_RANK_MOVE: the coordinator moves the rank to the usable spare of lowest identifier, in mode 2 after the host's confirmation;
another module follows as told. With recovery disabled no rebinding follows (R282). Steps 3 and 4 are the rows RECOVERY_STATE_REBUILD, where the
spare's image is the one that the retiring module has sent, and RECOVERY_RESUME. -/
def fxPlannedRankMove (rank spare : Nat) (s : State) : State :=
  if !s.alive || s.obj 0x4003 1 == 0 then s
  else if !s.isCoord then s.moveRank rank spare
  else if !s.mayMove rank then s
  else if s.obj 0x4003 2 = 2 ∧ !s.rbd.recConfirm then { s with rbd.recWait := some rank }
  else match s.usableSpare with
    | some did => s.moveRank rank did
    | none => s

/-- PLANNED_RANK_MOVE (R278). -/
def execPlannedRankMove (rank spare : Nat) (s : State) : Host.Outcome State Fault Refusal := .next (fxPlannedRankMove rank spare s)

end Sys2Proof.Machine
end

