-- ==== Sys2Proof/Machine/Frame.lean ====
section
/-! DEFINITION. Umasel frames (R333): their fields, the queues and mailboxes of the paths, the checks of every request, and
responses. -/

namespace Sys2Proof.Machine
open Sys2Proof

/-! ## Fields (Table 14.4) -/

def frVer (b : List Byte) : Nat := fieldAt b 0 1
def frOp (b : List Byte) : Nat := fieldAt b 1 1
def frSeq (b : List Byte) : Nat := fieldAt b 2 2
def frSession (b : List Byte) : Nat := fieldAt b 4 2
def frIndex (b : List Byte) : Nat := fieldAt b 8 2
def frSub (b : List Byte) : Nat := fieldAt b 0x0A 1
def frOffset (b : List Byte) : Nat := fieldAt b 0x0C 4
def frLen (b : List Byte) : Nat := fieldAt b 0x10 4 % 2 ^ 20
def frBulk (b : List Byte) : Bool := (fieldAt b 0x10 4).testBit 20
def frLast (b : List Byte) : Bool := (fieldAt b 0x10 4).testBit 21
def frExpert (b : List Byte) : Bool := (fieldAt b 0x10 4).testBit 22
def frDid (b : List Byte) : Nat := fieldAt b 0x14 4 % 2 ^ 17
def frFwd (b : List Byte) : Bool := (fieldAt b 0x14 4).testBit 17
def frMseq (b : List Byte) : Nat := fieldAt b 0x18 4
def frTag (b : List Byte) : List Byte := (b.drop 0x20).take 16

/-- The payload of a request: in the bulk window with BULK, else in the frame. -/
def State.frPayload (s : State) (b : List Byte) : List Byte :=
  if frBulk b then s.um.mbox.bulk.readN 0 (frLen b) else (b.drop 48).take (frLen b)

/-- Whether a frame is too short for its header or its LEN (R333). -/
def frShort (b : List Byte) : Bool := decide (b.length < 48) || (!frBulk b && decide (b.length < 48 + frLen b))

/-- Whether a header is malformed: VER, a reserved bit, or LEN outside its range (R333). -/
def frMalformed (b : List Byte) : Bool :=
  frVer b != 1 || (fieldAt b 0x10 4).testBit 23 || fieldAt b 0x14 4 / 2 ^ 18 != 0 || fieldAt b 0x1C 4 != 0
    || decide ((if frBulk b then 524288 else 208) < frLen b)

/-- Who asks. -/
def reqOf (rq : UmReq) : Req := ⟨rq.path, frSession rq.bs⟩

/-! ## Responses (R333, R335) -/

/-- STATUS of a DETAIL (Table 14.6); that of a failed forwarding is given apart. -/
def statusOfDetail (d : Nat) : Status :=
  if d = 0 then St.ok
  else if d = 0x01 ∨ d = 0x10 then St.address
  else if d = 0x0C then St.noRoute
  else if d = 0x02 ∨ d = 0x03 ∨ d = 0x04 ∨ d = 0x08 ∨ d = 0x0A ∨ d = 0x0E ∨ d = 0x11 then St.privilege
  else St.invalid

/-- What a response carries beside what it copies. `sess` is the number that SESSION_OPEN returns; `bulk` says that the data lies
in the bulk window. -/
structure Rsp where
  status : Status := St.ok
  detail : Nat := 0
  tcode : Nat := 0
  last : Bool := false
  bulk : Bool := false
  payload : List Byte := []
  sess : Nat := 0
  deriving DecidableEq, Repr

/-- A refusal. -/
def refuse (d : Nat) : Rsp := { status := statusOfDetail d, detail := d }

/-- Bytes 0x00 to 0x1F of a response. -/
def rspHead (b : List Byte) (r : Rsp) (session mseq : Nat) : List Byte :=
  [1] ++ natLe 1 (128 + frOp b % 128) ++ natLe 2 (frSeq b) ++ natLe 2 session ++ natLe 2 r.status.toNat ++ natLe 2 (frIndex b)
    ++ natLe 1 (frSub b) ++ natLe 1 r.detail ++ natLe 4 (frOffset b)
    ++ natLe 4 (r.payload.length + 2 ^ 20 * bit r.bulk + 2 ^ 21 * bit r.last + 2 ^ 24 * r.tcode) ++ natLe 4 0 ++ natLe 4 mseq
    ++ natLe 4 0

/-- The tag of a frame under a session key (R332). -/
def tagOf (key head payload : List Byte) : List Byte :=
  let t := (hmac key (head ++ payload)).take 16
  t ++ List.replicate (16 - t.length) 0

/-- A mailbox with its response complete: GO clear, DONE set (R337). -/
def Mbox.answered (m : Mbox) (bs : List Byte) : Mbox :=
  { m with
    go := false
    busy := false
    done := true
    rsp := sliceAt bs 0 256 }

/-- The message of a mailbox's completion, with IRQ = 1, unless the module is in safe hold. -/
def State.mboxIrq (s : State) (fn : Nat) (m : Mbox) : State :=
  if m.irq && !s.rbd.safeHold then s.emit (.msix fn m.vector.toNat) else s

/-- A response frame goes back on the path of its request (R336, R337, R338). -/
def State.sendBack (s : State) (p : UmPath) (bs : List Byte) : State :=
  match p with
  | .t1s => s.emit (.t1s bs)
  | .mbox => { s with um.mbox := s.um.mbox.answered bs }.mboxIrq 0 s.um.mbox
  | .svc c => (s.modCtx c (fun x => { x with svc := x.svc.answered bs })).mboxIrq c (s.ctx c).svc
  | .fabric d => s.mgmt d Mg.umasel bs

/-- A mailbox whose request is discarded without a response is free again (log 17). -/
def State.dropped (s : State) (p : UmPath) : State :=
  match p with
  | .mbox => { s with um.mbox := { s.um.mbox with go := false, busy := false } }
  | .svc c => s.modCtx c (fun x => { x with svc := { x.svc with go := false, busy := false } })
  | _ => s

/-- Data of a response goes to the bulk window. -/
def State.bulkOut (s : State) (r : Rsp) : State :=
  if r.bulk then { s with um.mbox := { s.um.mbox with bulk := s.um.mbox.bulk.writeN 0 r.payload } } else s

/-- The open session that carries a request: a forwarded one and the frames that open a session are carried by none here (R331, R332,
R338). -/
def State.carrier (s : State) (rq : UmReq) : Option Session :=
  if frFwd rq.bs || frOp rq.bs == 0x10 || frOp rq.bs == 0x11 then none else s.session rq.path (frSession rq.bs)

/-- A request is answered; the frames of a session are numbered and tagged (R332). -/
def State.reply (s : State) (rq : UmReq) (r : Rsp) : State :=
  let s := s.bulkOut r
  let inFrame := if r.bulk then [] else r.payload
  match s.carrier rq with
  | some x =>
    let q := x.mseqOut + 1
    let h := rspHead rq.bs r (frSession rq.bs) q
    let s := { s with um.sessions := Tab.put s.um.sessions (frSession rq.bs) { x with mseqOut := q } }
    s.sendBack rq.path (h ++ tagOf x.key h r.payload ++ inFrame)
  | none => s.sendBack rq.path (rspHead rq.bs r r.sess 0 ++ List.replicate 16 0 ++ inFrame)

/-! ## Checks of every request -/

/-- What happens to a request before its operation. -/
inductive Pre where
  | discard
  | refuse (d : Nat)
  | pass
  deriving DecidableEq, Repr

/-- The session operations. -/
def sessionOp (op : Nat) : Bool := op == 0x10 || op == 0x11 || op == 0x12

/-- The checks of R332 on a frame that names a session: SESSION_OPEN and SESSION_AUTH are carried by none. -/
def State.sessionCheck (s : State) (rq : UmReq) : Pre :=
  let n := frSession rq.bs
  if n = 0 ∨ frOp rq.bs = 0x10 ∨ frOp rq.bs = 0x11 then .pass
  else match s.session rq.path n with
    | none => .discard
    | some x =>
      if tagOf x.key (rq.bs.take 0x20) (s.frPayload rq.bs) != frTag rq.bs then .discard
      else if frMseq rq.bs ≠ (x.mseqIn + 1) % 2 ^ 32 then .refuse 0x0A
      else .pass

/-- Whether the state of the boot lets a request through (R343, R371). -/
def State.bootPass (s : State) (rq : UmReq) : Bool :=
  let op := frOp rq.bs
  if s.inBoot || s.sys.strapTest then
    (sessionOp op && rq.path == .t1s)
      || (decide (1 ≤ op) && decide (op ≤ 5) && s.bootAllows rq.path (frIndex rq.bs) (op != 1))
  else true

/-- Whether a path serves an operation (R333, R338, R345, R346). -/
def pathRefusal (p : UmPath) (b : List Byte) : Option Nat :=
  let op := frOp b
  if frBulk b && p != .mbox then some 0x11
  else match p with
    | .svc _ => if op < 0x30 ∨ 0x33 < op ∨ frFwd b then some 0x11 else if frSession b != 0 then some 0x11 else none
    | .fabric _ => if frFwd b then some 0x11 else if 0x30 ≤ op ∧ op ≤ 0x34 then some 0x11 else none
    | .t1s => if frFwd b then none else if 0x40 ≤ op ∧ op ≤ 0x5F then some 0x0E
        else if 0x30 ≤ op ∧ op ≤ 0x34 then some 0x11 else none
    | .mbox => if frFwd b then none else if 0x40 ≤ op ∧ op ≤ 0x5F then some 0x0E else none

/-- The checks in order. A forwarded request's session fields pass unchecked (R338). -/
def State.precheck (s : State) (rq : UmReq) : Pre :=
  let c : Pre := if frFwd rq.bs then .pass else match rq.path with
    | .svc _ => .pass
    | _ => s.sessionCheck rq
  match c with
  | .discard => .discard
  | .refuse d => .refuse d
  | .pass =>
    if !s.bootPass rq then .refuse 0x0B
    else if frMalformed rq.bs then .refuse 0x12
    else match pathRefusal rq.path rq.bs with
      | some d => .refuse d
      | none => .pass

/-- A session's frame is counted once its tag and number are right (R332). -/
def State.countFrame (s : State) (rq : UmReq) : State :=
  if s.sessionCheck rq != .pass then s
  else match s.carrier rq with
    | some x => { s with um.sessions := Tab.put s.um.sessions (frSession rq.bs) { x with mseqIn := (x.mseqIn + 1) % 2 ^ 32 } }
    | none => s

/-- The management controller takes the request at the head of a path's queue, if it is one of the operation's; what the
operation answers goes back, none when it answers later or not at all (R336). -/
def State.serve (s : State) (p : UmPath) (mine : List Byte → Bool) (go : UmReq → State → Option Rsp × State) : State :=
  if !s.mcOn then s
  else match s.umQueue p with
    | [] => s
    | rq :: rest =>
      if !(rq.path == p) || !mine rq.bs then s
      else
        let s := { s with um.queues := Tab.put s.um.queues (pathNo p) rest }.settleDrains
        match s.precheck rq with
        | .discard => s.dropped p
        | .refuse d => (s.countFrame rq).reply rq (refuse d)
        | .pass =>
          let r := go rq (s.countFrame rq)
          match r.1 with
          | some x => r.2.reply rq x
          | none => r.2

/-- A request of an operation that is not forwarded. -/
def isOp (op : Nat) (b : List Byte) : Bool := frOp b == op && !frFwd b

/-! ## Arrival of requests -/

/-- A request joins its path's queue of 32, or is dropped with a count (R336). -/
def State.request (s : State) (p : UmPath) (bs : List Byte) : State :=
  if 32 ≤ (s.umQueue p).length then { s with um.drops := s.um.drops + 1 }
  else { s with um.queues := Tab.put s.um.queues (pathNo p) (s.umQueue p ++ [⟨p, bs⟩]) }

/-- A write of a mailbox's control register: IRQ and VECTOR are stored, GO queues the request (R337). -/
def Mbox.control (m : Mbox) (v : BitVec 32) : Mbox :=
  { m with
    go := v.getLsbD 0
    busy := v.getLsbD 0
    irq := v.getLsbD 1
    vector := v.extractLsb' 16 11 }

/-- The effect of MGMT_MBOX_GO: a write while GO = 1 is discarded and counted (R337). -/
def fxMgmtMboxGo (v : BitVec 32) (s : State) : State :=
  if !s.mcOn || !s.sys.linkUp then s
  else if s.um.mbox.go then { s with um.mboxDiscards := s.um.mboxDiscards + 1 }
  else
    let s := { s with um.mbox := s.um.mbox.control v }
    if v.getLsbD 0 then s.request .mbox (sliceAt s.um.mbox.req 0 256) else s

/-- MGMT_MBOX_GO (R337). -/
def execMgmtMboxGo (v : BitVec 32) (s : State) : Host.Outcome State Fault Refusal := .next (fxMgmtMboxGo v s)

/-- A write of the control register of the service mailbox of context c, from the context's function or the PF (R346, Table 1.6). -/
def State.svcControl (s : State) (c : Nat) (v : BitVec 32) : State :=
  if !s.mcOn || !s.sys.linkUp then s
  else
    let s := s.wakeBy 2
    if (s.ctx c).svc.go then { s with um.mboxDiscards := s.um.mboxDiscards + 1 }
    else
      let s := s.modCtx c (fun x => { x with svc := x.svc.control v })
      if v.getLsbD 0 then s.request (.svc c) (sliceAt (s.ctx c).svc.req 0 256) else s

/-- The effect of MGMT_SVC_GO (R346): by the driver of context c, whose function is enabled. -/
def fxMgmtSvcGo (c : Nat) (v : BitVec 32) (s : State) : State := if s.vfOn c then s.svcControl c v else s

/-- MGMT_SVC_GO (R346). -/
def execMgmtSvcGo (c : Nat) (v : BitVec 32) (s : State) : Host.Outcome State Fault Refusal := onCtx c s (fxMgmtSvcGo c v)

/-- The effect of T1S_FRAME: a short frame is discarded and counted; a broadcast is answered only to READ, NEXT and DESCRIBE of
the 0x1000 range (R333). -/
def fxT1sFrame (bs : List Byte) (bcast : Bool) (s : State) : State :=
  if !s.mcOn then s
  else if frShort bs then { s with um.drops := s.um.drops + 1 }
  else
    let op := frOp bs
    let open1 := (op == 1 || op == 5 || op == 6) && decide (0x1000 ≤ frIndex bs) && decide (frIndex bs ≤ 0x1FFF)
    if bcast && !open1 then s else s.request .t1s bs

/-- T1S_FRAME (R330). -/
def execT1sFrame (bs : List Byte) (bcast : Bool) (s : State) : Host.Outcome State Fault Refusal := .next (fxT1sFrame bs bcast s)

/-! ## Forwarding (R338) -/

/-- The refusal of a request that cannot be forwarded: PEER_LOST for an identifier marked lost, else ROUTE_UNAVAILABLE. -/
def State.noForward (s : State) (did : Nat) : Rsp :=
  { status := if s.didLost did then St.peerLost else St.noRoute, detail := 0x0C }

/-- A request that cannot be forwarded is answered without a session's number or tag, whatever session it names (R338). -/
def State.refuseForward (s : State) (rq : UmReq) : State :=
  s.sendBack rq.path (rspHead rq.bs (s.noForward (frDid rq.bs)) 0 0 ++ List.replicate 16 0)

/-- A forwarded frame leaves as the data of a management packet whose tag names it, so that an answer from the way finds it (R215, R338). -/
def State.sendForward (s : State) (d : Nat) (bs : List Byte) : State :=
  let tag := s.freeTag
  let pk := s.mgmtPacket d bs
  let s := ({ s with um.fwdTags := s.um.fwdTags ++ [tag], fab.nextTag := tag + 1 } : State).emit (.mgmt d Mg.umasel bs)
  (s.send (withHdr { hdrOf pk with tag := tag.toNat } pk)).getD s

/-- The service of a request with FWD = 1: sent unchanged, or refused at once. -/
def doForward (rq : UmReq) (s : State) : Option Rsp × State :=
  let d := frDid rq.bs
  if !s.inShape d || s.didLost d || !s.reaches d then (none, s.refuseForward rq)
  else (none, ({ s with um.fwd := s.um.fwd ++ [(rq.path, rq.bs)] } : State).sendForward d rq.bs)

/-- FORWARD (R338); on the fabric and on a service mailbox such a request is refused. -/
def execForward (path : UmPath) (s : State) : Host.Outcome State Fault Refusal :=
  onPath path s (fun s => s.serve path frFwd doForward)

/-- The forwarded request i is answered or given up. -/
def State.endForward (s : State) (i : Nat) (go : UmReq → State → State) : State :=
  if !s.mcOn then s
  else match s.um.fwd[i]? with
    | none => s
    | some e => go ⟨e.1, e.2⟩ { s with um.fwd := s.um.fwd.eraseIdx i, um.fwdTags := s.um.fwdTags.eraseIdx i }

/-- FORWARD_TIMEOUT (R338). -/
def execForwardTimeout (i : Nat) (s : State) : Host.Outcome State Fault Refusal :=
  .next (s.endForward i (fun rq s => s.refuseForward rq))

/-- FORWARD_RESPONSE (R338): the response goes back as it came; one too short for its header is discarded and counted. -/
def execForwardResponse (i : Nat) (bs : List Byte) (s : State) : Host.Outcome State Fault Refusal :=
  .next (if frShort bs then { s with um.drops := s.um.drops + bit s.mcOn } else s.endForward i (fun rq s => s.sendBack rq.path bs))

/-! ## Acknowledgements of a rank map (R29) -/

/-- A load of the rank map ends with a DETAIL: its frame is answered, or the operand of a command. -/
def State.finishLoad (s : State) (d : Nat) : State :=
  match s.endLoad.1 with
  | none => s.endLoad.2
  | some rq => if rq.bs.isEmpty then s.endLoad.2.answerTo rq.path d else s.endLoad.2.reply rq (refuse d)

/-- A load that every module has acknowledged is answered. -/
def State.loadSettled (s : State) : State := if s.loadDone then s.finishLoad 0 else s

/-- The effect of RANK_MAP_ACK. -/
def fxRankMapAck (did : Nat) (s : State) : State :=
  if !s.mcOn then s
  else match s.xl.rankLoad with
    | none => s
    | some (m, acked) => { s with xl.rankLoad := some (m, NSet.insert acked did) }.loadSettled

/-- RANK_MAP_ACK (R29). -/
def execRankMapAck (did : Nat) (s : State) : Host.Outcome State Fault Refusal := .next (fxRankMapAck did s)

/-- RANK_MAP_ACK_TIMEOUT (R29). -/
def execRankMapAckTimeout (s : State) : Host.Outcome State Fault Refusal :=
  .next (if s.mcOn && s.xl.rankLoad.isSome then s.finishLoad 0x0C else s)

/-! ## Sessions (R331, R332) -/

/-- The key of a level. -/
def State.keyOf (s : State) (level : Nat) : List Byte := (Tab.find s.um.keys level).getD (Config.partKey level)

/-- A session number that is free: one that the module picks. -/
def State.newSession (s : State) : Nat × State :=
  let f := s.free
  let n := f.1 % 65535 + 1
  if !Tab.has s.um.sessions n then (n, f.2)
  else (((List.range 9).find? (fun i => !Tab.has s.um.sessions (i + 1))).getD 0 + 1, f.2)

/-- The service of SESSION_OPEN. -/
def doSessionOpen (rq : UmReq) (s : State) : Option Rsp × State :=
  let pl := s.frPayload rq.bs
  let lv := fieldAt pl 0 1
  if pl.length ≠ 33 then (some (refuse 0x05), s)
  else if lv ≠ 2 ∧ lv ≠ 3 then (some (refuse 0x06), s)
  else if NSet.mem s.um.authBlock (pathNo rq.path) then (some (refuse 0x08), s)
  else if 8 ≤ s.um.sessions.length then (some (refuse 0x09), s)
  else
    let n := s.newSession
    let r := n.2.freeBytes 32
    let x : Session := ⟨lv, rq.path, false, pl.drop 1, r.1, [], 0, 0⟩
    (some { payload := r.1, sess := n.1 }, { r.2 with um.sessions := Tab.put r.2.um.sessions n.1 x })

/-- SESSION_OPEN (R331). -/
def execSessionOpen (path : UmPath) (s : State) : Host.Outcome State Fault Refusal :=
  onPath path s (fun s => s.serve path (isOp 0x10) doSessionOpen)

/-- What A of SESSION_AUTH must be. -/
def State.authValue (s : State) (n : Nat) (x : Session) : List Byte :=
  hmac (s.keyOf x.level) ([0x55, 0x4D, 0x53, 0x31] ++ (s.objBytes 0x1001 0 0 12).1 ++ natLe 1 x.level ++ natLe 2 n
    ++ x.cnonce ++ x.mnonce)

/-- The number of a path in Table 15.6, as R358 numbers the paths of destinations (DEDUCED, log 17). -/
def pathCode : UmPath → Nat
  | .t1s => 1
  | .mbox => 2
  | .svc _ => 2
  | .fabric _ => 3

/-- A failed authentication: counted, reported; the third within 60 s blocks the path (R332). -/
def State.authFail (s : State) (p : UmPath) : State :=
  let k := pathNo p
  let now := s.sys.ts.toNat
  let fs := s.um.authFails.filter (fun (e : Nat × Nat) => decide (now < e.2 + minuteCounts)) ++ [(k, now)]
  let s := { s with
    um.authFails := fs
    um.authFailures := s.um.authFailures + 1
    um.authBlock := if 3 ≤ (fs.filter (fun (e : Nat × Nat) => e.1 == k)).length then NSet.insert s.um.authBlock k else s.um.authBlock }
  s.event 0x0301 (pathCode p)

/-- The service of SESSION_AUTH: the session opens under its key, or is gone. -/
def doSessionAuth (rq : UmReq) (s : State) : Option Rsp × State :=
  let pl := s.frPayload rq.bs
  let n := frSession rq.bs
  if pl.length ≠ 48 then (some (refuse 0x05), s)
  else match Tab.find s.um.sessions n with
    | none => (some (refuse 0x08), s.authFail rq.path)
    | some x =>
      if x.opened || !(x.path == rq.path) then (some (refuse 0x08), s.authFail rq.path)
      else if pl != s.authValue n x then
        (some (refuse 0x08), { s with um.sessions := Tab.del s.um.sessions n }.authFail rq.path)
      else
        let key := hmac (s.keyOf x.level) ([0x53, 0x4B, 0x45, 0x59] ++ x.mnonce ++ x.cnonce)
        let bs := rspHead rq.bs {} n 0 ++ List.replicate 16 0
        let s := { s with um.sessions := Tab.put s.um.sessions n { x with opened := true, key := key } }
        (none, s.sendBack rq.path bs)

/-- SESSION_AUTH (R331). -/
def execSessionAuth (path : UmPath) (s : State) : Host.Outcome State Fault Refusal :=
  onPath path s (fun s => s.serve path (isOp 0x11) doSessionAuth)

/-- A session closes; its partial writes are discarded (R332, R334). -/
def State.closeSession (s : State) (n : Nat) : State :=
  match Tab.find s.um.sessions n with
  | none => s
  | some x => { s with
    um.sessions := Tab.del s.um.sessions n
    um.locks := s.um.locks.filter (fun e => !(e.2.session == n && e.2.path == x.path)) }

/-- The service of SESSION_CLOSE: answered under the session that closes. -/
def doSessionClose (rq : UmReq) (s : State) : Option Rsp × State :=
  if frSession rq.bs = 0 then (some (refuse 0x08), s)
  else (none, (s.reply rq {}).closeSession (frSession rq.bs))

/-- SESSION_CLOSE (R332). -/
def execSessionClose (path : UmPath) (s : State) : Host.Outcome State Fault Refusal :=
  onPath path s (fun s => s.serve path (isOp 0x12) doSessionClose)

/-- SESSION_IDLE_TIMEOUT (R332). -/
def execSessionIdleTimeout (n : Nat) (s : State) : Host.Outcome State Fault Refusal := .next (s.closeSession n)

/-- AUTH_BLOCK_EXPIRY (R332). -/
def execAuthBlockExpiry (path : UmPath) (s : State) : Host.Outcome State Fault Refusal :=
  onPath path s (fun s => { s with um.authBlock := NSet.remove s.um.authBlock (pathNo path) })

/-! ## Events (R358) -/

/-- The frame of an event: it carries code, timestamp, rank and detail. -/
def State.eventFrame (s : State) (e : UmEvent) : List Byte :=
  [1, 0x20] ++ List.replicate 14 0 ++ natLe 4 24 ++ List.replicate 28 0 ++ natLe 2 e.code ++ [0, 0] ++ natLe 8 e.time.toNat
    ++ natLe 4 s.rbd.rank.toNat ++ natLe 8 e.detail.toNat

/-- The effect of EVENT: the oldest event of a destination leaves by its path; one for the mailbox waits while a request is in
flight there (log 17). -/
def fxEvent (d : Nat) (s : State) : State :=
  let q := Tab.get [] s.um.events d
  let dest := s.obj 0x1012 d
  match q with
  | [] => s
  | e :: rest =>
    let t := { s with um.events := Tab.put s.um.events d rest }
    if !s.mcOn || d < 1 || 4 < d then s
    else if dest % 4 = 0 then t
    else if dest % 4 = 1 then t.emit (.t1s (s.eventFrame e))
    else if dest % 4 = 2 then
      if s.um.mbox.go then s
      else
        let t := { t with um.mbox := { t.um.mbox with rsp := sliceAt (s.eventFrame e) 0 256 } }
        if s.rbd.safeHold then t else t.emit (.msix 0 (dest / 4 % 2048))
    else t.mgmt (dest / 4 % 2 ^ 17) Mg.umasel (s.eventFrame e)

/-- EVENT (R358). -/
def execEvent (dest : Nat) (s : State) : Host.Outcome State Fault Refusal := .next (fxEvent dest s)

end Sys2Proof.Machine
end

