-- ==== Sys2Proof/Machine/Arrive.lean ====
section
/-! DEFINITION. Packets that arrive for this module or another (R204, R211, R215): management messages and what they do (R29, R287, R291, R294,
R300, R333, R338, R357), and acknowledgements. -/

namespace Sys2Proof.Machine
open Sys2Proof

/-! ## Messages between modules (R333) -/

/-- The kinds of message that no command of their own brings (log 20). -/
def mgHere : List Nat := [Mg.probe, Mg.probeAck, Mg.rankMapAsk, Mg.cutSealed, Mg.slotLost, Mg.epochStop, Mg.tsMeasure]

/-- What a message of a kind from a module does: a probe is answered (R294), and its answer ends it; a module without a rank map is sent this one's
(R29); a local seal is noted (R291); a module whose slot cannot be read is lost (R300); an epoch stop (R287) and a measurement of timestamps
(R357) take hold here too. -/
def State.mgAct (s : State) (did kind : Nat) (pl : List Byte) : State :=
  if kind = Mg.probe then s.mgmt did Mg.probeAck (natLe 4 s.myDid)
  else if kind = Mg.probeAck then s.probeAnswered did
  else if kind = Mg.rankMapAsk then (if s.xl.rankMap.isEmpty then s else s.mgmt did Mg.rankMap s.rankMapBytes)
  else if kind = Mg.cutSealed then
    match s.rankOfDid did with
    | some r => s.noteSeal ⟨fieldAt pl 0 1, fieldAt pl 1 4, r, fieldAt pl 5 2⟩
    | none => s
  else if kind = Mg.slotLost then (if s.isCoordBut did && s.rbd.recState != 0 then s.declareLost did else s)
  else if kind = Mg.epochStop then s.epochStop (leNat pl)
  else if kind = Mg.tsMeasure then (if s.obj 0x5100 1 = 0 then s else s.startMeasure)
  else s

/-- A message whose operation the spec does not number (log 20). -/
def State.mgHear (s : State) (did op : Nat) (pl : List Byte) : State :=
  match mgHere.find? (fun k => 0x40 + (Config.mgOp k).toNat == op) with
  | some k => s.mgAct did k pl
  | none => s

/-- A Umasel request that arrives for this module as the data of a MGMT packet joins the fabric path's queue; a full queue
drops it, with a count (R336, R338). A frame too short for its header or its LEN is discarded and counted (R333). Responses
are commands of their own; a module-to-module message acts where no command of its own brings it. -/
def State.mgmtIn (s : State) (did : Nat) (bs : List Byte) : State :=
  let op := fieldAt bs 1 1
  let q := Tab.get [] s.um.queues 3
  if bs.length < 48 || (fieldAt bs 0x10 4 / 2 ^ 20 % 2 == 0 && decide (bs.length < 48 + fieldAt bs 0x10 4 % 2 ^ 20)) then
    { s with um.drops := s.um.drops + 1 }
  else if decide (0x40 ≤ op) && decide (op < 0x60) then s.mgHear did op ((bs.drop 48).take (fieldAt bs 0x10 4 % 2 ^ 20))
  else if 128 ≤ op || !s.inShape did then s
  else if 32 ≤ q.length then { s with um.drops := s.um.drops + 1 }
  else { s with um.queues := Tab.put s.um.queues 3 (q ++ [⟨.fabric did, bs⟩]) }

/-! ## PACKET_FORWARD and ACK -/

/-- The effect of PACKET_FORWARD. A packet of the MGMT type for this module carries a Umasel frame, one of an undefined type is
discarded (R204), and its other packets are commands of their own, which return their units (R206); a malformed collective packet, whose own
command has no header bits, is discarded here (R204; log 20). A packet that cannot go on is answered (R215). -/
def fxPacketForward (p : Nat) (pk : List Byte) (s : State) : State :=
  let h := hdrOf pk
  if !s.alive then s
  else if h.dst == s.myDid then
    (if h.ty = 5 then
      (if isDelta pk || s.didLost h.src || pkOk pk then s else (s.passOn p pk).discard p)
     else if ownCommand h.ty then s
     else if s.didLost h.src then s.passOn p pk
     else if pkOk pk then (s.passOn p pk).mgmtIn h.src (pk.drop 32)
     else (s.passOn p pk).discard p)
  else if s.didLost h.src then s.passOn p pk
  else if !pkOk pk then
    (if isRequest h.ty then ((s.passOn p pk).discard p).respond pk St.invalid none else (s.passOn p pk).discard p)
  else
    let vc := s.arrivalVc p pk
    match (s.occupy p vc pk).routeOn ((s.neighbourOf p).map (·.1)) (some (p, vc)) pk with
    | some t => t
    | none => (s.passOn p pk).noWay p pk

/-- PACKET_FORWARD (R211, R215). -/
def execPacketForward (port : Nat) (pk : List Byte) (s : State) : Host.Outcome State Fault Refusal :=
  onPortIn port s (fxPacketForward port pk)

/-- The forwarded request that an ACK is about. -/
def State.forwardOf (s : State) (pk : List Byte) : Option Nat :=
  s.um.fwdTags.findIdx? (fun t => t.toNat == (hdrOf pk).tag)

/-- The effect of ACK: a transaction ends; a forwarded request that a module on its way could not pass on is refused (R219, R274, R338). -/
def fxAck (port : Nat) (pk : List Byte) (s : State) : State :=
  s.ingress port 8 pk (fun s =>
    match s.transOf pk with
    | none => match s.forwardOf pk with
      | some i => if pkStatus pk = St.ok then s else s.endForward i (fun rq s => s.refuseForward rq)
      | none => s
    | some t =>
      let st := pkStatus pk
      let s := if st = St.poison then s.poisonGet t else s
      (s.noteTrans t st).endAny t st (some (pkEcho pk)))

/-- ACK (R219). -/
def execAck (port : Nat) (pk : List Byte) (s : State) : Host.Outcome State Fault Refusal := onPortIn port s (fxAck port pk)

end Sys2Proof.Machine
end

