-- ==== Sys2Proof/Machine/Complete.lean ====
section
/-! DEFINITION. Completion of an issued tile instruction (R35, R36, R62). -/

namespace Sys2Proof.Machine
open Sys2Proof

/-- A pass that completes makes the spill of its partition that is due (R69). -/
def CoreState.completes (cs : CoreState) (i : InFlight) : CoreState :=
  match i.part with
  | some p => if cs.opOf i == (1, 0x02) then cs.spillIfDue p else cs
  | none => cs

/-- The effect of UNIT_INSTRUCTION_COMPLETE: an instruction that no older one of its unit must precede, if it does not wait, leaves its
queue and releases what it held; a pass makes the spill that is due first; a task that has ended may then report (R36, R54, R62, R69). -/
def fxUnitInstructionComplete (L seq : Nat) (s : State) : State :=
  let cs := s.core L
  match cs.inflight.find? (fun i => i.seq == seq) with
  | none => s
  | some i =>
    if !s.alive || i.waiting || !cs.oldest i then s
    else
      (s.setCore L ((cs.completes i).retire seq)).settle L

/-- UNIT_INSTRUCTION_COMPLETE (R36). -/
def execUnitInstructionComplete (core seq : Nat) (s : State) : Host.Outcome State Fault Refusal :=
  onCore core s (fxUnitInstructionComplete core seq)

end Sys2Proof.Machine
end

