-- ==== Sys2Proof/Machine/Umasel.lean ====
section
/-! DEFINITION. The operations of Umasel on objects (R326 to R335, R382): READ, WRITE, segments, DESCRIBE and NEXT. -/

namespace Sys2Proof.Machine
open Sys2Proof

/-! ## Reading -/

/-- Why a request may not read an object. -/
def State.readRefusal (s : State) (rq : UmReq) (domain : Bool) : Option Nat :=
  match objAt (frIndex rq.bs) (frSub rq.bs) with
  | none => some 0x01
  | some r =>
    if (r.ty == .domain) != domain then some 0x01
    else match r.rd with
      | none => some 0x02
      | some l => if s.level (reqOf rq) false < l then some 0x04 else none

/-- The type code of the object that a request names. -/
def tcodeOf (b : List Byte) : Nat :=
  match objAt (frIndex b) (frSub b) with
  | some r => r.ty.code
  | none => 0

/-- The service of READ; an operation that no row serves is refused here (Table 14.5). -/
def doRead (rq : UmReq) (s : State) : Option Rsp × State :=
  if frOp rq.bs ≠ 1 then (some (refuse 0x01), s)
  else match s.readRefusal rq false with
    | some d => (some (refuse d), s)
    | none =>
      match objAt (frIndex rq.bs) (frSub rq.bs) with
      | none => (some (refuse 0x01), s)
      | some r => (some { tcode := r.ty.code, payload := s.objFrame r (frIndex rq.bs) (frSub rq.bs) }, s)

/-- The operations that have a row of their own. -/
def rowOps : List Nat := [2, 3, 4, 5, 6, 0x10, 0x11, 0x12, 0x30, 0x31, 0x32, 0x33, 0x34]

/-- READ (R336). -/
def execRead (path : UmPath) (s : State) : Host.Outcome State Fault Refusal :=
  onPath path s (fun s => s.serve path (fun b => !frFwd b && !rowOps.contains (frOp b)) doRead)

/-- The service of READ_SEG: a segment of at most the length asked for, LAST at the end of the object (R334). -/
def doReadSeg (rq : UmReq) (s : State) : Option Rsp × State :=
  match s.readRefusal rq true with
  | some d => (some (refuse d), s)
  | none =>
    let n := Nat.min (fieldAt (rq.bs.drop 48) 0 4) (if frBulk rq.bs then 524288 else 208)
    let x := s.objBytes (frIndex rq.bs) (frSub rq.bs) (frOffset rq.bs) n
    (some { tcode := 8, payload := x.1, bulk := frBulk rq.bs, last := decide (x.2 ≤ frOffset rq.bs + x.1.length) }, s)

/-- READ_SEG (R334). -/
def execReadSeg (path : UmPath) (s : State) : Host.Outcome State Fault Refusal :=
  onPath path s (fun s => s.serve path (isOp 3) doReadSeg)

/-! ## Writing -/

/-- Writes that clear flags by ones, or store a flag (Tables 6.11, 9.9, 13.8). THERMTRIP of Table 13.8 is typed RWS and described as cleared
only by cold reset: a write leaves it (DESIGN CHOICE, log 23). -/
def actFlags (idx sub v : Nat) : Act := fun s =>
  if idx = 0x3000 then (0, { s with pwr.limitHit := s.pwr.limitHit && !v.testBit 25 })
  else if idx = 0x6003 then (0, s.modPort (sub - 1) (fun x => { x with
    crcErr := x.crcErr && !v.testBit 25
    laneFail := x.laneFail && !v.testBit 26
    linkDown := x.linkDown && !v.testBit 27 }))
  else (0, s.modStk (sub - 1) (fun x => { x with
    odCorr := x.odCorr && !v.testBit 16
    odUncorr := x.odUncorr && !v.testBit 17
    trainFail := v.testBit 18 }))

/-- A write of FAB_RETRAIN_PORT: in host-assisted mode the port may retrain (Table 14.9). -/
def actRetrainPort (v : Nat) : Act := fun s =>
  if s.obj 0x6030 2 = 2 then (0, { s with fab.retrainReq := NSet.insert s.fab.retrainReq v }) else (0x0D, s)

/-- A write of CFE_GATE_REQUEST: in host-assisted mode idle front ends gate (Table 14.9). -/
def actGate : Act := fun s => if s.obj 0x2100 2 = 2 then (0, s.gateRequest) else (0x0D, s)

/-- A write of OBS_TS_REF: the offset is composed from the new reference (R356). -/
def actTsRef (v : Nat) : Act := fun s => (0, (s.setObj 0x5100 4 v).composeTs)

/-- What an accepted write of value v does, but for writes that reset or restart (R339, Tables 6.12 to 15.10). -/
def objAct (idx sub v : Nat) : Act :=
  match fnAll.find? (fun f => fnIdx f == idx && sub == 1) with
  | some f => doAct (fun s => if v = 0 then s.fnDisable f else s.fnEnable f)
  | none =>
    if 0x5010 ≤ idx ∧ idx ≤ 0x501B then
      doAct (fun s => { s with obs.dieSel := Tab.put s.obs.dieSel ((idx - 0x5010) * 16 + (sub - 1)) (BitVec.ofNat 8 v) })
    else match idx, sub with
      | 0x1020, 1 => doAct State.storeConfig
      | 0x1020, 2 => doAct State.clearConfig
      | 0x1030, 4 => doAct State.commit
      | 0x2100, 3 => actGate
      | 0x3000, _ => actFlags idx sub v
      | 0x3106, 3 => actStandby
      | 0x3106, 4 => doAct (fun s => s.wakeBy 6)
      | 0x4002, _ => actRole v
      | 0x4003, 6 => actConfirm
      | 0x4010, 1 => doAct (fun s => s.halt v)
      | 0x4010, 2 => actEpochStop v
      | 0x4010, 3 => doAct (fun s => s.resume v)
      | 0x4020, 3 => doAct (fun s => s.enterSafeHold 7 0xFF)
      | 0x5100, 4 => actTsRef v
      | 0x5100, 7 => actTsMeasure
      | 0x5E00, 2 => doAct (fun s => s.dump 5)
      | 0x5E00, 4 => actDumpRelease
      | 0x6003, _ => actFlags idx sub v
      | 0x6030, 3 => actRetrainPort v
      | 0x7001, _ => actFlags idx sub v
      | 0x7010, 6 => actRestripe
      | _, _ => doAct (fun s => s.setObj idx sub v)

/-- Whether the last readings of every die lie below 100 °C and those of every stack below 95 °C (R322). -/
def State.coolNow (s : State) : Bool :=
  s.pwr.dieTemp.all (fun e => !f32le (.fin false 100 0) (f32 e.2.toNat))
    && s.mem.stack.all (fun e => match e.2.temp with
      | some t => !f32le (.fin false 95 0) (f32 t.toNat)
      | none => true)

/-- Writes that reset the module or restart its management controller: when they are accepted, whether they are answered before
they act, and what they do (R336); the reset of contexts closes the session that carries its request (R332). A cold reset by request finds the module as hot as its last readings (log 22). -/
def resetAct (idx sub v : Nat) : Option ((State → Bool) × Bool × (State → State)) :=
  match idx, sub with
  | 0x1030, 2 => some (State.activatable, false, State.activate)
  | 0x4020, 2 => some (State.holdLeavable, true, State.warmReset)
  | 0x4021, 1 => some (State.warmable, true, State.warmReset)
  | 0x4021, 2 => some (fun _ => true, true, fun s => s.coldReset s.coolNow)
  | 0x4021, 3 => some (fun _ => true, true, fun s => s.resetCtxs v)
  | _, _ => none

/-- The service of WRITE: type, level, lock, length and range are checked in that order (R327, R335). -/
def doWrite (rq : UmReq) (s : State) : Option Rsp × State :=
  let idx := frIndex rq.bs
  let sub := frSub rq.bs
  let pl := s.frPayload rq.bs
  let ok : Rsp := { tcode := tcodeOf rq.bs }
  match objAt idx sub with
  | none => (some (refuse 0x01), s)
  | some r =>
    if r.ty = .domain then (some (refuse 0x01), s)
    else match s.writeRefusal (reqOf rq) idx sub with
      | some d => (some (refuse d), s)
      | none =>
        if pl.length ≠ r.ty.len then (some (refuse 0x05), s)
        else
          let v := leNat pl
          if !inRange r idx sub v then (some (refuse 0x06), s)
          else match resetAct idx sub v with
            | some a =>
              if !a.1 s then (some (refuse 0x0D), s)
              else (none, a.2.2 (if a.2.1 then s.reply rq ok else s))
            | none =>
              let x := objAct idx sub v s
              if x.1 = 0 then (some ok, x.2) else (some (refuse x.1), s)

/-- WRITE (R336). -/
def execWrite (path : UmPath) (s : State) : Host.Outcome State Fault Refusal :=
  onPath path s (fun s => s.serve path (isOp 2) doWrite)

/-! ## Segmented writes (R334) -/

/-- The longest value of a DOMAIN object. -/
def domainMax (idx : Nat) : Nat :=
  if idx = 0x1030 then 31 * 2 ^ 20 else if idx = 0x4006 then 524288 else if idx = 0x8010 then 48 else 2 ^ 26

/-- What the whole value of a DOMAIN object does; none: the answer comes later (R29). -/
def domainCommit (rq : UmReq) (idx sub : Nat) (bs : List Byte) (s : State) : Option Rsp × State :=
  let ok : Rsp := { tcode := 8 }
  if idx = 0x1030 then (some ok, { s with sys.slotImage := Tab.put s.sys.slotImage (1 - s.sys.activeSlot) bs })
  else if idx = 0x8010 then
    if bs.length ≠ 48 then (some (refuse 0x05), s) else (some ok, { s with um.keys := Tab.put s.um.keys (sub + 1) bs })
  else if idx = 0x4006 then
    let m := (List.range (bs.length / 4)).map (fun i => BitVec.ofNat 32 (fieldAt bs (4 * i) 4))
    let d := s.mapRefusal m
    if d ≠ 0 then (some (refuse d), s) else (none, (s.loadMap rq m).loadSettled)
  else
    let s := { s with um.doms := Tab.put s.um.doms (idx * 256 + sub) bs }
    let s : State := if idx == 0x5100 && s.obj 0x5100 2 == 2 then { s with obs.tsOffset := BitVec.ofNat 64 (fieldAt bs 0 8) }
      else s
    (some ok, s)

/-- A segment is taken: the object's bytes grow, and LAST ends the transfer. The first segment of an image erases the inactive
slot (R344). -/
def takeSegment (rq : UmReq) (idx sub : Nat) (sofar : List Byte) (s : State) : Option Rsp × State :=
  let key := idx * 256 + sub
  let pl := s.frPayload rq.bs
  let bs := sofar ++ pl
  let off := { s with um.locks := Tab.del s.um.locks key }
  if frOffset rq.bs ≠ sofar.length ∨ domainMax idx < bs.length then (some (refuse 0x06), off)
  else
    let erase := fun (s : State) =>
      if idx = 0x1030 ∧ sofar.isEmpty then { s with sys.slotImage := Tab.del s.sys.slotImage (1 - s.sys.activeSlot) } else s
    if frLast rq.bs then domainCommit rq idx sub bs (erase off)
    else (some { tcode := 8 },
      erase { s with um.locks := Tab.put s.um.locks key ⟨rq.path, frSession rq.bs, bs⟩ })

/-- The service of WRITE_SEG. A key is written once (Table 14.8). -/
def doWriteSeg (rq : UmReq) (s : State) : Option Rsp × State :=
  let idx := frIndex rq.bs
  let sub := frSub rq.bs
  match objAt idx sub with
  | none => (some (refuse 0x01), s)
  | some r =>
    if r.ty ≠ .domain then (some (refuse 0x01), s)
    else match s.writeRefusal (reqOf rq) idx sub with
      | some d => (some (refuse d), s)
      | none =>
        if idx = 0x8010 ∧ Tab.has s.um.keys (sub + 1) then (some (refuse 0x03), s)
        else match Tab.find s.um.locks (idx * 256 + sub) with
          | some k => takeSegment rq idx sub k.bytes s
          | none => takeSegment rq idx sub [] s

/-- WRITE_SEG (R334). -/
def execWriteSeg (path : UmPath) (s : State) : Host.Outcome State Fault Refusal :=
  onPath path s (fun s => s.serve path (isOp 4) doWriteSeg)

/-- SEGMENT_TIMEOUT (R334): `obj` is index · 256 + subindex. -/
def execSegmentTimeout (obj : Nat) (s : State) : Host.Outcome State Fault Refusal :=
  .next { s with um.locks := Tab.del s.um.locks obj }

/-! ## Enumeration (R328, R382) -/

/-- The characters of a name. -/
def nameBytes (n : String) : List Byte := n.toList.map (fun c => BitVec.ofNat 8 c.toNat)

/-- The default that DESCRIBE gives: none for an object without one and for DOMAIN, the first 8 bytes for STR. -/
def describeDefault (r : ObjRow) (sub : Nat) : Nat :=
  if r.noDefault ∨ r.ty = .domain then 0 else (r.dflt[sub - r.sLo]?).getD (r.dflt.headD 0)

/-- The payload of DESCRIBE (Table 14.14). -/
def describeBytes (r : ObjRow) (sub : Nat) : List Byte :=
  natLe 1 r.ty.code ++ natLe 1 (r.rd.getD 0xFF) ++ natLe 1 (r.wr.getD 0xFF)
    ++ natLe 1 (bit r.expert + 2 * bit r.fixed + 4 * bit r.noDefault) ++ natLe 4 0 ++ natLe 8 (describeDefault r sub)
    ++ nameBytes r.name

/-- The service of DESCRIBE. -/
def doDescribe (rq : UmReq) (s : State) : Option Rsp × State :=
  match objAt (frIndex rq.bs) (frSub rq.bs) with
  | none => (some (refuse 0x01), s)
  | some r => (some { tcode := r.ty.code, payload := describeBytes r (frSub rq.bs) }, s)

/-- DESCRIBE (R382). -/
def execDescribe (path : UmPath) (s : State) : Host.Outcome State Fault Refusal :=
  onPath path s (fun s => s.serve path (isOp 5) doDescribe)

/-- The first objects after index and subindex that a row can name, expert ones with the flag: one of the same index, subindex 0
of a later index, and that index's first numbered subindex. -/
def nextIn (r : ObjRow) (idx sub : Nat) (expert : Bool) : List Nat :=
  let shown := expert || !r.expert
  let i := Nat.max r.lo (idx + 1)
  let zero := expert || (match objAt i 0 with
    | some z => !z.expert
    | none => false)
  (if decide (r.lo ≤ idx) && decide (idx ≤ r.hi) && shown && decide (sub + 1 ≤ r.sHi) then [idx * 256 + Nat.max r.sLo (sub + 1)]
    else [])
  ++ (if r.hi < i then [] else (if zero then [i * 256] else []) ++ (if shown then [i * 256 + r.sLo] else []))

/-- The next object of the enumeration (Table 14.5). -/
def nextObj (idx sub : Nat) (expert : Bool) : Option Nat := (objRows.flatMap (fun r => nextIn r idx sub expert)).min?

/-- The service of NEXT: index and subindex; 0xFFFF:FF at the end. -/
def doNext (rq : UmReq) (s : State) : Option Rsp × State :=
  let k := (nextObj (frIndex rq.bs) (frSub rq.bs) (frExpert rq.bs)).getD 0xFFFFFF
  (some { payload := natLe 2 (k / 256) ++ natLe 1 k }, s)

/-- NEXT (R328). -/
def execNext (path : UmPath) (s : State) : Host.Outcome State Fault Refusal :=
  onPath path s (fun s => s.serve path (isOp 6) doNext)

end Sys2Proof.Machine
end

