-- ==== Sys2Proof/Machine/Service.lean ====
section
/-! DEFINITION. The service operations (R345): page tables, pennants and core sets, as firmware changes them (log 13). -/

namespace Sys2Proof.Machine
open Sys2Proof

/-! ## What they share (Table 14.12) -/

/-- The payload size of an operation. -/
def svcLen (op : Nat) : Nat :=
  if op = 0x30 then 32 else if op = 0x31 then 24 else if op = 0x32 then 16 else if op = 0x33 then 12 else 48

/-- The checks before an operation: size, the common part, and the context of a service mailbox; else the operation on its context
and payload. -/
def svcGo (rq : UmReq) (s : State) (go : Nat → List Byte → State → Option Rsp × State) : Option Rsp × State :=
  let pl := s.frPayload rq.bs
  let c := fieldAt pl 0 1
  if frLen rq.bs ≠ svcLen (frOp rq.bs) then (some (refuse 0x05), s)
  else if 16 ≤ c ∨ fieldAt pl 1 7 ≠ 0 then (some (refuse 0x06), s)
  else if (match rq.path with
    | .svc d => d != c
    | _ => false) then (some (refuse 0x04), s)
  else go c pl s

/-! ## Page tables (R23) -/

/-- Address of the level-1 table that firmware gives a context without one, of the first level-2 table, and the end of the room
for them (log 13). -/
def ptBase (c : Nat) : Nat := c * 2 ^ 21
def pt2Base : Nat := 0x10000000
def pt2End : Nat := 0xFC000000

/-- Bytes of a page. -/
def pageSize (sz : Nat) : Nat := if sz = 1 then 2 ^ 30 else 2 ^ 21

/-- The key of a page in the record of mappings: its 2 MiB page number and its size. -/
def pageKey (va sz : Nat) : Nat := va / 2 ^ 21 * 2 + sz

/-- The extents of the mapped pages of a context, virtual and physical. -/
def CtxState.mapped (x : CtxState) : List (Nat × Nat × Nat) :=
  x.vaPages.map (fun e => (e.1 / 2 * 2 ^ 21, e.2 / 2 * 2 ^ 21, pageSize (e.1 % 2)))

/-- Whether two extents overlap. -/
def overlaps (a n b m : Nat) : Bool := decide (a < b + m) && decide (b < a + n)

/-- The physical extents in use by any context. -/
def State.usedPages (s : State) : List (Nat × Nat) := s.ctxs.flatMap (fun e => e.2.mapped.map (fun m => (m.2.1, m.2.2)))

/-- The lowest free page at or above p: `fuel` pages in use are passed at most. -/
def freePage (used : List (Nat × Nat)) (size stop : Nat) : Nat → Nat → Option Nat
  | 0, _ => none
  | fuel + 1, p =>
    if stop < p + size then none
    else match used.find? (fun u => overlaps p size u.1 u.2) with
      | none => some p
      | some u => freePage used size stop fuel ((u.1 + u.2 + size - 1) / size * size)

/-- The n lowest free pages at or above p. -/
def freePages (used : List (Nat × Nat)) (size stop : Nat) : Nat → Nat → Option (List Nat)
  | 0, _ => some []
  | n + 1, p =>
    match freePage used size stop (used.length + 1) p with
    | none => none
    | some a => (freePages used size stop n (a + size)).map (fun l => a :: l)

/-- Write one 8 B entry of a table in firmware-reserved memory; in a reserved range there is nothing to write (R22). -/
def State.putEntry8 (s : State) (pa v : Nat) : State := if s.stripedEnd < pa + 8 then s else (s.memWrite pa (natLe 8 v)).2

/-- Read one 8 B entry; an error in the table is of unknown extent (R275, R283), and in a reserved range there is no entry (R22). -/
def State.getEntry8 (s : State) (pa : Nat) : Nat × State :=
  if s.stripedEnd < pa + 8 then (0, s) else let r := s.tableRead pa 8; ((r.1.map leNat).getD 0, r.2)

/-- The root of a context's page table, enabled. -/
def State.withRoot (s : State) (c : Nat) : State :=
  if (Tab.get 0 s.xl.ptRoot c).getLsbD 0 then s
  else { s with xl.ptRoot := Tab.put s.xl.ptRoot c (BitVec.ofNat 64 (ptBase c + 1)) }

/-- Address of the level-1 entry of an address. -/
def State.pte1 (s : State) (c va : Nat) : Nat := bits (Tab.get 0 s.xl.ptRoot c) 47 21 * 2 ^ 21 + 8 * (va / 2 ^ 30)

/-- The level-2 table under a level-1 entry, a new one where there is none. -/
def State.level2 (s : State) (c va : Nat) : Nat × State :=
  let e := s.getEntry8 (s.pte1 c va)
  let s := e.2
  if e.1 % 4 = 1 then (e.1 / 4096 % 2 ^ 36 * 4096, s)
  else
    let t := pt2Base + 4096 * s.um.ptTables
    let s := { s with um.ptTables := s.um.ptTables + 1 }
    let s := (s.memWrite t (List.replicate 4096 0)).2
    (t, s.putEntry8 (s.pte1 c va) (t + 1))

/-- Map one page: the entry is a leaf with its permissions (Table 1.8), and the mapping is recorded. -/
def State.mapPage (s : State) (c sz perm va pa : Nat) (chosen : Bool) : State :=
  let e := pa + 4 * perm + 3
  let s := if sz = 1 then s.putEntry8 (s.pte1 c va) e
    else
      let t := s.level2 c va
      t.2.putEntry8 (t.1 + 8 * (va / 2 ^ 21 % 512)) e
  s.modCtx c (fun x => { x with vaPages := Tab.put x.vaPages (pageKey va sz) (pa / 2 ^ 21 * 2 + bit chosen) })

/-- Remove the entry of one page. -/
def State.unmapPage (s : State) (c sz va : Nat) : State :=
  let s := if sz = 1 then s.putEntry8 (s.pte1 c va) 0
    else
      let t := s.level2 c va
      t.2.putEntry8 (t.1 + 8 * (va / 2 ^ 21 % 512)) 0
  s.modCtx c (fun x => { x with vaPages := Tab.del x.vaPages (pageKey va sz) })

/-- Whether a held translation lies in a range of a context. -/
def TlbEntry.inRange (t : TlbEntry) (c va n : Nat) : Bool :=
  let size := if t.level = 1 then 2 ^ 30 else 2 ^ 21
  t.c == c && overlaps (t.page * size) size va n

/-- Whether a held translation is in the range that MEM_PT_INVAL names. -/
def Xl.named (x : Xl) (t : TlbEntry) : Bool :=
  if x.ptInvalAll then t.c == x.ptInvalCtx.toNat
  else t.inRange x.ptInvalCtx.toNat (x.ptInvalPage.toNat * 2 ^ 21) (x.ptInvalLen.toNat * 2 ^ 21)

/-- Firmware invalidates a range and waits for DONE (R25, R26); an invalidation that was under way is over before it. -/
def State.invalidate (s : State) (c va n : Nat) : State :=
  let pages := n / 2 ^ 21
  { s with
    xl.ptInvalCtx := BitVec.ofNat 4 c
    xl.ptInvalAll := decide (2 ^ 27 ≤ pages)
    xl.ptInvalPage := BitVec.ofNat 27 (va / 2 ^ 21)
    xl.ptInvalLen := if 2 ^ 27 ≤ pages then s.xl.ptInvalLen else BitVec.ofNat 27 pages
    xl.ptInvalDone := true
    xl.tlb := s.xl.tlb.filter (fun t => !t.inRange c va n && (s.xl.ptInvalDone || !s.xl.named t)) }

/-- Level-2 tables that a range of 2 MiB pages may need. -/
def tablesFor (va n sz : Nat) : Nat := if sz = 1 then 0 else (va + n - 1) / 2 ^ 30 - va / 2 ^ 30 + 1

/-- The end of the addresses that a new mapping may take: the range that R140 closes is left out. -/
def State.mapEnd (s : State) : Nat := if s.topClosed then 0x02A000000000 else s.stripedEnd

/-- MAP on a context (Table 14.12). -/
def svcMap (p : UmPath) (c : Nat) (pl : List Byte) (s : State) : Option Rsp × State :=
  let va := fieldAt pl 8 8
  let count := fieldAt pl 0x10 4
  let sz := fieldAt pl 0x14 1
  let perm := fieldAt pl 0x15 1
  let pa := fieldAt pl 0x18 8
  let size := pageSize sz
  let n := count * size
  if 2 ≤ sz ∨ 32 ≤ perm ∨ fieldAt pl 0x16 2 ≠ 0 then (some (refuse 0x06), s)
  else if count = 0 ∨ 1048576 < count ∨ va % size ≠ 0 ∨ 2 ^ 48 < va + n then (some (refuse 0x06), s)
  else if pa ≠ 0 ∧ (p ≠ .mbox ∨ pa % size ≠ 0 ∨ pa < 2 ^ 32 ∨ s.mapEnd < pa + n) then (some (refuse 0x06), s)
  else if (s.ctx c).mapped.any (fun m => overlaps va n m.1 m.2.2) then (some (refuse 0x10), s)
  else if pt2End < pt2Base + 4096 * (s.um.ptTables + tablesFor va n sz) then (some (refuse 0x0F), s)
  else
    let pages : Option (List Nat) := if pa = 0 then freePages s.usedPages size s.mapEnd count (2 ^ 32)
      else some ((List.range count).map (fun i => pa + i * size))
    match pages with
    | none => (some (refuse 0x0F), s)
    | some ps =>
      let s := ps.zipIdx.foldl (fun (s : State) e => s.mapPage c sz perm (va + e.2 * size) e.1 (pa == 0)) (s.withRoot c)
      (some {}, s.invalidate c va n)

/-- MAP (R345). -/
def execMap (path : UmPath) (s : State) : Host.Outcome State Fault Refusal :=
  onPath path s (fun s => s.serve path (isOp 0x30) (fun rq s => svcGo rq s (svcMap rq.path)))

/-- UNMAP on a context (Table 14.12): pages that firmware chose are free again; a range of no pages has none that is not mapped. -/
def svcUnmap (c : Nat) (pl : List Byte) (s : State) : Option Rsp × State :=
  let va := fieldAt pl 8 8
  let count := fieldAt pl 0x10 4
  let sz := fieldAt pl 0x14 1
  let size := pageSize sz
  if 2 ≤ sz ∨ fieldAt pl 0x15 3 ≠ 0 then (some (refuse 0x06), s)
  else
    let at' := fun i => va + i * size
    if 0 < count ∧ (va % size ≠ 0 ∨ 2 ^ 48 < va + count * size) ∨ !(List.range count).all (fun i => Tab.has (s.ctx c).vaPages (pageKey (at' i) sz)) then (some (refuse 0x10), s)
    else
      let s := (List.range count).foldl (fun (s : State) i => s.unmapPage c sz (at' i)) s
      (some {}, s.invalidate c va (count * size))

/-- UNMAP (R345). -/
def execUnmap (path : UmPath) (s : State) : Host.Outcome State Fault Refusal :=
  onPath path s (fun s => s.serve path (isOp 0x31) (fun rq s => svcGo rq s svcUnmap))

/-! ## Pennants (R178) -/

/-- The root of a context's pennant translation table, enabled (log 13). -/
def State.withPenRoot (s : State) (c : Nat) : State :=
  if (Tab.get 0 s.xl.penRoot c).getLsbD 0 then s
  else { s with xl.penRoot := Tab.put s.xl.penRoot c (BitVec.ofNat 64 (0x08000000 + c * 2 ^ 23 + 1)) }

/-- Whether an identifier is neither allocated nor in quarantine. -/
def State.idFree (s : State) (c id : Nat) : Bool :=
  !s.pen.quarantine.any (fun q => q.1 == c && q.2.1 == id) && (match (s.penEntry c id).1 with
    | some e => !peV e
    | none => true)

/-- The lowest free identifier from id on; `fuel` are looked at. -/
def State.freeId (s : State) (c : Nat) : Nat → Nat → Option Nat
  | 0, _ => none
  | fuel + 1, id => if s.idFree c id then some id else State.freeId s c fuel (id + 1)

/-- Whether a slot is neither allocated nor in quarantine. -/
def State.slotFree (s : State) (key : Nat) : Bool :=
  (s.slot key).own.isNone && !s.pen.quarantine.any (fun q => q.2.2 == key)

/-- The lowest free slot of a home from index i on. -/
def State.freeSlot (s : State) (home : Nat) : Nat → Nat → Option Nat
  | 0, _ => none
  | fuel + 1, i => if s.slotFree (slotKey home i) then some i else State.freeSlot s home fuel (i + 1)

/-- A free slot at a home: its home and index. -/
def State.slotAt (s : State) (home : Nat) : Option (Nat × Nat) :=
  (s.freeSlot home (if home < 320 then 4096 else 16384) 0).map (fun i => (home, i))

/-- PEN_ALLOC on a context (Table 14.12). -/
def svcPenAlloc (c : Nat) (pl : List Byte) (s : State) : Option Rsp × State :=
  let f := fieldAt pl 8 1
  let home := fieldAt pl 0x0A 2
  let want := fieldAt pl 0x0C 4
  if 4 ≤ f ∨ fieldAt pl 9 1 ≠ 0 ∨ 512 ≤ home ∨ 2 ^ 20 ≤ want then (some (refuse 0x06), s)
  else if (home < 320 && (!(s.ctx c).coreSet.contains home || (s.core home).failed)) || (324 ≤ home && home != 0x1FF) then
    (some (refuse 0x06), s)
  else
    let any := 2 ≤ f
    if !any ∧ !s.idFree c want then (some (refuse 0x06), s)
    else
      let id := if any then s.freeId c (2 ^ 20) 0 else some want
      let sl := if home = 0x1FF then [320, 321, 322, 323].findSome? s.slotAt else s.slotAt home
      match id, sl with
      | some id, some (h, i) =>
        let s := s.withPenRoot c
        let e := s.penEntry c id
        let gen := (e.1.map peGen).getD 0
        let s := e.2.putEntry8 (penEntryAddr (Tab.get 0 s.xl.penRoot c) id)
          (1 + 2 * (f % 2) + 256 * gen + 2 ^ 16 * h + 2 ^ 32 * i)
        let s := s.setSlot (slotKey h i) ⟨0, BitVec.ofNat 8 gen, f % 2 == 1, false, some (c, id), []⟩
        (some { payload := natLe 4 (id + 2 ^ 20 * gen) }, s)
      | _, _ => (some (refuse 0x0F), s)

/-- PEN_ALLOC (R178). -/
def execPenAlloc (path : UmPath) (s : State) : Host.Outcome State Fault Refusal :=
  onPath path s (fun s => s.serve path (isOp 0x32) (fun rq s => svcGo rq s svcPenAlloc))

/-- PEN_RELEASE on a context: V is cleared, the generation rises, waiters end stale, identifier and slot are quarantined (R178,
R188). -/
def svcPenRelease (c : Nat) (pl : List Byte) (s : State) : Option Rsp × State :=
  let h := fieldAt pl 8 4
  let id := h % 2 ^ 20
  if 2 ^ 28 ≤ h then (some (refuse 0x06), s)
  else
    let r := s.penEntry c id
    match r.1 with
    | none => (some (refuse 0x06), r.2)
    | some e =>
      if !peV e ∨ peGen e ≠ h / 2 ^ 20 then (some (refuse 0x06), r.2)
      else
        let s := r.2
        let gen := (peGen e + 1) % 256
        let key := slotKey (peHome e) (peIdx e)
        let s := s.putEntry8 (penEntryAddr (Tab.get 0 s.xl.penRoot c) id) (e - e % 65536 + e % 256 - e % 2 + 256 * gen)
        let ws := (s.slot key).waiters
        let s := s.setSlot key ⟨0, BitVec.ofNat 8 gen, (s.slot key).k, false, none, []⟩
        let s := ws.foldl (fun (s : State) w => s.endWait w.src w.wr none true) s
        (some {}, { s with pen.quarantine := s.pen.quarantine ++ [(c, id, key)] })

/-- PEN_RELEASE (R178). -/
def execPenRelease (path : UmPath) (s : State) : Host.Outcome State Fault Refusal :=
  onPath path s (fun s => s.serve path (isOp 0x33) (fun rq s => svcGo rq s svcPenRelease))

/-! ## Core sets (R18, R45) -/

/-- A core that joins a context's set: tile and accumulator memory and its event counters are cleared (R45, R348). -/
def CoreState.joined (cs : CoreState) : CoreState :=
  { cs with
    tm := []
    am := []
    tmPoison := []
    amPoison := []
    tmErr := []
    amErr := []
    evCtr := [] }

/-- Whether a core may leave a context: no task queued or running, no slot of the context. -/
def State.mayLeave (s : State) (c L : Nat) : Bool :=
  (s.core L).task.isNone && (s.core L).queue.isEmpty
    && s.pen.slots.all (fun e => e.1 / 2 ^ 14 != L || (e.2.own.map (·.1)) != some c)

/-- CORE_SET on a context (Table 14.12). -/
def svcCoreSet (c : Nat) (pl : List Byte) (s : State) : Option Rsp × State :=
  let mask := fieldAt pl 8 40
  let cores := (List.range 320).filter (fun L => mask.testBit L)
  let others := (List.range 16).flatMap (fun d => if d = c then [] else (s.ctx d).coreSet)
  let old := (s.ctx c).coreSet
  if cores.any others.contains then (some (refuse 0x06), s)
  else if !(old.filter (fun L => !cores.contains L)).all (s.mayLeave c) then (some (refuse 0x0D), s)
  else
    let s := (cores.filter (fun L => !old.contains L)).foldl (fun (s : State) L => s.modCore L CoreState.joined) s
    (some {}, s.modCtx c (fun x => { x with coreSet := cores }))

/-- CORE_SET (R345). -/
def execCoreSet (path : UmPath) (s : State) : Host.Outcome State Fault Refusal :=
  onPath path s (fun s => s.serve path (isOp 0x34) (fun rq s => svcGo rq s svcCoreSet))

end Sys2Proof.Machine
end

