-- ==== Sys2Proof/Machine/Registers.lean ====
section
/-! DEFINITION. Register writes over BAR0 and the register space (R6, R7, R20, R26), translation invalidation (R25), and BAR2
(R20, R21). A write is taken 32 bits at a time with a mask of the bits it carries (log 24). -/

namespace Sys2Proof.Machine
open Sys2Proof

/-! ## Accesses -/

/-- One 32-bit part of a write: its offset, its value and its mask, and whether it is the first of the access. -/
structure DW where
  o : Nat
  v : BitVec 32
  m : BitVec 32
  first : Bool
  deriving DecidableEq, Repr

/-- The 32-bit parts of a write of `width` bytes. -/
def dwords (off width val : Nat) : List DW :=
  let sh := 2 ^ (8 * (off % 4))
  let v := val % 2 ^ (8 * width) * sh
  let m := (2 ^ (8 * width) - 1) * sh
  (List.range ((off % 4 + width + 3) / 4)).map (fun i =>
    ⟨off / 4 * 4 + 4 * i, BitVec.ofNat 32 (v / 2 ^ (32 * i)), BitVec.ofNat 32 (m / 2 ^ (32 * i)), i == 0⟩)

/-- A 32-bit register after a write. -/
def DW.put (d : DW) (old : BitVec 32) : BitVec 32 := (old &&& ~~~d.m) ||| (d.v &&& d.m)

/-- A 64-bit register at offset `base` after a write, its reserved bits kept 0 by the mask of its fields (R7). -/
def DW.put64 (d : DW) (base : Nat) (old fields : BitVec 64) : BitVec 64 :=
  let sh := if d.o = base then 0 else 32
  let m := d.m.setWidth 64 <<< sh
  ((old &&& ~~~m) ||| ((d.v.setWidth 64 <<< sh) &&& m)) &&& fields

/-- Whether a write clears a W1C bit. -/
def DW.clears (d : DW) (i : Nat) : Bool := (d.v &&& d.m).getLsbD i

/-- A flag after a write of its W1C bit. -/
def DW.keep (d : DW) (i : Nat) (b : Bool) : Bool := b && !d.clears i

/-! ## Translation and window registers (Table 1.10) -/

/-- Fields of the registers of Table 1.10. -/
def rootFields : BitVec 64 := 0x0000FFFFFFE00001
def penRootFields : BitVec 64 := 0x0000FFFFFF800001
def windowFields : BitVec 64 := 0x0000FFFFC0000000

/-- A write is discarded and counted. -/
def State.discards (s : State) : State := { s with xl.discards := s.xl.discards + 1 }

/-- MEM_PT_INVAL as a word. -/
def Xl.invalWord (x : Xl) : BitVec 64 :=
  BitVec.ofNat 64 (x.ptInvalCtx.toNat + 16 * bit x.ptInvalAll + 2 ^ 21 * x.ptInvalPage.toNat + 2 ^ 63 * bit x.ptInvalDone)

/-- A write of MEM_PT_INVAL: the fields of DONE and the reserved bits stay. -/
def Xl.putInval (x : Xl) (d : DW) : Xl :=
  let w := d.put64 0x1100 x.invalWord 0x0000FFFFFFE0001F
  { x with
    ptInvalCtx := w.extractLsb' 0 4
    ptInvalAll := w.getLsbD 4
    ptInvalPage := w.extractLsb' 21 27 }

/-- Invalidation starts: DONE is 0 until R25 holds; while it is 0 such a write is discarded and counted (R26). -/
def State.invalGo (s : State) : State := if s.xl.ptInvalDone then { s with xl.ptInvalDone := false } else s.discards

/-- A firmware write to a register of Table 1.10. -/
def State.xlWrite (s : State) (d : DW) : State :=
  if 0x1000 ≤ d.o ∧ d.o < 0x1080 then
    let c := (d.o - 0x1000) / 8
    { s with xl.ptRoot := Tab.put s.xl.ptRoot c (d.put64 (0x1000 + 8 * c) (Tab.get 0 s.xl.ptRoot c) rootFields) }
  else if 0x1080 ≤ d.o ∧ d.o < 0x1100 then
    let c := (d.o - 0x1080) / 8
    { s with xl.penRoot := Tab.put s.xl.penRoot c (d.put64 (0x1080 + 8 * c) (Tab.get 0 s.xl.penRoot c) penRootFields) }
  else if d.o = 0x1100 ∨ d.o = 0x1104 then
    if s.xl.ptInvalDone then { s with xl := s.xl.putInval d } else if d.o = 0x1100 ∨ d.first then s.discards else s
  else if d.o = 0x1108 then
    let n := d.put (s.xl.ptInvalLen.setWidth 32)
    if !s.xl.ptInvalDone || n.toNat % 2 ^ 27 == 0 then s.discards else { s with xl.ptInvalLen := n.setWidth 27 }
  else if d.o = 0x110C then (if d.clears 0 then s.invalGo else s)
  else if d.o = 0x1180 ∨ d.o = 0x1184 then { s with xl.bar2Base := d.put64 0x1180 s.xl.bar2Base windowFields }
  else if 0x1188 ≤ d.o ∧ d.o < 0x1200 then
    let n := (d.o - 0x1180) / 8
    { s with xl.vfBar2Base :=
      Tab.put s.xl.vfBar2Base n (d.put64 (0x1180 + 8 * n) (Tab.get 0 s.xl.vfBar2Base n) windowFields) }
  else s

/-- A context-0 write to the module registers: MEM_BAR2_BASE alone may be written (R26). -/
def State.hostXlWrite (s : State) (d : DW) : State :=
  if d.o = 0x1180 ∨ d.o = 0x1184 then s.xlWrite d
  else if ((0x1000 ≤ d.o ∧ d.o < 0x1110) ∨ (0x1188 ≤ d.o ∧ d.o < 0x1200)) ∧ (d.first ∨ d.o = 0x1108 ∨ d.o = 0x110C) then s.discards
  else s

/-! ## Registers of a context window -/

/-- A write to a register of ring n at offset r of its block (Tables 7.1, 7.3, R155). -/
def State.ringReg (s : State) (c n r : Nat) (d : DW) : State :=
  let x := s.ring c n
  let d0 : DW := { d with o := r }
  if r = 0 ∨ r = 4 then (if x.enable then s else s.modRing c n (fun x => { x with base := d0.put64 0 x.base (~~~0) }))
  else if r = 8 then
    let v := d.put x.cfgWord
    if cfgEnable v then s.modRing c n (fun x => x.enabled v) else fxRingDisable c n v s
  else if r = 0x0C then s.modRing c n (fun x => { x with
    dbErr := d.keep 1 x.dbErr
    fetchFault := d.keep 2 x.fetchFault
    cplFault := d.keep 3 x.cplFault
    cfgErr := d.keep 6 x.cfgErr })
  else if r = 0x18 ∨ r = 0x1C then
    (if x.enable then s else s.modRing c n (fun x => { x with cplBase := d0.put64 0x18 x.cplBase (~~~0) }))
  else s

/-- A write of CFE_CTX_CFG (R155). -/
def CtxState.putCfg (x : CtxState) (d : DW) : CtxState :=
  let v := d.put (BitVec.ofNat 32 (x.cfgTimeout + 2 ^ 16 * x.dqCplRing))
  let t := bits v 14 0
  if t = 0 ∨ 16777 < t then { x with ctxCfgErr := true } else { x with cfgTimeout := t, dqCplRing := bits v 17 16 }

/-- A write to the registers of Tables 7.1, 8.6, 10.11, 11.8, 12.5 and 15.5 that hold one value each. -/
def CtxState.putReg (x : CtxState) (d : DW) : CtxState :=
  if d.o = 0x2000 then x.putCfg d
  else if d.o = 0x2004 then { x with resetSeen := d.keep 0 x.resetSeen, ctxCfgErr := d.keep 3 x.ctxCfgErr }
  else if d.o = 0x2008 ∨ d.o = 0x200C then { x with arenaBase := d.put64 0x2008 x.arenaBase (~~~0) }
  else if d.o = 0x2010 then { x with arenaSize := (d.put (BitVec.ofNat 32 x.arenaSize)).toNat }
  else if d.o = 0x3000 then { x with
    overrun := d.keep 0 x.overrun
    countOvf := d.keep 1 x.countOvf
    staleRx := d.keep 2 x.staleRx
    staleTx := d.keep 3 x.staleTx }
  else if d.o = 0x3100 then { x with epochMismatch := d.keep 18 x.epochMismatch, ceSlow := d.keep 19 x.ceSlow }
  else if d.o = 0x3200 ∨ d.o = 0x3204 then { x with ueGtab := d.put64 0x3200 x.ueGtab (~~~0) }
  else if d.o = 0x3208 ∨ d.o = 0x320C then { x with ueNset := d.put64 0x3208 x.ueNset (~~~0) }
  else if d.o = 0x3210 then { x with ueStatus := x.ueStatus &&& ~~~((d.v &&& d.m &&& 0x3#32).setWidth 4) }
  else if d.o = 0x3400 ∨ d.o = 0x3404 then { x with cutBase := d.put64 0x3400 x.cutBase (~~~0) }
  else if d.o = 0x3408 then { x with cutSize := d.put x.cutSize }
  else if d.o = 0x3410 then { x with cutRefused := d.keep 5 x.cutRefused, cutMismatch := d.keep 6 x.cutMismatch }
  else if d.o = 0x3500 then { x with cplMap := (d.put (x.cplMap.setWidth 32)).setWidth 30 }
  else if d.o = 0x3510 ∨ d.o = 0x3514 then { x with traceBase := d.put64 0x3510 x.traceBase (~~~0) }
  else if d.o = 0x3518 then { x with traceLog := (d.put (BitVec.ofNat 32 x.traceLog)).toNat % 32 }
  else if d.o = 0x5004 then { x with svc := { x.svc with done := d.keep 0 x.svc.done } }
  else x

/-- Firmware's writes to the PAR_ registers (Table 11.8). -/
def CtxState.putPar (x : CtxState) (d : DW) : CtxState :=
  if d.o = 0x3300 then { x with parCfg := d.put x.parCfg &&& 0x07FFFFFF#32 }
  else if d.o = 0x3308 then { x with parHolder0 := (d.put (x.parHolder0.setWidth 32)).setWidth 17 }
  else if d.o = 0x330C then { x with parHolder1 := (d.put (x.parHolder1.setWidth 32)).setWidth 17 }
  else if d.o = 0x3310 ∨ d.o = 0x3314 then { x with parImage := d.put64 0x3310 x.parImage (~~~0) }
  else x

/-- A mailbox's control register as a word. -/
def Mbox.ctlWord (m : Mbox) : BitVec 32 := BitVec.ofNat 32 (bit m.go + 2 * bit m.irq + 2 ^ 16 * m.vector.toNat)

/-- A write to the window of context c by its host software; the service mailbox answers in safe hold too (Table 12.4). -/
def State.windowWrite (s : State) (c : Nat) (d : DW) : State :=
  if d.o = 0x5000 then s.svcControl c (d.put { (s.ctx c).svc with go := false }.ctlWord)
  else if d.o = 0x5004 then (s.wakeBy 2).modCtx c (fun x => x.putReg d)
  else if !s.barUp then s
  else if d.o < 0x20 ∧ d.o % 8 = 0 then fxDoorbell c (d.o / 8) (d.v &&& d.m) s
  else if 0x20 ≤ d.o ∧ d.o < 0x40 ∧ d.o % 8 = 0 then s.ringWrite c (d.o / 8 - 4) (fun r => { r with cplHead := d.v &&& d.m })
  else
    let s := s.wakeBy 2
    if 0x1000 ≤ d.o ∧ d.o < 0x1100 then s.ringReg c ((d.o - 0x1000) / 0x40) ((d.o - 0x1000) % 0x40) d
    else if d.o = 0x340C then fxRbdCutCtl c (d.v &&& d.m).toNat s
    else s.modCtx c (fun x => x.putReg d)

/-- Bytes written to the request area of the service mailbox; discarded and counted while GO = 1 (R337, R346). -/
def State.svcBytes (s : State) (c o : Nat) (bs : List Byte) : State :=
  if (s.ctx c).svc.go then { s with um.mboxDiscards := s.um.mboxDiscards + 1 }
  else s.modCtx c (fun x => { x with svc := { x.svc with req := (patchAt (sliceAt x.svc.req 0 256) o bs).take 256 } })

/-- A host write of a context's window; the PF reaches it whether or not the context's VF is enabled (Table 1.6). -/
def State.hostWindow (s : State) (c off width val : Nat) : State :=
  if !s.mcOn || !s.sys.linkUp then s
  else if 0x5100 ≤ off ∧ off < 0x5200 then (s.wakeBy 2).svcBytes c (off - 0x5100) (natLe width val)
  else (dwords off width val).foldl (fun (s : State) d => s.windowWrite c d) s

/-! ## The PF mailbox (Table 14.7) -/

/-- A host write to the PF mailbox at an offset from its base. -/
def State.mboxWrite (s : State) (off width val : Nat) : State :=
  if !s.mcOn || !s.sys.linkUp then s
  else if 0x1000 ≤ off ∧ off < 0x1100 then
    if s.um.mbox.go then { s with um.mboxDiscards := s.um.mboxDiscards + 1 }
    else { s with um.mbox := { s.um.mbox with
      req := (patchAt (sliceAt s.um.mbox.req 0 256) (off - 0x1000) (natLe width val)).take 256 } }
  else if 0x80000 ≤ off ∧ off + width ≤ 0x100000 then
    { s with um.mbox := { s.um.mbox with bulk := s.um.mbox.bulk.writeN (off - 0x80000) (natLe width val) } }
  else (dwords off width val).foldl (fun (s : State) d =>
    if d.o = 0 then fxMgmtMboxGo (d.put { s.um.mbox with go := false }.ctlWord) s
    else if d.o = 4 then { s with um.mbox := { s.um.mbox with done := d.keep 0 s.um.mbox.done } }
    else s) s

/-! ## Registers that firmware writes -/

/-- Clear W1C flags kept as sets of dies or engines. -/
def DW.keepIn (d : DW) (i k : Nat) (t : NSet) : NSet := if d.clears i then NSet.remove t k else t

/-- A firmware write to the status registers of a core: the W1C bits of SEQ_TASK_STATUS and of MXU_STATUS (Tables 2.10, 3.13). -/
def CoreState.putStatus (cs : CoreState) (o : Nat) (d : DW) : CoreState :=
  if o = 0 then
    let keep := ~~~((d.v &&& d.m) >>> 8).setWidth 6
    { cs with
      sticky := cs.sticky &&& keep
      firm := cs.firm &&& keep
      inflight := cs.inflight.map (fun i => { i with undo := i.undo.map (fun u => { u with sticky := u.sticky &&& keep }) }) }
  else if o = 0x100 then { cs with parts := Tab.mapV cs.parts (fun p x => { x with faulted := d.keep (8 + p) x.faulted }) }
  else cs

/-- A firmware write in the register space: Table 1.10, the status registers with W1C bits, and the PAR_ registers in the
windows of contexts (log 24). -/
def State.fwWrite (s : State) (d : DW) : State :=
  if d.o < 0x10000 then s.xlWrite d
  else if 0x100000 ≤ d.o ∧ d.o < 0x240000 then s.modCore ((d.o - 0x100000) / 0x1000) (fun cs => cs.putStatus (d.o % 0x1000) d)
  else if 0x400000 ≤ d.o ∧ d.o < 0x401800 ∧ d.o % 0x100 = 0 then (actFlags 0x7001 ((d.o - 0x400000) / 0x100 + 1)
    (d.put (BitVec.ofNat 32 (2 ^ 18 * bit (s.stk ((d.o - 0x400000) / 0x100)).trainFail))).toNat s).2
  else if 0x500000 ≤ d.o ∧ d.o < 0x504C00 ∧ d.o % 0x100 = 0 then
    (actFlags 0x6003 ((d.o - 0x500000) / 0x100 + 1) (d.v &&& d.m).toNat s).2
  else if 0x600000 ≤ d.o ∧ d.o < 0x600400 ∧ d.o % 0x100 = 0 then
    let k := (d.o - 0x600000) / 0x100
    { s with
      coll.overflow := d.keepIn 1 k s.coll.overflow
      coll.abortRx := d.keepIn 2 k s.coll.abortRx
      coll.epochDrop := d.keepIn 3 k s.coll.epochDrop }
  else if 0x610000 ≤ d.o ∧ d.o < 0x610400 ∧ d.o % 0x100 = 0 then
    let k := (d.o - 0x610000) / 0x100
    { s with
      coll.ueOverflow := d.keepIn 1 k s.coll.ueOverflow
      coll.uePoison := d.keepIn 2 k s.coll.uePoison }
  else if d.o = 0x700000 then (actFlags 0x3000 1 (d.v &&& d.m).toNat s).2
  else if 0x1000000 ≤ d.o ∧ d.o < 0x2000000 then
    s.modCtx ((d.o - 0x1000000) / 0x100000) (fun x => x.putPar { d with o := d.o % 0x100000 })
  else s

/-! ## The commands -/

/-- The effect of REGISTER_WRITE: `off` is an offset of the function's BAR0 (Table 1.6), or of the register space for
firmware. -/
def fxRegisterWrite (ag : Agent) (off width val : Nat) (s : State) : State :=
  match ag with
  | .firmware => if !s.mcOn then s else (dwords off width val).foldl State.fwWrite s
  | .host 0 =>
    if !s.mcOn || !s.sys.linkUp then s
    else if off < 0x100000 then (dwords off width val).foldl State.hostXlWrite s
    else if off < 0x200000 then s.mboxWrite (off - 0x100000) width val
    else if 0x1000000 ≤ off ∧ off < 0x2000000 then s.hostWindow ((off - 0x1000000) / 0x100000) (off % 0x100000) width val
    else s
  | .host n => if off < 0x100000 ∧ n < 16 ∧ s.vfOn n then s.hostWindow n off width val else s

/-- REGISTER_WRITE (R6). -/
def execRegisterWrite (ag : Agent) (off width val : Nat) (s : State) : Host.Outcome State Fault Refusal :=
  .next (fxRegisterWrite ag off width val s)

/-- The effect of MEM_PT_INVAL_GO: context 0's write is discarded and counted; a VF does not reach the register (R26). -/
def fxMemPtInvalGo (ag : Agent) (v : BitVec 32) (s : State) : State :=
  match ag with
  | .firmware => if s.mcOn && v.getLsbD 0 then s.invalGo else s
  | .host 0 => if s.mcOn && s.sys.linkUp then s.discards else s
  | .host _ => s

/-- MEM_PT_INVAL_GO (R26). -/
def execMemPtInvalGo (ag : Agent) (val : BitVec 32) (s : State) : Host.Outcome State Fault Refusal :=
  .next (fxMemPtInvalGo ag val s)

/-- PT_INVAL_DONE (R25): no access uses an old entry, and DONE is set. -/
def execPtInvalDone (s : State) : Host.Outcome State Fault Refusal :=
  .next (if s.xl.ptInvalDone then s
    else { s with
      xl.tlb := s.xl.tlb.filter (fun t => !s.xl.named t)
      xl.ptInvalDone := true })

/-! ## BAR2 (R20, R21) -/

/-- A BAR2 access that reaches nothing: a read gets an Unsupported Request completion, a write is discarded; both are counted. -/
def State.bar2Refuse (s : State) (wr : Bool) : State :=
  let s := { s with xl.bar2Refused := s.xl.bar2Refused + 1 }
  if wr then s else s.emit .unsupported

/-- The PF's window onto striped memory. -/
def State.bar2Pf (s : State) (off len : Nat) (wr : Option (List Byte)) : State :=
  let pa := s.xl.bar2Base.toNat + off
  let n := match wr with
    | some bs => bs.length
    | none => len
  if pa < 2 ^ 32 ∨ s.stripedEnd < pa + n then s.bar2Refuse wr.isSome
  else match wr with
    | some bs => (s.memWrite pa bs).2
    | none => let r := s.memRead pa len; r.2.emit (.bar2Data r.1.bytes)

/-- VF n's window onto its context's addresses; only pages with HOST are reached. -/
def State.bar2Vf (s : State) (c off len : Nat) (wr : Option (List Byte)) : State :=
  let va := (Tab.get 0 s.xl.vfBar2Base c).toNat + off
  match wr with
  | some bs =>
    let r := s.vaWrite none c va (bs.map (fun b => (b, false))) [.w, .host]
    if r.1.fault then r.2.bar2Refuse true else r.2
  | none =>
    let r := s.vaRead c va len [.r, .host]
    if r.1.fault then r.2.bar2Refuse false else r.2.emit (.bar2Data r.1.bytes)

/-- The effect of BAR2_ACCESS: outside the window's size nothing is addressed; in standby the access wakes the module and is
refused (R315); before the module is ready and in safe hold it is refused. -/
def fxBar2Access (fn off len : Nat) (wr : Option (List Byte)) (s : State) : State :=
  let size := 2 ^ 30 * (if fn = 0 then s.sys.bar2Pf else s.sys.bar2Vf)
  if !s.mcOn || !s.sys.linkUp || !s.vfOn fn || decide (size ≤ off) then s
  else if s.pwr.state = 2 ∨ s.pwr.state = 3 then (s.wakeBy 2).bar2Refuse wr.isSome
  else
  let s := s.wakeBy 2
  if !s.works then s.bar2Refuse wr.isSome
  else if fn = 0 then s.bar2Pf off len wr
  else s.bar2Vf fn off len wr

/-- BAR2_ACCESS (R21). -/
def execBar2Access (fn off len : Nat) (wr : Option (List Byte)) (s : State) : Host.Outcome State Fault Refusal :=
  .next (fxBar2Access fn off len wr s)

end Sys2Proof.Machine
end

