-- ==== Sys2Proof/Machine/Views.lean ====
section
/-! DEFINITION. What the registers read as (R6, R7, R14, R20, Table 1.6): the value of every register of a context's window and
of the PF's module registers, 32 bits at a time. A read changes nothing and has no row. -/

namespace Sys2Proof.Machine
open Sys2Proof

/-- RBD_CORE_MAP[L] (Table 1.4). -/
def State.coreMap (s : State) (L : Nat) : BitVec 32 := (s.core L).mapWord

/-- PEN_CTX_STATUS (Table 8.6). -/
def State.penStatus (s : State) (c : Nat) : BitVec 32 :=
  let x := s.ctx c
  BitVec.ofNat 32 (bit x.overrun + 2 * bit x.countOvf + 4 * bit x.staleRx + 8 * bit x.staleTx + 16 * bit (s.blocked c)
    + 2 ^ 8 * x.lastId.toNat)

/-- A mailbox's status register: BOOTING until MGMT_READY is 1 (Tables 14.7, 14.13, R343). -/
def State.mboxStatus (s : State) (m : Mbox) : BitVec 32 :=
  BitVec.ofNat 32 (bit m.done + 2 * bit m.busy + 4 * bit s.inBoot)

/-- A private copy of D0-D3 of a die (Table 15.5). -/
def State.privReg (s : State) (c o : Nat) : BitVec 32 :=
  half o ((Tab.get 0 s.obs.priv ((c * 12 + (o - 0x3600) / 32) * 4 + o / 8 % 4)).setWidth 64)

/-- The register at an offset of the window of context c (Tables 7.1, 8.6, 10.11, 11.8, 12.5, 14.13, 15.5); reserved offsets
and the doorbells read 0. -/
def State.windowReg (s : State) (c o : Nat) : BitVec 32 :=
  let x := s.ctx c
  if 0x1000 ≤ o ∧ o < 0x1100 then (x.ring ((o - 0x1000) / 0x40)).reg ((o - 0x1000) % 0x40)
  else if 0x3600 ≤ o ∧ o < 0x3780 then s.privReg c o
  else if 0x4000 ≤ o ∧ o < 0x4500 then s.coreMap ((o - 0x4000) / 4)
  else if 0x5100 ≤ o ∧ o < 0x5200 then BitVec.ofNat 32 (fieldAt x.svc.req (o - 0x5100) 4)
  else if 0x5200 ≤ o ∧ o < 0x5300 then BitVec.ofNat 32 (fieldAt x.svc.rsp (o - 0x5200) 4)
  else match o with
    | 0x2000 => BitVec.ofNat 32 (x.cfgTimeout + 2 ^ 16 * x.dqCplRing)
    | 0x2004 => BitVec.ofNat 32 (s.ctxStatus c)
    | 0x2008 | 0x200C => half o x.arenaBase
    | 0x2010 => BitVec.ofNat 32 x.arenaSize
    | 0x3000 => s.penStatus c
    | 0x3100 => BitVec.ofNat 32 (s.ceCtxStatus c)
    | 0x3200 | 0x3204 => half o x.ueGtab
    | 0x3208 | 0x320C => half o x.ueNset
    | 0x3210 => BitVec.ofNat 32 (s.ueCtxStatus c)
    | 0x3300 => x.parCfg
    | 0x3308 => x.parHolder0.setWidth 32
    | 0x330C => x.parHolder1.setWidth 32
    | 0x3310 | 0x3314 => half o x.parImage
    | 0x3400 | 0x3404 => half o x.cutBase
    | 0x3408 => x.cutSize
    | 0x3410 => BitVec.ofNat 32 (s.cutStatus c)
    | 0x3414 => x.cutStepGlobal
    | 0x3418 => x.cutStepLocal
    | 0x3500 => x.cplMap.setWidth 32
    | 0x3508 | 0x350C => half o s.sys.ts
    | 0x3510 | 0x3514 => half o x.traceBase
    | 0x3518 => BitVec.ofNat 32 x.traceLog
    | 0x351C => x.traceIndex
    | 0x5000 => x.svc.ctlWord
    | 0x5004 => s.mboxStatus x.svc
    | _ => 0

/-- The register at an offset of the module registers (Table 1.10). -/
def State.moduleReg (s : State) (o : Nat) : BitVec 32 :=
  if 0x1000 ≤ o ∧ o < 0x1080 then half o (Tab.get 0 s.xl.ptRoot ((o - 0x1000) / 8))
  else if 0x1080 ≤ o ∧ o < 0x1100 then half o (Tab.get 0 s.xl.penRoot ((o - 0x1080) / 8))
  else if o = 0x1100 ∨ o = 0x1104 then half o s.xl.invalWord
  else if o = 0x1108 then s.xl.ptInvalLen.setWidth 32
  else if o = 0x1180 ∨ o = 0x1184 then half o s.xl.bar2Base
  else if 0x1188 ≤ o ∧ o < 0x1200 then half o (Tab.get 0 s.xl.vfBar2Base ((o - 0x1180) / 8))
  else 0

/-- The word that a read of the PF's BAR0 returns (Table 1.6). DESIGN CHOICE (log 24): the identity registers that Table 1.6 puts
beside RBD_CORE_MAP have no layout in the spec, and their range reads 0. -/
def State.pfReg (s : State) (o : Nat) : BitVec 32 :=
  if o < 0x100000 then s.moduleReg o
  else if o < 0x200000 then
    let r := o - 0x100000
    if r = 0 then s.um.mbox.ctlWord
    else if r = 4 then s.mboxStatus s.um.mbox
    else if 0x1000 ≤ r ∧ r < 0x1100 then BitVec.ofNat 32 (fieldAt s.um.mbox.req (r - 0x1000) 4)
    else if 0x2000 ≤ r ∧ r < 0x2100 then BitVec.ofNat 32 (fieldAt s.um.mbox.rsp (r - 0x2000) 4)
    else if 0x80000 ≤ r then BitVec.ofNat 32 (leNat (s.um.mbox.bulk.readN (r - 0x80000) 4))
    else 0
  else if 0x200000 ≤ o ∧ o < 0x200500 then s.coreMap ((o - 0x200000) / 4)
  else if 0x1000000 ≤ o ∧ o < 0x2000000 then s.windowReg ((o - 0x1000000) / 0x100000) (o % 0x100000)
  else 0

/-! ## The register space (Table 1.7) -/

/-- The 64-bit word of a pennant slot (Table 8.1). -/
def Slot.word (x : Slot) : BitVec 64 :=
  BitVec.ofNat 64 (x.value.toNat + 2 ^ 54 * x.gen.toNat + 2 ^ 62 * bit x.k + 2 ^ 63 * bit x.f)

/-- Where the words of the pennant slots begin, 8 B a slot (DESIGN CHOICE: the spec gives their registers no address, log 24). -/
def slotSpace : Nat := 0x10000000

/-- The status registers of a core at an offset of its block (R56, R78, R122). -/
def CoreState.statusReg (cs : CoreState) (o : Nat) : BitVec 32 :=
  if o = 0 then cs.seqTaskStatus
  else if o = 0x100 then cs.mxuStatus
  else if 0x110 ≤ o ∧ o < 0x120 then cs.mxuPartStatus ((o - 0x110) / 4)
  else if o = 0x200 then cs.vxuStatus
  else 0

/-- The register at an offset of the register space, as firmware reads it: Table 1.10, the status registers of cores, stacks, ports,
pools and engines, PWR_STATUS, the windows of contexts (log 24) and the pennant slots. -/
def State.regSpace (s : State) (o : Nat) : BitVec 32 :=
  let at' := fun (base n : Nat) (g : Nat → Nat) =>
    if (o - base) % 0x100 = 0 ∧ (o - base) / 0x100 < n then BitVec.ofNat 32 (g ((o - base) / 0x100)) else 0
  if o < 0x100000 then s.moduleReg o
  else if o < 0x240000 then (s.core ((o - 0x100000) / 0x1000)).statusReg (o % 0x1000)
  else if o < 0x400000 then 0
  else if o < 0x500000 then at' 0x400000 24 s.stackStatus
  else if o < 0x508000 then at' 0x500000 76 s.fabPortStatus
  else if o < 0x600000 then at' 0x508000 4 s.fabPoolStatus
  else if o < 0x610000 then at' 0x600000 4 s.ceStatus
  else if o < 0x700000 then at' 0x610000 4 s.ueStatusOf
  else if o = 0x700000 then BitVec.ofNat 32 s.pwrStatus
  else if o < 0x1000000 then 0
  else if o < 0x2000000 then s.windowReg ((o - 0x1000000) / 0x100000) (o % 0x100000)
  else if slotSpace ≤ o ∧ o < slotSpace + 8 * slotKey 324 0 then half o (s.slot ((o - slotSpace) / 8)).word
  else 0

end Sys2Proof.Machine
end

