-- ==== Sys2Proof/Machine/Firmware.lean ====
section
/-! DEFINITION. Accesses by module physical address (Table 1.7, R22): striped memory by every source, and by firmware alone the
tile- and accumulator-memory windows and the register space (R46, R56). -/

namespace Sys2Proof.Machine
open Sys2Proof

/-- Where an address of the windows of Table 1.7 leads. -/
inductive Window17 where
  | tile (am : Bool) (L off : Nat)
  | reg (off : Nat)
  deriving DecidableEq, Repr

/-- The place of n bytes outside striped memory, none in a reserved range. -/
def windowAt (pa n : Nat) : Option Window17 :=
  if 0xF00000000000 ≤ pa ∧ pa < 0xF00140000000 then
    let o := pa % 2 ^ 24
    let L := (pa - 0xF00000000000) / 2 ^ 24
    if o + n ≤ 6291456 then some (.tile false L o)
    else if 0x800000 ≤ o ∧ o + n ≤ 0x880000 then some (.tile true L (o - 0x800000))
    else none
  else if 0xF80000000000 ≤ pa ∧ pa + n ≤ 0xF80100000000 then some (.reg (pa - 0xF80000000000))
  else none

/-- Bytes of the register space. -/
def State.regBytes (s : State) (o n : Nat) : List Byte :=
  (List.range n).map (fun j => BitVec.ofNat 8 ((s.regSpace ((o + j) / 4 * 4)).toNat / 256 ^ ((o + j) % 4)))

/-- What firmware does with a core's memory leaves the flags and conditions of the core's task as they are (DEDUCED, log 24). -/
def CoreState.behind (new old : CoreState) : CoreState :=
  { new with sticky := old.sticky, conds := old.conds, firm := old.firm, firmConds := old.firmConds }

/-- An access of firmware wakes a gated core, and proceeds as though it had never been gated (R307). -/
def State.wakeFor (s : State) (L : Nat) : State :=
  if s.mayGate && (s.core L).gate == .gated then s.modCore L CoreState.wake else s

/-- A read by firmware outside striped memory. -/
def State.fwRead (s : State) (w : Window17) (n : Nat) : State :=
  match w with
  | .tile am L o =>
    let s := s.wakeFor L
    let cs := s.core L
    let r := cs.load am o n
    (s.setCore L (r.2.behind cs)).emit (.readData fwSrc (r.1.map (·.1)) (r.1.map (·.2))
      (if r.1.any (·.2) then St.poison else if Tab.get 0 r.2.ctr 6 = Tab.get 0 cs.ctr 6 then St.ok else St.okCorr))
  | .reg o => s.emit (.readData fwSrc (s.regBytes o n) (List.replicate n false) St.ok)

/-- A write by firmware outside striped memory. -/
def State.fwWriteAt (s : State) (w : Window17) (bs : List Byte) (poison : Bool) : State :=
  match w with
  | .tile am L o => (s.wakeFor L).modCore L (fun cs => (cs.store am o (bs.map (fun b => (b, poison)))).behind cs)
  | .reg o => (dwords o bs.length (leNat bs)).foldl State.fwWrite s

/-- The effect of MEM_READ. -/
def fxMemRead (src pa len : Nat) (e : ReadErrs) (s : State) : State :=
  match (if src = fwSrc then windowAt pa len else none) with
  | some w => if s.mcOn then s.fwRead w len else s
  | none => s.readStriped src pa len e

/-- MEM_READ (R127, R131). -/
def execMemRead (src pa len : Nat) (erasures : ReadErrs) (s : State) : Host.Outcome State Fault Refusal :=
  .next (fxMemRead src pa len erasures s)

/-- The effect of MEM_WRITE. -/
def fxMemWrite (src pa : Nat) (bs : List Byte) (poison : Bool) (s : State) : State :=
  match (if src = fwSrc then windowAt pa bs.length else none) with
  | some w => if s.mcOn then s.fwWriteAt w bs poison else s
  | none => s.writeStriped src pa bs poison

/-- MEM_WRITE (R128). -/
def execMemWrite (src pa : Nat) (bs : List Byte) (poison : Bool) (s : State) : Host.Outcome State Fault Refusal :=
  .next (fxMemWrite src pa bs poison s)

end Sys2Proof.Machine
end

