-- ==== Sys2Proof/Machine/Idle.lean ====
section
/-! DEFINITION. What passes without a command: one count of the timestamp clock, and the ends of drains (log 1). -/

namespace Sys2Proof.Machine
open Sys2Proof

/-- The contexts of the packets that wait for credits on the ports of I/O die k. -/
def State.creditWaits (s : State) (k : Nat) : List Nat :=
  ((List.range 19).flatMap (fun i =>
    let x := s.port (19 * k + i)
    if x.canFlit then (x.outq.filter (fun q => !x.canSend q)).map (fun q => (hdrOf q.bs).ctx) else [])).dedup

/-- The cycles of this count are cycles with a packet waiting for credits, on the dies that have one (Table 15.2). -/
def State.creditCycles (s : State) : State :=
  if s.sys.pllLock.toNat % 2 ^ 12 = 0 || s.rbd.safeHold then s
  else (List.range 4).foldl (fun (t : State) k =>
    match s.creditWaits k with
    | [] => t
    | cs => let u := t.dieEvent (8 + k) 0x6C s.coreCycles.1 none; cs.foldl (fun (v : State) c => v.forCtx (some c) t) u) s

/-- One count of the timestamp clock passes; drains of disabled functions that have ended are noted (R16, R282), and an entry into standby
that nothing has aborted ends (R316; log 23). -/
def tick (s : State) : State := s.creditCycles.count.settleDrains.standbyEnd

end Sys2Proof.Machine
end

