-- ==== Sys2Proof/Machine/Dispatch.lean ====
section
/-! DEFINITION. exec: one arm per command, each one direct call of its meaning. -/

namespace Sys2Proof.Machine

open Sys2Proof

def exec (i : Instr) (s : State) : Host.Outcome State Fault Refusal :=
  match i with
  | .coldReset cool => Sys2Proof.Machine.execColdReset cool s
  | .warmReset => Sys2Proof.Machine.execWarmReset s
  | .contextReset c => Sys2Proof.Machine.execContextReset c s
  | .flr fn => Sys2Proof.Machine.execFlr fn s
  | .vaux3p3Rise => Sys2Proof.Machine.execVaux3p3Rise s
  | .vaux3p3Loss => Sys2Proof.Machine.execVaux3p3Loss s
  | .vin48Rise => Sys2Proof.Machine.execVin48Rise s
  | .vin48Loss => Sys2Proof.Machine.execVin48Loss s
  | .modResetN high did node test cool => Sys2Proof.Machine.execModResetN high did node test cool s
  | .perstN high us => Sys2Proof.Machine.execPerstN high us s
  | .wakeN ns => Sys2Proof.Machine.execWakeN ns s
  | .pcieLinkTraining => Sys2Proof.Machine.execPcieLinkTraining s
  | .secureBoot => Sys2Proof.Machine.execSecureBoot s
  | .bringUpStepEnd step fails => Sys2Proof.Machine.execBringUpStepEnd step fails s
  | .refclkRetry ok => Sys2Proof.Machine.execRefclkRetry ok s
  | .mcClockSwitch => Sys2Proof.Machine.execMcClockSwitch s
  | .pllLockLoss die => Sys2Proof.Machine.execPllLockLoss die s
  | .dieLinkFailure cd iod => Sys2Proof.Machine.execDieLinkFailure cd iod s
  | .registerWrite ag off width val => Sys2Proof.Machine.execRegisterWrite ag off width val s
  | .memPtInvalGo ag val => Sys2Proof.Machine.execMemPtInvalGo ag val s
  | .ptInvalDone => Sys2Proof.Machine.execPtInvalDone s
  | .bar2Access fn off len wr => Sys2Proof.Machine.execBar2Access fn off len wr s
  | .bar2Resize pf gib => Sys2Proof.Machine.execBar2Resize pf gib s
  | .rbdRankMap rq m => Sys2Proof.Machine.execRbdRankMap rq m s
  | .rankMapInstall m => Sys2Proof.Machine.execRankMapInstall m s
  | .rankMapAck did => Sys2Proof.Machine.execRankMapAck did s
  | .rankMapAckTimeout => Sys2Proof.Machine.execRankMapAckTimeout s
  | .rankMapRequest port m => Sys2Proof.Machine.execRankMapRequest port m s
  | .taskStart core => Sys2Proof.Machine.execTaskStart core s
  | .taskTimeout core => Sys2Proof.Machine.execTaskTimeout core s
  | .taskDrainExpiry core => Sys2Proof.Machine.execTaskDrainExpiry core s
  | .unitInstructionComplete core seq => Sys2Proof.Machine.execUnitInstructionComplete core seq s
  | .ctlNop core f => Sys2Proof.Machine.execCtlNop core f s
  | .ctlEnd core f => Sys2Proof.Machine.execCtlEnd core f s
  | .ctlJmp core f => Sys2Proof.Machine.execCtlJmp core f s
  | .ctlLoop core f => Sys2Proof.Machine.execCtlLoop core f s
  | .ctlSetl core f => Sys2Proof.Machine.execCtlSetl core f s
  | .ctlSeta core f => Sys2Proof.Machine.execCtlSeta core f s
  | .ctlAdda core f => Sys2Proof.Machine.execCtlAdda core f s
  | .ctlAddr core f => Sys2Proof.Machine.execCtlAddr core f s
  | .ctlCmp core f => Sys2Proof.Machine.execCtlCmp core f s
  | .ctlLda core f => Sys2Proof.Machine.execCtlLda core f s
  | .ctlSta core f => Sys2Proof.Machine.execCtlSta core f s
  | .ctlFence core f => Sys2Proof.Machine.execCtlFence core f s
  | .ctlSeed core f => Sys2Proof.Machine.execCtlSeed core f s
  | .ctlMovl core f => Sys2Proof.Machine.execCtlMovl core f s
  | .ctlEnq core f => Sys2Proof.Machine.execCtlEnq core f s
  | .enqQueueAccept core => Sys2Proof.Machine.execEnqQueueAccept core s
  | .movCopy core f => Sys2Proof.Machine.execMovCopy core f s
  | .movFill core f => Sys2Proof.Machine.execMovFill core f s
  | .movPut core f => Sys2Proof.Machine.execMovPut core f s
  | .movGet core f => Sys2Proof.Machine.execMovGet core f s
  | .mxuMode core f => Sys2Proof.Machine.execMxuMode core f s
  | .mxuLdb core f => Sys2Proof.Machine.execMxuLdb core f s
  | .mxuPass core f => Sys2Proof.Machine.execMxuPass core f s
  | .mxuSpcfg core f => Sys2Proof.Machine.execMxuSpcfg core f s
  | .mxuSpill core f => Sys2Proof.Machine.execMxuSpill core f s
  | .autoSpill core part => Sys2Proof.Machine.execAutoSpill core part s
  | .mxuResume core f => Sys2Proof.Machine.execMxuResume core f s
  | .mxuOut core f => Sys2Proof.Machine.execMxuOut core f s
  | .partitionFault core part chk => Sys2Proof.Machine.execPartitionFault core part chk s
  | .coreRebind core => Sys2Proof.Machine.execCoreRebind core s
  | .vecSetvl core f => Sys2Proof.Machine.execVecSetvl core f s
  | .vecLd core f => Sys2Proof.Machine.execVecLd core f s
  | .vecSt core f => Sys2Proof.Machine.execVecSt core f s
  | .vecLdr core f => Sys2Proof.Machine.execVecLdr core f s
  | .vecBcast core f => Sys2Proof.Machine.execVecBcast core f s
  | .vecIota core f => Sys2Proof.Machine.execVecIota core f s
  | .vecAdd core f => Sys2Proof.Machine.execVecAdd core f s
  | .vecSub core f => Sys2Proof.Machine.execVecSub core f s
  | .vecMul core f => Sys2Proof.Machine.execVecMul core f s
  | .vecFma core f => Sys2Proof.Machine.execVecFma core f s
  | .vecMax core f => Sys2Proof.Machine.execVecMax core f s
  | .vecMin core f => Sys2Proof.Machine.execVecMin core f s
  | .vecAbs core f => Sys2Proof.Machine.execVecAbs core f s
  | .vecNeg core f => Sys2Proof.Machine.execVecNeg core f s
  | .vecAnd core f => Sys2Proof.Machine.execVecAnd core f s
  | .vecOr core f => Sys2Proof.Machine.execVecOr core f s
  | .vecXor core f => Sys2Proof.Machine.execVecXor core f s
  | .vecShl core f => Sys2Proof.Machine.execVecShl core f s
  | .vecShr core f => Sys2Proof.Machine.execVecShr core f s
  | .vecSra core f => Sys2Proof.Machine.execVecSra core f s
  | .vecSel core f => Sys2Proof.Machine.execVecSel core f s
  | .vecCmp core f => Sys2Proof.Machine.execVecCmp core f s
  | .vecMand core f => Sys2Proof.Machine.execVecMand core f s
  | .vecMor core f => Sys2Proof.Machine.execVecMor core f s
  | .vecMxor core f => Sys2Proof.Machine.execVecMxor core f s
  | .vecMnot core f => Sys2Proof.Machine.execVecMnot core f s
  | .vecMpop core f => Sys2Proof.Machine.execVecMpop core f s
  | .vecMfirst core f => Sys2Proof.Machine.execVecMfirst core f s
  | .vecExp2 core f => Sys2Proof.Machine.execVecExp2 core f s
  | .vecLog2 core f => Sys2Proof.Machine.execVecLog2 core f s
  | .vecRsqrt core f => Sys2Proof.Machine.execVecRsqrt core f s
  | .vecRecip core f => Sys2Proof.Machine.execVecRecip core f s
  | .vecTanh core f => Sys2Proof.Machine.execVecTanh core f s
  | .vecDiv core f => Sys2Proof.Machine.execVecDiv core f s
  | .vecSqrt core f => Sys2Proof.Machine.execVecSqrt core f s
  | .vecPerm core f => Sys2Proof.Machine.execVecPerm core f s
  | .vecPerm2 core f => Sys2Proof.Machine.execVecPerm2 core f s
  | .vecShuf core f => Sys2Proof.Machine.execVecShuf core f s
  | .vecPack core f => Sys2Proof.Machine.execVecPack core f s
  | .vecUnpack core f => Sys2Proof.Machine.execVecUnpack core f s
  | .vecCompress core f => Sys2Proof.Machine.execVecCompress core f s
  | .vecExpand core f => Sys2Proof.Machine.execVecExpand core f s
  | .vecCst core f => Sys2Proof.Machine.execVecCst core f s
  | .vecXld core f => Sys2Proof.Machine.execVecXld core f s
  | .vecCvt core f => Sys2Proof.Machine.execVecCvt core f s
  | .redSum core f => Sys2Proof.Machine.execRedSum core f s
  | .redMax core f => Sys2Proof.Machine.execRedMax core f s
  | .redMin core f => Sys2Proof.Machine.execRedMin core f s
  | .redArgmax core f => Sys2Proof.Machine.execRedArgmax core f s
  | .redSqnorm core f => Sys2Proof.Machine.execRedSqnorm core f s
  | .redTopk core f => Sys2Proof.Machine.execRedTopk core f s
  | .synHoist core f => Sys2Proof.Machine.execSynHoist core f s
  | .synStrike core f => Sys2Proof.Machine.execSynStrike core f s
  | .synWatch core f => Sys2Proof.Machine.execSynWatch core f s
  | .synTest core f => Sys2Proof.Machine.execSynTest core f s
  | .hoistOutcome n => Sys2Proof.Machine.execHoistOutcome n s
  | .perWaitTimeout core => Sys2Proof.Machine.execPerWaitTimeout core s
  | .mrkRibbon core f => Sys2Proof.Machine.execMrkRibbon core f s
  | .mrkCsel core f => Sys2Proof.Machine.execMrkCsel core f s
  | .mrkCread core f => Sys2Proof.Machine.execMrkCread core f s
  | .mrkTime core f => Sys2Proof.Machine.execMrkTime core f s
  | .memRead src pa len erasures => Sys2Proof.Machine.execMemRead src pa len erasures s
  | .memRequestTimeout src pa len stack => Sys2Proof.Machine.execMemRequestTimeout src pa len stack s
  | .memWrite src pa bs poison => Sys2Proof.Machine.execMemWrite src pa bs poison s
  | .gatherWindowExpiry stripe => Sys2Proof.Machine.execGatherWindowExpiry stripe s
  | .stripeWriteAck src stripe => Sys2Proof.Machine.execStripeWriteAck src stripe s
  | .stackTempReading stack t => Sys2Proof.Machine.execStackTempReading stack t s
  | .catchUpStripe stack => Sys2Proof.Machine.execCatchUpStripe stack s
  | .restripeStart => Sys2Proof.Machine.execRestripeStart s
  | .memRestripeStart rq v => Sys2Proof.Machine.execMemRestripeStart rq v s
  | .restripeStep => Sys2Proof.Machine.execRestripeStep s
  | .scrubStripe stripe => Sys2Proof.Machine.execScrubStripe stripe s
  | .stackRetrain stack => Sys2Proof.Machine.execStackRetrain stack s
  | .retrainEnd stack ok => Sys2Proof.Machine.execRetrainEnd stack ok s
  | .doorbell c ring v => Sys2Proof.Machine.execDoorbell c ring v s
  | .cplDoorbell c ring v => Sys2Proof.Machine.execCplDoorbell c ring v s
  | .ringFetch c ring r => Sys2Proof.Machine.execRingFetch c ring r s
  | .ringEnable c ring v => Sys2Proof.Machine.execRingEnable c ring v s
  | .ringDisable c ring v => Sys2Proof.Machine.execRingDisable c ring v s
  | .ringDrainExpiry c ring => Sys2Proof.Machine.execRingDrainExpiry c ring s
  | .cfeCtxCfg c v => Sys2Proof.Machine.execCfeCtxCfg c v s
  | .commandStart iod => Sys2Proof.Machine.execCommandStart iod s
  | .nop k => Sys2Proof.Machine.execNop k s
  | .launch k ep => Sys2Proof.Machine.execLaunch k ep s
  | .folioOpen k => Sys2Proof.Machine.execFolioOpen k s
  | .folioPatch k ep => Sys2Proof.Machine.execFolioPatch k ep s
  | .folioPatchBegin k ep => Sys2Proof.Machine.execFolioPatchBegin k ep s
  | .folioClose k => Sys2Proof.Machine.execFolioClose k s
  | .copy k src => Sys2Proof.Machine.execCopy k src s
  | .hoist k => Sys2Proof.Machine.execHoist k s
  | .wait k => Sys2Proof.Machine.execWait k s
  | .collective k => Sys2Proof.Machine.execCollective k s
  | .commandComplete k wrOk => Sys2Proof.Machine.execCommandComplete k wrOk s
  | .commandTimeout k => Sys2Proof.Machine.execCommandTimeout k s
  | .commandDrainExpiry k => Sys2Proof.Machine.execCommandDrainExpiry k s
  | .fetchIdleEntry iod db => Sys2Proof.Machine.execFetchIdleEntry iod db s
  | .fetchWake iod => Sys2Proof.Machine.execFetchWake iod s
  | .fetchGateReopen iod => Sys2Proof.Machine.execFetchGateReopen iod s
  | .pennantOperation n => Sys2Proof.Machine.execPennantOperation n s
  | .penAlloc path => Sys2Proof.Machine.execPenAlloc path s
  | .penRelease path => Sys2Proof.Machine.execPenRelease path s
  | .pennantQuarantineEnd n => Sys2Proof.Machine.execPennantQuarantineEnd n s
  | .quiescentBlocked c => Sys2Proof.Machine.execQuiescentBlocked c s
  | .stallCensus c othersBlocked count => Sys2Proof.Machine.execStallCensus c othersBlocked count s
  | .portTraining port r => Sys2Proof.Machine.execPortTraining port r s
  | .flitReceive port bs fecOk => Sys2Proof.Machine.execFlitReceive port bs fecOk s
  | .retryRequest port fseq => Sys2Proof.Machine.execRetryRequest port fseq s
  | .linkRetryTimeout port => Sys2Proof.Machine.execLinkRetryTimeout port s
  | .laneSpare port lane => Sys2Proof.Machine.execLaneSpare port lane s
  | .portQuietEntry port => Sys2Proof.Machine.execPortQuietEntry port s
  | .portQuietWake port => Sys2Proof.Machine.execPortQuietWake port s
  | .packetForward port pk => Sys2Proof.Machine.execPacketForward port pk s
  | .packetResidenceTimeout port n => Sys2Proof.Machine.execPacketResidenceTimeout port n s
  | .portState did nb up => Sys2Proof.Machine.execPortState did nb up s
  | .put port pk => Sys2Proof.Machine.execPut port pk s
  | .get port pk => Sys2Proof.Machine.execGet port pk s
  | .hoistPacket port pk => Sys2Proof.Machine.execHoistPacket port pk s
  | .relHoistRelease port => Sys2Proof.Machine.execRelHoistRelease port s
  | .atomic port pk => Sys2Proof.Machine.execAtomic port pk s
  | .ack port pk => Sys2Proof.Machine.execAck port pk s
  | .data port pk => Sys2Proof.Machine.execData port pk s
  | .e2eTimeout tag => Sys2Proof.Machine.execE2eTimeout tag s
  | .reduceScatter k ins => Sys2Proof.Machine.execReduceScatter k ins s
  | .allGather k ins => Sys2Proof.Machine.execAllGather k ins s
  | .allReduce k ins => Sys2Proof.Machine.execAllReduce k ins s
  | .allToAll k ins => Sys2Proof.Machine.execAllToAll k ins s
  | .allToAllv k ins => Sys2Proof.Machine.execAllToAllv k ins s
  | .broadcast k ins => Sys2Proof.Machine.execBroadcast k ins s
  | .accumulate k => Sys2Proof.Machine.execAccumulate k s
  | .dispatch k => Sys2Proof.Machine.execDispatch k s
  | .combine k ins => Sys2Proof.Machine.execCombine k ins s
  | .reshard k => Sys2Proof.Machine.execReshard k s
  | .fenceNotice k member => Sys2Proof.Machine.execFenceNotice k member s
  | .coll port pk => Sys2Proof.Machine.execColl port pk s
  | .chunkAck t chunk => Sys2Proof.Machine.execChunkAck t chunk s
  | .chunkResend k chunk => Sys2Proof.Machine.execChunkResend k chunk s
  | .chunkTimeout k chunk => Sys2Proof.Machine.execChunkTimeout k chunk s
  | .progressSend k => Sys2Proof.Machine.execProgressSend k s
  | .progressPacket t tReal slow => Sys2Proof.Machine.execProgressPacket t tReal slow s
  | .abort t st rank => Sys2Proof.Machine.execAbort t st rank s
  | .claimCount t origin claims => Sys2Proof.Machine.execClaimCount t origin claims s
  | .grant t owner grants => Sys2Proof.Machine.execGrant t owner grants s
  | .gnExchange t sums => Sys2Proof.Machine.execGnExchange t sums s
  | .updateChunk k chunk => Sys2Proof.Machine.execUpdateChunk k chunk s
  | .updateHoldRelease k => Sys2Proof.Machine.execUpdateHoldRelease k s
  | .phase1Done k => Sys2Proof.Machine.execPhase1Done k s
  | .normExchange k member norm => Sys2Proof.Machine.execNormExchange k member norm s
  | .phase2Start k => Sys2Proof.Machine.execPhase2Start k s
  | .updateComplete k => Sys2Proof.Machine.execUpdateComplete k s
  | .parityDelta port pk => Sys2Proof.Machine.execParityDelta port pk s
  | .parityFlush iod n why => Sys2Proof.Machine.execParityFlush iod n why s
  | .shardHeaderRelease k => Sys2Proof.Machine.execShardHeaderRelease k s
  | .preconditionerFallback c group => Sys2Proof.Machine.execPreconditionerFallback c group s
  | .mgmtWatchdogExpiry => Sys2Proof.Machine.execMgmtWatchdogExpiry s
  | .functionDisable rq f => Sys2Proof.Machine.execFunctionDisable rq f s
  | .functionEnable rq f => Sys2Proof.Machine.execFunctionEnable rq f s
  | .disableDrainExpiry f => Sys2Proof.Machine.execDisableDrainExpiry f s
  | .functionMode rq f v => Sys2Proof.Machine.execFunctionMode rq f v s
  | .rbdSafeHoldEnter rq v => Sys2Proof.Machine.execRbdSafeHoldEnter rq v s
  | .rbdSafeHoldExit rq v => Sys2Proof.Machine.execRbdSafeHoldExit rq v s
  | .rbdWarmReset rq v => Sys2Proof.Machine.execRbdWarmReset rq v s
  | .rbdColdReset rq v cool => Sys2Proof.Machine.execRbdColdReset rq v cool s
  | .rbdContextReset rq v => Sys2Proof.Machine.execRbdContextReset rq v s
  | .rbdRole rq v => Sys2Proof.Machine.execRbdRole rq v s
  | .rbdHalt rq v => Sys2Proof.Machine.execRbdHalt rq v s
  | .emergencyHalt mask => Sys2Proof.Machine.execEmergencyHalt mask s
  | .rbdEpochStop rq v => Sys2Proof.Machine.execRbdEpochStop rq v s
  | .rbdResume rq v => Sys2Proof.Machine.execRbdResume rq v s
  | .rbdCutCtl c v => Sys2Proof.Machine.execRbdCutCtl c v s
  | .cutCopyComplete c => Sys2Proof.Machine.execCutCopyComplete c s
  | .stepMarker c sender step record => Sys2Proof.Machine.execStepMarker c sender step record s
  | .stepMarkerAck c holder => Sys2Proof.Machine.execStepMarkerAck c holder s
  | .cutGlobalSeal c step mismatch => Sys2Proof.Machine.execCutGlobalSeal c step mismatch s
  | .plannedRankMove rank spare => Sys2Proof.Machine.execPlannedRankMove rank spare s
  | .heartbeatSend => Sys2Proof.Machine.execHeartbeatSend s
  | .heartbeat did => Sys2Proof.Machine.execHeartbeat did s
  | .heartbeatTimeout did => Sys2Proof.Machine.execHeartbeatTimeout did s
  | .suspicion watcher did => Sys2Proof.Machine.execSuspicion watcher did s
  | .probeTimeout did => Sys2Proof.Machine.execProbeTimeout did s
  | .recoveryHaltRebind c rank spare short => Sys2Proof.Machine.execRecoveryHaltRebind c rank spare short s
  | .recoveryStateRebuild c image => Sys2Proof.Machine.execRecoveryStateRebuild c image s
  | .recoveryResume c => Sys2Proof.Machine.execRecoveryResume c s
  | .rbdRecoveryConfirm rq v => Sys2Proof.Machine.execRbdRecoveryConfirm rq v s
  | .transientLoss c rank => Sys2Proof.Machine.execTransientLoss c rank s
  | .coreGateEntry core acc => Sys2Proof.Machine.execCoreGateEntry core acc s
  | .coreWake core => Sys2Proof.Machine.execCoreWake core s
  | .engineGateEntry iod => Sys2Proof.Machine.execEngineGateEntry iod s
  | .engineWake iod => Sys2Proof.Machine.execEngineWake iod s
  | .stackSelfRefreshEntry stack => Sys2Proof.Machine.execStackSelfRefreshEntry stack s
  | .stackWake stack => Sys2Proof.Machine.execStackWake stack s
  | .standbyEntry => Sys2Proof.Machine.execStandbyEntry s
  | .pwrStandbyRequest rq v => Sys2Proof.Machine.execPwrStandbyRequest rq v s
  | .pwrWakeRequest rq v => Sys2Proof.Machine.execPwrWakeRequest rq v s
  | .standbyWake code => Sys2Proof.Machine.execStandbyWake code s
  | .clkCoreDiv rq v => Sys2Proof.Machine.execClkCoreDiv rq v s
  | .powerSample watts => Sys2Proof.Machine.execPowerSample watts s
  | .limiterStep => Sys2Proof.Machine.execLimiterStep s
  | .limiterRestoreStep => Sys2Proof.Machine.execLimiterRestoreStep s
  | .dieTempReading die t => Sys2Proof.Machine.execDieTempReading die t s
  | .dieThrottleStep die => Sys2Proof.Machine.execDieThrottleStep die s
  | .read path => Sys2Proof.Machine.execRead path s
  | .write path => Sys2Proof.Machine.execWrite path s
  | .readSeg path => Sys2Proof.Machine.execReadSeg path s
  | .writeSeg path => Sys2Proof.Machine.execWriteSeg path s
  | .segmentTimeout obj => Sys2Proof.Machine.execSegmentTimeout obj s
  | .describe path => Sys2Proof.Machine.execDescribe path s
  | .next path => Sys2Proof.Machine.execNext path s
  | .sessionOpen path => Sys2Proof.Machine.execSessionOpen path s
  | .sessionAuth path => Sys2Proof.Machine.execSessionAuth path s
  | .sessionClose path => Sys2Proof.Machine.execSessionClose path s
  | .sessionIdleTimeout n => Sys2Proof.Machine.execSessionIdleTimeout n s
  | .authBlockExpiry path => Sys2Proof.Machine.execAuthBlockExpiry path s
  | .event dest => Sys2Proof.Machine.execEvent dest s
  | .map path => Sys2Proof.Machine.execMap path s
  | .unmap path => Sys2Proof.Machine.execUnmap path s
  | .coreSet path => Sys2Proof.Machine.execCoreSet path s
  | .mgmtMboxGo v => Sys2Proof.Machine.execMgmtMboxGo v s
  | .mgmtSvcGo c v => Sys2Proof.Machine.execMgmtSvcGo c v s
  | .t1sFrame bs bcast => Sys2Proof.Machine.execT1sFrame bs bcast s
  | .forward path => Sys2Proof.Machine.execForward path s
  | .forwardTimeout n => Sys2Proof.Machine.execForwardTimeout n s
  | .mgmtConfigStore rq v => Sys2Proof.Machine.execMgmtConfigStore rq v s
  | .mgmtConfigClear rq v => Sys2Proof.Machine.execMgmtConfigClear rq v s
  | .mgmtFwActivate rq v => Sys2Proof.Machine.execMgmtFwActivate rq v s
  | .mgmtFwCommit rq v => Sys2Proof.Machine.execMgmtFwCommit rq v s
  | .wearManagement aged bad => Sys2Proof.Machine.execWearManagement aged bad s
  | .hangDumpTrigger cause => Sys2Proof.Machine.execHangDumpTrigger cause s
  | .hangDumpComplete => Sys2Proof.Machine.execHangDumpComplete s
  | .obsDumpRequest rq v => Sys2Proof.Machine.execObsDumpRequest rq v s
  | .obsDumpRelease rq v => Sys2Proof.Machine.execObsDumpRelease rq v s
  | .obsTsMeasure rq v => Sys2Proof.Machine.execObsTsMeasure rq v s
  | .tsExchange port t1 t2 t3 t4 => Sys2Proof.Machine.execTsExchange port t1 t2 t3 t4 s
  | .controlCheckFailure unit lost => Sys2Proof.Machine.execControlCheckFailure unit lost s
  | .heldParityRebuild c image => Sys2Proof.Machine.execHeldParityRebuild c image s
  | .forwardResponse n bs => Sys2Proof.Machine.execForwardResponse n bs s
  | .sriovNumvfs n => Sys2Proof.Machine.execSriovNumvfs n s
  | .undefinedInstruction core w => Sys2Proof.Machine.execUndefinedInstruction core w s

end Sys2Proof.Machine
end

