-- ==== Sys2Proof/Safety.lean ====
section
/-! DEFINITION. What a safe run is: a run that neither faults nor is refused, in memories of canonical form. -/

namespace Sys2Proof
open Sys2Proof.Machine

/-- Every byte memory of a core is in canonical form. -/
def Machine.CoreState.memWf (cs : CoreState) : Bool := cs.tm.wf && cs.am.wf

/-- Every byte memory of the module's striped memory and cores is in canonical form. -/
def Machine.State.memWf (s : State) : Bool := s.mem.units.wf && s.cores.all (fun e => e.2.memWf)

/-- A step that answers a next state. -/
def Machine.State.steps (s : State) : Prop := ∃ t, step s = .next t

end Sys2Proof
end

