-- ==== Sys2Proof/Certificates/Slice0/Obligations.lean ====
section
/-! DEFINITION. Statements about the model, for the provers, and the words they are made of. Each docstring names the rules of spec/ that a
statement rests on; where a statement rests on a choice of the model, it names the log entry. -/

namespace Sys2Proof.Claim
open Sys2Proof Sys2Proof.Machine

/-! ## When a tile instruction issues -/

/-- Core L of the module meets an instruction: its task issues, the word at PC is that instruction, no error mark stands on it,
and no ACQ wait holds issue (R32, R54, R186). -/
def meets (s : State) (L cls opc : Nat) (f : TileFields) : Prop :=
  coreOk L = true ∧ s.issuing L = true ∧ Tab.get 0 (s.core L).code (s.core L).pc = tileWord cls opc f ∧
    (s.core L).acqHold = false ∧ Tab.get 0 (s.core L).imemErr (s.core L).pc = 0

/-- The predicate lets the instruction execute (R33, R34). -/
def runs (cs : CoreState) (f : TileFields) : Prop :=
  (peBit f = false ∧ pnBit f = false) ∨ (peBit f = true ∧ cs.pPend = false ∧ cs.p ≠ pnBit f)

/-- The task's code goes on after this instruction (R38). -/
def follows (s : State) (L : Nat) : Prop := ∃ t, (s.core L).task = some t ∧ (s.core L).pc + 1 < t.codeLen

/-- Nothing that the instruction declares holds it or ends the task (R35, R36, R275). -/
def unheld (cs : CoreState) (u : TUnit) (p : Plan) : Prop :=
  (∀ r ∈ p.aUse, r ∉ cs.aPend) ∧ (∀ r ∈ p.ctl, cs.Ap r = false) ∧ p.check = none ∧
    (u ≠ .seq → cs.queued u < 16) ∧ cs.conflict p = false ∧ p.hold = false

/-- An instruction of a unit issues and executes. -/
def ready (s : State) (L cls opc : Nat) (f : TileFields) (u : TUnit) (p : Plan) : Prop :=
  meets s L cls opc f ∧ runs (s.core L) f ∧ follows s L ∧ unheld (s.core L) u p

/-- The state in which an instruction has entered its unit's queue. -/
def entered (s : State) (L : Nat) (u : TUnit) (p : Plan) : State := s.modCore L (fun cs => cs.issued.push u p)

/-- The state after an instruction whose effect `act` lies in its core alone: it has entered its unit's queue, and PC has moved to
the next instruction. -/
def after (s : State) (L : Nat) (u : TUnit) (p : Plan) (act : CoreState → CoreState) : State :=
  s.setCore L { act ((s.core L).issued.push u p) with pc := (s.core L).pc + 1 }

/-- One row of VEC: what it executes, whenever it issues. -/
def vecRow (mk : Nat → TileFields → Instr) (opc : Nat) (ok : TileFields → Bool) (plan : TileFields → CoreState → Plan)
    (act : TileFields → CoreState → CoreState) : Prop :=
  ∀ (s : State) (L : Nat) (f : TileFields), ok f = true → ready s L 2 opc f .vec (plan f (s.core L)) →
    exec (mk L f) s = .next (after s L .vec (plan f (s.core L)) (fun cs => act f ((cs.vxuStart opc false).vecEcc opc f)))

/-- A control instruction issues and executes; it enters no queue. -/
def readyCtl (s : State) (L opc : Nat) (f : TileFields) (p : Plan) : Prop := ready s L 5 opc f .seq p

/-- One row of CTL that only writes registers of its core: what it executes, whenever it issues. -/
def ctlRow (mk : Nat → TileFields → Instr) (opc : Nat) (ok : TileFields → Bool) (plan : TileFields → CoreState → Plan)
    (act : TileFields → CoreState → CoreState) : Prop :=
  ∀ (s : State) (L : Nat) (f : TileFields), ok f = true → readyCtl s L opc f (plan f (s.core L)) →
    exec (mk L f) s = .next (s.setCore L { act f (s.core L).issued with pc := (s.core L).pc + 1 })

/-- One row of MXU: what it executes, whenever it issues. -/
def mxuRow (mk : Nat → TileFields → Instr) (opc : Nat) (ok : TileFields → Bool) (plan : TileFields → CoreState → Plan)
    (act : TileFields → CoreState → CoreState) : Prop :=
  ∀ (s : State) (L : Nat) (f : TileFields), cfOk f = true → ok f = true → ready s L 1 opc f .mxu (plan f (s.core L)) →
    exec (mk L f) s = .next (after s L .mxu (plan f (s.core L)) (fun cs => cs.mxuAct (mxuPart f) (act f)))

/-- One row of RED: what it executes, whenever it issues. Where its results overlap its source, a free number that depends on the
operands alone orders them (R96, R121; log 14). -/
def redOp (mk : Nat → TileFields → Instr) (opc : Nat) (ok : TileFields → Bool) (plan : TileFields → CoreState → Plan)
    (act : TileFields → Nat → CoreState → CoreState) : Prop :=
  ∀ (s : State) (L : Nat) (f : TileFields), ok f = true → ready s L 6 opc f .vec (plan f (s.core L)) →
    exec (mk L f) s = .next (after s L .vec (plan f (s.core L)) (fun cs => act f (redOrder f (plan f cs) cs) (cs.vxuStart opc true)))

/-- One instruction of a unit whose effect may reach beyond its core: what it executes, whenever it issues. -/
def unitRow (mk : Nat → TileFields → Instr) (cls opc : Nat) (u : TUnit) (ok : TileFields → Bool) (plan : Nat → TileFields → State → Plan)
    (act : Nat → TileFields → State → State) : Prop :=
  ∀ (s : State) (L : Nat) (f : TileFields), ok f = true → ready s L cls opc f u (plan L f s) →
    exec (mk L f) s = .next ((act L f (entered s L u (plan L f s))).advance L)

/-- One instruction that waits at a pennant: its message is on its way, and PC moves on. -/
def waitRow (mk : Nat → TileFields → Instr) (opc : Nat) (test : Bool) (op : TileFields → PenOp) : Prop :=
  ∀ (s : State) (L : Nat) (f : TileFields) (k : TaskInfo), waitOk test f = true → (s.core L).task = some k →
    ready s L 4 opc f .syn { waitPlan f with blocks := !test } →
    ∃ t, exec (mk L f) s = .next t ∧ (t.core L).pc = (s.core L).pc + 1 ∧
      (t.core L).inflight = ((s.core L).issued.push .syn { waitPlan f with blocks := !test }).inflight ∧
      t.pen.msgs = s.pen.msgs ++ [⟨k.key.c, handleId ((s.core L).A (synPR f)), some (handleGen ((s.core L).A (synPR f))),
        .core L (s.core L).seqNo false, op f⟩]

/-- Command k of the module has started and may act now as opcode `op` (R154). -/
def mayAct (s : State) (k : CmdKey) (op : Nat) (m : Cmd) : Prop :=
  ctxOk k.c = true ∧ (ringOk k.q || k.q == 15) = true ∧ s.alive = true ∧ s.findCmd k = some m ∧
    m.begun = false ∧ m.finished = false ∧ m.draining = false ∧ m.op = op

/-- The state in which command k is acting. -/
def acting (s : State) (k : CmdKey) : State := s.modCmd k (fun m => { m with begun := true })

/-- The state in which a launch that its start has not bound reads its plan: it has bound its folio's current generation (R162). -/
def binding (s : State) (k : CmdKey) (m : Cmd) (fo : Folio) : State :=
  (((acting s k).modCmd k (fun x => { x with handle := fieldAt m.desc 0x10 1 })).modCtx k.c (fun x =>
    { x with folios := Tab.put x.folios (fieldAt m.desc 0x10 1) fo.bind })).modCmd k (fun m => { m with gen := fo.current, bound := true })

/-- Every task of a plan names a working core of the context's core set (R18, R276). -/
def mayDispatch (t : State) (k : CmdKey) (p : LaunchPlan) : Prop :=
  ∀ r ∈ p.recs, NSet.mem (t.ctx k.c).coreSet (trLcore r) = true ∧ (t.core (trLcore r)).failed = false

/-- From t0 a launch whose endpaper can be read, and whose blocks can be filled, dispatches its tasks in a next state (steps 2 to 5 of
R162). -/
def launched (o : Host.Outcome State Fault Refusal) (t0 : State) (k : CmdKey) (m : Cmd) (gen : Nat) (p : LaunchPlan) (blks : List Nat)
    (h : HostRead) : Prop :=
  let t1 := (t0.modCtx k.c (fun x => { x with arenaUsed := NSet.union x.arenaUsed blks })).modCmd k (fun m => { m with arena := blks })
  let e := t1.endpaper k (fieldAt m.desc 0x18 8) (fieldAt m.desc 0x14 2) (fieldAt m.desc 0x12 1 % 2 == 1) h
  ∀ b, e.1 = .ok b →
    let l := e.2.epEntries k true p.sites b (fieldAt m.desc 0x14 2)
    ∀ ps, l.1 = .ok ps →
      let f := l.2.fillBlocks k (t1.ctx k.c).arenaBase.toNat p ps blks
      f.1 = none → ∃ t, o = .next t ∧
        t = (f.2.2.modCmd k (fun m => { m with tasksLeft := p.recs.length })).dispatch k m (fieldAt m.desc 0x10 1) gen p f.2.1 ∧
        ∀ L, (t.core L).queue.length = (f.2.2.core L).queue.length + (p.recs.filter (fun r => trLcore r == L)).length

/-- Every stack is ONLINE with nothing stale and no throttle. -/
def allOnline (s : State) : Prop := ∀ n, (s.stk n).st = 0 ∧ (s.stk n).stale = [] ∧ (s.stk n).throttled = false

/-- A well-formed packet of type ty for this module arrives through a port of the module in operation, its own packets' port 76 among
them, from a module that is not lost (R204, R216, R279). -/
def arrives (s : State) (port ty : Nat) (pk : List Byte) : Prop :=
  portInOk port = true ∧ s.alive = true ∧ (hdrOf pk).ty = ty ∧ (hdrOf pk).dst = s.myDid ∧ s.didLost (hdrOf pk).src = false ∧
    s.pwr.state = 0 ∧ pkOk pk = true

/-- The collective of key k runs and is not held (R239, R251). -/
def running (s : State) (k : CollKey) (r : CollRun) : Prop :=
  ctxOk k.c = true ∧ s.alive = true ∧ s.findRun k = some r ∧ r.held = false

/-- A packet of the running collective r, not early and of its epoch and check, comes to a port whose buffers hold nothing back (R225, R241). -/
def comes (s : State) (t : CollTag) (r : CollRun) : Prop :=
  portInOk t.port = true ∧ s.didLost t.src = false ∧ s.pwr.state = 0 ∧ s.coll.stuck = [] ∧ t.epoch = (s.ctx t.c).epoch ∧
    running s ⟨t.c, t.id⟩ r ∧ r.updHeld = false ∧ t.chk = r.check

/-- The state in which a packet of a collective has left its port's buffer (R206), its engine group awake (R310). -/
def passed (s : State) (t : CollTag) (m : CollMsg) : State :=
  (s.wakeEngine (portDie t.port)).passUnits t.port (4 + bit t.vc5) (msgUnits m)

/-- The collective of key k runs as operation `op`, and its data's work is not done. -/
def working (s : State) (k : CollKey) (op : Nat) (r : CollRun) : Prop :=
  running s k r ∧ r.d.op = op ∧ r.dataDone = false

/-- What the members contribute to a reduction, each element with its poison: this member's own elements, the other members' as they
sent them. -/
def gathered (r : CollRun) (ins : List MemberIn) (own : List (Nat × Bool)) : List (List (Nat × Bool)) :=
  (List.range r.d.n).map (fun m => if m = r.me then own else contribution ins r.d.wtype r.d.count m)

/-- The reduction of R229 over the members' elements: the value and the poison of each element, `owner` naming the member that the
element's tree ends at. -/
def reducedTo (r : CollRun) (ins : List MemberIn) (owner : Nat → Nat) (own : List (Nat × Bool)) : List (Nat × Bool) :=
  (r.reduceAll owner (gathered r ins own)).lists.headD []

/-- This member's block of the reduction of a REDUCE_SCATTER. -/
def reducedBlock (r : CollRun) (ins : List MemberIn) (own : List (Nat × Bool)) : List (Nat × Bool) :=
  ((reducedTo r ins (fun e => e / r.d.count) own).drop (r.me * r.d.count)).take r.d.count

/-- Bytes that a collective reads whole, and the state that the reading leaves, slowed where a stack slowed it (R236). -/
def reads (s : State) (r : CollRun) (va n : Nat) (b : List Byte) (t : State) : Prop :=
  ∃ t0 : State, s.rdCmd r.key va n [.r] = (.ok b, t0) ∧ t = t0.collSlow r.key (s.vaRead r.key.c va n [.r]).1.slow

/-- The statistics of a gradient group whose conversion overflows (Table 10.8). -/
def noiseOverflows (r : CollRun) (sl sg : Fp.Val) : List (Nat × Bool) :=
  (gnStats r.d.n (r.d.f 0x48 4) (r.d.f 0x4C 4) sl sg).1.filter (·.2)

/-- The record of Table 10.8 for a context's gradient group. -/
def noiseRecord (r : CollRun) (sl sg : Fp.Val) : List Byte :=
  let t := gnStats r.d.n (r.d.f 0x48 4) (r.d.f 0x4C 4) sl sg
  natLe 2 r.d.pgroup ++ natLe 2 (1 + 2 * bit t.2) ++ natLe 4 r.d.id ++ natLe 8 (Fp.enc Fp.f64 sl) ++ natLe 8 (Fp.enc Fp.f64 sg) ++
    natLe 4 (r.d.f 0x48 4) ++ natLe 4 (r.d.f 0x4C 4) ++ t.1.flatMap (fun x => natLe 4 x.1) ++ natLe 4 r.d.n ++ List.replicate 8 0

/-- The management controller runs and accepts a write of v to an object from this requester (R327, R335). -/
def accepts (s : State) (rq : Req) (idx sub v : Nat) : Prop := s.mcOn = true ∧ s.valueRefusal rq idx sub v = none

/-- The state in which the management controller has taken the request at the head of a path's queue and counted it in its session. -/
def taken (s : State) (p : UmPath) (rq : UmReq) (rest : List UmReq) : State :=
  (({ s with um.queues := Tab.put s.um.queues (pathNo p) rest } : State).settleDrains).countFrame rq

/-- The request at the head of a path's queue is one of operation `op` that no check of every request stops (R332, R333, R336). -/
def serves (s : State) (p : UmPath) (op : Nat) (rq : UmReq) (rest : List UmReq) : Prop :=
  (∀ c, p = .svc c → ctxOk c = true) ∧ s.mcOn = true ∧ s.umQueue p = rq :: rest ∧ rq.path = p ∧ frOp rq.bs = op ∧ frFwd rq.bs = false ∧
    (({ s with um.queues := Tab.put s.um.queues (pathNo p) rest } : State).settleDrains).precheck rq = .pass

/-- A service operation whose payload has its size, names context c, and comes from a path that may name it (R345, R346). -/
def svcFits (t : State) (rq : UmReq) (c : Nat) : Prop :=
  frLen rq.bs = svcLen (frOp rq.bs) ∧ fieldAt (t.frPayload rq.bs) 0 1 = c ∧ c < 16 ∧ fieldAt (t.frPayload rq.bs) 1 7 = 0 ∧
    (∀ d, rq.path = .svc d → d = c)

/-- The word of 32 bits at lane i of a vector register. -/
def lane (v : BitVec 2048) (i : Nat) : BitVec 32 := v.extractLsb' (32 * i) 32

/-- One integer row of VEC: below VL, an active lane takes the operation of its operands modulo 2^32, and an inactive one is 0 with Z and keeps
its value without; from VL on every lane keeps its value (R107). -/
def intRow (mk : Nat → TileFields → Instr) (opc : Nat) (op : BitVec 32 → BitVec 32 → BitVec 32) : Prop :=
  ∀ (s : State) (L : Nat) (f : TileFields), vecOk (useBin etArith) f = true → (vET f = 7 ∨ vET f = 9) → ready s L 2 opc f .vec {} →
    ∃ t, exec (mk L f) s = .next t ∧ ∀ i, i < 64 → lane ((t.core L).vreg (vVD f)) i =
      if i < (s.core L).vl then
        (if vMU f = false ∨ ((s.core L).mreg (vMS f)).getLsbD i = true then
          op (lane ((s.core L).vreg (vVA f)) i)
            (if vSB f then BitVec.ofNat 32 (vIMM f) else lane ((s.core L).vreg (vVB f)) i)
        else if vZ f then 0 else lane ((s.core L).vreg (vVD f)) i)
      else lane ((s.core L).vreg (vVD f)) i

/-- What a vector, reduction or matrix instruction leaves in its core: loop counters, P, code, the task and its queue, and the core's
place and gate. -/
def coreKept (a b : CoreState) : Prop :=
  b.l = a.l ∧ b.p = a.p ∧ b.code = a.code ∧ b.task = a.task ∧ b.queue = a.queue ∧ b.ended = a.ended ∧
    b.physIdx = a.physIdx ∧ b.gate = a.gate ∧ b.failed = a.failed ∧ b.evSel = a.evSel ∧ b.hoistsOut = a.hoistsOut

/-- Between two states, no other core and nothing outside the cores but the count of free values changes. -/
def onlyCore (L : Nat) (s t : State) : Prop :=
  (∀ j, j ≠ L → t.core j = s.core j) ∧ { t with cores := s.cores, freeCtr := s.freeCtr } = s

/-- The frame of one row: what it leaves, whenever it issues; `own` says what it leaves among the core's registers and memories. -/
def frameRow (mk : Nat → TileFields → Instr) (cls opc : Nat) (u : TUnit) (ok : TileFields → Bool) (plan : TileFields → CoreState → Plan)
    (own : TileFields → CoreState → CoreState → Prop) : Prop :=
  ∀ (s : State) (L : Nat) (f : TileFields), ok f = true → ready s L cls opc f u (plan f (s.core L)) →
    ∃ t, exec (mk L f) s = .next t ∧ onlyCore L s t ∧ coreKept (s.core L) (t.core L) ∧ (t.core L).pc = (s.core L).pc + 1 ∧
      own f (s.core L) (t.core L)

/-- The core's memories and the matrix unit's state stay. -/
def memsKept (a b : CoreState) : Prop := b.tm = a.tm ∧ b.am = a.am ∧ b.mode = a.mode ∧ b.parts = a.parts

/-- Of the registers V, M and A only V[VD] changes, and VL stays; the seed may advance. -/
def onlyVdSeed (f : TileFields) (a b : CoreState) : Prop :=
  memsKept a b ∧ (∀ r, r ≠ vVD f → b.vreg r = a.vreg r) ∧ b.m = a.m ∧ b.a = a.a ∧ b.vl = a.vl

/-- Of the registers V, M and A only V[VD] changes, and VL and the seed stay. -/
def onlyVd (f : TileFields) (a b : CoreState) : Prop := onlyVdSeed f a b ∧ b.seed = a.seed

/-- Of the registers V, M and A only M[VD] changes, and VL stays. -/
def onlyMd (f : TileFields) (a b : CoreState) : Prop :=
  memsKept a b ∧ b.v = a.v ∧ (∀ r, r ≠ vVD f % 8 → b.mreg r = a.mreg r) ∧ b.a = a.a ∧ b.vl = a.vl ∧ b.seed = a.seed

/-- Of the registers V, M and A only A[AR] changes, and VL stays. -/
def onlyAr (f : TileFields) (a b : CoreState) : Prop :=
  memsKept a b ∧ b.v = a.v ∧ b.m = a.m ∧ (∀ r, r ≠ vAR f → b.A r = a.A r) ∧ b.vl = a.vl ∧ b.seed = a.seed

/-- Every byte of tile memory and of accumulator memory outside the destinations of a plan reads as before. -/
def outside (p : Plan) (a b : CoreState) : Prop :=
  (∀ x, (∀ e ∈ p.dst, e.1 = Space.tm → x < e.2.1 ∨ e.2.1 + e.2.2 ≤ x) → b.tm.read x = a.tm.read x) ∧
  (∀ x, (∀ e ∈ p.dst, e.1 = Space.am → x < e.2.1 ∨ e.2.1 + e.2.2 ≤ x) → b.am.read x = a.am.read x)

/-- What an instruction that stores leaves beside memory. -/
def storeKept (a b : CoreState) : Prop := b.mode = a.mode ∧ b.parts = a.parts ∧ b.v = a.v ∧ b.m = a.m ∧ b.vl = a.vl


/-- A value, infinities taken as beyond every number; NaN has no place. -/
def place : Fp.Val → Option (Int × ℚ)
  | .nan => none
  | .inf s => some (if s then -1 else 1, 0)
  | .fin s m e => some (0, (if s then -1 else 1) * (m : ℚ) * (2 : ℚ) ^ e)

/-- The order of two places. -/
def below (a b : Int × ℚ) : Prop := a.1 < b.1 ∨ (a.1 = b.1 ∧ a.2 < b.2)

/-! ## The parts of the statements -/

/-- Whenever vec.add, sub, mul, fma, max, min, abs, neg, div and sqrt issue, each executes: the instruction enters its queue, its effect lies in its core alone,
and PC moves on (R34, R110). -/
def vecArithmeticCompletes : Prop :=
  vecRow .vecAdd 0x08 (fun f => vecOk (useBin etArith) f)
    (fun _ => noPlan) (fun f => vecBin f (arith2 (vET f) Fp.add (· + ·))) ∧
  vecRow .vecSub 0x09 (fun f => vecOk (useBin etArith) f)
    (fun _ => noPlan) (fun f => vecBin f (arith2 (vET f) Fp.sub (· - ·))) ∧
  vecRow .vecMul 0x0A (fun f => vecOk (useBin etArith) f)
    (fun _ => noPlan) (fun f => vecBin f (arith2 (vET f) Fp.mul (· * ·))) ∧
  vecRow .vecFma 0x0B (fun f => vecOk { useBin etFp with vc := true } f)
    (fun _ => noPlan) (fun f => vecMap f (fun cs i =>
      let a := cs.opA f i
      let b := cs.opB f i
      let c := cs.el (etBits (vET f)) (vVC f) i
      let d := Fp.decode (etFmt (vET f))
      (Fp.enc (etFmt (vET f)) (Fp.add (Fp.mul (d a.1) (d b.1)) (d c.1)), a.2 || b.2 || c.2))) ∧
  vecRow .vecMax 0x0C (fun f => vecOk (useBin etArith) f)
    (fun _ => noPlan) (fun f => vecBin f (arith2 (vET f) Fp.max max)) ∧
  vecRow .vecMin 0x0D (fun f => vecOk (useBin etArith) f)
    (fun _ => noPlan) (fun f => vecBin f (arith2 (vET f) Fp.min min)) ∧
  vecRow .vecAbs 0x0E (fun f => vecOk (useUn etSigned) f)
    (fun _ => noPlan) (fun f => vecUn f (arith1 (vET f) Fp.abs (fun i => if i < 0 then -i else i))) ∧
  vecRow .vecNeg 0x0F (fun f => vecOk (useUn etSigned) f)
    (fun _ => noPlan) (fun f => vecUn f (arith1 (vET f) Fp.neg (fun i => -i))) ∧
  vecRow .vecDiv 0x25 (fun f => vecOk (useBin etFp) f)
    (fun _ => noPlan) (fun f => vecBin f (arith2 (vET f) Fp.div (fun _ _ => 0))) ∧
  vecRow .vecSqrt 0x26 (fun f => vecOk (useUn etFp) f)
    (fun _ => noPlan) (fun f => vecUn f (arith1 (vET f) Fp.sqrt id))

/-- Whenever vec.exp2, log2, rsqrt, recip and tanh issue, each executes: the instruction enters its queue, its effect lies in its core alone,
and PC moves on (R34, R110). -/
def vecTranscendentalCompletes : Prop :=
  vecRow .vecExp2 0x20 (fun f => vecOk (useUn etFp) f)
    (fun _ => noPlan) (fun f => vecUn f (trans (vET f) Fp.exp2W)) ∧
  vecRow .vecLog2 0x21 (fun f => vecOk (useUn etFp) f)
    (fun _ => noPlan) (fun f => vecUn f (trans (vET f) Fp.log2W)) ∧
  vecRow .vecRsqrt 0x22 (fun f => vecOk (useUn etFp) f)
    (fun _ => noPlan) (fun f => vecUn f (trans (vET f) Fp.rsqrtW)) ∧
  vecRow .vecRecip 0x23 (fun f => vecOk (useUn etFp) f)
    (fun _ => noPlan) (fun f => vecUn f (trans (vET f) Fp.recipW)) ∧
  vecRow .vecTanh 0x24 (fun f => vecOk (useUn etFp) f)
    (fun _ => noPlan) (fun f => vecUn f (trans (vET f) Fp.tanhW))

/-- Whenever vec.and, or, xor, shl, shr, sra, sel, bcast and iota issue, each executes: the instruction enters its queue, its effect lies in its core alone,
and PC moves on (R34, R110). -/
def vecBitwiseCompletes : Prop :=
  vecRow .vecAnd 0x10 (fun f => vecOk (useBin etAny) f)
    (fun _ => noPlan) (fun f => vecBin f (fun a b => a &&& b)) ∧
  vecRow .vecOr 0x11 (fun f => vecOk (useBin etAny) f)
    (fun _ => noPlan) (fun f => vecBin f (fun a b => a ||| b)) ∧
  vecRow .vecXor 0x12 (fun f => vecOk (useBin etAny) f)
    (fun _ => noPlan) (fun f => vecBin f (fun a b => a ^^^ b)) ∧
  vecRow .vecShl 0x13 (fun f => vecOk (useBin etInt) f)
    (fun _ => noPlan) (fun f => vecBin f (fun a b => (a <<< (b % 32)) % 2 ^ 32)) ∧
  vecRow .vecShr 0x14 (fun f => vecOk (useBin etInt) f)
    (fun _ => noPlan) (fun f => vecBin f (fun a b => a >>> (b % 32))) ∧
  vecRow .vecSra 0x15 (fun f => vecOk (useBin etInt) f)
    (fun _ => noPlan) (fun f => vecBin f (fun a b => ((BitVec.ofNat 32 a).sshiftRight (b % 32)).toNat)) ∧
  vecRow .vecSel 0x16 (fun f => vecOk { useBin etAny with mu := false } f)
    (fun _ => noPlan) (fun f => vecMap f (fun cs i =>
      let e := if (cs.mreg (vMS f)).getLsbD i then cs.opA f i else cs.opB f i
      (e.1, e.2 || (cs.mpois (vMS f)).getLsbD i))) ∧
  vecRow .vecBcast 0x04 (fun f => vecOk { vd := .vec, z := true, ms := true, mu := true, ar := true, ets := etArith } f)
    (fun f => fun _ => { aUse := [vAR f] }) (fun f => vecMap f (fun cs _ => (cs.A (vAR f), cs.Ap (vAR f)))) ∧
  vecRow .vecIota 0x05 (fun f => vecOk { vd := .vec, z := true, ms := true, mu := true, ets := etInt, imm := 0xFFFFFFFF } f)
    (fun _ => noPlan) (fun f => vecMap f (fun _ i => (i + vIMM f, false)))

/-- Whenever vec.cmp, mand, mor, mxor, mnot, mpop and mfirst issue, each executes: the instruction enters its queue, its effect lies in its core alone,
and PC moves on (R34, R110). -/
def vecMaskCompletes : Prop :=
  vecRow .vecCmp 0x18 (fun f => vecOk { useBin etArith with vd := .mask, sb := false, imm := 7 } f && vIMM f != 7)
    (fun _ => noPlan) (fun f => fxVecCmp f) ∧
  vecRow .vecMand 0x19 (fun f => vecOk useMask2 f)
    (fun _ => noPlan) (fun f => maskOp f (· &&& ·) true) ∧
  vecRow .vecMor 0x1A (fun f => vecOk useMask2 f)
    (fun _ => noPlan) (fun f => maskOp f (· ||| ·) true) ∧
  vecRow .vecMxor 0x1B (fun f => vecOk useMask2 f)
    (fun _ => noPlan) (fun f => maskOp f (· ^^^ ·) true) ∧
  vecRow .vecMnot 0x1C (fun f => vecOk { vd := .mask, va := .mask } f)
    (fun _ => noPlan) (fun f => maskOp f (fun a _ => ~~~ a) false) ∧
  vecRow .vecMpop 0x1D (fun f => vecOk useMaskA f)
    (fun f => fun _ => { aUse := [vAR f], aDst := some (vAR f) }) (fun f => fxMaskA f (fun l _ => l.length)) ∧
  vecRow .vecMfirst 0x1E (fun f => vecOk useMaskA f)
    (fun f => fun _ => { aUse := [vAR f], aDst := some (vAR f) }) (fun f => fxMaskA f (fun l n => (l[0]?).getD n))

/-- Whenever vec.perm, perm2, shuf, pack, unpack, compress, expand and cvt issue, each executes: the instruction enters its queue, its effect lies in its core alone,
and PC moves on (R34, R110). -/
def vecPermuteCompletes : Prop :=
  vecRow .vecPerm 0x28 (fun f => vecOk (useBin etAny) f)
    (fun _ => noPlan) (fun f => fun cs => vecGather f (cs.nEl f) (cs.opB f) (cs.opA f) cs) ∧
  vecRow .vecPerm2 0x29 (fun f => vecOk { useBin etAny with vc := true } f)
    (fun _ => noPlan) (fun f => fun cs => vecGather f (2 * cs.nEl f) (fun i => cs.el (etBits (vET f)) (vVC f) i) (cs.catAB f (cs.nEl f)) cs) ∧
  vecRow .vecShuf 0x2A (fun f => shufOk f)
    (fun f => fun cs => if vIMM f % 16 = 1 ∧ cs.nEl f % 2 = 1 then { check := some St.invalid } else {}) (fun f => fun cs => vecGather f (2 * cs.nEl f) (fun i => (shufIx (vIMM f) (cs.nEl f) i, false)) (cs.catAB f (cs.nEl f)) cs) ∧
  vecRow .vecPack 0x2B (fun f => vecOk (useBin [4, 7]) f)
    (fun _ => noPlan) (fun f => fxVecPack f) ∧
  vecRow .vecUnpack 0x2C (fun f => vecOk { useUn [4, 7] with imm := 3 } f)
    (fun _ => noPlan) (fun f => fxVecUnpack f) ∧
  vecRow .vecCompress 0x30 (fun f => vecOk (useUn etAny) f && vMU f)
    (fun _ => noPlan) (fun f => fxVecCompress f) ∧
  vecRow .vecExpand 0x31 (fun f => vecOk (useUn etAny) f && vMU f)
    (fun _ => noPlan) (fun f => fun cs => cs.spread f (cs.opA f)) ∧
  vecRow .vecCvt 0x38 (fun f => cvtOk f)
    (fun _ => noPlan) (fun f => fxVecCvt f)

/-- Whenever vec.setvl, ld, ldr, st, cst and xld issue, each executes: the instruction enters its queue, its effect lies in its core alone,
and PC moves on (R34, R110). -/
def vecMemoryCompletes : Prop :=
  vecRow .vecSetvl 0x00 (fun f => vecOk { ar := true, imm := 0x7F } f && decide (vIMM f ≤ 64))
    (fun f => fun _ => if vIMM f = 0 then { aUse := [vAR f], ctl := [vAR f] } else {}) (fun f => fun cs => { cs with vl := newVl f cs }) ∧
  vecRow .vecLd 0x01 (fun f => vecOk useLoad f)
    (fun f => vMemPlan false false false f) (fun f => fxVecLd f) ∧
  vecRow .vecLdr 0x03 (fun f => vecOk useLoad f)
    (fun f => vMemPlan false true false f) (fun f => fxVecLdr f) ∧
  vecRow .vecSt 0x02 (fun f => vecOk useStore f)
    (fun f => vMemPlan true false false f) (fun f => fxVecSt f) ∧
  vecRow .vecCst 0x32 (fun f => vecOk useStore f && vMU f)
    (fun f => vMemPlan true false true f) (fun f => fxVecCst f) ∧
  vecRow .vecXld 0x33 (fun f => vecOk useLoad f && vMU f)
    (fun f => vMemPlan false false true f) (fun f => fxVecXld f)

/-- ctl.jmp moves PC by its offset, and ctl.loop by its offset while the counter has not run out (R38): a target inside the code is the
new PC, and one outside it ends the task with INVALID_INSTRUCTION. -/
def branchesMovePc : Prop :=
  ∀ (s : State) (L : Nat) (f : TileFields) (k : TaskInfo), (s.core L).task = some k →
    (branchOk f = true → readyCtl s L 0x02 f {} →
      (0 ≤ ((s.core L).pc : Int) + branchOff f → ((s.core L).pc : Int) + branchOff f < k.codeLen →
        exec (.ctlJmp L f) s = .next (s.setCore L { (s.core L).issued with pc := (((s.core L).pc : Int) + branchOff f).toNat })) ∧
      ((((s.core L).pc : Int) + branchOff f < 0 ∨ (k.codeLen : Int) ≤ (s.core L).pc + branchOff f) →
        exec (.ctlJmp L f) s = .next ((s.modCore L CoreState.issued).endTask L St.invalid))) ∧
    ((branchOk f && decide (ctlDA f < 8)) = true → readyCtl s L 0x03 f {} → 2 ≤ (s.core L).L (ctlDA f) →
      0 ≤ ((s.core L).pc : Int) + branchOff f → ((s.core L).pc : Int) + branchOff f < k.codeLen →
        exec (.ctlLoop L f) s = .next (s.setCore L { (s.core L).issued with
          l := Tab.put (s.core L).l (ctlDA f) (BitVec.ofNat 32 ((s.core L).L (ctlDA f) - 1))
          pc := (((s.core L).pc : Int) + branchOff f).toNat }))

/-- ctl.lda and ctl.sta move eight bytes between an address register and tile memory, and ctl.fence lets issue go on once the units it
names have completed (R40, R41). Where neither an error mark nor poison stands, the register takes the little-endian bytes. -/
def ctlMemoryAndFenceComplete : Prop :=
  (∀ (s : State) (L : Nat) (f : TileFields), ctlOk f = true → (s.core L).tmErr = [] → (s.core L).tmPoison = [] →
    (ctlOff (s.core L) f % 8 = 0 ∧ ctlOff (s.core L) f < 0x600000) →
    (readyCtl s L 0x09 f { aUse := [ctlDA f, ctlSA f], ctl := [ctlSA f], rd := blocksOf false (ctlOff (s.core L) f) 8 } →
      ∃ t, exec (.ctlLda L f) s = .next t ∧
        Tab.get 0 (t.core L).a (ctlDA f) = BitVec.ofNat 48 (leNat ((s.core L).tm.readN (ctlOff (s.core L) f) 8)) ∧
        (t.core L).tm = (s.core L).tm ∧ (t.core L).pc = (s.core L).pc + 1) ∧
    ((s.core L).Ap (ctlDA f) = false →
      readyCtl s L 0x0A f { aUse := [ctlDA f, ctlSA f], ctl := [ctlSA f], wr := blocksOf false (ctlOff (s.core L) f) 8 } →
      ∃ t, exec (.ctlSta L f) s = .next t ∧
        (t.core L).tm = (s.core L).tm.writeN (ctlOff (s.core L) f) (natLe 8 ((s.core L).A (ctlDA f))) ∧
        (t.core L).a = (s.core L).a ∧ (t.core L).pc = (s.core L).pc + 1)) ∧
  (∀ (s : State) (L : Nat) (f : TileFields), (ctlOk f && bits f 47 6 == 0) = true → readyCtl s L 0x0B f {} →
    (s.fenceDone L (ctlImm f) = true →
      exec (.ctlFence L f) s = .next (s.setCore L { (s.core L).issued with pc := (s.core L).pc + 1 })) ∧
    (s.fenceDone L (ctlImm f) = false → ∃ t, exec (.ctlFence L f) s = .next t ∧
      (t.core L).pc = (s.core L).pc ∧ (t.core L).stallFence = true))

/-- ctl.end stops issue, and the task reports at once where nothing of it is outstanding: the core is free, and the command it belongs to
waits for one task fewer (R54). Otherwise the task stays, and issues nothing more. -/
def ctlEndEndsTheTask : Prop :=
  ∀ (s : State) (L : Nat) (f : TileFields) (k : TaskInfo), ctlOk f = true → readyCtl s L 0x01 f {} → (s.core L).task = some k →
    ∃ t, exec (.ctlEnd L f) s = .next t ∧ t.issuing L = false ∧
      (s.drained L = true → (t.core L).task = none ∧
        ∀ m, s.findCmd k.key = some m → ∃ m', t.findCmd k.key = some m' ∧ m'.tasksLeft = m.tasksLeft - 1) ∧
      (s.drained L = false → (t.core L).task = some k ∧ (t.core L).ended = some St.ok)

/-- A word whose class is reserved or whose opcode is undefined is detected at decode: issue stops there and the task ends with
INVALID_INSTRUCTION (R33). -/
def undefinedInstructionEndsTheTask : Prop :=
  ∀ (s : State) (L : Nat) (w : TileWord), coreOk L = true → s.issuing L = true → (s.core L).acqHold = false →
    Tab.get 0 (s.core L).code (s.core L).pc = w → Tab.get 0 (s.core L).imemErr (s.core L).pc = 0 →
    opDefined (bits w 127 124) (bits w 123 116) = false →
    exec (.undefinedInstruction L w) s = .next (s.endTask L St.invalid)

/-- Whenever a SYN instruction issues, it executes: its message to the pennant is on its way, and it waits in its unit's queue; PC moves
on (R181, R183, R184, R186). -/
def pennantInstructionsComplete : Prop :=
  (∀ (s : State) (L : Nat) (f : TileFields) (k : TaskInfo), hoistOk f = true → (s.core L).task = some k →
    ready s L 4 0x00 f .syn { aUse := hoistRegs f, ctl := hoistRegs f, pDst := synCHK f, waiting := true } →
    ∃ t, exec (.synHoist L f) s = .next t ∧ (t.core L).pc = (s.core L).pc + 1 ∧
      (t.core L).hoistsOut = (s.core L).hoistsOut + 1 ∧
      t.pen.msgs = s.pen.msgs ++ [⟨k.key.c, handleId ((s.core L).A (synPR f)), some (handleGen ((s.core L).A (synPR f))),
        .core L (s.core L).seqNo (synCHK f),
        if synLOC f then .hoist (BitVec.ofNat 48 (if synVI f then synIMM f else (s.core L).A (synVR f))) (synFlag f)
        else .send ((s.core L).A (synRK f) % 2 ^ 17)
          (BitVec.ofNat 48 (if synVI f then synIMM f else (s.core L).A (synVR f))) (synFlag f)⟩]) ∧
  waitRow .synStrike 0x01 false (fun f => .strike (synN f) (synWr f) (synTMO f)) ∧
  waitRow .synWatch 0x02 false (fun f => .watch (synN f) (synWr f) (synTMO f)) ∧
  waitRow .synTest 0x03 true (fun f => .test (synN f) (synWr f))

/-- mrk.csel selects the event of a counter and keeps its count; mrk.cread and mrk.time put a counter and the timestamp into their
register (R16, R349, R350); mrk.ribbon writes its record where ribbons are honoured, and is as an instruction with a false predicate
where they are not (R355). -/
def markerInstructionsComplete : Prop :=
  ∀ (s : State) (L : Nat) (f : TileFields),
    ((mrkOk false true true false false f && decide (mEVT f ≤ 0x12)) = true → ready s L 7 0x01 f .mrk {} →
      exec (.mrkCsel L f) s = .next (after s L .mrk {} (fun cs =>
        { cs with evSel := Tab.put cs.evSel (mCTR f) (BitVec.ofNat 8 (mEVT f)) }))) ∧
    (mrkOk true true false false false f = true → ready s L 7 0x02 f .mrk { aUse := [mAR f], aDst := some (mAR f) } →
      exec (.mrkCread L f) s = .next (after s L .mrk { aUse := [mAR f], aDst := some (mAR f) } (fun cs =>
        cs.setA (mAR f) (Tab.get 0 cs.evCtr (mCTR f)).toNat false))) ∧
    (mrkOk true false false false false f = true → ready s L 7 0x03 f .mrk { aUse := [mAR f], aDst := some (mAR f) } →
      exec (.mrkTime L f) s = .next (after s L .mrk { aUse := [mAR f], aDst := some (mAR f) } (fun cs =>
        cs.setA (mAR f) (s.sys.tsCd.toNat % 2 ^ 48) false))) ∧
    (mrkOk true false false true true f = true → ready s L 7 0x00 f .mrk { aUse := if mTR f then [mAR f] else [] } →
      ((!s.ribbonMode || (s.ctx (s.ctxOf L)).traceBase == 0) = true →
        exec (.mrkRibbon L f) s = .next (s.setCore L { (s.core L).issued with pc := (s.core L).pc + 1 })) ∧
      ((!s.ribbonMode || (s.ctx (s.ctxOf L)).traceBase == 0) = false →
        exec (.mrkRibbon L f) s = .next (((entered s L .mrk { aUse := if mTR f then [mAR f] else [] }).ribbon L (s.core L).pc
          (if mTR f then (s.core L).A (mAR f) % 2 ^ 32 else mTAG f) (mTR f && (s.core L).Ap (mAR f))).advance L)))

/-- The supplies (R367, R368, R374): a rise of VAUX3P3 starts a cold reset, its loss leaves what the boot flash and the fuses hold, and
VIN48 comes and goes; its loss with the regulators on is a cold reset. -/
def suppliesAct : Prop :=
  ∀ s : State,
    (s.sys.vaux = false → ∃ t, exec .vaux3p3Rise s = .next t ∧ t.sys.vaux = true ∧ t.sys.step = 1 ∧ t.sys.ready = 0 ∧
      t.mem = Mem.reset ∧ t.cores = [] ∧ t.sys.slotImage = s.sys.slotImage ∧ t.sys.cfgStore = s.sys.cfgStore) ∧
    (∃ t, exec .vaux3p3Loss s = .next t ∧ t.sys.vaux = false ∧ t.um.vals = [] ∧ t.mem = Mem.reset ∧ t.sys.regulators = false ∧
      t.sys.slotImage = s.sys.slotImage ∧ t.sys.cfgStore = s.sys.cfgStore ∧ t.um.keys = s.um.keys) ∧
    exec .vin48Rise s = .next { s with sys.vin48 := true } ∧
    (s.sys.regulators = false → exec .vin48Loss s = .next { s with sys.vin48 := false }) ∧
    (s.sys.regulators = true → ∃ t, exec .vin48Loss s = .next t ∧ t.sys.vin48 = false ∧ t.sys.regulators = false ∧ t.mem = Mem.reset)

/-- The control signals of Table 16.3 and the PCIe link. MOD_RESET_N low is a cold reset, and its deassertion latches the straps (R371);
an assertion of PERST_N takes the link down and gives the configuration space its defaults; WAKE_N held for 1 µs wakes standby; the
link trains once the boot ROM has configured the controller (R373); VFs and window sizes are set on a trained link (R17, R383). -/
def controlSignalsAct : Prop :=
  ∀ s : State,
    (s.sys.vaux = true → ∀ did node test cool,
      (∃ t, exec (.modResetN false did node test cool) s = .next t ∧ t.sys.modResetN = false ∧ t.cores = [] ∧ t.mem = Mem.reset ∧
        t.sys.strapDid = s.sys.strapDid) ∧
      (s.sys.modResetN = false → exec (.modResetN true did node test cool) s =
        .next { s with sys.modResetN := true, sys.strapDid := did, sys.strapNode := node, sys.strapTest := test }) ∧
      (s.sys.perstSeenHigh = false → ∀ us, exec (.perstN false us) s = .next { s with
        sys.perstN := false
        sys.perstSeenHigh := false
        sys.linkUp := false
        sys.numVfs := 0
        sys.bar2Pf := 1
        sys.bar2Vf := 1 })) ∧
    (s.pwr.thermTrip = false → s.pwr.state = 2 → ∀ ns, 1000 ≤ ns →
      exec (.wakeN ns) s = .next { s with pwr.state := 3, pwr.wakeSource := 5, pwr.wakeTime := s.sys.ts }) ∧
    (s.pwr.thermTrip = true → ∀ ns, exec (.wakeN ns) s = .next s) ∧
    (s.mcOn = true → s.sys.perstN = true → s.sys.pcieConfigured = true →
      exec .pcieLinkTraining s = .next { s with sys.linkUp := true }) ∧
    (s.sys.linkUp = true →
      (∀ n, n ≤ 15 → exec (.sriovNumvfs n) s = .next { s with sys.numVfs := n }) ∧
      (∀ g ∈ [1, 2, 4, 8, 16, 32, 64], exec (.bar2Resize true g) s = .next { s with sys.bar2Pf := g }) ∧
      (∀ g ∈ [1, 2, 4], exec (.bar2Resize false g) s = .next { s with sys.bar2Vf := g }))

/-- The four resets of Table 12.10. A cold reset leaves no core, context, memory or dictionary value; a warm reset restarts bring-up at
step 3 with MGMT_READY = 2, ends safe hold, and no collective, transaction or message of it is left (R378); a context reset, and the
FLR of a VF, disable the rings of the context, end its commands, and close its folios (R302); the FLR of the PF disables the VFs. -/
def resetsAct : Prop :=
  ∀ s : State,
    (s.sys.vaux = true → ∀ cool, ∃ t, exec (.coldReset cool) s = .next t ∧ t.cores = [] ∧ t.ctxs = [] ∧ t.mem = Mem.reset ∧
      t.um.vals = [] ∧ t.sys.ready = 0 ∧ t.sys.step = 1 ∧ t.sys.vaux = true ∧ t.sys.activeSlot = s.sys.activeSlot ∧
      t.sys.slotImage = s.sys.slotImage ∧ t.sys.antiRollback = s.sys.antiRollback ∧ t.sys.cfgStore = s.sys.cfgStore) ∧
    (s.warmable = true → ∃ t, exec .warmReset s = .next t ∧ t.sys.ready = 2 ∧ t.sys.step = 3 ∧ t.rbd.safeHold = false ∧
      t.coll.runs = [] ∧ t.fab.trans = [] ∧ t.pen.msgs = [] ∧ t.um.queues = [] ∧ t.um.sessions = []) ∧
    (s.mcOn = true → ∀ c, ctxOk c = true → ∃ t, exec (.contextReset c) s = .next t ∧ (t.ctx c).started = [] ∧
      (t.ctx c).folios = [] ∧ (∀ n, ((t.ctx c).ring n).enable = false) ∧ (t.ctx c).fence = none) ∧
    (s.mcOn = true → s.sys.linkUp = true → ∀ c, ctxOk c = true → 1 ≤ c → c ≤ s.sys.numVfs →
      ∃ t, exec (.flr c) s = .next t ∧ exec (.contextReset c) s = .next t) ∧
    (s.mcOn = true → s.sys.linkUp = true → ∃ t, exec (.flr 0) s = .next t ∧ t.sys.numVfs = 0 ∧ t.sys.bar2Pf = 1 ∧ t.sys.bar2Vf = 1 ∧
      t.um.mbox = Mbox.reset)

/-- Bring-up (Table 16.6): each step ends in its turn, and the last one leaves MGMT_READY = 4; the boot ROM starts the active slot, else
the other one, else recovery boot (R342, R343); REFCLK_100M is checked again while the module holds in step 3. -/
def bringUpAdvances : Prop :=
  ∀ s : State, s.mcOn = true → s.pwr.thermTrip = false → s.rbd.safeHold = false →
    (s.sys.step = 1 → exec (.bringUpStepEnd .s1 []) s = .next { s with sys.step := 2, sys.pcieConfigured := true }) ∧
    (s.sys.step = 2 → s.sys.booting = false → s.sys.recoveryBoot = false → s.sys.strapTest = false →
      ∃ t, exec (.bringUpStepEnd .s2 []) s = .next t ∧ t.sys.step = 3 ∧ t.sys.ready = 1) ∧
    (s.sys.step = 3 → s.sys.vin48 = true → ∃ t, exec (.bringUpStepEnd .s3 []) s = .next t ∧ t.sys.regulators = true ∧
      t.sys.pllLock = 0x1FFF ∧ t.sys.step = 4) ∧
    (s.sys.step = 3 → s.sys.vin48 = true → s.sys.pllLock = 0 → ∃ t, exec (.refclkRetry true) s = .next t ∧ t.sys.regulators = true ∧
      t.sys.pllLock = 0x1FFF ∧ t.sys.step = 4) ∧
    (s.sys.step = 4 →
      exec (.bringUpStepEnd .s4 []) s = .next { s with sys.step := 5, sys.ready := 2, fab.did := some s.myDid }) ∧
    (s.sys.step = 5 → s.sys.trainDone = false → s.sys.warmUp = false → s.failedStacks.length ≤ 2 →
      exec (.bringUpStepEnd .s5a []) s = .next { s with sys.trainDone := true, sys.ready := 3 }) ∧
    (s.sys.step = 5 → exec (.bringUpStepEnd .s5c []) s = .next { s with sys.fabDone := true, sys.ready := 3 }) ∧
    (s.sys.step = 5 → s.sys.trainDone = true → s.sys.fillDone = false → ∃ t, exec (.bringUpStepEnd .s5b []) s = .next t ∧
      t.mem.units = [] ∧ t.mem.poisonTab = [] ∧ t.sys.fillDone = true ∧ t.sys.ready = 3) ∧
    (s.sys.step = 5 → s.sys.trainDone = true → s.sys.fillDone = true → s.sys.fabDone = true →
      ∃ t, exec (.bringUpStepEnd .s6 []) s = .next t ∧ t.sys.ready = 4 ∧ t.sys.step = 6) ∧
    (s.sys.booting = true → 2 ≤ s.sys.step →
      (s.slotOk s.sys.activeSlot = true → ∃ t, exec .secureBoot s = .next t ∧ t.sys.booting = false ∧ t.sys.recoveryBoot = false) ∧
      (s.slotOk s.sys.activeSlot = false → s.slotOk (1 - s.sys.activeSlot) = false →
        ∃ t, exec .secureBoot s = .next t ∧ t.sys.recoveryBoot = true ∧ t.sys.alertN = false))

/-- Address translation is told of a change through MEM_PT_INVAL, which only firmware reaches (R25, R26): GO clears DONE, a write by the
PF is discarded and counted, and DONE is set once no held translation of the range is left. -/
def translationInvalidation : Prop :=
  ∀ s : State, s.mcOn = true →
    (s.xl.ptInvalDone = true → exec (.memPtInvalGo .firmware 1) s = .next { s with xl.ptInvalDone := false }) ∧
    (s.xl.ptInvalDone = false → exec (.memPtInvalGo .firmware 1) s = .next s.discards) ∧
    (s.sys.linkUp = true → ∀ v, exec (.memPtInvalGo (.host 0) v) s = .next s.discards) ∧
    (s.xl.ptInvalDone = false → ∃ t, exec .ptInvalDone s = .next t ∧ t.xl.ptInvalDone = true ∧
      (∀ e ∈ t.xl.tlb, s.xl.named e = false) ∧ (∀ e ∈ s.xl.tlb, s.xl.named e = false → e ∈ t.xl.tlb))

/-- The doorbells and registers of a ring. A doorbell whose value lies between TAIL and HEAD plus the ring's size moves TAIL, and any other
only sets the doorbell error (R152); the completion doorbell moves the consumer's index (R157); ENABLE = 1 with sizes and bases that
R151 allows enables the ring with its indices at 0 and PHASE = 1, ENABLE = 0 on a disabled ring sets its fields (R155). -/
def ringRegistersAct : Prop :=
  ∀ (s : State) (c n : Nat), ctxOk c = true → ringOk n = true → s.barUp = true → ∀ v : BitVec 32,
    ((s.ring c n).enable = true → s.vfOn c = true →
      ((s.ring c n).tail - (s.ring c n).head).toNat ≤ (v - (s.ring c n).head).toNat →
      (v - (s.ring c n).head).toNat ≤ 2 ^ (s.ring c n).log2 →
      ∃ t, exec (.doorbell c n v) s = .next t ∧ t.ring c n = { s.ring c n with tail := v }) ∧
    ((s.ring c n).enable = false → ∃ t, exec (.doorbell c n v) s = .next t ∧
      t.ring c n = { s.ring c n with dbErr := true, dbErrs := (s.ring c n).dbErrs + 1 }) ∧
    (∃ t, exec (.cplDoorbell c n v) s = .next t ∧ t.ring c n = { s.ring c n with cplHead := v }) ∧
    (cfgEnable v = true → (s.ring c n).enable = false → (s.ring c n).canEnable v = true →
      ∃ t, exec (.ringEnable c n v) s = .next t ∧ (t.ring c n).enable = true ∧ (t.ring c n).head = 0 ∧ (t.ring c n).tail = 0 ∧
        (t.ring c n).cplHead = 0 ∧ (t.ring c n).cplTail = 0 ∧ (t.ring c n).phase = true ∧ (t.ring c n).log2 = cfgLog2 v ∧
        (t.ring c n).cplLog2 = cfgCplLog2 v ∧ (t.ring c n).vector = cfgVector v) ∧
    (cfgEnable v = false → (s.ring c n).enable = false → ∃ t, exec (.ringDisable c n v) s = .next t ∧
      t.ring c n = { s.ring c n with log2 := cfgLog2 v, cplLog2 := cfgCplLog2 v, vector := cfgVector v }) ∧
    (1 ≤ bits v 14 0 → bits v 14 0 ≤ 16777 → ∃ t, exec (.cfeCtxCfg c v) s = .next t ∧
      (t.ctx c).cfgTimeout = bits v 14 0 ∧ (t.ctx c).dqCplRing = bits v 17 16)

/-- A ring that is enabled is fetched in batches of up to 8 slots past HEAD, and a fetch that fails stops it (R153). -/
def ringFetchTakesABatch : Prop :=
  ∀ (s : State) (c n : Nat), ctxOk c = true → ringOk n = true → s.feOn c = true → (s.ring c n).enable = true →
    (s.ring c n).fetchStop = false → (s.ring c n).tail ≠ (s.ring c n).head →
    (∀ bs : List Byte, 512 ≤ bs.length → ∃ t, exec (.ringFetch c n (.data bs)) s = .next t ∧
      (t.ring c n).head = (s.ring c n).head + BitVec.ofNat 32 (Nat.min 8 ((s.ring c n).tail - (s.ring c n).head).toNat) ∧
      (t.ring c n).fetched.length =
        (s.ring c n).fetched.length + Nat.min 8 ((s.ring c n).tail - (s.ring c n).head).toNat ∧
      (t.ring c n).tail = (s.ring c n).tail ∧ t.mem = s.mem ∧ t.cores = s.cores) ∧
    (∀ h : HostRead, h = .error ∨ h = .poisoned → ∃ t, exec (.ringFetch c n h) s = .next t ∧
      t.ring c n = { s.ring c n with fetchFault := true, fetchStop := true })

/-- A ring is disabled (R171): its fetched commands end with CANCELLED_DISABLED, and when its drain window is over the started commands
that remain are killed. -/
def ringDisableEndsItsCommands : Prop :=
  ∀ (s : State) (c n : Nat) (v : BitVec 32), ctxOk c = true → ringOk n = true →
    (s.barUp = true → cfgEnable v = false → (s.ring c n).enable = true →
      ∃ t, exec (.ringDisable c n v) s = .next t ∧ (t.ring c n).enable = false ∧ (t.ring c n).fetched = [] ∧
        (t.ctx c).started = (s.ctx c).started ++
          (s.ring c n).fetched.map (fun e => cancelledCmd ⟨c, n, e.1.toNat⟩ e.2 s.sys.ts)) ∧
    ((s.ring c n).draining = true → (s.ctx c).started = [] → ∃ t, exec (.ringDrainExpiry c n) s = .next t ∧
      (t.ring c n).draining = false)

/-- A front end starts the command at the head of the queue whose turn it is: an undefined descriptor ends at once with
INVALID_COMMAND, a LAUNCH binds its folio's current generation and takes its arena blocks, a FOLIO_PATCH takes its place among the patches of
its folio, a HOIST of this module and a WAIT take their pennant's generation, and any other waits to act (R154, R156, R163, R164, R190). -/
def commandStartTakesTheTurn : Prop :=
  ∀ (s : State) (iod c q : Nat) (i : BitVec 32) (depth : Nat) (d : List Byte), iodOk iod = true → s.nextQueue iod = some (c, q) →
    (s.ctx c).headOf q = some (i, depth, d) →
    ∃ (t : State) (m : Cmd), exec (.commandStart iod) s = .next (if descOk q d then t.atStart m.key m else t) ∧
      (m.op = 1 → t.atStart m.key m = t.launchBegin m.key m) ∧ (m.op = 3 → t.atStart m.key m = t.patchBegin m.key m) ∧
      (m.op = 7 ∨ (m.op = 6 ∧ dField d 0x14 4 / 2 ^ 31 = 1) → t.atStart m.key m =
        (t.entryGen c (dField d 0x10 4)).2.modCmd m.key (fun m => { m with penGen := (t.entryGen c (dField d 0x10 4)).1 })) ∧
      (t.ctx c).started = (s.ctx c).started ++ [m] ∧ m.key = ⟨c, q, i.toNat⟩ ∧
      m.desc = d ∧ m.depth = depth ∧ m.finished = !descOk q d ∧ m.conds = (if descOk q d then [] else [(St.invalid, 0)]) ∧
      (q = 15 → (t.ctx c).dq = (s.ctx c).dq.drop 1)

/-- NOP, HOIST and WAIT act: NOP ends with OK, HOIST and WAIT put their message to the pennant on its way, with the generation that their
start found (R156, R190). -/
def simpleCommandsAct : Prop :=
  ∀ (s : State) (k : CmdKey) (m : Cmd),
    (mayAct s k 0 m → ∃ t, exec (.nop k) s = .next t ∧ t.findCmd k = some { m with begun := true, finished := true }) ∧
    (mayAct s k 6 m → dField m.desc 0x14 4 / 2 ^ 31 ≠ 1 → ∃ t, exec (.hoist k) s = .next t ∧
      t.pen.msgs = s.pen.msgs ++ [⟨k.c, dField m.desc 0x10 4, none, .cmd k,
        .send (dField m.desc 0x14 4 % 2 ^ 17) (BitVec.ofNat 48 (dField m.desc 0x18 6)) false⟩]) ∧
    (mayAct s k 6 m → dField m.desc 0x14 4 / 2 ^ 31 = 1 →
      exec (.hoist k) s = .next { acting s k with pen.msgs := s.pen.msgs ++ [⟨k.c, dField m.desc 0x10 4, m.penGen, .cmd k,
        .hoist (BitVec.ofNat 48 (dField m.desc 0x18 6)) false⟩] }) ∧
    (mayAct s k 7 m →
      exec (.wait k) s = .next { acting s k with pen.msgs := s.pen.msgs ++ [⟨k.c, dField m.desc 0x10 4, m.penGen, .cmd k,
        if dField m.desc 0x14 1 % 2 = 0 then .strike 1 none 0 else .watch 1 none 0⟩] })

/-- COPY moves its bytes (R168): what the host returned goes to the context's memory, and the context's bytes to the host. -/
def copyMovesItsBytes : Prop :=
  ∀ (s : State) (k : CmdKey) (m : Cmd), mayAct s k 5 m →
    (dField m.desc 0x10 1 % 4 = 0 → ∀ (bs : List Byte) (r : _) (t0 : State),
      (acting s k).vaWrite none k.c (dField m.desc 0x20 8)
        ((sliceAt bs 0 (dField m.desc 0x14 4)).map (fun x => (x, false))) [.w] = (r, t0) → r.fault = false →
      exec (.copy k (.data bs)) s =
        .next ((t0.metCmd k false r.slow).endCmd k (if r.uncorr then St.uncorrectable else St.ok))) ∧
    (dField m.desc 0x10 1 % 4 = 1 → ∀ (h : HostRead) (r : _) (t0 : State),
      (acting s k).vaRead k.c (dField m.desc 0x18 8) (dField m.desc 0x14 4) [.r] = (r, t0) → r.fault = false →
      (∀ e ∈ List.zip r.bytes r.pois, e.2 = false) → r.uncorr = false →
      exec (.copy k h) s = .next (((t0.metCmd k r.corr r.slow).emit
        (.hostWrite k.c (dField m.desc 0x20 8) ((List.zip r.bytes r.pois).map (·.1)))).endCmd k St.ok))

/-- FOLIO_OPEN and FOLIO_CLOSE (R159, R160): a spine that passes its checks opens the folio with generation 0, and the close of an idle
folio ends it. -/
def foliosOpenAndClose : Prop :=
  ∀ (s : State) (k : CmdKey) (m : Cmd),
    (mayAct s k 2 m → Tab.has (s.ctx k.c).folios (fieldAt m.desc 0x10 1) = false → ∀ (hd sp : List Byte) (t0 t1 t2 : State),
      ((acting s k).modCmd k (fun x => { x with handle := fieldAt m.desc 0x10 1 })).rdCmd k (fieldAt m.desc 0x18 8) 64 [.r] = (.ok hd, t0) →
      headerOk hd = true → t0.rdCmd k (fieldAt m.desc 0x18 8) (spineOf hd).size [.r] = (.ok sp, t1) → spineOk sp = true →
      t1.foliosMapped k.c ((recordsOf sp (spineOf sp).sigTab 8 (spineOf sp).sigCount).map leNat) (fieldAt m.desc 0x20 8)
        (fieldAt m.desc 0x28 4) = (true, t2) →
      ∃ t, exec (.folioOpen k) s = .next t ∧ ∃ fo, Tab.find (t.ctx k.c).folios (fieldAt m.desc 0x10 1) = some fo ∧
        fo.current = 0 ∧ fo.gens = [(0, ⟨(recordsOf sp (spineOf sp).sigTab 8 (spineOf sp).sigCount).map leNat, 0⟩)] ∧
        fo.closing = none ∧ fo.spineVa = fieldAt m.desc 0x18 8) ∧
    (mayAct s k 4 m → ∀ fo, Tab.find (s.ctx k.c).folios (fieldAt m.desc 0x10 1) = some fo → fo.closing = none → fo.idle = true →
      ∃ t, exec (.folioClose k) s = .next t ∧ (∃ m', t.findCmd k = some m' ∧ m'.finished = true ∧ m'.conds = m.conds) ∧
        Tab.find (t.ctx k.c).folios (fieldAt m.desc 0x10 1) = some { fo with closing := some k })

/-- FOLIO_PATCH does its work where no patch of its folio that started earlier runs, and waits where one does; FOLIO_PATCH_BEGIN lets the one
that has waited longest do it (R164, R165). A patch without entries makes a new generation with the signatures of the current one. -/
def folioPatchWorksInTurn : Prop :=
  ∀ (s : State) (k : CmdKey) (m : Cmd) (fo : Folio) (h : HostRead),
    (mayAct s k 3 m → m.bound = false → Tab.find (s.ctx k.c).folios (fieldAt m.desc 0x10 1) = some fo → fo.closing = none →
      fieldAt m.desc 0x14 2 ≤ 1024 →
      ∃ (t0 : State) (m0 : Cmd), Tab.find (t0.ctx k.c).folios (fieldAt m.desc 0x10 1) = some { fo with patchers := fo.patchers ++ [k] } ∧
        m0.desc = m.desc ∧ exec (.folioPatch k h) s = .next (if (fo.patchers ++ [k]).head? = some k
          then t0.patchWork k m0 { fo with patchers := fo.patchers ++ [k] } h else t0)) ∧
    (mayAct s k 3 m → m.bound = true → Tab.find (s.ctx k.c).folios m.handle = some fo →
      exec (.folioPatch k h) s = .next (if fo.patchers.head? = some k then (acting s k).patchWork k { m with begun := true } fo h
        else acting s k)) ∧
    (ctxOk k.c = true → (ringOk k.q || k.q == 15) = true → s.alive = true → s.findCmd k = some m → m.op = 3 → m.begun = true →
      m.bound = true → m.finished = false → m.draining = false → Tab.find (s.ctx k.c).folios m.handle = some fo → fo.patchers.head? = some k →
      exec (.folioPatchBegin k h) s = .next (s.patchWork k m fo h)) ∧
    (fo.gens.length < 4 → Tab.has fo.gens ((fo.current + 1) % 256) = false → fieldAt m.desc 0x14 2 = 0 →
      ∀ (p : LaunchPlan) (t0 : State), s.launchPlan k fo 0 = (.ok p, t0) →
        s.patchWork k m fo h = t0.modCmd k (fun m => { m with
          gen := (fo.current + 1) % 256, patch := some p.sigs, finished := true }))

/-- A command that has finished leaves the front end with its record (R154, R157); one that expires drains, and what is left of it when
the drain window is over is killed (R169). -/
def commandsEnd : Prop :=
  ∀ (s : State) (k : CmdKey) (m : Cmd), ctxOk k.c = true → (ringOk k.q || k.q == 15) = true → s.alive = true → s.findCmd k = some m →
    (m.finished = true → ∀ ok, exec (.commandComplete k ok) s = .next (s.completeCmd m ok)) ∧
    (m.finished = false → m.draining = false → s.obj 0x2100 1 = 0 → exec (.commandTimeout k) s = .next (s.expire m)) ∧
    (m.finished = false → m.draining = false → s.obj 0x2100 1 = 1 → exec (.commandTimeout k) s = .next (s.legacyReset k)) ∧
    (m.finished = false → m.draining = true → exec (.commandDrainExpiry k) s = .next ((s.killCmd k St.killed).notDrained k))

/-- The idle gate of a fetch unit (R172, Tables 7.13, 7.14): with every queue empty it closes, a doorbell in cycle 6 or before aborts the
entry and one in cycle 7 is a wake request, and it opens again after its wake. -/
def fetchGateClosesAndOpens : Prop :=
  ∀ (s : State) (iod : Nat), iodOk iod = true →
    (s.alive = true → s.obj 0x2100 2 ≠ 2 → (s.fe iod).gated = false → s.queuesEmpty iod = true →
      (exec (.fetchIdleEntry iod none) s =
        .next (s.modFe iod (fun fe => { fe with gated := true, dbSeen := false, waking := false }))) ∧
      (∀ d, d ≤ 6 → exec (.fetchIdleEntry iod (some d)) s = .next s) ∧
      (exec (.fetchIdleEntry iod (some 7)) s =
        .next (s.modFe iod (fun fe => { fe with gated := true, dbSeen := true, waking := false })))) ∧
    ((s.fe iod).gated = true → (s.fe iod).dbSeen = true →
      exec (.fetchWake iod) s = .next (s.modFe iod (fun fe => { fe with waking := true }))) ∧
    ((s.fe iod).waking = true → ∃ t, exec (.fetchGateReopen iod) s = .next t ∧ (t.fe iod).gated = false)

/-- A free core takes the task at the head of its queue (R52): its code and argument block are read, its registers A take the argument
block, and its other registers and its units' state take the values of Table 2.9. Where a read faults the task ends with ADDRESS_FAULT, and
what step 3 sets stays as it was. -/
def taskStartLoadsTheTask : Prop :=
  ∀ (s : State) (L : Nat) (k : TaskInfo) (rest : List TaskInfo),
    coreOk L = true → s.alive = true → (s.core L).task = none → (s.core L).failed = false → (s.core L).rebindDue = false →
    (s.core L).gate = .on → (s.core L).queue = k :: rest →
    let c := (s.setCore L ((s.core L).take k)).loadCode k
    let r := c.2.2.loadArgs k
    (c.1 = false → r.1.fault = false → r.1.uncorr = false → (∀ b ∈ r.1.pois, b = false) →
      exec (.taskStart L) s = .next ((r.2.taskNote k r.1.corr r.1.slow).modCore L (fun cs =>
        cs.begin k (codeWords c.2.1 k.codeLen) (argRegs r.1.bytes))) ∧
      ∃ t, exec (.taskStart L) s = .next t ∧ (t.core L).a = argRegs r.1.bytes ∧ (t.core L).code = (codeWords c.2.1 k.codeLen).1 ∧
        (t.core L).pc = 0 ∧ (t.core L).p = false ∧ (t.core L).mode = 0 ∧ (t.core L).vl = 64 ∧ (t.core L).l = [] ∧
        (t.core L).seed = k.seedInit ∧ (t.core L).v = [] ∧ (t.core L).m = [] ∧ (t.core L).sticky = 0) ∧
    (c.1 = true → exec (.taskStart L) s = .next (c.2.2.endTask L St.address)) ∧
    (c.1 = false → r.1.fault = true → exec (.taskStart L) s = .next (r.2.endTask L St.address)) ∧
    ((s.core L).take k).queue = rest ∧ ((s.core L).take k).task = some k ∧ ((s.core L).take k).sticky = (s.core L).sticky

/-- An instruction that has completed leaves its queue, a pass with the spill that it made due; a task that has ended reports once it is
drained (R36, R54, R69). The automatic spill of a window takes place once it is due: the window is then no longer fresh and its count is 0. -/
def instructionCompletionRetires : Prop :=
  ∀ (s : State) (L : Nat), coreOk L = true → s.alive = true →
    (∀ (n : Nat) (x : InFlight), (s.core L).inflight.find? (fun i => i.seq == n) = some x → x.waiting = false →
      (s.core L).oldest x = true →
      exec (.unitInstructionComplete L n) s = .next ((s.setCore L (((s.core L).completes x).retire n)).settle L) ∧
      (x.part = none → ∃ t, exec (.unitInstructionComplete L n) s = .next t ∧ (∀ j ∈ (t.core L).inflight, j.seq ≠ n) ∧
        (t.core L).tm = (s.core L).tm ∧ (t.core L).am = (s.core L).am ∧ (t.core L).a = (s.core L).a ∧ t.mem = s.mem)) ∧
    (∀ p, exec (.autoSpill L p) s = .next (s.modCore L (fun cs => cs.spillIfDue p))) ∧
    (∀ p w, ((s.core L).part p).spillDue = true → ((s.core L).part p).win = some w →
      ∃ t, exec (.autoSpill L p) s = .next t ∧
        (t.core L).part p = { (s.core L).part p with win := some { w with fresh := false }, passCount := 0, spillDue := false } ∧
        ((s.core L).spiller p = none → t.core L = (s.core L).spill p))

/-- A task that times out issues no more and drains, and what is left of it when the drain window is over is killed (R55). Under the legacy
policy its command's expiry resets the module (R170). -/
def taskTimeoutDrains : Prop :=
  ∀ (s : State) (L : Nat) (k : TaskInfo), coreOk L = true → (s.core L).task = some k →
    (s.alive = true → (s.core L).drain = false → s.obj 0x2100 1 = 0 → (s.core L).ended = none →
      exec (.taskTimeout L) s =
        .next (((s.dump 0).setCore L { (s.core L).stop St.drained with drain := true }).settle L)) ∧
    (s.alive = true → (s.core L).drain = false → s.obj 0x2100 1 = 1 →
      exec (.taskTimeout L) s = .next (s.legacyReset k.key)) ∧
    ((s.core L).drain = true → exec (.taskDrainExpiry L) s = .next ((s.killCore L St.killed).notDrained k.key))

/-- A partition fault (R75): the core is suspect and to be rebound, the failing instruction's task ends with UNIT_REBOUND at that
instruction, and that instruction and the younger ones of the partition have left; then the core moves to a spare, or is FAILED where
its die has none (R76). -/
def partitionFaultRebinds : Prop :=
  ∀ (s : State) (L : Nat), coreOk L = true →
    (∀ (part n chk : Nat) (x : InFlight), (s.core L).inflight.find? (fun i => i.part == some part && i.seq == n) = some x →
      s.alive = true → 1 ≤ chk → chk ≤ 4 → (s.core L).ended = none →
      ∃ t, exec (.partitionFault L part ⟨n, chk⟩) s = .next t ∧ (t.core L).suspect = true ∧ (t.core L).rebindDue = true ∧
        (t.core L).ended = some St.rebound ∧ (t.core L).pc = x.pc ∧ ((t.core L).part part).faulted = true ∧
        ((t.core L).part part).faultSrc = chk ∧
        (t.core L).inflight = (s.core L).inflight.filter (fun j => !(j.part == some part && decide (n ≤ j.seq)))) ∧
    ((s.core L).rebindDue = true → (s.core L).inflight = [] →
      (∀ i, s.spareOf (L / 40) = some i → ∃ t, exec (.coreRebind L) s = .next t ∧ (t.core L).physIdx = i ∧
        (t.core L).rebindCount = Nat.min ((s.core L).rebindCount + 1) 255 ∧ (t.core L).suspect = false ∧ (t.core L).rebindDue = false) ∧
      (s.spareOf (L / 40) = none → ∃ t, exec (.coreRebind L) s = .next t ∧ (t.core L).failed = true ∧ (t.core L).queue = []))

/-- Patrol scrub: a stripe whose units agree is only read; one with a single wrong unit has it corrected, with a count, where its stack
takes the write; one that three stacks are missing from is entered in the poison table (R146). In mode 2 only the ranges written to
MEM_SCRUB_RANGE are scrubbed (R339). -/
def scrubSettlesAStripe : Prop :=
  (∀ (s : State) (x : Nat), s.obj 0x7020 2 = 2 → Tab.find s.um.doms 0x702005 = none →
    exec (.scrubStripe ⟨x, noErrs⟩) s = .next s) ∧
  (∀ (s : State) (x : Nat), s.obj 0x7020 2 ≠ 2 → s.scrubs x = true) ∧
  ∀ (s : State) (x : Nat), s.dieOn = true → s.obj 0x7020 1 = 1 → s.scrubs x = true →
    (s.erasures (s.rowLayout x) x [] = [] →
      syndromes (allUnits (s.rowLayout x)) ((List.range (allUnits (s.rowLayout x))).map (fun i => (i, s.rawUnit (s.rowLayout x) x i))) =
        (zeroU, zeroU) →
      exec (.scrubStripe ⟨x, noErrs⟩) s = .next (s.readUnits (s.rowLayout x) x (List.range (allUnits (s.rowLayout x))))) ∧
    (s.erasures (s.rowLayout x) x [] = [] → ∀ sy i,
      syndromes (allUnits (s.rowLayout x)) ((List.range (allUnits (s.rowLayout x))).map (fun i => (i, s.rawUnit (s.rowLayout x) x i))) = sy →
      ¬(sy.1 = zeroU ∧ sy.2 = zeroU) → wrongUnit (allUnits (s.rowLayout x)) sy = some i →
      s.skips (s.stackOf (s.rowLayout x) x i) x = false →
      ∃ t, exec (.scrubStripe ⟨x, noErrs⟩) s = .next t ∧ t.mem.scrubFixes = s.mem.scrubFixes + 1 ∧
        t.mem.units = s.mem.units.writeN (unitKey (s.stackOf (s.rowLayout x) x i) x) (xorU (s.rawUnit (s.rowLayout x) x i) sy.1)) ∧
    (3 ≤ (s.erasures (s.rowLayout x) x []).length →
      ∃ t, exec (.scrubStripe ⟨x, noErrs⟩) s = .next t ∧ t.mem.undecodable = s.mem.undecodable + 1 ∧ t.mem.units = s.mem.units)

/-- Re-stripe (R140, R142): with one FAILED stack and its range mapped by no context it starts at the top of the new layout; each step moves
the watermark down by one stripe, and the last one leaves the 21+2 layout. -/
def restripeAdvances : Prop :=
  ∀ s : State, s.dieOn = true →
    (∀ n, s.failedStacks = [n] → s.mem.layout21 = false → s.mem.restripe = 0 → s.obj 0x7010 1 = 1 →
      ((List.range 16).any (fun c => s.mapsTop c)) = false →
      (s.obj 0x7010 2 ≤ 1 → exec .restripeStart s =
        .next { s with mem.restripe := 2, mem.watermark := 0x02A000000000, mem.removed := some n }) ∧
      (∀ rq v, s.mcOn = true → s.valueRefusal rq 0x7010 6 v = none → s.obj 0x7010 2 = 2 → ∃ t, exec (.memRestripeStart rq v) s = .next t ∧
        t.mem.restripe = 2 ∧ t.mem.watermark = 0x02A000000000 ∧ t.mem.removed = some n)) ∧
    (s.mem.restripe = 2 → s.obj 0x7010 1 = 1 → 2 * 5376 ≤ s.mem.watermark →
      ∃ t, exec .restripeStep s = .next t ∧ t.mem.watermark = s.mem.watermark - 5376 ∧ t.mem.restripe = 2 ∧
        t.mem.layout21 = s.mem.layout21) ∧
    (s.mem.restripe = 2 → s.obj 0x7010 1 = 1 → s.mem.watermark = 5376 → s.mem.removed = none →
      ∃ t, exec .restripeStep s = .next t ∧ t.mem.watermark = 0 ∧ t.mem.restripe = 3 ∧ t.mem.layout21 = true)

/-- Power gating of cores and engines (R306 to R310): an idle core whose timer has run out is gated, an access in step 1 or 2 of the entry
aborts it, and a wake gives the core the values of a task start with its tile memory kept and the wake counted. -/
def gatingEntersAndWakes : Prop :=
  ∀ s : State, s.mayGate = true →
    (∀ L, coreOk L = true → (s.core L).idle = true → (s.core L).gate = .on → s.obj 0x3105 1 = 1 →
      exec (.coreGateEntry L none) s = .next (s.modCore L (fun cs => { cs with gate := .gated })) ∧
      (∀ k, k < 3 → exec (.coreGateEntry L (some k)) s = .next s)) ∧
    (∀ L, coreOk L = true → (s.core L).gate = .gated → ∃ t, exec (.coreWake L) s = .next t ∧ (t.core L).gate = .on ∧
      (t.core L).a = [] ∧ (t.core L).pc = (s.core L).pc ∧ (t.core L).vl = 64 ∧ (t.core L).mode = 0 ∧ (t.core L).tm = (s.core L).tm ∧
      (t.core L).am = (s.core L).am ∧ (t.core L).sticky = (s.core L).sticky ∧ (t.core L).wakes = (s.core L).wakes + 1) ∧
    (∀ k, iodOk k = true → s.engineIdle = true → s.obj 0x3105 1 = 1 →
      exec (.engineGateEntry k) s = .next { s with pwr.engines := Tab.put s.pwr.engines k .gated }) ∧
    (∀ k, iodOk k = true → exec (.engineWake k) s = .next (s.wakeEngine k) ∧
      (Tab.get .on s.pwr.engines k = .gated → (s.wakeEngine k).pwr.engines = Tab.del s.pwr.engines k ∧
        Tab.get 0 (s.wakeEngine k).pwr.engineWakes k = Tab.get 0 s.pwr.engineWakes k + 1))

/-- Standby (R314 to R317): its entry begins on the timer or on request; a wake event aborts it, and else it ends, once no write gathers or
waits, with the compute dies' clocks stopped and every core gated; a wake event in standby records its source and time and the exit ends it.
A memory access has no effect there (R309), and a stripe to scrub wakes the module (R316). -/
def standbyEntersAndWakes : Prop :=
  ∀ s : State,
    (s.restful = true → exec .standbyEntry s = .next { s with pwr.state := 1 } ∧
      (∀ rq v, s.mcOn = true → s.valueRefusal rq 0x3106 3 v = none → ∃ t, exec (.pwrStandbyRequest rq v) s = .next t ∧
        t.pwr.state = 1 ∧ t.out = s.out ++ [.answer rq.path 0])) ∧
    (s.pwr.state = 1 →
      (s.pwr.thermTrip = false → ∀ c, 1 ≤ c → c ≤ 9 → exec (.standbyWake c) s = .next { s with pwr.state := 0 }) ∧
      (s.mem.gather = [] → s.mem.portWait = [] → s.standbyEnd.pwr.state = 2 ∧ s.standbyEnd.pwr.standbyTime = s.sys.ts ∧
        s.standbyEnd.sys.pllLock = s.sys.pllLock &&& 0x1F00 ∧ (∀ L, L < 320 → (s.standbyEnd.core L).gate = .gated) ∧
        (∀ n, n < 24 → (s.standbyEnd.stk n).selfRef = true) ∧ s.standbyEnd.mem.units = s.mem.units)) ∧
    (s.pwr.thermTrip = false → s.pwr.state = 2 →
      (∀ src pa len e, exec (.memRead src pa len e) s = .next s) ∧
      (∀ o, s.alive = true → s.obj 0x7020 1 = 1 → s.scrubs o.stripe = true →
        exec (.scrubStripe o) s = .next { s with pwr.state := 3, pwr.wakeSource := 9, pwr.wakeTime := s.sys.ts }) ∧
      (∀ rq v, s.mcOn = true → s.valueRefusal rq 0x3106 4 v = none → ∃ t, exec (.pwrWakeRequest rq v) s = .next t ∧
        t.pwr.state = 3 ∧ t.pwr.wakeSource = 6 ∧ t.pwr.wakeTime = s.sys.ts) ∧
      (∀ c, 1 ≤ c → c ≤ 9 → ∃ t, exec (.standbyWake c) s = .next t ∧ t.pwr.state = 0 ∧ t.pwr.wakeSource = c ∧
        t.pwr.wakeTime = s.sys.ts ∧ t.sys.tsCd = s.sys.ts ∧ t.pwr.engines = [] ∧ t.mem.units = s.mem.units))

/-- The limiter and the divisor (R318 to R320): each sample joins the window of the last 10000; a limiter step takes the duty down by one to
4, then slows the divisor; a restoring step gives back the divisor first, then the duty up to 16. -/
def powerLimiterSteps : Prop :=
  ∀ s : State,
    (∀ w, s.sys.regulators = true → s.pwr.thermTrip = false → ∃ t, exec (.powerSample w) s = .next t ∧
      t.pwr.samples = (s.pwr.samples ++ [w]).drop ((s.pwr.samples ++ [w]).length - 10000) ∧
      (s.pwr.limitHit = true → t.pwr.limitHit = true)) ∧
    (s.mayGate = true →
      (4 < s.pwr.duty → ∃ t, exec .limiterStep s = .next t ∧ t.pwr.duty = s.pwr.duty - 1 ∧ t.pwr.effDiv = s.pwr.effDiv) ∧
      (s.pwr.duty ≤ 4 → ∃ t, exec .limiterStep s = .next t ∧ t.pwr.duty = s.pwr.duty ∧ t.pwr.effDiv = Nat.min 2 (s.divCode + 1)) ∧
      (s.belowLimit = true → s.obj 0x3020 1 < s.coreDiv →
        exec .limiterRestoreStep s = .next { s with pwr.effDiv := s.divCode - 1 }) ∧
      (s.belowLimit = true → s.coreDiv ≤ s.obj 0x3020 1 →
        exec .limiterRestoreStep s = .next { s with pwr.effDiv := 0, pwr.duty := Nat.min 16 (s.pwr.duty + 1) })) ∧
    (∀ rq v, s.mcOn = true → s.valueRefusal rq 0x3020 1 v = none →
      exec (.clkCoreDiv rq v) s = .next ((s.setObj 0x3020 1 v).answerTo rq.path 0))

/-- The thermal limits of a die (Table 13.6, R321, R322): a reading at or above PWR_T_THROTTLE sets its throttle, one at or below the release
value clears it, one at or above 110 °C trips the module; a throttled die's duty goes down by 1/16 a step to 4/16, and comes back
by 1/16 a step. -/
def dieTemperatureActs : Prop :=
  ∀ (s : State) (d : Nat), dieOk d = true → s.sys.vaux = true → ∀ v : BitVec 32,
    (f32le (.fin false 110 0) (f32 v.toNat) = true → s.pwr.thermTrip = false → ∃ t, exec (.dieTempReading d v) s = .next t ∧
      t.pwr.thermTrip = true ∧ t.sys.regulators = false ∧ t.sys.thermtripN = false ∧ t.mem.units = []) ∧
    (f32le (.fin false 110 0) (f32 v.toNat) = false → f32le (f32 (s.obj 0x3201 1)) (f32 v.toNat) = true →
      ∃ t, exec (.dieTempReading d v) s = .next t ∧ t.dieThrottled d = true ∧ Tab.get 0 t.pwr.dieTemp d = v ∧ t.mem = s.mem) ∧
    (f32le (.fin false 110 0) (f32 v.toNat) = false → f32le (f32 (s.obj 0x3201 1)) (f32 v.toNat) = false →
      f32le (f32 v.toNat) s.dieRelease = true →
      ∃ t, exec (.dieTempReading d v) s = .next t ∧ t.dieThrottled d = false ∧ Tab.get 0 t.pwr.dieTemp d = v ∧ t.mem = s.mem) ∧
    (∃ t, exec (.dieThrottleStep d) s = .next t ∧ Tab.get 16 t.pwr.dieDuty d =
      (if s.dieThrottled d then (if 4 < Tab.get 16 s.pwr.dieDuty d then Tab.get 16 s.pwr.dieDuty d - 1 else Tab.get 16 s.pwr.dieDuty d)
       else Nat.min 16 (Tab.get 16 s.pwr.dieDuty d + 1)))

/-- The states of a fabric port. Training ends in DARK at a port without a neighbour, in DOWN without a peer, in UP with the right peer on two
lanes (R198, R210); a link that stays bad goes DOWN and drops its retry buffer (R199); a lane that fails is replaced by its die's spare, or
leaves the port UP_ONE_LANE (R200); an idle port with nothing to acknowledge enters QUIET, and wakes from it (R201). -/
def portsChangeState : Prop :=
  ∀ (s : State) (p : Nat), portOk p = true → s.alive = true →
    (∀ r : TrainResult, s.mayTrain p = true →
      (s.takeShape.neighbourOf p = none → ∃ t, exec (.portTraining p r) s = .next t ∧ (t.port p).st = 7) ∧
      (s.takeShape.neighbourOf p ≠ none → r.peer = none → ∃ t, exec (.portTraining p r) s = .next t ∧ (t.port p).st = 0) ∧
      (∀ peer, s.takeShape.peerOk p peer = true → r.peer = some peer → (s.takeShape.trainsLr p r).isSome = true → r.lanes = 3 →
        ∃ t, exec (.portTraining p r) s = .next t ∧ (t.port p).st = 2 ∧ (t.port p).peerDid = BitVec.ofNat 17 peer.1 ∧
          (t.port p).peerPort = peer.2 ∧ (t.port p).lanes = 3)) ∧
    (portUp (s.port p).st = true → ∃ t, exec (.linkRetryTimeout p) s = .next t ∧ (t.port p).st = 0 ∧ (t.port p).retry = [] ∧
      (t.port p).linkDown = true) ∧
    (∀ l, l < 2 → (s.port p).st = 2 → (s.port p).lanes = 3 →
      (s.spareLane p = none → ∃ t, exec (.laneSpare p l) s = .next t ∧ (t.port p).st = 3 ∧ (t.port p).lanes.getLsbD l = false ∧
        (t.port p).laneFail = true) ∧
      (∀ j, s.spareLane p = some j → ∃ t, exec (.laneSpare p l) s = .next t ∧ (t.port p).st = 2 ∧ (t.port p).lanes = 3 ∧
        (t.port p).spared.getLsbD l = true ∧ (t.port p).laneFail = true)) ∧
    ((s.port p).st = 2 → (s.port p).outq = [] → (s.port p).retry = [] → s.obj 0x6012 2 = 1 →
      ∃ t, exec (.portQuietEntry p) s = .next t ∧ (t.port p).st = 4) ∧
    ((s.port p).st = 4 → (s.port p).lanes = 3 → ∃ t, exec (.portQuietWake p) s = .next t ∧ (t.port p).st = 2)

/-- Flits (R199, R202): one whose CRC fails is discarded and the flits from the expected one on are asked for; the data or idle flit
that is expected is received; a FENCE flit leaves the port FENCED; a retry request makes the transmitter send again every flit it still holds from
the one asked for. -/
def flitsAct : Prop :=
  ∀ (s : State) (p : Nat), portOk p = true → s.alive = true →
    (∀ (b : List Byte) (fec : Bool), ((s.port p).st = 2 ∨ (s.port p).st = 3) →
      ((fec = false ∨ flitOk b = false) → ∃ t, exec (.flitReceive p b fec) s = .next t ∧ (t.port p).crcErr = true ∧
        (t.port p).skipping = true ∧ (t.port p).rxSeq = (s.port p).rxSeq ∧ t.out = s.out ++ [.flit p 3 (s.port p).rxSeq.toNat]) ∧
      (fec = true → flitOk b = true → (flType b = 0 ∨ flType b = 1 ∨ flType b = 4) → BitVec.ofNat 12 (flSeq b) = (s.port p).rxSeq →
        ∃ t, exec (.flitReceive p b fec) s = .next t ∧ (t.port p).rxSeq = (s.port p).rxSeq + 1 ∧ (t.port p).skipping = false) ∧
      (fec = true → flitOk b = true → flType b = 2 → BitVec.ofNat 12 (flSeq b) = (s.port p).rxSeq → ∃ t, exec (.flitReceive p b fec) s = .next t ∧ (t.port p).st = 5)) ∧
    (∀ fseq e l, (s.port p).retry.dropWhile (fun e => e.1 != fseq) = e :: l →
      ∃ t, exec (.retryRequest p fseq) s = .next t ∧ (t.port p).retrying = true ∧ (t.port p).retry = (s.port p).retry ∧
        t.out = s.out ++ (e :: l).map (fun x => .flit p (flType x.2) x.1.toNat))

/-- Requests of other modules (R216 to R218): PUT sends its write to the stripe's home, and its ACK waits for the write's acknowledgement; GET,
after the port's own PUTs there, answers with the bytes; ATOMIC adds to what it read and answers; a hoist goes to its slot, one with REL only after the PUTs that arrived before it. -/
def remoteRequestsAct : Prop :=
  ∀ (s : State) (p : Nat) (pk : List Byte) (pa : Nat),
    (∀ u v, arrives s p 1 pk → u = s.taken p 1 pk → u.xlate (hdrOf pk).ctx (pkVa pk) [.w, .fab] = (some pa, v) →
      exec (.put p pk) s = .next ((({ v with
        fab.putsIn := v.fab.putsIn ++ [⟨v.fab.putNo, p, pk, none, St.ok⟩], fab.putNo := v.fab.putNo + 1 } : State).sendWrite
          (1000 + p) pa (pkData pk)).forCtx (some (hdrOf pk).ctx) v)) ∧
    (∀ u x r, arrives s p 2 pk → u = s.taken p 2 pk → (u.xlate (hdrOf pk).ctx (pkVa pk) [.r, .fab]).1 = some pa →
      x = (u.xlate (hdrOf pk).ctx (pkVa pk) [.r, .fab]).2.settlePort p pa (pkLen pk) → x.memRead pa (pkLen pk) = r →
      r.1.uncorr = false → r.1.pois.any id = false →
      exec (.get p pk) s = .next
        ((r.2.forCtx (some (hdrOf pk).ctx) x).respond pk (if r.1.corr then St.okCorr else St.ok) (some r.1.bytes))) ∧
    (∀ u x r v w, arrives s p 4 pk → u = s.taken p 4 pk → pkVa pk % atomicSize pk = 0 →
      (u.xlate (hdrOf pk).ctx (pkVa pk) [.r, .w, .fab]).1 = some pa →
      x = (u.xlate (hdrOf pk).ctx (pkVa pk) [.r, .w, .fab]).2.settlePort p pa (atomicSize pk) → x.memRead pa (atomicSize pk) = r →
      r.1.uncorr = false → r.1.pois.any id = false →
      v = r.2.forCtx (some (hdrOf pk).ctx) x →
      v.memWrite pa (natLe (atomicSize pk) (atomicVal pk (leNat r.1.bytes))) = (false, w) →
      exec (.atomic p pk) s = .next ((w.forCtx (some (hdrOf pk).ctx) v).respond pk (if r.1.corr then St.okCorr else St.ok)
        (if (hdrOf pk).fetch then some r.1.bytes else none))) ∧
    (arrives s p 3 pk → ((hdrOf pk).rel = false ∨ ∀ x ∈ s.fab.putsIn, x.port ≠ p) →
      exec (.hoistPacket p pk) s = .next ((s.taken p 3 pk).deliver (hoistMsg p pk))) ∧
    (∀ u, arrives s p 3 pk → u = s.kept p pk → (hdrOf pk).rel = true → (∃ x ∈ s.fab.putsIn, x.port = p) →
      exec (.hoistPacket p pk) s = .next { u with fab.relHeld := u.fab.relHeld ++ [⟨p, pk, u.fab.putNo⟩] }) ∧
    (∀ r, portInOk p = true → s.alive = true → s.fab.relHeld.find? (fun r => r.port == p) = some r →
      (∀ x ∈ s.fab.putsIn, x.port = p → r.after ≤ x.no) →
      exec (.relHoistRelease p) s = .next ((({ s with fab.relHeld := s.fab.relHeld.erase r } : State).leavePort p r.pk).deliver (hoistMsg p r.pk)))

/-- Responses and timeouts (R219, R274): a GET's data reaches the tile memory of the task that asked; a response, or the end of the time to
wait for one, ends its transaction, with the response's status, with PEER_LOST where the rank is marked lost, or with ROUTE_UNAVAILABLE; a
transaction that ended is outstanding no more. -/
def responsesEndTransactions : Prop :=
  ∀ (s : State) (p : Nat) (pk : List Byte) (x : Trans), s.fab.trans.Nodup →
    (∀ u, arrives s p 8 pk → u = s.taken p 8 pk → u.transOf pk = some x → pkStatus pk = St.ok → (∀ k, x.kind ≠ .coll k) →
      exec (.ack p pk) s = .next (u.endTrans x St.ok (some (pkEcho pk))).sendCounters) ∧
    (∀ u, arrives s p 9 pk → u = s.taken p 9 pk → u.transOf pk = some x → pkStatus pk = St.ok →
      ∀ L q a n, x.kind = .get L q a n → (u.core L).owns q = true →
      exec (.data p pk) s = .next ((((u.modCore L (fun cs => cs.store false a ((pkData pk).take n))).moverBytes L n n).endTrans x St.ok
        (some (pkEcho pk))).sendCounters)) ∧
    (∀ tag, s.alive = true → s.fab.trans.find? (fun y => y.tag.toNat == tag) = some x → (∀ k, x.kind ≠ .coll k) →
      exec (.e2eTimeout tag) s = .next (s.endTrans x (if s.rankLost x.rank then St.peerLost else St.noRoute) none).sendCounters) ∧
    (∀ st e src m, x ∈ s.fab.trans → x.kind = .hoist src m → x ∉ (s.endTrans x st e).fab.trans ∧
      (s.endTrans x st e).pen.outcomes = s.pen.outcomes ++ [⟨src, st, m⟩])

/-- Stops and resets by request (R283, R285 to R287, R293, R302). A halt kills every started command of its contexts and none starts until a resume;
an epoch stop takes hold at once where its cut is sealed here; RBD_SAFE_HOLD_ENTER enters safe hold; each reset is answered before it acts;
a retired module takes no role but spare. -/
def stopsAndResetsByRequest : Prop :=
  ∀ (s : State) (rq : Req) (v : Nat),
    (accepts s rq 0x4010 1 v → exec (.rbdHalt rq v) s = .next ((s.halt v).answerTo rq.path 0)) ∧
    (∀ m : BitVec 17, s.alive = true → exec (.emergencyHalt m) s = .next (s.halt m.toNat)) ∧
    (accepts s rq 0x4010 3 v → ∃ t : State, exec (.rbdResume rq v) s = .next (t.answerTo rq.path 0) ∧
      ∀ c, c < 16 → (v.testBit c = true ∨ v.testBit 16 = true) → (t.ctx c).halted = false ∧ (t.ctx c).epochStop = none) ∧
    (accepts s rq 0x4010 2 v → v < 2 ^ 36 → ∃ t : State, exec (.rbdEpochStop rq v) s =
        .next ((t.tellAll Mg.epochStop (natLe 8 v)).answerTo rq.path 0) ∧
      (t.ctx (v / 2 ^ 32)).epochStop = some (v % 2 ^ 32) ∧ (t.ctx (v / 2 ^ 32)).stopped =
        ((s.ctx (v / 2 ^ 32)).sealLocal.isSome && decide (v % 2 ^ 32 ≤ (s.ctx (v / 2 ^ 32)).cutStepLocal.toNat))) ∧
    (accepts s rq 0x4020 3 v → exec (.rbdSafeHoldEnter rq v) s = .next ((s.enterSafeHold 7 0xFF).answerTo rq.path 0)) ∧
    (accepts s rq 0x4020 2 v → s.rbd.safeHold = true → s.sys.regulators = true → s.pwr.thermTrip = false →
      exec (.rbdSafeHoldExit rq v) s = .next ((s.answerTo rq.path 0).warmReset)) ∧
    (accepts s rq 0x4021 1 v → s.warmable = true → exec (.rbdWarmReset rq v) s = .next ((s.answerTo rq.path 0).warmReset)) ∧
    (∀ cool, accepts s rq 0x4021 2 v → exec (.rbdColdReset rq v cool) s = .next ((s.answerTo rq.path 0).coldReset cool)) ∧
    (accepts s rq 0x4021 3 v → exec (.rbdContextReset rq v) s = .next ((s.resetCtxs v).answerTo rq.path 0)) ∧
    (accepts s rq 0x4002 0 v → s.rbd.role ≠ 2 → exec (.rbdRole rq v) s =
      .next ({ s with rbd.role := v }.answerTo rq.path 0)) ∧
    (accepts s rq 0x4002 0 v → s.rbd.role = 2 → v ≠ 1 → v ≠ 2 → exec (.rbdRole rq v) s = .next (s.answerTo rq.path 0x0D))

/-- The management controller's watchdog (R281): each expiry counts one more and restarts the management controller alone, its requests and
sessions gone and the boot ROM running; every other part keeps its memory and its cores. -/
def watchdogRestartsTheController : Prop :=
  ∀ s : State, s.mcOn = true → s.rbd.wdLast = none → ∃ t, exec .mgmtWatchdogExpiry s = .next t ∧
    t.rbd.wdExpiries = s.rbd.wdExpiries + 1 ∧ t.rbd.wdLast = some s.sys.ts ∧ t.um.queues = [] ∧ t.um.sessions = [] ∧ t.um.locks = [] ∧
    t.sys.booting = true ∧ t.mem = s.mem ∧ t.cores = s.cores ∧ t.rbd.safeHold = s.rbd.safeHold

/-- The rank map (R29): a load that is not refused goes to every module of the shape and is installed here; a distributed map is installed and
acknowledged, unless a lost module sends it; an acknowledgement counts toward the load, and a load whose time ends is answered; a module without
a map asks its first usable neighbour and installs the answer. -/
def rankMapLoads : Prop :=
  ∀ s : State,
    (∀ (rq : Req) (m : List (BitVec 32)), s.mcOn = true → s.writeRefusal rq 0x4006 0 = none → s.mapRefusal m = 0 →
      exec (.rbdRankMap rq m) s = .next ((s.loadMap ⟨rq.path, []⟩ m).settleLoad)) ∧
    (∀ m : RankMapMsg, s.alive = true →
      s.didLost m.src = false → exec (.rankMapInstall m) s = .next ((s.takeMap m.map).mgmt m.src Mg.rankMapAck (natLe 4 s.myDid))) ∧
    (∀ d m acked, s.mcOn = true → s.xl.rankLoad = some (m, acked) →
      exec (.rankMapAck d) s = .next ({ s with xl.rankLoad := some (m, NSet.insert acked d) }.loadSettled)) ∧
    (∀ x (rq : UmReq), s.mcOn = true → s.xl.rankLoad = some x → s.xl.rankLoadReq = some rq → rq.bs = [] → s.rbd.recRank = none →
      exec .rankMapAckTimeout s = .next ({ s with xl.rankLoad := none, xl.rankLoadReq := none }.answerTo rq.path 0x0C)) ∧
    (∀ p m, portOk p = true → s.alive = true → s.askPort = some p → s.xl.rankMap = [] →
      exec (.rankMapRequest p (some m)) s =
        .next ((s.mgmt (s.port p).peerDid.toNat Mg.rankMapAsk (natLe 4 s.myDid)).installMap m))

/-- The detection of a loss (R294): heartbeats go to the watchers and are noted; one that is missing is told to the coordinator, which probes a
module that one watcher suspects and declares it lost with a second suspicion or when the probe is not answered. -/
def lossesAreDetected : Prop :=
  ∀ s : State, s.alive = true →
    (s.sys.regulators = true → exec .heartbeatSend s =
      .next (s.watchers.foldl (fun (x : State) d => x.mgmt d Mg.heartbeat (natLe 4 x.myDid)) s)) ∧
    (∀ d, s.watchers.contains d = true → s.didLost d = false →
      exec (.heartbeat d) s = .next { s with rbd.beats := Tab.put s.rbd.beats d s.sys.ts }) ∧
    (∀ d, s.watchers.contains d = true → s.didLost d = false →
      exec (.heartbeatTimeout d) s = .next (s.tellCoordBut (some d) Mg.suspicion (natLe 4 d))) ∧
    (∀ w d, s.isCoordBut d = true → s.didLost d = false → s.didLost w = false → s.rbd.recState = 0 → s.rbd.suspicions = [] → s.rbd.probes = [] →
      exec (.suspicion w d) s = .next
        (({ s with rbd.recState := 1, rbd.recTs := s.sys.ts, rbd.suspicions := [(d, w)], rbd.probes := [d] } : State).probe d)) ∧
    (∀ w x d, s.isCoordBut d = true → s.didLost d = false → s.didLost w = false → s.rbd.recState = 1 → s.rbd.suspicions = [(d, x)] → x ≠ w →
      ∃ t, exec (.suspicion w d) s = .next t ∧ t.rbd.suspicions = [] ∧ d ∉ t.rbd.probes) ∧
    (∀ d, s.rbd.probes.contains d = true → exec (.probeTimeout d) s = .next (s.declareLost d))

/-- Sessions (R331, R332): SESSION_OPEN gives a number and a nonce; the right value of SESSION_AUTH opens the session under its key, and a wrong one ends
it and is counted; a session closes by request or when it is idle too long, with its partial writes; the end of a block frees its path. -/
def sessionsOpenAndClose : Prop :=
  ∀ (s : State) (p : UmPath) (rq : UmReq) (rest : List UmReq) (t : State), t = taken s p rq rest →
    (serves s p 0x10 rq rest → (t.frPayload rq.bs).length = 33 →
      (fieldAt (t.frPayload rq.bs) 0 1 = 2 ∨ fieldAt (t.frPayload rq.bs) 0 1 = 3) → NSet.mem t.um.authBlock (pathNo p) = false →
      t.um.sessions.length < 8 → ∃ (u : State) (n : Nat) (nonce : List Byte), nonce.length = 32 ∧
        exec (.sessionOpen p) s = .next (u.reply rq { payload := nonce, sess := n }) ∧
        Tab.find u.um.sessions n = some ⟨fieldAt (t.frPayload rq.bs) 0 1, p, false, (t.frPayload rq.bs).drop 1, nonce, [], 0, 0⟩) ∧
    (∀ x, serves s p 0x11 rq rest → (t.frPayload rq.bs).length = 48 → Tab.find t.um.sessions (frSession rq.bs) = some x →
      x.opened = false → x.path = p →
      (t.frPayload rq.bs = t.authValue (frSession rq.bs) x → ∃ u : State, exec (.sessionAuth p) s =
        .next (u.sendBack p (rspHead rq.bs {} (frSession rq.bs) 0 ++ List.replicate 16 0)) ∧
        ∃ y, Tab.find u.um.sessions (frSession rq.bs) = some y ∧ y.opened = true ∧ y.level = x.level) ∧
      (t.frPayload rq.bs ≠ t.authValue (frSession rq.bs) x → exec (.sessionAuth p) s =
        .next ((({ t with um.sessions := Tab.del t.um.sessions (frSession rq.bs) } : State).authFail p).reply rq (refuse 0x08)))) ∧
    (serves s p 0x12 rq rest → frSession rq.bs ≠ 0 →
      exec (.sessionClose p) s = .next ((t.reply rq {}).closeSession (frSession rq.bs))) ∧
    (∀ n x, Tab.find s.um.sessions n = some x → exec (.sessionIdleTimeout n) s = .next { s with
      um.sessions := Tab.del s.um.sessions n, um.locks := s.um.locks.filter (fun e => !(e.2.session == n && e.2.path == x.path)) }) ∧
    ((∀ c, p = .svc c → ctxOk c = true) →
      exec (.authBlockExpiry p) s = .next { s with um.authBlock := NSet.remove s.um.authBlock (pathNo p) })

/-- The paths (R330, R333, R336 to R338, R346, R358): a written GO queues the mailbox's request, one while GO = 1 is discarded and counted; a frame on
T1S joins its queue, a short one is counted; a forwarded request leaves for its module, and its response, or the end of the time for one,
goes back; the oldest event of a destination leaves by its path. -/
def umaselPathsAct : Prop :=
  ∀ (s : State), s.mcOn = true →
    (∀ v : BitVec 32, s.sys.linkUp = true → s.um.mbox.go = true →
      exec (.mgmtMboxGo v) s = .next { s with um.mboxDiscards := s.um.mboxDiscards + 1 }) ∧
    (∀ v : BitVec 32, s.sys.linkUp = true → s.um.mbox.go = false → v.getLsbD 0 = true → (s.umQueue .mbox).length < 32 →
      ∃ t, exec (.mgmtMboxGo v) s = .next t ∧ t.um.mbox.go = true ∧
        t.umQueue .mbox = s.umQueue .mbox ++ [⟨.mbox, sliceAt s.um.mbox.req 0 256⟩]) ∧
    (∀ c (v : BitVec 32), ctxOk c = true → s.sys.linkUp = true → s.vfOn c = true → s.pwr.state = 0 → (s.ctx c).svc.go = false →
      v.getLsbD 0 = true → (s.umQueue (.svc c)).length < 32 → ∃ t, exec (.mgmtSvcGo c v) s = .next t ∧ (t.ctx c).svc.go = true ∧
        t.umQueue (.svc c) = s.umQueue (.svc c) ++ [⟨.svc c, sliceAt (s.ctx c).svc.req 0 256⟩]) ∧
    (∀ bs, frShort bs = false → (s.umQueue .t1s).length < 32 → exec (.t1sFrame bs false) s =
      .next { s with um.queues := Tab.put s.um.queues 0 (s.umQueue .t1s ++ [⟨.t1s, bs⟩]) }) ∧
    (∀ bs b, frShort bs = true → exec (.t1sFrame bs b) s = .next { s with um.drops := s.um.drops + 1 }) ∧
    (∀ (rq : UmReq) rest t, s.umQueue .t1s = rq :: rest → rq.path = .t1s → frFwd rq.bs = true → t = taken s .t1s rq rest →
      (({ s with um.queues := Tab.put s.um.queues 0 rest } : State).settleDrains).precheck rq = .pass →
      t.inShape (frDid rq.bs) = true → t.didLost (frDid rq.bs) = false → t.reaches (frDid rq.bs) = true →
      exec (.forward .t1s) s = .next (({ t with um.fwd := t.um.fwd ++ [(rq.path, rq.bs)] } : State).sendForward
        (frDid rq.bs) rq.bs)) ∧
    (∀ (n : Nat) (p : UmPath) (b : List Byte), s.um.fwd[n]? = some (p, b) →
      (∃ x, exec (.forwardTimeout n) s = .next (({ s with um.fwd := s.um.fwd.eraseIdx n, um.fwdTags := s.um.fwdTags.eraseIdx n } : State).sendBack p
        (rspHead b x 0 0 ++ List.replicate 16 0)) ∧ x.detail = 0x0C) ∧
      (∀ bs, frShort bs = false →
        exec (.forwardResponse n bs) s =
          .next (({ s with um.fwd := s.um.fwd.eraseIdx n, um.fwdTags := s.um.fwdTags.eraseIdx n } : State).sendBack p bs))) ∧
    (∀ d e rest, 1 ≤ d → d ≤ 4 → Tab.get [] s.um.events d = e :: rest → s.obj 0x1012 d = 1 →
      exec (.event d) s = .next (({ s with um.events := Tab.put s.um.events d rest } : State).emit (.t1s (s.eventFrame e))))

/-- The configuration store, firmware and wear (R329, R340, R344): the stored values go to the boot flash and are erased from it without a change
of a current value; activation makes the other slot active and restarts the management controller; a commit raises the anti-rollback count;
a spare that fails its self-test leaves the pool. -/
def maintenanceActs : Prop :=
  ∀ (s : State) (rq : Req) (v : Nat),
    (accepts s rq 0x1020 1 v → ∃ t, exec (.mgmtConfigStore rq v) s = .next t ∧ t.sys.cfgStore = s.configVals ∧ t.um = s.um) ∧
    (accepts s rq 0x1020 2 v → ∃ t, exec (.mgmtConfigClear rq v) s = .next t ∧ t.sys.cfgStore = [] ∧ t.um = s.um) ∧
    (accepts s rq 0x1030 2 v → s.slotOk (1 - s.sys.activeSlot) = true → ∃ t, exec (.mgmtFwActivate rq v) s = .next t ∧
      t.sys.activeSlot = 1 - s.sys.activeSlot ∧ t.sys.booting = true ∧ t.um.queues = [] ∧ t.um.sessions = [] ∧ t.mem = s.mem ∧
      t.cores = s.cores ∧ t.out = s.out) ∧
    (accepts s rq 0x1030 4 v → exec (.mgmtFwCommit rq v) s =
      .next (({ s with sys.antiRollback := Nat.max s.sys.antiRollback s.sys.runSecVer } : State).answerTo rq.path 0)) ∧
    (∀ d n, s.works = true → cdOk d = true → 40 ≤ n → n < 48 → (∀ j, j < 40 → (s.core (d * 40 + j)).physIdx ≠ n) →
      exec (.wearManagement [] [(d, n)]) s = .next { s with spares := Tab.put s.spares d (NSet.insert (Tab.get [] s.spares d) n) })

/-- The hang dump and the timestamps (R356, R357, R359, R360): a trigger whose bit is set begins a dump with its cause and time, the dump's end leaves
it held, a release frees the region, and a trigger while it is held is counted; a measurement starts the exchanges anew and tells the
neighbours, and an exchange adds twice the peer's offset to its port's sum. -/
def dumpsAndTimestampsAct : Prop :=
  ∀ (s : State) (rq : Req) (v : Nat),
    (∀ n, s.mcOn = true → n ≤ 5 → s.obj 0x5E00 1 / 2 ^ n % 2 = 1 → (s.rbd.safeHold = false ∨ n = 5) →
      (s.obs.dumpState = 0 → exec (.hangDumpTrigger n) s = .next { s with
        obs.dumpState := 1, obs.dumpCause := n, obs.dumpTrigger := s.sys.ts, obs.dumpOffset := s.obs.tsOffset }) ∧
      (s.obs.dumpState = 2 → ∃ t, exec (.hangDumpTrigger n) s = .next t ∧ t.obs.dumpState = 2 ∧ t.obs.dumpCause = s.obs.dumpCause ∧
        t.obs.dumpMissed = BitVec.ofNat 32 (n % 256 + 256 * (s.obs.dumpMissed.toNat / 256 + 1)))) ∧
    (s.obs.dumpState = 1 → ∃ t, exec .hangDumpComplete s = .next t ∧ t.obs.dumpState = 2 ∧ t.obs.dumpCause = s.obs.dumpCause) ∧
    (accepts s rq 0x5E00 2 v → exec (.obsDumpRequest rq v) s = .next ((s.dump 5).answerTo rq.path 0)) ∧
    (accepts s rq 0x5E00 4 v → s.obs.dumpState ≠ 1 →
      exec (.obsDumpRelease rq v) s = .next (({ s with obs.dumpState := 0 } : State).answerTo rq.path 0)) ∧
    (accepts s rq 0x5100 7 v → s.obj 0x5100 1 = 1 → ∃ t : State, exec (.obsTsMeasure rq v) s =
        .next ((t.tellAll Mg.tsMeasure []).answerTo rq.path 0) ∧
      t.obs.measuring = true ∧ t.obs.tsMeasure = s.sys.ts ∧ t.obs.linkN = [] ∧ t.fab = s.fab ∧ t.out = s.out) ∧
    (∀ q t1 t2 t3 t4 : Nat, portOk q = true → s.alive = true → s.obj 0x5100 1 = 1 → s.obj 0x5100 2 ≠ 2 → portUp (s.port q).st = true →
      Tab.get 0 s.obs.linkN q < 63 → exec (.tsExchange q t1 t2 t3 t4) s = .next { s with
        obs.linkN := Tab.put s.obs.linkN q (Tab.get 0 s.obs.linkN q + 1)
        obs.linkOff := Tab.put s.obs.linkOff (1000 + q) (Tab.get 0 s.obs.linkOff (1000 + q) +
          (((t2 : Int) - t1) - ((t4 : Int) - t3))) })

/-- Register writes and BAR2 (R6, R20, R21, R26). A firmware write changes the registers of its doublewords; a host write outside a context's
window goes by its place in BAR0, and a virtual function's to its own window; BAR2 reaches striped memory, and an access that reaches
nothing is counted. -/
def registerAndBarAccessesAct : Prop :=
  ∀ (s : State) (off w v : Nat), s.mcOn = true →
    (exec (.registerWrite .firmware off w v) s = .next ((dwords off w v).foldl State.fwWrite s)) ∧
    (s.sys.linkUp = true → off < 0x100000 → exec (.registerWrite (.host 0) off w v) s =
      .next ((dwords off w v).foldl State.hostXlWrite s)) ∧
    (s.sys.linkUp = true → 0x1000000 ≤ off → off < 0x2000000 → exec (.registerWrite (.host 0) off w v) s =
      .next (s.hostWindow ((off - 0x1000000) / 0x100000) (off % 0x100000) w v)) ∧
    (∀ n, 0 < n → n < 16 → off < 0x100000 → exec (.registerWrite (.host n) off w v) s =
      .next (if s.vfOn n then s.hostWindow n off w v else s)) ∧
    (∀ n, s.sys.linkUp = true → s.vfOn 0 = true → off < 2 ^ 30 * s.sys.bar2Pf → s.works = true →
      (2 ^ 32 ≤ s.xl.bar2Base.toNat + off → s.xl.bar2Base.toNat + off + n ≤ s.stripedEnd →
        exec (.bar2Access 0 off n none) s = .next ((s.memRead (s.xl.bar2Base.toNat + off) n).2.emit
          (.bar2Data (s.memRead (s.xl.bar2Base.toNat + off) n).1.bytes))) ∧
      (∀ bs : List Byte, 2 ^ 32 ≤ s.xl.bar2Base.toNat + off → s.xl.bar2Base.toNat + off + bs.length ≤ s.stripedEnd →
        exec (.bar2Access 0 off n (some bs)) s = .next (s.memWrite (s.xl.bar2Base.toNat + off) bs).2) ∧
      (s.xl.bar2Base.toNat + off < 2 ^ 32 → exec (.bar2Access 0 off n none) s =
        .next (({ s with xl.bar2Refused := s.xl.bar2Refused + 1 } : State).emit .unsupported)))

end Sys2Proof.Claim

open Sys2Proof Sys2Proof.Machine Sys2Proof.Claim

/-- Vector arithmetic, bit and mask instructions complete. Its parts, each under its own name, say so in detail. -/
def Obligations.VectorElementsComplete : Prop :=
  vecArithmeticCompletes ∧ vecTranscendentalCompletes ∧ vecBitwiseCompletes ∧ vecMaskCompletes

/-- Vector permutes, conversions and memory instructions complete. Its parts, each under its own name, say so in detail. -/
def Obligations.VectorMovesComplete : Prop :=
  vecPermuteCompletes ∧ vecMemoryCompletes

/-- The control instructions that only write registers, each whenever it issues: the register it names takes its value, and PC moves on
(R31, R38, R39). A loop counter set from an address register takes its low 32 bits. -/
def Obligations.CtlRegisterWritesComplete : Prop :=
  ctlRow .ctlNop 0x00 ctlOk (fun _ _ => {}) (fun _ cs => cs) ∧
  ctlRow .ctlSetl 0x04 (fun f => imm32Ok f && decide (ctlDA f < 8)) (fun _ _ => {})
    (fun f cs => { cs with l := Tab.put cs.l (ctlDA f) (BitVec.ofNat 32 (ctlImm f)) }) ∧
  ctlRow .ctlSeta 0x05 ctlOk (fun f _ => { aUse := [ctlDA f] })
    (fun f cs => { cs with a := Tab.put cs.a (ctlDA f) (BitVec.ofNat 48 (ctlImm f)), aPoison := NSet.remove cs.aPoison (ctlDA f) }) ∧
  ctlRow .ctlSeed 0x0C imm32Ok (fun _ _ => {}) (fun f cs => { cs with seed := BitVec.ofNat 32 (ctlImm f) }) ∧
  ctlRow .ctlMovl 0x0D (fun f => ctlOk f && decide (ctlDA f < 8)) (fun f _ => { aUse := [ctlSA f], ctl := [ctlSA f] })
    (fun f cs => { cs with l := Tab.put cs.l (ctlDA f) ((Tab.get 0 cs.a (ctlSA f)).setWidth 32) }) ∧
  ctlRow .ctlCmp 0x08 (fun f => ctlOk f && decide (ctlCond f % 8 < 6)) (fun f _ => { aUse := cmpRegs f, ctl := cmpRegs f })
    (fun f cs => { cs with
      p := condHolds (ctlCond f) (cs.A (ctlSA f)) (if ctlCond f < 8 then cs.A (ctlSB f) else ctlImm f) })

/-- Arithmetic on address registers is modulo 2^48 and on loop counters modulo 2^32, and neither raises a flag on wrap (R31): ctl.adda
adds the immediate, ctl.addr the other register, and ctl.loop takes 1 from a counter that is not 0. -/
def Obligations.RegisterArithmeticWraps : Prop :=
  ∀ (s : State) (L : Nat) (f : TileFields),
    (ctlOk f = true → readyCtl s L 0x06 f { aUse := [ctlDA f, ctlSA f] } →
      ∃ t, exec (.ctlAdda L f) s = .next t ∧
        Tab.get 0 (t.core L).a (ctlDA f) = Tab.get 0 (s.core L).a (ctlSA f) + BitVec.ofNat 48 (ctlImm f) ∧
        (t.core L).sticky = (s.core L).sticky ∧ (t.core L).l = (s.core L).l) ∧
    (ctlOk f = true → readyCtl s L 0x07 f { aUse := [ctlDA f, ctlSA f, ctlSB f] } →
      ∃ t, exec (.ctlAddr L f) s = .next t ∧
        Tab.get 0 (t.core L).a (ctlDA f) = Tab.get 0 (s.core L).a (ctlSA f) + Tab.get 0 (s.core L).a (ctlSB f) ∧
        (t.core L).sticky = (s.core L).sticky ∧ (t.core L).l = (s.core L).l) ∧
    ((branchOk f && decide (ctlDA f < 8)) = true → readyCtl s L 0x03 f {} → Tab.get 0 (s.core L).l (ctlDA f) = 1 →
      ∃ t, exec (.ctlLoop L f) s = .next t ∧ Tab.get 0 (t.core L).l (ctlDA f) = 0 ∧
        (t.core L).sticky = (s.core L).sticky ∧ (t.core L).a = (s.core L).a ∧ (t.core L).pc = (s.core L).pc + 1)

/-- Branches move PC; ctl.lda, ctl.sta and ctl.fence complete. Its parts, each under its own name, say so in detail. -/
def Obligations.ControlFlowAndMemoryComplete : Prop :=
  branchesMovePc ∧ ctlMemoryAndFenceComplete

/-- ctl.end ends its task, and an undefined instruction ends it with INVALID_INSTRUCTION. Its parts, each under its own name, say so in detail. -/
def Obligations.TasksEnd : Prop :=
  ctlEndEndsTheTask ∧ undefinedInstructionEndsTheTask

/-- ctl.enq copies its descriptor from tile memory to the end of the device queue, one level deeper than its task, and PC moves on; a
held ctl.enq does the same when it tries again (R42, R166, R167). -/
def Obligations.CtlEnqAppendsToTheDeviceQueue : Prop :=
  ∀ (s : State) (L : Nat) (f : TileFields) (k : TaskInfo), ctlOk f = true → (s.core L).task = some k →
    (s.core L).tmErr = [] → (s.core L).tmPoison = [] → k.depth + 1 ≤ 16 → (s.ctx k.key.c).dq.length < 4096 →
    (s.core L).A (ctlSA f) % 64 = 0 → (s.core L).A (ctlSA f) + 64 ≤ 0x600000 →
    readyCtl s L 0x10 f { aUse := [ctlSA f], ctl := [ctlSA f], rd := blocksOf false ((s.core L).A (ctlSA f)) 64 } →
    ∃ t, exec (.ctlEnq L f) s = .next t ∧ (t.core L).pc = (s.core L).pc + 1 ∧ (t.core L).enqHold = false ∧
      (t.ctx k.key.c).dq = (s.ctx k.key.c).dq ++
        [((s.ctx k.key.c).dqNext, k.depth + 1, (s.core L).tm.readN ((s.core L).A (ctlSA f)) 64)] ∧
      ((s.core L).enqHold = true → exec (.enqQueueAccept L) s = .next t)

/-- Whenever an instruction of the matrix unit issues, it executes (R34, R62): it enters its unit's queue, its effect lies in its core
alone, and PC moves on. A spill that is due is written first (R69). -/
def Obligations.MatrixInstructionsComplete : Prop :=
  mxuRow .mxuMode 0x00 (fun f => decide (mxuPart f < 3) && bits f 109 0 == 0) modePlan
    (fun f cs => { (List.range 4).foldl (fun (cs : CoreState) p => cs.spillIfDue p) cs with
      mode := mxuPart f
      parts := Tab.mapV ((List.range 4).foldl (fun (cs : CoreState) p => cs.spillIfDue p) cs).parts
        (fun _ x => { Part.reset with faulted := x.faulted, faultSrc := x.faultSrc }) }) ∧
  mxuRow .mxuLdb 0x01 ldbOk ldbPlan fxMxuLdb ∧
  mxuRow .mxuPass 0x02 passOk passPlan fxMxuPass ∧
  mxuRow .mxuSpcfg 0x03 (fun f => decide (spcfgS f ≤ 4096) && rowsOk (spcfgRows f) && bits f 67 0 == 0)
    (fun f cs =>
      { aUse := [spcfgBuf f]
        ctl := [spcfgBuf f]
        check := if partIn cs f && accIn cs.mode (mxuPart f) (spcfgAcc f) (spcfgRows f)
            && cs.A (spcfgBuf f) % spillRow cs.mode == 0
            && tileIn (cs.A (spcfgBuf f)) (spcfgRows f * spillRow cs.mode) then none else some St.invalid
        part := some (mxuPart f) })
    (fun f cs => cs.setPart (mxuPart f) { cs.part (mxuPart f) with
      win := some ⟨cs.A (spcfgBuf f), spcfgAcc f, spcfgRows f, spcfgS f, true⟩
      passCount := 0
      spillDue := false }) ∧
  mxuRow .mxuSpill 0x04 (fun f => bits f 109 0 == 0) windowPlan (fun f cs => cs.spill (mxuPart f)) ∧
  mxuRow .mxuResume 0x05 (fun f => bits f 109 0 == 0) windowPlan (fun f cs => cs.resume (mxuPart f)) ∧
  mxuRow .mxuOut 0x06 outOk outPlan fxMxuOut

/-- Whenever an instruction of the reduction unit issues, it executes (R118 to R121): its results go to its core's tile memory, and PC
moves on. -/
def Obligations.ReductionsComplete : Prop :=
  redOp .redSum 0x00 (redOk true true false false) (fun f => redPlan false (sumSize f) (sumSize f * rROWS f) f)
    (fun f => redRows f (sumSize f) (redSumOf f false)) ∧
  redOp .redMax 0x01 (redOk true false false false) (fun f => redPlan false (rSize f) (rSize f * rROWS f) f)
    (fun f => redRows f (rSize f) (redExt f Fp.max max)) ∧
  redOp .redMin 0x02 (redOk true false false false) (fun f => redPlan false (rSize f) (rSize f * rROWS f) f)
    (fun f => redRows f (rSize f) (redExt f Fp.min min)) ∧
  redOp .redArgmax 0x03 (redOk false false true false) (fun f => redPlan true 4 (4 * rROWS f) f) fxRedArgmax ∧
  redOp .redSqnorm 0x04 (redOk false true false false) (fun f => redPlan false (sumSize f) (sumSize f * rROWS f) f)
    (fun f => redRows f (sumSize f) (redSumOf f true)) ∧
  redOp .redTopk 0x08 (redOk false false true true) (fun f => redPlan true 64 (topkB f + 4 * rK f * rROWS f) f)
    (fun f order cs => redSweep (topkRow f) (rROWS f) 0 order [] cs)

/-- Whenever an instruction of the data mover issues, it executes (R48, R49, R216): mov.copy and mov.fill move their rows, and mov.put
and mov.get form their transactions if the flow table takes one to their rank (R212). -/
def Obligations.MoverInstructionsComplete : Prop :=
  unitRow .movCopy 3 0x00 .mov (fun f => movOk f && decide (movDir f < 8) && movRank f == 0) copyPlan fxMovCopy ∧
  unitRow .movFill 3 0x01 .mov (fun f => movOk f && decide (movDir f < 2) && movRank f == 0) fillPlan fxMovFill ∧
  (∀ (s : State) (L : Nat) (f : TileFields), remoteOk f = true → s.flowReady (s.ctxOf L) L (s.rankOf L f) = true →
    (ready s L 3 0x04 f .mov (putPlan L f s) →
      exec (.movPut L f) s = .next ((fxMovPut L f (entered s L .mov (putPlan L f s))).advance L)) ∧
    (ready s L 3 0x05 f .mov (getPlan L f s) →
      exec (.movGet L f) s = .next ((fxMovGet L f (entered s L .mov (getPlan L f s))).advance L)))

/-- mov.fill writes its pattern to tile memory and nothing else: where no error mark or poison stands in tile memory, each row holds the
low 32 bits of A[SRC] in every 4 bytes, and the rest of tile memory is as it was (R380). -/
def Obligations.FillWritesItsRows : Prop :=
  ∀ (s : State) (L : Nat) (f : TileFields), movOk f = true → movDir f = 0 → movRank f = 0 → movRows f = 1 →
    (s.core L).tmErr = [] → (s.core L).tmPoison = [] → (s.core L).Ap (movSrc f) = false →
    ready s L 3 0x01 f .mov (fillPlan L f s) →
    ∃ t, exec (.movFill L f) s = .next t ∧ (t.core L).pc = (s.core L).pc + 1 ∧
      (∀ n, n < movRowBytes f → (t.core L).tm.read ((s.core L).A (movDst f) + n) =
        BitVec.ofNat 8 ((s.core L).A (movSrc f) / 2 ^ (8 * (n % 4)))) ∧
      (∀ a, a < (s.core L).A (movDst f) ∨ (s.core L).A (movDst f) + movRowBytes f ≤ a →
        (t.core L).tm.read a = (s.core L).tm.read a) ∧
      (t.core L).am = (s.core L).am ∧ (t.core L).a = (s.core L).a ∧ t.mem = s.mem

/-- SYN and MRK instructions complete. Its parts, each under its own name, say so in detail. -/
def Obligations.PennantAndMarkerInstructionsComplete : Prop :=
  pennantInstructionsComplete ∧ markerInstructionsComplete

/-- Supplies, control signals and the PCIe link act. Its parts, each under its own name, say so in detail. -/
def Obligations.SuppliesAndSignalsAct : Prop :=
  suppliesAct ∧ controlSignalsAct

/-- The four resets and the steps of bring-up. Its parts, each under its own name, say so in detail. -/
def Obligations.ResetsAndBringUpAct : Prop :=
  resetsAct ∧ bringUpAdvances

/-- Loss of lock of the PLL of a compute die or I/O die takes the module into safe hold with code 4 and that die, and loss of the
management controller's own only puts it on its oscillator (R312, R313); a compute die that loses two of its links to the I/O dies,
or stops answering, does so with code 3 (R277); a failed check of control does so with code 4 (R283). -/
def Obligations.ClockAndLinkFailuresEnterSafeHold : Prop :=
  ∀ s : State, s.alive = true →
    (∀ die, dieOk die = true → die ≠ 12 → s.sys.pllLock.getLsbD die = true → ∃ t, exec (.pllLockLoss die) s = .next t ∧
      t.rbd.safeHold = true ∧ t.rbd.cause = BitVec.ofNat 32 (4 + die * 256) ∧ t.sys.pllLock.getLsbD die = false) ∧
    (s.sys.pllLock.getLsbD 12 = true → ∃ t, exec (.pllLockLoss 12) s = .next t ∧ t.sys.mcOnPll = false ∧
      t.rbd = s.rbd ∧ t.sys.pllLock.getLsbD 12 = false) ∧
    (s.sys.pllLock.getLsbD 12 = true → s.pwr.state ≠ 2 → exec .mcClockSwitch s = .next { s with sys.mcOnPll := true }) ∧
    (∀ cd iod, cdOk cd = true → iodOk iod = true → s.sys.regulators = true → NSet.mem (s.lostLinks cd) iod = false →
      (s.lostLinks cd = [] → ∃ t, exec (.dieLinkFailure cd iod) s = .next t ∧ t.rbd.safeHold = false ∧ t.lostLinks cd = [iod]) ∧
      (∀ j, s.lostLinks cd = [j] → ∃ t, exec (.dieLinkFailure cd iod) s = .next t ∧ t.rbd.safeHold = true ∧
        t.rbd.cause = BitVec.ofNat 32 (3 + cd * 256))) ∧
    (∀ die, dieOk die = true → ∃ t, exec (.controlCheckFailure die false) s = .next t ∧ t.rbd.safeHold = true ∧
      t.rbd.cause = BitVec.ofNat 32 (4 + die * 256)) ∧
    (∀ cd, cdOk cd = true → ∃ t, exec (.controlCheckFailure cd true) s = .next t ∧ t.rbd.safeHold = true ∧
      t.rbd.cause = BitVec.ofNat 32 (3 + cd * 256))

/-- Translation is invalidated; register and BAR2 accesses act. Its parts, each under its own name, say so in detail. -/
def Obligations.TranslationAndRegisterAccessesAct : Prop :=
  translationInvalidation ∧ registerAndBarAccessesAct

/-- Rings: registers, fetch, disable and the fetch gate. Its parts, each under its own name, say so in detail. -/
def Obligations.RingsAct : Prop :=
  ringRegistersAct ∧ ringFetchTakesABatch ∧ ringDisableEndsItsCommands ∧ fetchGateClosesAndOpens

/-- Commands start in turn, and end with their record, by expiry or by kill. Its parts, each under its own name, say so in detail. -/
def Obligations.CommandsStartAndEnd : Prop :=
  commandStartTakesTheTurn ∧ commandsEnd

/-- NOP, HOIST, WAIT and COPY act. Its parts, each under its own name, say so in detail. -/
def Obligations.SimpleCommandsAndCopyAct : Prop :=
  simpleCommandsAct ∧ copyMovesItsBytes

/-- LAUNCH binds the folio's current generation, unless its start has bound one already, checks the cores of its task records, reads its
endpaper, fills the arena blocks of templated tasks, and puts each task record of its entry point at the end of its core's queue (R160 to
R163). -/
def Obligations.LaunchDispatchesItsTasks : Prop :=
  ∀ (s : State) (k : CmdKey) (m : Cmd) (fo : Folio) (h : HostRead) (p : LaunchPlan), mayAct s k 1 m →
    Tab.find (s.ctx k.c).folios (fieldAt m.desc 0x10 1) = some fo →
    (let r := (acting s k).launchPlan k { fo with current := m.gen } (fieldAt m.desc 0x11 1)
     m.bound = true → r.1 = .ok p → mayDispatch r.2 k p → launched (exec (.launch k h) s) r.2 k m m.gen p m.arena h) ∧
    (let r := (binding s k m fo).launchPlan k fo (fieldAt m.desc 0x11 1)
     let t := r.2.modCmd k (fun m => { m with cores := p.cores })
     m.bound = false → s.arenaWaits k.c m.desc = false → fo.closing = none → (k.q ≠ 15 ∨ fieldAt m.desc 0x12 1 % 2 = 0) →
     fieldAt m.desc 0x14 2 ≤ 1024 → r.1 = .ok p → mayDispatch t k p → p.templated ≤ (r.2.ctx k.c).arenaBlocks →
     ∀ blks, (r.2.ctx k.c).freeBlocks p.templated = some blks → launched (exec (.launch k h) s) t k m fo.current p blks h)

/-- Folios open, close and are patched in turn. Its parts, each under its own name, say so in detail. -/
def Obligations.FoliosAct : Prop :=
  foliosOpenAndClose ∧ folioPatchWorksInTurn

/-- A task starts with its registers; instructions retire; windows spill. Its parts, each under its own name, say so in detail. -/
def Obligations.TasksStartAndInstructionsRetire : Prop :=
  taskStartLoadsTheTask ∧ instructionCompletionRetires

/-- Task timeouts drain; partition faults rebind the core. Its parts, each under its own name, say so in detail. -/
def Obligations.TaskTimeoutsAndPartitionFaults : Prop :=
  taskTimeoutDrains ∧ partitionFaultRebinds

/-- A hoist that reaches its slot takes effect there (Table 8.5): a counting pennant adds the amount, a binary one takes the value and is
full, and the outcome goes back to the sender; one that the slot refuses changes nothing there, and is reported (R181, R184). `u` is the
state in which the translation entry has been read (R177). -/
def Obligations.HoistTakesEffectAtItsSlot : Prop :=
  ∀ (s : State) (n : Nat) (m : PenMsg) (v : BitVec 48) (rel : Bool) (e : Nat) (k : CmdKey) (u : State),
    s.pen.msgs[n]? = some m → s.alive = true → m.op = .hoist v rel → m.src = .cmd k →
    ({ s with pen.msgs := s.pen.msgs.eraseIdx n } : State).penEntry m.c m.id = (some e, u) →
    s.behind n m = false → peV e = true → m.gen = some (BitVec.ofNat 8 (peGen e)) →
    (u.slot (slotKey (peHome e) (peIdx e))).gen = BitVec.ofNat 8 (peGen e) →
    ((u.slot (slotKey (peHome e) (peIdx e))).refuses v = none → (u.slot (slotKey (peHome e) (peIdx e))).waiters = [] →
      ∃ t, exec (.pennantOperation n) s = .next t ∧
        (t.slot (slotKey (peHome e) (peIdx e))).f = (if (u.slot (slotKey (peHome e) (peIdx e))).k
          then (u.slot (slotKey (peHome e) (peIdx e))).value + v != 0 else true) ∧
        (t.slot (slotKey (peHome e) (peIdx e))).value = (if (u.slot (slotKey (peHome e) (peIdx e))).k
          then (u.slot (slotKey (peHome e) (peIdx e))).value + v else v) ∧
        t.pen.outcomes = u.pen.outcomes ++ [⟨.cmd k, St.ok, m.id⟩]) ∧
    (∀ st, (u.slot (slotKey (peHome e) (peIdx e))).refuses v = some st →
      ∃ t, exec (.pennantOperation n) s = .next t ∧
        t.slot (slotKey (peHome e) (peIdx e)) = u.slot (slotKey (peHome e) (peIdx e)) ∧
        t.pen.outcomes = u.pen.outcomes ++ [⟨.cmd k, st, m.id⟩])

/-- Outcomes, timeouts and quarantine of pennants, and the deadlock detector: an outcome that reaches its core is one hoist fewer to wait
for (R185); a timed wait that expires takes its waiter away, and P is 0 (R186); a slot leaves quarantine (R178); a context whose work
all waits at pennants is quiescent-blocked, with a count, and so is the module where every context is (R192); a census round in which
neither this module nor another one counted a transaction is counted (R193). -/
def Obligations.PennantServiceActs : Prop :=
  ∀ s : State,
    (∀ (n L seq : Nat) (chk : Bool) (id : Nat), s.alive = true → s.pen.outcomes[n]? = some ⟨.core L seq chk, St.ok, id⟩ →
      ∃ t, exec (.hoistOutcome n) s = .next t ∧ t.pen.outcomes = s.pen.outcomes.eraseIdx n ∧
        (t.core L).hoistsOut = (s.core L).hoistsOut - 1) ∧
    (∀ L, coreOk L = true → ∃ t, exec (.perWaitTimeout L) s = .next t ∧
      (∀ e ∈ t.pen.slots, ∀ w ∈ e.2.waiters, ∀ seq chk, w.src = .core L seq chk → w.tmo = 0) ∧
      (∀ e ∈ s.pen.slots, ∀ w ∈ e.2.waiters, ∀ seq chk, w.src = .core L seq chk → 0 < w.tmo → (s.core L).owns seq = true →
        (t.core L).p = false)) ∧
    (∀ n, exec (.pennantQuarantineEnd n) s = .next { s with pen.quarantine := s.pen.quarantine.eraseIdx n }) ∧
    (∀ c, ctxOk c = true → s.alive = true → s.obj 0x2200 1 ≠ 0 → s.quiescent c = true → s.blocked c = false →
      ∃ t, exec (.quiescentBlocked c) s = .next t ∧ (t.ctx c).qblocked = true ∧
        t.pen.dldEvents = s.pen.dldEvents + (if t.moduleBlocked && !s.moduleBlocked then 2 else 1)) ∧
    (∀ c count, ctxOk c = true → s.alive = true → s.obj 0x2201 1 ≠ 0 →
      (s.blocked c = true → Tab.get 0 s.pen.txCount c = 0 → ∃ t, exec (.stallCensus c true 0) s = .next t ∧
        Tab.get 0 t.pen.emptyRounds c = Tab.get 0 s.pen.emptyRounds c + 1) ∧
      (s.blocked c = false → ∃ t, exec (.stallCensus c true count) s = .next t ∧ Tab.get 0 t.pen.emptyRounds c = 0))

/-- With every stack ONLINE, no write gathering and no error met by a read of a stack, what is written into a unit of striped memory is what a read of it returns, with OK
and without poison, in either layout, to a source that owes no write there (R124, R127, R128, R130). -/
def Obligations.AReadReturnsWhatWasWritten : Prop :=
  ∀ (s : State) (pa src : Nat) (bs : List Byte), s.dieOn = true → allOnline s → bs ≠ [] → pa % 256 + bs.length ≤ 256 →
    pa + bs.length ≤ s.stripedEnd → s.mem.gather = [] → (∀ k, s.errsAt k = noErrs) → s.holdsRead src pa bs.length = false →
    (s.poisonMask (s.locate pa).l21 (s.locate pa).stripe (s.locate pa).u) = 0 →
    ∃ t, exec (.memRead src pa bs.length noErrs) (s.memWrite pa bs).2 = .next t ∧
      t.out = (s.memWrite pa bs).2.out ++ [.readData src bs (List.replicate bs.length false) St.ok]

/-- A write changes no byte of any other data unit: with every stack ONLINE, no write gathering and no error met by a read of a stack, a read of an address outside the units written returns what
it returned before (R128). -/
def Obligations.AWriteLeavesOtherUnitsAlone : Prop :=
  ∀ (s : State) (pa pb : Nat) (bs : List Byte), allOnline s → s.mem.gather = [] → (∀ k, s.errsAt k = noErrs) → bs ≠ [] → pa % 256 + bs.length ≤ 256 →
    pa < s.stripedEnd → pb < s.stripedEnd → s.mem.restripe ≠ 2 → pa / 256 ≠ pb / 256 →
    ((s.memWrite pa bs).2.memRead pb 1).1.bytes = (s.memRead pb 1).1.bytes

/-- One missing unit of a stripe is decoded from the others: its two check units and any data units but one give that one back (R124,
R127). -/
def Obligations.OneErasureIsDecoded : Prop :=
  ∀ (m : Nat) (a b : List (Nat × List Byte)) (e : Nat × List Byte), (∀ x ∈ a ++ e :: b, x.2.length = 256) →
    solveErasures m (parityOf m (a ++ e :: b) ++ (a ++ b)) [e.1] = [e]

/-- The commands of striped memory. A read returns what striped memory gives, with the status of Table 7.7 (R127, R131), waits at its source
while that has an unacknowledged write to a unit of it (R130), and past the end returns ADDRESS_FAULT; a write joins its stripe's gathering
(R128), is performed when its window ends, and its acknowledgement is given once (R130). -/
def Obligations.MemoryAccessesAct : Prop :=
  ∀ (s : State) (src pa : Nat), s.dieOn = true →
    (∀ (len : Nat) (e : ReadErrs), pa + len ≤ s.stripedEnd →
      (∀ r, s.memReadE pa len e = r → s.holdsRead src pa len = false → (src ≠ fwSrc ∨ (r.1.uncorr = false ∧ r.1.pois.any id = false)) →
        exec (.memRead src pa len e) s = .next (((r.2.forCtx (s.srcCtx src) s).readNote src r.1).emit (.readData src r.1.bytes r.1.pois
          (if r.1.uncorr then St.uncorrectable else if r.1.corr then St.okCorr else St.ok)))) ∧
      (s.holdsRead src pa len = true →
        exec (.memRead src pa len e) s = .next { s with mem.readWait := s.mem.readWait ++ [⟨src, pa, len, e, none⟩] })) ∧
    (∀ (len : Nat) (e : ReadErrs), s.stripedEnd < pa + len → src ≠ fwSrc →
      exec (.memRead src pa len e) s = .next (s.emit (.readData src [] [] St.address))) ∧
    (∀ (len n : Nat) r, stackOk n = true → pa + len ≤ s.stripedEnd → s.holdsRead src pa len = false → s.memReadE pa len ⟨[], [], [n]⟩ = r →
      (src ≠ fwSrc ∨ (r.1.uncorr = false ∧ r.1.pois.any id = false)) →
      exec (.memRequestTimeout src pa len n) s =
        .next (((r.2.forCtx (s.srcCtx src) s).readNote src r.1).emit (.readData src r.1.bytes r.1.pois
          (if r.1.uncorr then St.uncorrectable else if r.1.corr then St.okCorr else St.ok)))) ∧
    (∀ bs : List Byte, bs ≠ [] → pa % 256 + bs.length ≤ 256 → pa + bs.length ≤ s.stripedEnd →
      s.mem.gather = [] → s.mem.portWait = [] → s.heldAhead src pa bs.length = false → ∃ t g, exec (.memWrite src pa bs false) s = .next t ∧ t.mem.gather = [g] ∧ g.srcs = [src] ∧
        g.stripe = gatherKey (s.locate pa).l21 (s.locate pa).stripe ∧ g.poison = [] ∧ t.mem.units = s.mem.units ∧
        g.bytes = Memory.writeN [] ((s.locate pa).u * 256 + (s.locate pa).b) bs) ∧
    (∀ (o : StripeOp) (g : Gather), s.mem.gather.find? (fun g => g.stripe % 2 ^ 30 == o.stripe) = some g →
      exec (.gatherWindowExpiry o) s = .next (s.performGather g o.errs).admitWaiting) ∧
    (∀ st, (src, st) ∈ s.mem.acks → 320 ≤ src → src < 1000 →
      exec (.stripeWriteAck src st) s = .next (({ s with mem.acks := s.mem.acks.erase (src, st) } : State).releaseReads src))

/-- The states of a stack. A reading at or above MEM_T_OFF takes it off with its writes throttled, and one at or above 105 °C trips the
module (R138, R322); retraining takes the ONLINE stack whose turn it is out of use where no other is, and ends in CATCH_UP or FAILED
(R147); catch-up ends ONLINE when its map is empty (R137); idle stacks enter self-refresh and wake (R311). -/
def Obligations.StacksChangeState : Prop :=
  ∀ (s : State) (n : Nat), stackOk n = true → s.dieOn = true → s.sys.regulators = true →
    (∀ t0 : BitVec 32, f32le (.fin false 105 0) (f32 t0.toNat) = true →
      ∃ t, exec (.stackTempReading n t0) s = .next t ∧ t.pwr.thermTrip = true ∧ t.sys.thermtripN = false ∧ t.mem.units = [] ∧
        t.sys.regulators = false) ∧
    (∀ t0 : BitVec 32, f32le (.fin false 105 0) (f32 t0.toNat) = false → (s.stk n).st < 5 →
      f32le (f32 (s.obj 0x7040 3)) (f32 t0.toNat) = true →
      ∃ t, exec (.stackTempReading n t0) s = .next t ∧ (t.stk n).st = 2 ∧ (t.stk n).throttled = true ∧ (t.stk n).selfRef = true ∧
        (t.stk n).temp = some t0 ∧ t.mem.units = s.mem.units) ∧
    ((s.stk n).st = 0 → s.obj 0x7030 1 = 1 → s.nextRetrain = n → (∀ j, j < 24 → j ≠ n → (s.stk j).st = 0) →
      ∃ t, exec (.stackRetrain n) s = .next t ∧ (t.stk n).st = 3 ∧ t.mem.units = s.mem.units) ∧
    ((s.stk n).st = 3 → (s.mem.retrainDue = false → ∃ t, exec (.retrainEnd n true) s = .next t ∧ (t.stk n).st = 4) ∧
      (∃ t, exec (.retrainEnd n false) s = .next t ∧ (t.stk n).st = 5 ∧ (t.stk n).trainFail = true)) ∧
    ((s.stk n).st = 4 → (s.stk n).stale = [] → s.mem.retrainDue = false → ∃ t, exec (.catchUpStripe n) s = .next t ∧ (t.stk n).st = 0) ∧
    (s.pwr.state = 0 → s.obj 0x3105 1 = 1 → (s.stk n).selfRef = false → (s.stk n).st = 0 →
      ∃ t, exec (.stackSelfRefreshEntry n) s = .next t ∧ (t.stk n).selfRef = true ∧
        Tab.get 0 (t.stk n).ctr 7 = Tab.get 0 (s.stk n).ctr 7 + 1) ∧
    (s.pwr.state = 0 → (s.stk n).st ≠ 2 → ∃ t, exec (.stackWake n) s = .next t ∧ (t.stk n).selfRef = false)

/-- Patrol scrub settles a stripe; a re-stripe advances. Its parts, each under its own name, say so in detail. -/
def Obligations.ScrubAndRestripeAct : Prop :=
  scrubSettlesAStripe ∧ restripeAdvances

/-- Power gating and standby enter and wake. Its parts, each under its own name, say so in detail. -/
def Obligations.GatingAndStandbyAct : Prop :=
  gatingEntersAndWakes ∧ standbyEntersAndWakes

/-- The power limiter and the thermal limits of a die act. Its parts, each under its own name, say so in detail. -/
def Obligations.PowerAndTemperatureLimitsAct : Prop :=
  powerLimiterSteps ∧ dieTemperatureActs

/-- Ports change state; flits are received and sent again. Its parts, each under its own name, say so in detail. -/
def Obligations.PortsAndFlitsAct : Prop :=
  portsChangeState ∧ flitsAct

/-- Packets in transit (R211, R214, R215, R336): one for another module goes on through the port that routing gives; a management frame for this
module joins the fabric path's queue; one that stays in its output queue too long is dropped; a neighbour's port-state message changes what
the module knows of that neighbour's links. -/
def Obligations.PacketsMove : Prop :=
  ∀ (s : State) (p : Nat), portOk p = true → s.alive = true →
    (∀ (pk : List Byte) (t : State), (hdrOf pk).dst ≠ s.myDid → s.didLost (hdrOf pk).src = false → pkOk pk = true →
      (s.occupy p (s.arrivalVc p pk) pk).routeOn ((s.neighbourOf p).map (·.1)) (some (p, s.arrivalVc p pk)) pk = some t →
      exec (.packetForward p pk) s = .next t) ∧
    (∀ (pk : List Byte) (u : State), u = s.passOn p pk → (hdrOf pk).dst = s.myDid → (hdrOf pk).ty = 6 → s.didLost (hdrOf pk).src = false → pkOk pk = true →
      48 + fieldAt (pk.drop 32) 0x10 4 % 2 ^ 20 ≤ (pk.drop 32).length → fieldAt (pk.drop 32) 1 1 < 0x40 →
      u.inShape (hdrOf pk).src = true → (Tab.get [] u.um.queues 3).length < 32 →
      exec (.packetForward p pk) s =
        .next { u with um.queues := Tab.put u.um.queues 3 (Tab.get [] u.um.queues 3 ++ [⟨.fabric (hdrOf pk).src, pk.drop 32⟩]) }) ∧
    (∀ (n : Nat) (q : QPacket), (s.port p).outq[n]? = some q → q.src = none →
      ∃ t, exec (.packetResidenceTimeout p n) s = .next t ∧ (t.port p).outq = (s.port p).outq.eraseIdx n) ∧
    (∀ (did nb : Nat), exec (.portState did nb false) s =
      .next { s with fab.unusable := s.fab.unusable.filter (· != (did, nb)) ++ [(did, nb)] }) ∧
    (∀ (did nb : Nat), exec (.portState did nb true) s = .next { s with fab.unusable := s.fab.unusable.filter (· != (did, nb)) })

/-- Requests of other modules act; responses end transactions. Its parts, each under its own name, say so in detail. -/
def Obligations.RemoteRequestsAndResponsesAct : Prop :=
  remoteRequestsAct ∧ responsesEndTransactions

/-- A COLLECTIVE command that may act reads its descriptor and its rank list, and its collective starts (R224, R226). REDUCE_SCATTER writes this
member's block of the reduction of R229, ALL_REDUCE the whole result in the wire format, both converted to DTYPE and poisoned where the reduction
is (R229, R274); which conversions overflow, which elements are noted as poisoned and what leaves on the fabric is what `ovs`, `ps` and
`out` stand for. -/
def Obligations.CollectivesStartAndReduce : Prop :=
  (∀ (s : State) (k : CmdKey) (m : Cmd) (b : List Byte) (ranks : List Nat) (s1 s2 : State), mayAct s k 8 m →
    s.coll.runs.length < 256 → s.obj 0x2300 1 = 1 → (acting s k).rdCmd k (dField m.desc 0x18 8) 128 [.r] = (.ok b, s1) →
    collDescOk b = true → (s.obj 0x2310 1 = 1 ∨ (collDesc b).op < 0x10) → (s.obj 0x2400 1 = 1 ∨ (collDesc b).updEn = false) →
    s1.rankList k (collDesc b) = (.ok ranks, s2) → exec (.collective k) s = .next (s2.wakeEngines.startRun k (collDesc b) ranks)) ∧
  (∀ (s : State) (k : CollKey) (r : CollRun) (ins : List MemberIn), working s k 1 r → r.insOk ins (r.d.n * r.d.count) = true →
    r.d.updEn = false → r.updHeld = false → r.d.gnEn = false →
    ∃ (ovs : List (Nat × Bool) → List (List Bool)) (ps : List (Nat × Bool) → List Bool) (out : List (Nat × Bool) → List SentChunk),
      exec (.reduceScatter k ins) s = .next (s.withElems r r.d.srcVa r.d.mtype (r.d.n * r.d.count) (fun own s =>
        (s.collOverflows r (ovs own)).putElems r r.d.dstVa r.d.dtype
          (List.zip ((toType r.d.dtype ((scaleAll r.d.postScale ((reducedBlock r ins own).map (·.1))).map
            (Fp.decode Fp.fp32))).map (·.1)) ((reducedBlock r ins own).map (·.2)))
          (fun s => s.dataDone r [] (ps own) (chunkCount r.d.wtype r.d.count) (out own))))) ∧
  (∀ (s : State) (k : CollKey) (r : CollRun) (ins : List MemberIn), working s k 3 r → r.insOk ins r.d.count = true → r.d.gnEn = false →
    ∃ (ovs : List (Nat × Bool) → List (List Bool)) (ps : List (Nat × Bool) → List Bool) (out : List (Nat × Bool) → List SentChunk),
      exec (.allReduce k ins) s = .next (s.withElems r r.d.srcVa r.d.mtype r.d.count (fun own s =>
        (s.collOverflows r (ovs own)).putElems r r.d.dstVa r.d.dtype
          (List.zip ((toType r.d.dtype ((wire r.d.wtype (scaleAll r.d.postScale ((reducedTo r ins r.formedBy own).map (·.1)))).map
              (·.1))).map (·.1))
            ((List.zip ((reducedTo r ins r.formedBy own).map (·.2))
                (spreadMarks r.d.count r.d.wtype ((reducedTo r ins r.formedBy own).map (·.2)))).zipIdx.map (fun p =>
              if r.formedBy p.2 = r.me then p.1.1 else p.1.2)))
          (fun s => s.dataDone r [] (ps own) (chunkCount r.d.wtype r.d.count) (out own)))))

/-- The exchanges of elements: ALL_GATHER gathers the members' shards, under VMODE 1 with the version of its header, waiting while BUSY is set
until the header is released (R233, R234, R262); ALL_TO_ALL takes block j from member j and sends it this member's block j (R226);
ALL_TO_ALLV takes what RCNT and the offset tables say and sends each member what SCNT and SOFF say (R227); BROADCAST takes the root's
elements, which the root sends to every member (R233). -/
def Obligations.ExchangesMoveElements : Prop :=
  ∀ (s : State) (k : CollKey) (r : CollRun) (ins : List MemberIn),
    (working s k 2 r → r.insOk ins r.d.count = true → r.shardWait = false → r.d.f 0x40 4 = 0 →
      exec (.allGather k ins) s = .next (s.gatherGo r ins true 0)) ∧
    (working s k 2 r → r.insOk ins r.d.count = true → r.shardWait = false → r.d.f 0x40 4 = 1 → 64 ≤ r.d.srcVa →
      exec (.allGather k ins) s = .next (s.withBytes r (r.d.srcVa - 64) 64 (fun b s =>
        if fieldAt b 4 1 % 2 = 1 then s.modRun r.ck (fun r => { r with shardWait := true })
        else if fieldAt b 4 1 / 2 % 2 = 1 then s.gatherGo r ins false 0 else s.gatherGo r ins true (fieldAt b 0 4)))) ∧
    (working s k 2 r → r.shardWait = true →
      exec (.shardHeaderRelease k) s = .next (s.withBytes r (r.d.srcVa - 64) 64 (fun b s =>
        if fieldAt b 4 1 % 2 = 1 then s else s.modRun r.ck (fun r => { r with shardWait := false })))) ∧
    (working s k 4 r → r.insOk ins r.d.count = true →
      exec (.allToAll k ins) s = .next (s.withElems r r.d.srcVa r.d.mtype (r.d.n * r.d.count) (fun own s =>
        s.exchange r ((List.range r.d.n).map (fun j => (r.d.dstVa + j * r.d.count * typeSize r.d.dtype,
            if j = r.me then (own.drop (j * r.d.count)).take r.d.count
            else contribution ins r.d.wtype r.d.count j)))
          ((List.range r.d.n).map (fun j => (own.drop (j * r.d.count)).take r.d.count)) (chunkCount r.d.wtype (r.d.n * r.d.count))
          (((List.range r.d.n).filter (· != r.me)).flatMap (fun j => cutChunks (r.rankOf j)
            (fun e => chunkNo r.d.wtype r.d.count (j * r.d.count + e)) (indexed ((own.drop (j * r.d.count)).take r.d.count))))))) ∧
    (∀ sc so rc ro s1 s2 s3 s4 own s5, working s k 5 r → ins.length = r.d.n →
      reads s r (r.d.f 0x40 8) (8 * r.d.n) sc s1 → reads s1 r (r.d.f 0x48 8) (8 * r.d.n) so s2 →
      reads s2 r (r.d.f 0x50 8) (8 * r.d.n) rc s3 → reads s3 r (r.d.f 0x58 8) (8 * r.d.n) ro s4 →
      (∀ j, j < r.d.n → fieldAt rc (8 * j) 8 =
        (if j = r.me then fieldAt sc (8 * j) 8 else (contribution ins r.d.wtype (2 ^ 40) j).length)) →
      s4.readBlocks r ((List.range r.d.n).map (fun j =>
        (r.d.srcVa + fieldAt so (8 * j) 8 * typeSize r.d.mtype, fieldAt sc (8 * j) 8))) = (.ok own, s5) →
      exec (.allToAllv k ins) s = .next (s5.exchange r ((List.range r.d.n).map (fun j =>
          (r.d.dstVa + fieldAt ro (8 * j) 8 * typeSize r.d.dtype, if j = r.me then (own[j]?).getD []
            else contribution ins r.d.wtype (2 ^ 40) j)))
        own (chunkCount r.d.wtype (own.map (·.length)).sum)
        (((List.range r.d.n).filter (· != r.me)).flatMap (fun j =>
          cutChunks (r.rankOf j) (fun x => x / chunkElems r.d.wtype) (indexed ((own[j]?).getD [])))))) ∧
    (working s k 6 r → ins.length = r.d.n → r.me ≠ r.d.f 0x40 4 →
      (contribution ins r.d.wtype r.d.count (r.d.f 0x40 4)).length = r.d.count →
      exec (.broadcast k ins) s = .next (s.exchange r [(r.d.dstVa, contribution ins r.d.wtype r.d.count (r.d.f 0x40 4))] []
        (chunkCount r.d.wtype r.d.count) [])) ∧
    (working s k 6 r → ins.length = r.d.n → r.me = r.d.f 0x40 4 →
      exec (.broadcast k ins) s = .next (s.withElems r r.d.srcVa r.d.mtype r.d.count (fun own s =>
        s.exchange r [(r.d.dstVa, own)] [own] (chunkCount r.d.wtype r.d.count)
          (r.partners.flatMap (fun m => cutChunks (r.rankOf m) (chunkNo r.d.wtype r.d.count) (indexed own))))))

/-- ACCUMULATE forms the atomic additions of its next 4096 elements, once those before have been answered (R228). RESHARD, the only collective of
its context left, sends its first notices and goes on as far as the notices it holds allow; a notice that comes before its RESHARD is kept
(R240). GN_EXCHANGE writes the record of Table 10.8 over every member's norms (R246). -/
def Obligations.AccumulateReshardAndNoiseAct : Prop :=
  ∀ (s : State) (k : CollKey) (r : CollRun),
    (working s k 7 r → s.collTrans r.ck = false → ∀ xs s1 i s2,
      s.readElems r.key (r.d.srcVa + 4 * r.sent) 6 (Nat.min 4096 (r.d.count - r.sent)) = (.ok xs, s1) →
      s1.addChunk r r.sent xs = (i, none, false, s2) → i < r.d.count →
      exec (.accumulate k) s = .next ((s2.modRun r.ck (fun r => { r with sent := i })).collProgress r.ck)) ∧
    (working s k 0x20 r → r.fenceStage = 0 → (∀ x ∈ s.coll.runs, x.key.c = r.key.c → x.key = r.key ∨ x.held = true) →
      (s.ctx r.key.c).fence = some r.key →
      exec (.reshard k) s = .next ((((s.sendNotices r 0).modRun r.ck (fun x => { x with fenceStage := 1 })).collProgress r.ck).fenceGo
        r.ck 6)) ∧
    (∀ m, running s k r → r.d.op = 0x20 → exec (.fenceNotice k m) s =
      .next (((s.modRun k (fun x => { x with notices := NSet.insert x.notices m })).collProgress k).fenceGo k 6)) ∧
    (∀ m, ctxOk k.c = true → s.alive = true → s.findRun k = none →
      exec (.fenceNotice k m) s = .next { s with coll.notices := s.coll.notices ++ [(k.c, k.id, m)] }) ∧
    (∀ (t : CollTag) sums own s1, comes s t r → r.gn = some own → r.gnWait = true → sums.length = r.d.n →
      ((noiseOverflows r
        (sum64 ((sums.zipIdx.map (fun x => if x.2 = r.me then own else x.1)).map (·.1)))
        (sum64 ((sums.zipIdx.map (fun x => if x.2 = r.me then own else x.1)).map (·.2)))).foldl
          (fun (s : State) _ => s.dieOverflow r (t.c % 4)) (passed s t (.sums sums))).collPut r.key (r.d.f 0x50 8) ((noiseRecord r
        (sum64 ((sums.zipIdx.map (fun x => if x.2 = r.me then own else x.1)).map (·.1)))
        (sum64 ((sums.zipIdx.map (fun x => if x.2 = r.me then own else x.1)).map (·.2)))).map (fun x => (x, false))) = (false, s1) →
      exec (.gnExchange t sums) s = .next (((s1.modRun ⟨t.c, t.id⟩ (fun r => { r with gnWait := false })).collProgress ⟨t.c, t.id⟩).settleRun
        ⟨t.c, t.id⟩))

/-- Chunks, progress and aborts (R225, R235 to R238, R241). A chunk that its member acknowledged leaves the unacknowledged ones; one to send again is
sent to that member under a new flowlet; one not acknowledged in time fails the collective with the status of R219. T_REAL goes to the
members that wait for data when it has advanced, and rises when a partner's is higher. An abort ends the collective here with the status it carries; one for a
collective that has not started here is held, and one for a collective that has ended here does nothing more. A packet whose check differs ends
the collective. A packet of the next epoch is held where it fits and stays in its port's buffer where not, one of another epoch is dropped and answered, and one that fits a running collective is taken. -/
def Obligations.ChunksProgressAndAbortsAct : Prop :=
  ∀ (s : State) (k : CollKey) (r : CollRun),
    (running s k r →
      (∀ (x : ChunkRef) (u : SentChunk), r.unacked.find? (·.isRef x) = some u → exec (.chunkResend k x) s =
        .next (((s.modRun k (fun r => { r with flowlets := r.flowlets + 1 })).sendPackets { r with flowlets := r.flowlets + 1 } u).dieEvent
          (8 + x.chunk % 4) 0x61 1 (some k.c))) ∧
      (∀ x : ChunkRef, r.unacked.any (·.isRef x) = true → exec (.chunkTimeout k x) s = .next (s.failMine r (s.groupStatus r))) ∧
      (r.sentProg < r.tReal → r.updHeld = false → exec (.progressSend k) s =
        .next ((r.waiting.foldl (fun (s : State) m => s.tellMember r m Ck.progress (natLe 8 r.tReal ++ natLe 1 (bit r.slowTx))) s).modRun k
          (fun r => { r with sentProg := r.tReal, slowTx := false })))) ∧
    (∀ t : CollTag, comes s t r →
      (∀ x : ChunkRef, exec (.chunkAck t x) s =
        .next (((passed s t (.ack x)).modRun ⟨t.c, t.id⟩ (fun r => { r with unacked := r.unacked.filter (fun u => !u.isRef x) })).settleRun
          ⟨t.c, t.id⟩)) ∧
      (∀ x, r.tReal < x → exec (.progressPacket t x false) s =
        .next (((passed s t (.progress x false)).modRun ⟨t.c, t.id⟩ (fun r => { r with tReal := x })).progress t.c)) ∧
      (∀ x, r.tReal < x → exec (.progressPacket t x true) s =
        .next ((((passed s t (.progress x true)).modRun ⟨t.c, t.id⟩ (fun r => { r with slow := true, slowTx := true })).modRun ⟨t.c, t.id⟩
          (fun r => { r with tReal := x })).progress t.c)) ∧
      (∀ st rank, statusClass st ≠ 0 → ∃ u : State, exec (.abort t st rank) s = .next (u.failRun r st rank) ∧ u.coll.runs = s.coll.runs ∧
        NSet.mem u.coll.abortRx (t.c % 4) = true ∧ Tab.get 0 u.coll.abortRank (t.c % 4) = BitVec.ofNat 17 rank)) ∧
    (∀ (t : CollTag) (m : CollMsg), portInOk t.port = true → s.alive = true → ctxOk t.c = true → s.didLost t.src = false → s.pwr.state = 0 →
      s.coll.stuck = [] → t.epoch = (s.ctx t.c).epoch →
      (∀ st rank, m = .abort st rank → statusClass st ≠ 0 → s.findRun ⟨t.c, t.id⟩ = none → s.endedOf (tagPkt t m) = none →
        s.earlyUnits (portDie t.port) + msgUnits m ≤ s.obj 0x2302 0 →
        ∃ u, exec (.abort t st rank) s = .next u ∧ u.coll.early = s.coll.early ++ [(t.port, tagPkt t m)] ∧
          NSet.mem u.coll.abortRx (t.c % 4) = true) ∧
      (∀ x, m = .ack x → s.findRun ⟨t.c, t.id⟩ = none → (s.endedOf (tagPkt t m)).isSome = true →
        exec (.chunkAck t x) s = .next (passed s t m)) ∧
      (∀ x, m = .ack x → running s ⟨t.c, t.id⟩ r → r.updHeld = false → t.chk ≠ r.check →
        exec (.chunkAck t x) s = .next (((passed s t m).failMine r St.invalid).answerAbort (tagPkt t m) St.invalid))) ∧
    (∀ p pk, portInOk p = true → s.alive = true → s.didLost pk.src = false → ctxOk pk.c = true → s.pwr.state = 0 → s.coll.stuck = [] →
      (pk.epoch = (s.ctx pk.c).epoch + 1 → s.earlyUnits (portDie p) + collUnits pk ≤ s.obj 0x2302 0 →
        ∃ t, exec (.coll p pk) s = .next t ∧ t.coll.early = s.coll.early ++ [(p, pk)]) ∧
      (pk.epoch = (s.ctx pk.c).epoch + 1 → s.obj 0x2302 0 < s.earlyUnits (portDie p) + collUnits pk →
        exec (.coll p pk) s = .next (({ s.wakeEngine (portDie p) with coll.stuck := [(p, pk)] } : State).holdUnits p (collVc pk) (collUnits pk))) ∧
      (pk.epoch ≠ (s.ctx pk.c).epoch + 1 → pk.epoch ≠ (s.ctx pk.c).epoch → ∃ t, exec (.coll p pk) s = .next t ∧
        NSet.mem t.coll.epochDrop (portDie p) = true ∧ t.coll.early = s.coll.early ∧ t.coll.runs = s.coll.runs) ∧
      (pk.epoch = (s.ctx pk.c).epoch → s.findRun ⟨pk.c, pk.id⟩ = some r → r.held = false → r.updHeld = false → pk.chk = r.check → pk.msg = none →
        exec (.coll p pk) s = .next (((s.wakeEngine (portDie p)).passUnits p (collVc pk) (collUnits pk)).acceptColl p r pk)))

/-- The token router (R242 to R245). DISPATCH takes its expert map and candidates and the claims that came before it, drops the choices
without an expert, and begins round 1; an origin's claims and an owner's grants join those held, and the round goes on when all are in. COMBINE returns the filled slots of this
member's experts and forms each token's row from its routes and gates. -/
def Obligations.TokenRouterActs : Prop :=
  ∀ (s : State) (k : CollKey) (r : CollRun),
    (∀ eb cb s1 s2, working s k 0x10 r → r.disp = none →
      reads s r (r.d.f 0x60 8) (8 * r.d.experts) eb s1 → reads s1 r (r.d.f 0x50 8) (4 * r.d.cands * r.d.tokens) cb s2 →
      dispOk r ((chunksOf 8 r.d.experts eb).map leNat) ((chunksOf 4 (r.d.cands * r.d.tokens) cb).map leNat) = true →
      ∃ (x : DispRun) (none' : List (Nat × Nat × Nat)),
        exec (.dispatch k) s = .next ((((none'.foldl (fun (s : State) m => s.dropChoice r m.1 m.2.1)
          (({ s2 with coll.claims := s2.coll.claims.filter (fun e => !(e.1 == r.ck)) } : State).modRun r.ck
            (fun r => { r with disp := some x }))).collProgress r.ck).sendClaims r.ck).pump r.ck 20) ∧
        x.round = 1 ∧ x.ownRound = 1 ∧ x.emap = (chunksOf 8 r.d.experts eb).map leNat ∧ x.drops = 0 ∧ x.grants = [] ∧
        x.claims = (s2.coll.claims.filter (fun e => e.1 == r.ck)).map (·.2) ∧
        (∀ t j, t < r.d.tokens → j < r.d.choices → ((t, j, j) ∈ x.mine ∧ (t, j, j) ∉ none' ∨ (t, j, j) ∉ x.mine ∧ (t, j, j) ∈ none'))) ∧
    (∀ (t : CollTag) m cs, comes s t r → r.disp.isSome = true → m < r.d.n → m ≠ r.me →
      exec (.claimCount t m cs) s = .next ((((passed s t (.claims m cs)).modDisp ⟨t.c, t.id⟩
        (fun x => { x with claims := x.claims ++ [(m, cs)] })).collProgress ⟨t.c, t.id⟩).pump ⟨t.c, t.id⟩ 20)) ∧
    (∀ (t : CollTag) m gs x, comes s t r → r.disp = some x → m < r.d.n → m ≠ r.me → r.dataDone = false → (∀ g ∈ x.grants, g.1 ≠ m) →
      exec (.grant t m gs) s = .next ((((passed s t (.grants m gs)).modDisp ⟨t.c, t.id⟩
        (fun x => { x with grants := x.grants ++ [(m, gs)] })).collProgress ⟨t.c, t.id⟩).pump ⟨t.c, t.id⟩ 20)) ∧
    (∀ ins rb s1, working s k 0x11 r → reads s r (r.d.f 0x68 8) (8 * (r.d.choices * r.d.tokens)) rb s1 →
      r.rowsFit ins ((chunksOf 8 (r.d.choices * r.d.tokens) rb).map leNat) = true →
      exec (.combine k ins) s = .next (s1.withElems r (r.d.f 0x58 8) 6 (r.d.choices * r.d.tokens) (fun gates s =>
        let t := (List.range r.d.tokens).foldl (fun (s : State) t => if (s.findRun r.ck).isNone then s
          else s.combineToken r ins ((chunksOf 8 (r.d.choices * r.d.tokens) rb).map leNat) gates t) (s.sendSlots r)
        if (t.findRun r.ck).isNone then t else t.dataDone r [] [] 0 [])))

/-- The chunks of an update and its two phases (R249, R251, R257, R258, R271): a final chunk runs the program, or in phase 1 goes to GBUF_VA, or
waits for a cut being taken; an update held for its group proceeds when none of the group is under way; the end of phase 1 writes NORM2,
hoists P1_DONE and begins the exchange; a member's norm joins the exchange; phase 2 applies the program, after its strike at PRE_READY where it
has one, and in mode 2 does not. -/
def Obligations.UpdatesRunInTheirPhases : Prop :=
  ∀ (s : State) (k : CollKey) (r : CollRun) (u : UpdRun), running s k r → r.upd = some u →
    (∀ n, u.held = false → r.dataDone = true → NSet.mem u.chunks n = false → n < chunkCount r.d.wtype r.d.count →
      ∀ g, g = (((r.grad.drop (chunkSpan r.d.wtype r.d.count n).1).take
        ((chunkSpan r.d.wtype r.d.count n).2 - (chunkSpan r.d.wtype r.d.count n).1)).map (fun x => (x.1.toNat, x.2))) →
      (u.phase ≠ 0 → exec (.updateChunk k n) s = .next (s.bufferChunk r u n g)) ∧
      (u.phase = 0 → s.cutHolds r u = false → exec (.updateChunk k n) s = .next (s.runChunk r u n g)) ∧
      (u.phase = 0 → s.cutHolds r u = true → exec (.updateChunk k n) s = .next (s.modCtx r.key.c (fun x => { x with cutHeld := true })))) ∧
    (u.held = true → s.updBusy r = false →
      s.coll.runs.find? (fun x => x.key.c == k.c && x.d.updEn && x.d.pgroup == r.d.pgroup && x.updHeld) = some r →
      exec (.updateHoldRelease k) s = .next ((s.takeEntry k).takeEarly k.c)) ∧
    (u.held = false → u.phase ≠ 0 → u.p1Done = false → r.dataDone = true →
      (∀ n, n < chunkCount r.d.wtype r.d.count → NSet.mem u.chunks n = true) →
      ∃ t : State, exec (.phase1Done k) s = .next ((t.modUpd r.ck (fun u => { u with p1Done := true })).normGo r.ck) ∧
        t.mem = (s.putEntry r.key.c u.group 0xC0 (natLe 8 u.norm2.toNat)).mem ∧
        (enP1Done u.entry ≠ 0 → ∃ p, t.pen.msgs.getLast? = some p ∧ p.c = r.key.c ∧ p.op = .hoist 1 true)) ∧
    (∀ m v, u.held = false → exec (.normExchange k m v) s =
      .next (((s.modUpd k (fun u => { u with members := Tab.put u.members m v })).collProgress k).normGo k)) ∧
    (u.gnorm.isSome = true → u.p2 = false → (u.phase = 3 ∨ s.cutHolds r u = false) →
      (u.phase = 3 → exec (.phase2Start k) s = .next (s.modUpd r.ck (fun u => { u with p2 := true }))) ∧
      (u.phase ≠ 2 → u.phase ≠ 3 → exec (.phase2Start k) s = .next (s.phase2Go r)) ∧
      (u.phase = 2 → u.strike = .done → exec (.phase2Start k) s = .next (s.phase2Go r)) ∧
      (∀ t, u.phase = 2 → u.strike = .none →
        (s.engineStrike r.ck (enPreReady u.entry) = (.yes, t) → exec (.phase2Start k) s = .next (t.phase2Go r)) ∧
        (s.engineStrike r.ck (enPreReady u.entry) = (.wait, t) →
          exec (.phase2Start k) s = .next (t.modUpd r.ck (fun u => { u with strike := .waits })))))

/-- The end of an update and its parity (R259, R260, R264, R266, R267). With every element written, no delta outstanding and its collective's work
done, the header shows VERSION plus 1 with its marks clear and the entry STEP plus 1 (here with OUT_VA 0, so the entry alone), and the
update leaves its collective; where the command has failed the header shows that instead and the entry stays. The holder
combines a delta packet into each block that it touches; a block is written back when its time has passed. A fallback counts one more. -/
def Obligations.UpdatesCompleteAndParityCombines : Prop :=
  ∀ s : State,
    (∀ (k : CollKey) (r : CollRun) (u : UpdRun), running s k r → s.sendDeltas r.ck = s → s.findRun r.ck = some r → r.upd = some u →
      u.held = false → r.allWritten u = true → u.deltas = 0 → u.deltaQ = [] → s.runDone { r with upd := none } = true →
      (statusClass (s.cmdStatus r.key) = 0 → enOut u.entry = 0 → ∀ (w : VaWr) (t : State),
        s.vaWrite none r.key.c (s.entryVa r.key.c u.group + 4) ((natLe 4 (enStep u.entry + 1) ++
          natLe 4 ((enVersion u.entry + 1) % 2 ^ 32)).map (fun b => (b, false))) [.w] = (w, t) → w.fault = false → w.uncorr = false →
        exec (.updateComplete k) s = .next ((((t.metCmd r.key false w.slow).collSlow r.key w.slow).modRun r.ck
          (fun r => { r with upd := none })).settleRun r.ck)) ∧
      (statusClass (s.cmdStatus r.key) ≠ 0 →
        exec (.updateComplete k) s = .next (((s.failHeader r).modRun r.ck (fun r => { r with upd := none })).settleRun r.ck))) ∧
    (∀ p pk, arrives s p 5 pk → pdOk pk = true → pdOffset pk % 4096 + pdLen pk ≤ 4096 →
      exec (.parityDelta p pk) s = .next ((((s.taken p 5 pk).wakeEngine (portDie p)).modCtx (hdrOf pk).ctx (fun x =>
          { x with heldBytes := Nat.max x.heldBytes (pdOffset pk + pdLen pk), heldShard := pdShard pk })).combineInto
        (portDie p) (hdrOf pk).ctx (pdOffset pk / 4096) pk
        ((pk.drop 32).zipIdx.map (fun b => ((pdOffset pk + b.2) % 4096, b.1))))) ∧
    (∀ die n b, iodOk die = true → s.alive = true → (Tab.get [] s.coll.combine die)[n]? = some b →
      (exec (.parityFlush die n .timer) s = .next (s.flushBlock die b)) ∧
      ((∀ e ∈ b.counts, (s.ctx b.c).parSenders ≤ e.2) → exec (.parityFlush die n .allSenders) s = .next (s.flushBlock die b))) ∧
    (∀ c g, ctxOk c = true → s.alive = true → g < 4096 → ∃ t, exec (.preconditionerFallback c g) s = .next t ∧
      t.mem = ((s.vaRead c (s.entryVa c g + 0xBC) 4 [.r, .w]).2.putEntry c g 0xBC
        (natLe 4 (leNat (s.vaRead c (s.entryVa c g + 0xBC) 4 [.r, .w]).1.bytes + 1))).mem)

/-- Functions (R282, R339): a write of 0 refuses new work at once and begins the drain of what is in flight, or is over at once; a write of 1
enables, or takes effect at the end of a drain; what remains when the drain's time ends is killed, and DISABLE_STATE reads 3; a mode is stored. -/
def Obligations.FunctionsAct : Prop :=
  ∀ (s : State) (f : FuncId) (rq : Req), f ≠ .fetch →
    (accepts s rq (fnIdx f) 1 0 → Tab.get 0 s.rbd.disable (fnNo f) = 0 →
      ∃ t : State, exec (.functionDisable rq f) s = .next (t.answerTo rq.path 0) ∧ t.obj (fnIdx f) 1 = 0 ∧
        t.rbd.disable = Tab.put s.rbd.disable (fnNo f) (if s.fnBusy f then 1 else 2)) ∧
    (accepts s rq (fnIdx f) 1 1 → s.disableState f ≠ 1 →
      ∃ t : State, exec (.functionEnable rq f) s = .next (t.answerTo rq.path 0) ∧ t.obj (fnIdx f) 1 = 1 ∧
        t.rbd.disable = Tab.del s.rbd.disable (fnNo f)) ∧
    (accepts s rq (fnIdx f) 1 1 → s.disableState f = 1 →
      exec (.functionEnable rq f) s =
        .next ({ s with rbd.reenable := NSet.insert s.rbd.reenable (fnNo f) }.answerTo rq.path 0)) ∧
    (s.disableState f = 1 → NSet.mem (s.fnKill f).rbd.reenable (fnNo f) = false →
      exec (.disableDrainExpiry f) s = .next { s.fnKill f with rbd.disable := Tab.put (s.fnKill f).rbd.disable (fnNo f) 3 }) ∧
    (∀ v, accepts s rq (fnIdx f) 2 v → exec (.functionMode rq f v) s = .next ((s.setObj (fnIdx f) 2 v).answerTo rq.path 0))

/-- Stops and resets by request; the watchdog. Its parts, each under its own name, say so in detail. -/
def Obligations.StopsResetsAndWatchdogAct : Prop :=
  stopsAndResetsByRequest ∧ watchdogRestartsTheController

/-- Cuts (R289 to R291). A request that is not refused clears VALID of the slot without the newest globally sealed cut and begins the copy; one
that is refused sets REFUSED; the copy's end sends the step markers and seals where all markers are in; a sender's marker is kept; a holder's
acknowledgement counts; the coordinator declares a global seal once every working rank has reported, with a mismatch where the epochs differ;
elsewhere a global seal of the cut sealed here makes it the newest global one, and a mismatch is flagged. -/
def Obligations.CutsAdvance : Prop :=
  ∀ (s : State) (c : Nat), ctxOk c = true →
    (∀ v : BitVec 32, s.barUp = true → s.pwr.state = 0 → s.cutRefuses c v.toNat = true →
      exec (.rbdCutCtl c v) s = .next (s.modCtx c (fun x => { x with cutRefused := true }))) ∧
    (∀ v : BitVec 32, s.barUp = true → s.pwr.state = 0 → s.cutRefuses c v.toNat = false → (s.ctx c).sealGlobal = none →
      exec (.rbdCutCtl c v) s = .next ((s.putVa c ((s.ctx c).slotVa 0 + 0x34) (natLe 4 0)).modCtx c (fun x => { x with
        cutState := 1, sealLocal := if x.sealGlobal.isSome then x.sealGlobal else none, cutHeld := s.heldUnder c, cut := some ⟨v.toNat, 0, false, [], false, 0, []⟩ }))) ∧
    (∀ k, s.alive = true → (s.ctx c).cut = some k → k.copied = false → s.updating c = false →
      ((s.copyImages c k.slot).ctx c).holderRanks = [] →
      exec (.cutCopyComplete c) s = .next (((s.copyImages c k.slot).modCtx c (fun x =>
        { x with cutState := 2, cut := some (s.cutCopied c k) })).trySeal c)) ∧
    (∀ j (n : BitVec 32) rec', s.alive = true → exec (.stepMarker c j n rec') s =
      .next ((s.modCtx c (fun x => { x with
        marks := x.marks.filter (fun m => !(m.1 == n.toNat && m.2.1 == j)) ++ [(n.toNat, j, rec')],
        heldBytes := Nat.max x.heldBytes (fieldAt rec' 0x10 8) })).trySeal c)) ∧
    (∀ k h, s.alive = true → (s.ctx c).cut = some k → ∃ t, exec (.stepMarkerAck c h) s = .next t ∧
      (t.ctx c).cut = some { k with acked := NSet.insert k.acked h }) ∧
    (∀ (n : BitVec 32) mm es, s.alive = true → s.isCoord = true → s.sealEpochs c n.toNat = some es → exec (.cutGlobalSeal c n mm) s =
      .next ((s.tellAll Mg.cutGlobal (natLe 1 c ++ natLe 4 n.toNat ++ [BitVec.ofNat 8 (bit (differ es))])).takeSeal c n (differ es))) ∧
    (∀ (n : BitVec 32) mm, s.alive = true → s.isCoord = true → s.sealEpochs c n.toNat = none → exec (.cutGlobalSeal c n mm) s = .next s) ∧
    (∀ n : BitVec 32, s.alive = true → s.isCoord = false →
      (∃ t, exec (.cutGlobalSeal c n true) s = .next t ∧ (t.ctx c).cutMismatch = true) ∧
      ((s.ctx c).cutState = 3 → (s.ctx c).cutStepLocal = n → ∃ t, exec (.cutGlobalSeal c n false) s = .next t ∧
        (t.ctx c).cutGlobal = true ∧ (t.ctx c).cutStepGlobal = n ∧ (t.ctx c).sealGlobal = (s.ctx c).sealLocal))

/-- The rank map loads; losses are detected. Its parts, each under its own name, say so in detail. -/
def Obligations.RankMapAndLossesAct : Prop :=
  rankMapLoads ∧ lossesAreDetected

/-- The steps of a recovery (R278, R297 to R301, R304): halt and rebind, or a wait for the host's confirmation in mode 2, or with recovery disabled
only the record; then a survivor goes back to its cut, or a spare forms its image from what it received; then the context is reset and the job goes
on, each step only after the one before. A planned move rebinds a rank with no loss, a transient loss halts the job and restores the cut, and a new holder's image is written. -/
def Obligations.RecoveryAdvances : Prop :=
  ∀ (s : State) (c : Nat), ctxOk c = true → s.alive = true →
    (∀ rank spare short, s.obj 0x4003 1 = 0 → exec (.recoveryHaltRebind c rank spare short) s =
      .next { s with rbd.lastLost := BitVec.ofNat 17 rank }) ∧
    (∀ rank spare short, s.obj 0x4003 1 = 1 → s.obj 0x4003 2 ≠ 2 → exec (.recoveryHaltRebind c rank spare short) s =
      .next (({ s with rbd.lastLost := BitVec.ofNat 17 rank } : State).haltRebind c rank spare short)) ∧
    (∀ rank spare short, s.obj 0x4003 1 = 1 → s.obj 0x4003 2 = 2 → s.rbd.recConfirm = false →
      ({ s with rbd.lastLost := BitVec.ofNat 17 rank } : State).leads rank = true → exec (.recoveryHaltRebind c rank spare short) s =
      .next { s with rbd.lastLost := BitVec.ofNat 17 rank, rbd.recWait := some rank }) ∧
    (∀ rq v, accepts s rq 0x4003 6 v → s.rbd.recWait.isSome = true → exec (.rbdRecoveryConfirm rq v) s =
      .next ({ s with rbd.recConfirm := true }.answerTo rq.path 0)) ∧
    (∀ p g, s.rbd.recState = 4 → (s.ctx c).sealGlobal = some g → exec (.recoveryStateRebuild c p) s =
      .next ((s.sendParts c g).restoreCut c g)) ∧
    (∀ p, s.rbd.recState = 4 → (s.ctx c).sealGlobal = none → s.myRank.isSome = true → exec (.recoveryStateRebuild c p) s =
      .next (((s.memWrite p.base p.record).2.memWrite (p.base + 0x10000)
        (rebuiltImage p (bits (s.ctx c).parCfg 4 0) (s.ctx c).parJ)).2.stepThreeDone)) ∧
    (s.rbd.recState = 5 → ∃ t, exec (.recoveryResume c) s = .next t ∧ t.rbd.recState = 0 ∧ (t.ctx c).halted = false) ∧
    (∀ p, s.rbd.recState ≠ 4 → exec (.recoveryStateRebuild c p) s = .next s) ∧ (s.rbd.recState ≠ 5 → exec (.recoveryResume c) s = .next s) ∧
    (∀ rank spare, s.obj 0x4003 1 = 1 → s.myRank ≠ some rank → spare ≠ s.myDid → s.isCoord = false → ∃ t, exec (.plannedRankMove rank spare) s = .next t ∧
      Tab.get 0 t.xl.rankMap rank = reBound spare ∧ t.rbd.recState = 3) ∧
    (∀ rank g, s.obj 0x4003 1 = 1 → (s.didOfRank rank).isSome = true → (s.ctx c).sealGlobal = some g → ∃ t : State,
      exec (.transientLoss c rank) s = .next (t.restoreCut c g) ∧ (t.ctx c).halted = true ∧ t.rbd.recState = 4 ∧
        t.xl.rankMap = s.xl.rankMap) ∧
    (∀ image, exec (.heldParityRebuild c image) s = .next ((image.foldl (fun (s : State) (e : Nat × List Byte) =>
      s.putVa c ((s.ctx c).parImage.toNat + e.1) e.2) s).markParity c false))

/-- The operations on objects (R327, R328, R334, R336, R382), each on a request that no check stops: READ answers with the object's value, WRITE does
what the object's write does and answers OK, READ_SEG and WRITE_SEG move a segment, DESCRIBE and NEXT answer from the dictionary; a transfer
that pauses too long is given up. -/
def Obligations.ObjectOperationsAct : Prop :=
  ∀ (s : State) (p : UmPath) (rq : UmReq) (rest : List UmReq) (t : State), t = taken s p rq rest →
    (∀ r, serves s p 1 rq rest → objAt (frIndex rq.bs) (frSub rq.bs) = some r → t.readRefusal rq false = none →
      exec (.read p) s = .next (t.reply rq { tcode := r.ty.code, payload := t.objFrame r (frIndex rq.bs) (frSub rq.bs) })) ∧
    (∀ r u, serves s p 2 rq rest → objAt (frIndex rq.bs) (frSub rq.bs) = some r → r.ty ≠ .domain →
      t.writeRefusal (reqOf rq) (frIndex rq.bs) (frSub rq.bs) = none → (t.frPayload rq.bs).length = r.ty.len →
      inRange r (frIndex rq.bs) (frSub rq.bs) (leNat (t.frPayload rq.bs)) = true → resetAct (frIndex rq.bs) (frSub rq.bs) (leNat (t.frPayload rq.bs)) = none →
      objAct (frIndex rq.bs) (frSub rq.bs) (leNat (t.frPayload rq.bs)) t = (0, u) →
      exec (.write p) s = .next (u.reply rq { tcode := r.ty.code })) ∧
    (serves s p 3 rq rest → t.readRefusal rq true = none → frBulk rq.bs = false → ∃ x : Rsp, exec (.readSeg p) s = .next (t.reply rq x) ∧
      x.status = St.ok ∧ x.payload = (t.objBytes (frIndex rq.bs) (frSub rq.bs) (frOffset rq.bs)
        (Nat.min (fieldAt (rq.bs.drop 48) 0 4) 208)).1) ∧
    (∀ r, serves s p 4 rq rest → objAt (frIndex rq.bs) (frSub rq.bs) = some r → r.ty = .domain → frIndex rq.bs ≠ 0x8010 →
      frIndex rq.bs ≠ 0x1030 → t.writeRefusal (reqOf rq) (frIndex rq.bs) (frSub rq.bs) = none →
      Tab.find t.um.locks (frIndex rq.bs * 256 + frSub rq.bs) = none → frOffset rq.bs = 0 → frLast rq.bs = false →
      (t.frPayload rq.bs).length ≤ domainMax (frIndex rq.bs) →
      ∃ u : State, exec (.writeSeg p) s = .next (u.reply rq { tcode := 8 }) ∧
        Tab.find u.um.locks (frIndex rq.bs * 256 + frSub rq.bs) = some ⟨rq.path, frSession rq.bs, t.frPayload rq.bs⟩) ∧
    (∀ r, serves s p 5 rq rest → objAt (frIndex rq.bs) (frSub rq.bs) = some r →
      exec (.describe p) s = .next (t.reply rq { tcode := r.ty.code, payload := describeBytes r (frSub rq.bs) })) ∧
    (serves s p 6 rq rest → ∃ k, exec (.next p) s = .next (t.reply rq { payload := natLe 2 (k / 256) ++ natLe 1 k ++ [0] }) ∧
      (∀ n, nextObj (frIndex rq.bs) (frSub rq.bs) (frExpert rq.bs) = some n → k = n) ∧
      (nextObj (frIndex rq.bs) (frSub rq.bs) (frExpert rq.bs) = none → k = 0xFFFFFF)) ∧
    (∀ o, exec (.segmentTimeout o) s = .next { s with um.locks := Tab.del s.um.locks o })

/-- Sessions open and close; requests travel by their paths. Its parts, each under its own name, say so in detail. -/
def Obligations.SessionsAndUmaselPathsAct : Prop :=
  sessionsOpenAndClose ∧ umaselPathsAct

/-- The service operations (R178, R345), each on a request that fits: MAP enters its pages in the table of the context and invalidates their range,
UNMAP removes them, PEN_ALLOC gives a handle and PEN_RELEASE puts identifier and slot in quarantine, CORE_SET gives the context its cores. -/
def Obligations.ServiceOperationsAct : Prop :=
  ∀ (s : State) (p : UmPath) (rq : UmReq) (rest : List UmReq) (t : State) (c : Nat), t = taken s p rq rest → svcFits t rq c →
    (∀ x u, serves s p 0x30 rq rest → svcMap p c (t.frPayload rq.bs) t = (some x, u) →
      exec (.map p) s = .next (u.reply rq x) ∧ (∀ va pa, va % 2 ^ 21 = 0 → pa ≠ 0 → pa % 2 ^ 21 = 0 → 2 ^ 32 ≤ pa → p = .mbox →
        t.frPayload rq.bs = natLe 1 c ++ List.replicate 7 0 ++ natLe 8 va ++ natLe 4 1 ++ [0, 3, 0, 0] ++ natLe 8 pa →
        va < 2 ^ 48 → pa < 2 ^ 48 → pa + 2 ^ 21 ≤ t.stripedEnd → (t.ctx c).mapped = [] → t.um.ptTables = 0 → x = {} ∧
        Tab.find (u.ctx c).vaPages (va / 2 ^ 21 * 2) = some (pa / 2 ^ 21 * 2))) ∧
    (∀ u, serves s p 0x31 rq rest → svcUnmap c (t.frPayload rq.bs) t = (some {}, u) → exec (.unmap p) s = .next (u.reply rq {})) ∧
    (∀ x u, serves s p 0x32 rq rest → svcPenAlloc c (t.frPayload rq.bs) t = (some x, u) → exec (.penAlloc p) s = .next (u.reply rq x)) ∧
    (∀ u, serves s p 0x33 rq rest → svcPenRelease c (t.frPayload rq.bs) t = (some {}, u) →
      exec (.penRelease p) s = .next (u.reply rq {}) ∧ u.pen.quarantine ≠ []) ∧
    (∀ u, serves s p 0x34 rq rest → svcCoreSet c (t.frPayload rq.bs) t = (some {}, u) → exec (.coreSet p) s = .next (u.reply rq {}) ∧
      (u.ctx c).coreSet = (List.range 320).filter (fun L => (fieldAt (t.frPayload rq.bs) 8 40).testBit L))

/-- Configuration store, firmware, wear, hang dump and timestamps. Its parts, each under its own name, say so in detail. -/
def Obligations.MaintenanceDumpsAndTimestampsAct : Prop :=
  maintenanceActs ∧ dumpsAndTimestampsAct

/-- Integer vec.add, vec.sub and vec.mul work on the active lanes below VL alone, modulo 2^32, reading both operands before they write (R107,
R110). -/
def Obligations.VecActiveLanesTakeTheResult : Prop :=
  intRow .vecAdd 0x08 (· + ·) ∧ intRow .vecSub 0x09 (· - ·) ∧ intRow .vecMul 0x0A (· * ·) ∧
  intRow .vecAnd 0x10 (· &&& ·) ∧ intRow .vecOr 0x11 (· ||| ·) ∧ intRow .vecXor 0x12 (· ^^^ ·)

/-- What the vector instructions leave (R107, R110): all that lies outside their core, its memories and matrix unit, and every register but the
destination. -/
def Obligations.VectorInstructionsKeepTheRest : Prop :=
  frameRow .vecAdd 2 0x08 .vec (fun f => vecOk (useBin etArith) f) (fun _ => noPlan) onlyVd ∧
  frameRow .vecSub 2 0x09 .vec (fun f => vecOk (useBin etArith) f) (fun _ => noPlan) onlyVd ∧
  frameRow .vecMul 2 0x0A .vec (fun f => vecOk (useBin etArith) f) (fun _ => noPlan) onlyVd ∧
  frameRow .vecFma 2 0x0B .vec (fun f => vecOk { useBin etFp with vc := true } f) (fun _ => noPlan) onlyVd ∧
  frameRow .vecMax 2 0x0C .vec (fun f => vecOk (useBin etArith) f) (fun _ => noPlan) onlyVd ∧
  frameRow .vecMin 2 0x0D .vec (fun f => vecOk (useBin etArith) f) (fun _ => noPlan) onlyVd ∧
  frameRow .vecAbs 2 0x0E .vec (fun f => vecOk (useUn etSigned) f) (fun _ => noPlan) onlyVd ∧
  frameRow .vecNeg 2 0x0F .vec (fun f => vecOk (useUn etSigned) f) (fun _ => noPlan) onlyVd ∧
  frameRow .vecDiv 2 0x25 .vec (fun f => vecOk (useBin etFp) f) (fun _ => noPlan) onlyVd ∧
  frameRow .vecSqrt 2 0x26 .vec (fun f => vecOk (useUn etFp) f) (fun _ => noPlan) onlyVd ∧
  frameRow .vecExp2 2 0x20 .vec (fun f => vecOk (useUn etFp) f) (fun _ => noPlan) onlyVd ∧
  frameRow .vecLog2 2 0x21 .vec (fun f => vecOk (useUn etFp) f) (fun _ => noPlan) onlyVd ∧
  frameRow .vecRsqrt 2 0x22 .vec (fun f => vecOk (useUn etFp) f) (fun _ => noPlan) onlyVd ∧
  frameRow .vecRecip 2 0x23 .vec (fun f => vecOk (useUn etFp) f) (fun _ => noPlan) onlyVd ∧
  frameRow .vecTanh 2 0x24 .vec (fun f => vecOk (useUn etFp) f) (fun _ => noPlan) onlyVd ∧
  frameRow .vecAnd 2 0x10 .vec (fun f => vecOk (useBin etAny) f) (fun _ => noPlan) onlyVd ∧
  frameRow .vecOr 2 0x11 .vec (fun f => vecOk (useBin etAny) f) (fun _ => noPlan) onlyVd ∧
  frameRow .vecXor 2 0x12 .vec (fun f => vecOk (useBin etAny) f) (fun _ => noPlan) onlyVd ∧
  frameRow .vecShl 2 0x13 .vec (fun f => vecOk (useBin etInt) f) (fun _ => noPlan) onlyVd ∧
  frameRow .vecShr 2 0x14 .vec (fun f => vecOk (useBin etInt) f) (fun _ => noPlan) onlyVd ∧
  frameRow .vecSra 2 0x15 .vec (fun f => vecOk (useBin etInt) f) (fun _ => noPlan) onlyVd ∧
  frameRow .vecSel 2 0x16 .vec (fun f => vecOk { useBin etAny with mu := false } f) (fun _ => noPlan) onlyVd ∧
  frameRow .vecIota 2 0x05 .vec (fun f => vecOk { vd := .vec, z := true, ms := true, mu := true, ets := etInt, imm := 0xFFFFFFFF } f)
    (fun _ => noPlan) onlyVd ∧
  frameRow .vecPerm 2 0x28 .vec (fun f => vecOk (useBin etAny) f) (fun _ => noPlan) onlyVd ∧
  frameRow .vecPerm2 2 0x29 .vec (fun f => vecOk { useBin etAny with vc := true } f) (fun _ => noPlan) onlyVd ∧
  frameRow .vecPack 2 0x2B .vec (fun f => vecOk (useBin [4, 7]) f) (fun _ => noPlan) onlyVd ∧
  frameRow .vecUnpack 2 0x2C .vec (fun f => vecOk { useUn [4, 7] with imm := 3 } f) (fun _ => noPlan) onlyVd ∧
  frameRow .vecCompress 2 0x30 .vec (fun f => vecOk (useUn etAny) f && vMU f) (fun _ => noPlan) onlyVd ∧
  frameRow .vecExpand 2 0x31 .vec (fun f => vecOk (useUn etAny) f && vMU f) (fun _ => noPlan) onlyVd ∧
  frameRow .vecCvt 2 0x38 .vec (fun f => cvtOk f) (fun _ => noPlan) onlyVdSeed ∧
  frameRow .vecLd 2 0x01 .vec (fun f => vecOk useLoad f) (fun f => vMemPlan false false false f) onlyVd ∧
  frameRow .vecLdr 2 0x03 .vec (fun f => vecOk useLoad f) (fun f => vMemPlan false true false f) onlyVd ∧
  frameRow .vecCmp 2 0x18 .vec (fun f => vecOk { useBin etArith with vd := .mask, sb := false, imm := 7 } f && vIMM f != 7)
    (fun _ => noPlan) onlyMd ∧
  frameRow .vecMand 2 0x19 .vec (fun f => vecOk useMask2 f) (fun _ => noPlan) onlyMd ∧
  frameRow .vecMor 2 0x1A .vec (fun f => vecOk useMask2 f) (fun _ => noPlan) onlyMd ∧
  frameRow .vecMxor 2 0x1B .vec (fun f => vecOk useMask2 f) (fun _ => noPlan) onlyMd ∧
  frameRow .vecMnot 2 0x1C .vec (fun f => vecOk { vd := .mask, va := .mask } f) (fun _ => noPlan) onlyMd ∧
  frameRow .vecMpop 2 0x1D .vec (fun f => vecOk useMaskA f) (fun f => fun _ => { aUse := [vAR f], aDst := some (vAR f) }) onlyAr ∧
  frameRow .vecMfirst 2 0x1E .vec (fun f => vecOk useMaskA f) (fun f => fun _ => { aUse := [vAR f], aDst := some (vAR f) }) onlyAr

/-- The instructions that store write only the bytes of the destination that they declare, whose address is formed from their registers
(R112, R114, R118), and leave every vector and mask register; those of the matrix unit leave the vector unit's registers and A (R62). -/
def Obligations.StoresStayInTheirBytes : Prop :=
  frameRow .vecSt 2 0x02 .vec (fun f => vecOk useStore f) (fun f => vMemPlan true false false f)
    (fun f a b => storeKept a b ∧ b.a = a.a ∧ outside (vMemPlan true false false f a) a b) ∧
  frameRow .vecCst 2 0x32 .vec (fun f => vecOk useStore f && vMU f) (fun f => vMemPlan true false true f)
    (fun f a b => storeKept a b ∧ (∀ r, r ≠ vAR f → b.A r = a.A r) ∧ outside (vMemPlan true false true f a) a b) ∧
  frameRow .redSum 6 0x00 .vec (redOk true true false false) (fun f => redPlan false (sumSize f) (sumSize f * rROWS f) f)
    (fun f a b => storeKept a b ∧ b.a = a.a ∧ outside (redPlan false (sumSize f) (sumSize f * rROWS f) f a) a b) ∧
  frameRow .redMax 6 0x01 .vec (redOk true false false false) (fun f => redPlan false (rSize f) (rSize f * rROWS f) f)
    (fun f a b => storeKept a b ∧ b.a = a.a ∧ outside (redPlan false (rSize f) (rSize f * rROWS f) f a) a b) ∧
  frameRow .redMin 6 0x02 .vec (redOk true false false false) (fun f => redPlan false (rSize f) (rSize f * rROWS f) f)
    (fun f a b => storeKept a b ∧ b.a = a.a ∧ outside (redPlan false (rSize f) (rSize f * rROWS f) f a) a b) ∧
  frameRow .redSqnorm 6 0x04 .vec (redOk false true false false) (fun f => redPlan false (sumSize f) (sumSize f * rROWS f) f)
    (fun f a b => storeKept a b ∧ b.a = a.a ∧ outside (redPlan false (sumSize f) (sumSize f * rROWS f) f a) a b) ∧
  frameRow .mxuLdb 1 0x01 .mxu (fun f => cfOk f && ldbOk f) ldbPlan (fun _ a b => b.v = a.v ∧ b.m = a.m ∧ b.a = a.a ∧ b.vl = a.vl) ∧
  frameRow .mxuPass 1 0x02 .mxu (fun f => cfOk f && passOk f) passPlan (fun _ a b => b.v = a.v ∧ b.m = a.m ∧ b.a = a.a ∧ b.vl = a.vl) ∧
  frameRow .mxuOut 1 0x06 .mxu (fun f => cfOk f && outOk f) outPlan (fun _ a b => b.v = a.v ∧ b.m = a.m ∧ b.a = a.a ∧ b.vl = a.vl)

/-- Comparison follows the exact order of the values (R88): NaN is unordered, itself included, −0 equals +0, and every ordered comparison with
NaN is false while NE and UN are true; max and min are NaN if an operand is, take +0 as greater than −0, and are otherwise one of the
operands and a bound of both. -/
def Obligations.ComparisonFollowsTheExactOrder : Prop :=
  (∀ a b : Fp.Val, (Fp.cmp a b = none ↔ a = .nan ∨ b = .nan) ∧
    (∀ x y, place a = some x → place b = some y →
      (Fp.cmp a b = some .lt ↔ below x y) ∧ (Fp.cmp a b = some .gt ↔ below y x) ∧ (Fp.cmp a b = some .eq ↔ x = y))) ∧
  (∀ e k, Fp.cmp (.fin true 0 e) (.fin false 0 k) = some .eq ∧ Fp.max (.fin true 0 e) (.fin false 0 k) = .fin false 0 k ∧
    Fp.max (.fin false 0 k) (.fin true 0 e) = .fin false 0 k ∧ Fp.min (.fin true 0 e) (.fin false 0 k) = .fin true 0 e ∧
    Fp.min (.fin false 0 k) (.fin true 0 e) = .fin true 0 e) ∧
  (∀ a b : Fp.Val, (Fp.max a b = .nan ↔ a = .nan ∨ b = .nan) ∧ (Fp.min a b = .nan ↔ a = .nan ∨ b = .nan) ∧
    (a ≠ .nan → b ≠ .nan → (Fp.max a b = a ∨ Fp.max a b = b) ∧ (Fp.min a b = a ∨ Fp.min a b = b) ∧
      Fp.cmp (Fp.max a b) a ≠ some .lt ∧ Fp.cmp (Fp.max a b) b ≠ some .lt ∧
      Fp.cmp (Fp.min a b) a ≠ some .gt ∧ Fp.cmp (Fp.min a b) b ≠ some .gt)) ∧
  (∀ c, c < 7 → (vCond c none = true ↔ c = 1 ∨ c = 6)) ∧
  (∀ e ∈ [(Fp.fp32, 0x7FC00000), (Fp.bf16, 0x7FC0), (Fp.fp16, 0x7E00), (Fp.e5m2, 0x7E), (Fp.e4m3, 0x7F), (Fp.f64, 0x7FF8000000000000)],
    Fp.enc e.1 .nan = e.2 ∧ Fp.decode e.1 e.2 = .nan)

/-- A data pennant is full from a hoist that no striker takes until its value is struck, a counting one exactly while its value is not 0, and no
operation changes the kind (R174). -/
def Obligations.PennantKindAndFullness : Prop :=
  (∀ (x : Slot) (v : BitVec 48), (x.accept v).1.k = x.k ∧ ((∀ w ∈ x.waiters, w.strike = false) → x.k = false → (x.accept v).1.f = true) ∧
    (x.k = true → ((x.accept v).1.f = true ↔ (x.accept v).1.value ≠ 0))) ∧
  (∀ (x : Slot) (n : Nat), (x.consume n).k = x.k ∧ (x.k = false → (x.consume n).f = false) ∧
    (x.k = true → ((x.consume n).f = true ↔ (x.consume n).value ≠ 0)))

/-- Every command in front of the queue is run on the state with the queue's rest; on an empty queue one count of the timestamp passes, which is
the model's choice (log 1). It rests on R16 for the count. Every command whose operands name units of the module completes, in every state:
each of the 299 constructors answers a next state. -/
def Obligations.StepTakesTheFrontCommand : Prop :=
  ∀ s : State, (∀ c rest, s.pending = c :: rest → step s = exec c { s with pending := rest }) ∧
    (s.pending = [] → step s = .next (tick s)) ∧
    (∀ nbits w, (s.withFetchWord nbits w).pending = (decodeTableWord nbits w).toList ++ s.pending) ∧
    (∀ i : Instr, Instr.wf i = true → ∃ t, exec i s = .next t)

/-- Whatever command a step takes, in whatever state, every memory of the module keeps its canonical form: striped memory and each core's tile
and accumulator memory list their bytes in rising order and no byte that reads as an unlisted one (R14, R45, R124). -/
def Obligations.EveryStepKeepsTheMemoriesForm : Prop :=
  ∀ s t : State, s.memWf = true → step s = .next t → t.memWf = true

/-- The state after a cold reset: every memory has its form and reads 0; logical core L is on physical index L mod 40 (R13); the rank map holds no
entry (R29); every slot of pennants is empty with GEN 0 (R195); each context's epoch is 0 (R239); a sensor not yet read shows the quiet
NaN (R325). No command is waiting (log 1). -/
def Obligations.ResetLeavesTheModuleEmpty : Prop :=
  State.reset.memWf = true ∧ State.reset.pending = [] ∧
  (∀ L, (State.reset.core L).physIdx = L % 40 ∧ (State.reset.core L).task = none ∧
    ∀ a, (State.reset.core L).tm.read a = 0 ∧ (State.reset.core L).am.read a = 0) ∧
  State.reset.xl.rankMap = [] ∧
  (∀ k, (State.reset.slot k).f = false ∧ (State.reset.slot k).gen = 0 ∧ (State.reset.slot k).waiters = []) ∧
  (∀ c, (State.reset.ctx c).epoch = 0 ∧ (State.reset.ctx c).started = [] ∧ ∀ n, ((State.reset.ctx c).ring n).enable = false) ∧
  (∀ d, 1 ≤ d → d ≤ 13 → State.reset.objVal 0x3200 d = 0x7FC00000) ∧ State.reset.coll.runs = [] ∧ State.reset.fab.trans = [] ∧ State.reset.um.sessions = []
end

