-- ==== Sys2Proof/Laws/Tab.lean ====
section
/-! SUPPORT. Laws of tables and byte memories: what is read after a write, and that every memory operation keeps the canonical form. -/

namespace Sys2Proof.Laws
open Sys2Proof Sys2Proof.Machine

/-! ## Tables -/

/-- Looking up a key after a put. -/
theorem find_put {α : Type} (t : Tab α) (k j : Nat) (v : α) : Tab.find (Tab.put t k v) j = if k = j then some v else Tab.find t j := by
  induction t with
  | nil => simp [Tab.put, Tab.find]
  | cons h t ih =>
    obtain ⟨a, w⟩ := h
    simp only [Tab.put]
    split
    · simp [Tab.find]
    · split
      · subst_vars; simp only [Tab.find]; split <;> rfl
      · simp only [Tab.find, ih]; split
        · subst_vars; rw [if_neg (by omega)]
        · rfl

/-- The later of two puts of one key is the one that holds. -/
theorem put_put {α : Type} (t : Tab α) (k : Nat) (v w : α) : Tab.put (Tab.put t k v) k w = Tab.put t k w := by
  induction t with
  | nil => simp [Tab.put]
  | cons h t ih =>
    obtain ⟨a, x⟩ := h
    simp only [Tab.put]
    split
    · simp [Tab.put]
    · split
      · simp [Tab.put]
      · simp [Tab.put, *]

/-- Looking up a key after a delete. -/
theorem find_del {α : Type} (t : Tab α) (k j : Nat) : Tab.find (Tab.del t k) j = if k = j then none else Tab.find t j := by
  induction t with
  | nil => simp [Tab.del, Tab.find]
  | cons h t ih =>
    obtain ⟨a, w⟩ := h
    simp only [Tab.del] at ih
    by_cases hk : a = k
    · subst hk
      simp only [Tab.del, List.filter_cons, bne_self_eq_false, Bool.false_eq_true, if_false, ih, Tab.find]
      split <;> simp_all
    · have hb : (a != k) = true := by simpa using hk
      simp only [Tab.del, List.filter_cons, hb, if_true, Tab.find, ih]
      split
      · subst_vars; rw [if_neg (fun h => hk h.symm)]
      · rfl

@[simp] theorem get_put {α : Type} (d : α) (t : Tab α) (k : Nat) (v : α) : Tab.get d (Tab.put t k v) k = v := by
  simp [Tab.get, find_put]

theorem get_put_ne {α : Type} (d : α) (t : Tab α) (k j : Nat) (v : α) (h : k ≠ j) : Tab.get d (Tab.put t k v) j = Tab.get d t j := by
  simp [Tab.get, find_put, h]

/-! ## Byte memories -/

/-- A byte read after a write of one byte. -/
theorem read_write (m : Memory) (a x : Nat) (b : Byte) : (m.write a b).read x = if a = x then b else m.read x := by
  unfold Memory.write Memory.read Tab.get
  split
  · next h => rw [find_del]; split <;> simp_all
  · rw [find_put]; split <;> simp_all

/-- A byte outside the bytes written reads as before. -/
theorem read_writeN_outside (bs : List Byte) : ∀ (m : Memory) (a x : Nat), (x < a ∨ a + bs.length ≤ x) → (m.writeN a bs).read x = m.read x := by
  induction bs with
  | nil => intro m a x _; rfl
  | cons b bs ih =>
    intro m a x h
    simp only [List.length_cons] at h
    rw [Memory.writeN, ih _ _ _ (by omega), read_write, if_neg (by omega)]

/-- A byte among those written reads as the byte written. -/
theorem read_writeN_inside (bs : List Byte) : ∀ (m : Memory) (a x : Nat) (h : x < bs.length), (m.writeN a bs).read (a + x) = bs[x] := by
  induction bs with
  | nil => intro m a x h; simp at h
  | cons b bs ih =>
    intro m a x h
    rw [Memory.writeN]
    cases x with
    | zero => rw [Nat.add_zero, read_writeN_outside _ _ _ _ (by omega), read_write]; simp
    | succ n =>
      have h2 : n < bs.length := by simpa using h
      have := ih (m.write a b) (a + 1) n h2
      rw [show a + (n + 1) = a + 1 + n by omega, this]; simp

theorem wfFrom_mono (m : Memory) (lo hi : Nat) (h : lo ≤ hi) (hm : Memory.wfFrom hi m = true) : Memory.wfFrom lo m = true := by
  cases m with
  | nil => rfl
  | cons e t =>
    obtain ⟨a, b⟩ := e
    simp only [Memory.wfFrom, Bool.and_eq_true, decide_eq_true_eq] at hm ⊢
    exact ⟨⟨by omega, hm.1.2⟩, hm.2⟩

/-- Keeping some cells of a canonical memory leaves it canonical. -/
theorem wfFrom_filter (p : Host.Cell → Bool) (m : Memory) : ∀ lo, Memory.wfFrom lo m = true → Memory.wfFrom lo (m.filter p) = true := by
  induction m with
  | nil => intro lo _; rfl
  | cons e t ih =>
    intro lo h
    obtain ⟨a, b⟩ := e
    simp only [Memory.wfFrom, Bool.and_eq_true, decide_eq_true_eq] at h
    rw [List.filter_cons]
    split
    · simp only [Memory.wfFrom, Bool.and_eq_true, decide_eq_true_eq]; exact ⟨h.1, ih _ h.2⟩
    · exact wfFrom_mono _ lo (a + 1) (by omega) (ih _ h.2)

theorem wfFrom_put (m : Memory) (k : Nat) (v : Byte) (hv : v ≠ Memory.unlisted) : ∀ lo, lo ≤ k → Memory.wfFrom lo m = true →
    Memory.wfFrom lo (Tab.put m k v) = true := by
  induction m with
  | nil => intro lo hk _; simp [Tab.put, Memory.wfFrom, hk, hv]
  | cons e t ih =>
    intro lo hk h
    obtain ⟨a, b⟩ := e
    simp only [Memory.wfFrom, Bool.and_eq_true, decide_eq_true_eq] at h
    simp only [Tab.put]
    split
    · simp only [Memory.wfFrom, Bool.and_eq_true, decide_eq_true_eq]
      exact ⟨⟨hk, by simpa using hv⟩, ⟨⟨by omega, h.1.2⟩, h.2⟩⟩
    · split
      · subst_vars; simp only [Memory.wfFrom, Bool.and_eq_true, decide_eq_true_eq]; exact ⟨⟨hk, by simpa using hv⟩, h.2⟩
      · simp only [Memory.wfFrom, Bool.and_eq_true, decide_eq_true_eq]
        exact ⟨h.1, ih (a + 1) (by omega) h.2⟩

/-- A write of one byte keeps the canonical form. -/
theorem wf_write (m : Memory) (a : Nat) (b : Byte) (h : m.wf = true) : (m.write a b).wf = true := by
  unfold Memory.write Memory.wf at *
  split
  · exact wfFrom_filter _ m 0 h
  · next hb => exact wfFrom_put m a b hb 0 (Nat.zero_le _) h

/-- A write of bytes keeps the canonical form. -/
theorem wf_writeN (bs : List Byte) : ∀ (m : Memory) (a : Nat), m.wf = true → (m.writeN a bs).wf = true := by
  induction bs with
  | nil => intro m a h; exact h
  | cons b bs ih => intro m a h; exact ih _ _ (wf_write m a b h)

/-- Clearing a range keeps the canonical form. -/
theorem wf_clear (m : Memory) (a n : Nat) (h : m.wf = true) : (m.clear a n).wf = true := wfFrom_filter _ m 0 h

/-- The empty memory has the canonical form. -/
theorem wf_nil : Memory.wf [] = true := rfl

/-- The memories of the state after reset have it. -/
theorem reset_memWf : State.reset.memWf = true := rfl

end Sys2Proof.Laws
end

