-- ==== Sys2Proof/Laws/State.lean ====
section
/-! SUPPORT. What an update of one part of the state leaves: one lemma per field and update, and the part read after its own update. -/

namespace Sys2Proof.Laws
open Sys2Proof Sys2Proof.Machine

/-! ## setCore -/

@[simp] theorem setCore_pending (s : State) (L : Nat) (x : CoreState) : (s.setCore L x).pending = s.pending := rfl
@[simp] theorem setCore_freeCtr (s : State) (L : Nat) (x : CoreState) : (s.setCore L x).freeCtr = s.freeCtr := rfl
@[simp] theorem setCore_out (s : State) (L : Nat) (x : CoreState) : (s.setCore L x).out = s.out := rfl
@[simp] theorem setCore_sys (s : State) (L : Nat) (x : CoreState) : (s.setCore L x).sys = s.sys := rfl
@[simp] theorem setCore_xl (s : State) (L : Nat) (x : CoreState) : (s.setCore L x).xl = s.xl := rfl
@[simp] theorem setCore_spares (s : State) (L : Nat) (x : CoreState) : (s.setCore L x).spares = s.spares := rfl
@[simp] theorem setCore_mem (s : State) (L : Nat) (x : CoreState) : (s.setCore L x).mem = s.mem := rfl
@[simp] theorem setCore_ctxs (s : State) (L : Nat) (x : CoreState) : (s.setCore L x).ctxs = s.ctxs := rfl
@[simp] theorem setCore_fes (s : State) (L : Nat) (x : CoreState) : (s.setCore L x).fes = s.fes := rfl
@[simp] theorem setCore_pen (s : State) (L : Nat) (x : CoreState) : (s.setCore L x).pen = s.pen := rfl
@[simp] theorem setCore_fab (s : State) (L : Nat) (x : CoreState) : (s.setCore L x).fab = s.fab := rfl
@[simp] theorem setCore_coll (s : State) (L : Nat) (x : CoreState) : (s.setCore L x).coll = s.coll := rfl
@[simp] theorem setCore_rbd (s : State) (L : Nat) (x : CoreState) : (s.setCore L x).rbd = s.rbd := rfl
@[simp] theorem setCore_pwr (s : State) (L : Nat) (x : CoreState) : (s.setCore L x).pwr = s.pwr := rfl
@[simp] theorem setCore_um (s : State) (L : Nat) (x : CoreState) : (s.setCore L x).um = s.um := rfl
@[simp] theorem setCore_obs (s : State) (L : Nat) (x : CoreState) : (s.setCore L x).obs = s.obs := rfl

/-! ## modCore -/

@[simp] theorem modCore_pending (s : State) (L : Nat) (g : CoreState → CoreState) : (s.modCore L g).pending = s.pending := rfl
@[simp] theorem modCore_freeCtr (s : State) (L : Nat) (g : CoreState → CoreState) : (s.modCore L g).freeCtr = s.freeCtr := rfl
@[simp] theorem modCore_out (s : State) (L : Nat) (g : CoreState → CoreState) : (s.modCore L g).out = s.out := rfl
@[simp] theorem modCore_sys (s : State) (L : Nat) (g : CoreState → CoreState) : (s.modCore L g).sys = s.sys := rfl
@[simp] theorem modCore_xl (s : State) (L : Nat) (g : CoreState → CoreState) : (s.modCore L g).xl = s.xl := rfl
@[simp] theorem modCore_spares (s : State) (L : Nat) (g : CoreState → CoreState) : (s.modCore L g).spares = s.spares := rfl
@[simp] theorem modCore_mem (s : State) (L : Nat) (g : CoreState → CoreState) : (s.modCore L g).mem = s.mem := rfl
@[simp] theorem modCore_ctxs (s : State) (L : Nat) (g : CoreState → CoreState) : (s.modCore L g).ctxs = s.ctxs := rfl
@[simp] theorem modCore_fes (s : State) (L : Nat) (g : CoreState → CoreState) : (s.modCore L g).fes = s.fes := rfl
@[simp] theorem modCore_pen (s : State) (L : Nat) (g : CoreState → CoreState) : (s.modCore L g).pen = s.pen := rfl
@[simp] theorem modCore_fab (s : State) (L : Nat) (g : CoreState → CoreState) : (s.modCore L g).fab = s.fab := rfl
@[simp] theorem modCore_coll (s : State) (L : Nat) (g : CoreState → CoreState) : (s.modCore L g).coll = s.coll := rfl
@[simp] theorem modCore_rbd (s : State) (L : Nat) (g : CoreState → CoreState) : (s.modCore L g).rbd = s.rbd := rfl
@[simp] theorem modCore_pwr (s : State) (L : Nat) (g : CoreState → CoreState) : (s.modCore L g).pwr = s.pwr := rfl
@[simp] theorem modCore_um (s : State) (L : Nat) (g : CoreState → CoreState) : (s.modCore L g).um = s.um := rfl
@[simp] theorem modCore_obs (s : State) (L : Nat) (g : CoreState → CoreState) : (s.modCore L g).obs = s.obs := rfl

/-! ## setCtx -/

@[simp] theorem setCtx_pending (s : State) (c : Nat) (x : CtxState) : (s.setCtx c x).pending = s.pending := rfl
@[simp] theorem setCtx_freeCtr (s : State) (c : Nat) (x : CtxState) : (s.setCtx c x).freeCtr = s.freeCtr := rfl
@[simp] theorem setCtx_out (s : State) (c : Nat) (x : CtxState) : (s.setCtx c x).out = s.out := rfl
@[simp] theorem setCtx_sys (s : State) (c : Nat) (x : CtxState) : (s.setCtx c x).sys = s.sys := rfl
@[simp] theorem setCtx_xl (s : State) (c : Nat) (x : CtxState) : (s.setCtx c x).xl = s.xl := rfl
@[simp] theorem setCtx_cores (s : State) (c : Nat) (x : CtxState) : (s.setCtx c x).cores = s.cores := rfl
@[simp] theorem setCtx_spares (s : State) (c : Nat) (x : CtxState) : (s.setCtx c x).spares = s.spares := rfl
@[simp] theorem setCtx_mem (s : State) (c : Nat) (x : CtxState) : (s.setCtx c x).mem = s.mem := rfl
@[simp] theorem setCtx_fes (s : State) (c : Nat) (x : CtxState) : (s.setCtx c x).fes = s.fes := rfl
@[simp] theorem setCtx_pen (s : State) (c : Nat) (x : CtxState) : (s.setCtx c x).pen = s.pen := rfl
@[simp] theorem setCtx_fab (s : State) (c : Nat) (x : CtxState) : (s.setCtx c x).fab = s.fab := rfl
@[simp] theorem setCtx_coll (s : State) (c : Nat) (x : CtxState) : (s.setCtx c x).coll = s.coll := rfl
@[simp] theorem setCtx_rbd (s : State) (c : Nat) (x : CtxState) : (s.setCtx c x).rbd = s.rbd := rfl
@[simp] theorem setCtx_pwr (s : State) (c : Nat) (x : CtxState) : (s.setCtx c x).pwr = s.pwr := rfl
@[simp] theorem setCtx_um (s : State) (c : Nat) (x : CtxState) : (s.setCtx c x).um = s.um := rfl
@[simp] theorem setCtx_obs (s : State) (c : Nat) (x : CtxState) : (s.setCtx c x).obs = s.obs := rfl

/-! ## modCtx -/

@[simp] theorem modCtx_pending (s : State) (c : Nat) (g : CtxState → CtxState) : (s.modCtx c g).pending = s.pending := rfl
@[simp] theorem modCtx_freeCtr (s : State) (c : Nat) (g : CtxState → CtxState) : (s.modCtx c g).freeCtr = s.freeCtr := rfl
@[simp] theorem modCtx_out (s : State) (c : Nat) (g : CtxState → CtxState) : (s.modCtx c g).out = s.out := rfl
@[simp] theorem modCtx_sys (s : State) (c : Nat) (g : CtxState → CtxState) : (s.modCtx c g).sys = s.sys := rfl
@[simp] theorem modCtx_xl (s : State) (c : Nat) (g : CtxState → CtxState) : (s.modCtx c g).xl = s.xl := rfl
@[simp] theorem modCtx_cores (s : State) (c : Nat) (g : CtxState → CtxState) : (s.modCtx c g).cores = s.cores := rfl
@[simp] theorem modCtx_spares (s : State) (c : Nat) (g : CtxState → CtxState) : (s.modCtx c g).spares = s.spares := rfl
@[simp] theorem modCtx_mem (s : State) (c : Nat) (g : CtxState → CtxState) : (s.modCtx c g).mem = s.mem := rfl
@[simp] theorem modCtx_fes (s : State) (c : Nat) (g : CtxState → CtxState) : (s.modCtx c g).fes = s.fes := rfl
@[simp] theorem modCtx_pen (s : State) (c : Nat) (g : CtxState → CtxState) : (s.modCtx c g).pen = s.pen := rfl
@[simp] theorem modCtx_fab (s : State) (c : Nat) (g : CtxState → CtxState) : (s.modCtx c g).fab = s.fab := rfl
@[simp] theorem modCtx_coll (s : State) (c : Nat) (g : CtxState → CtxState) : (s.modCtx c g).coll = s.coll := rfl
@[simp] theorem modCtx_rbd (s : State) (c : Nat) (g : CtxState → CtxState) : (s.modCtx c g).rbd = s.rbd := rfl
@[simp] theorem modCtx_pwr (s : State) (c : Nat) (g : CtxState → CtxState) : (s.modCtx c g).pwr = s.pwr := rfl
@[simp] theorem modCtx_um (s : State) (c : Nat) (g : CtxState → CtxState) : (s.modCtx c g).um = s.um := rfl
@[simp] theorem modCtx_obs (s : State) (c : Nat) (g : CtxState → CtxState) : (s.modCtx c g).obs = s.obs := rfl

/-! ## modRing -/

@[simp] theorem modRing_pending (s : State) (c n : Nat) (g : Ring → Ring) : (s.modRing c n g).pending = s.pending := rfl
@[simp] theorem modRing_freeCtr (s : State) (c n : Nat) (g : Ring → Ring) : (s.modRing c n g).freeCtr = s.freeCtr := rfl
@[simp] theorem modRing_out (s : State) (c n : Nat) (g : Ring → Ring) : (s.modRing c n g).out = s.out := rfl
@[simp] theorem modRing_sys (s : State) (c n : Nat) (g : Ring → Ring) : (s.modRing c n g).sys = s.sys := rfl
@[simp] theorem modRing_xl (s : State) (c n : Nat) (g : Ring → Ring) : (s.modRing c n g).xl = s.xl := rfl
@[simp] theorem modRing_cores (s : State) (c n : Nat) (g : Ring → Ring) : (s.modRing c n g).cores = s.cores := rfl
@[simp] theorem modRing_spares (s : State) (c n : Nat) (g : Ring → Ring) : (s.modRing c n g).spares = s.spares := rfl
@[simp] theorem modRing_mem (s : State) (c n : Nat) (g : Ring → Ring) : (s.modRing c n g).mem = s.mem := rfl
@[simp] theorem modRing_fes (s : State) (c n : Nat) (g : Ring → Ring) : (s.modRing c n g).fes = s.fes := rfl
@[simp] theorem modRing_pen (s : State) (c n : Nat) (g : Ring → Ring) : (s.modRing c n g).pen = s.pen := rfl
@[simp] theorem modRing_fab (s : State) (c n : Nat) (g : Ring → Ring) : (s.modRing c n g).fab = s.fab := rfl
@[simp] theorem modRing_coll (s : State) (c n : Nat) (g : Ring → Ring) : (s.modRing c n g).coll = s.coll := rfl
@[simp] theorem modRing_rbd (s : State) (c n : Nat) (g : Ring → Ring) : (s.modRing c n g).rbd = s.rbd := rfl
@[simp] theorem modRing_pwr (s : State) (c n : Nat) (g : Ring → Ring) : (s.modRing c n g).pwr = s.pwr := rfl
@[simp] theorem modRing_um (s : State) (c n : Nat) (g : Ring → Ring) : (s.modRing c n g).um = s.um := rfl
@[simp] theorem modRing_obs (s : State) (c n : Nat) (g : Ring → Ring) : (s.modRing c n g).obs = s.obs := rfl

/-! ## setStk -/

@[simp] theorem setStk_pending (s : State) (n : Nat) (x : Stack) : (s.setStk n x).pending = s.pending := rfl
@[simp] theorem setStk_freeCtr (s : State) (n : Nat) (x : Stack) : (s.setStk n x).freeCtr = s.freeCtr := rfl
@[simp] theorem setStk_out (s : State) (n : Nat) (x : Stack) : (s.setStk n x).out = s.out := rfl
@[simp] theorem setStk_sys (s : State) (n : Nat) (x : Stack) : (s.setStk n x).sys = s.sys := rfl
@[simp] theorem setStk_xl (s : State) (n : Nat) (x : Stack) : (s.setStk n x).xl = s.xl := rfl
@[simp] theorem setStk_cores (s : State) (n : Nat) (x : Stack) : (s.setStk n x).cores = s.cores := rfl
@[simp] theorem setStk_spares (s : State) (n : Nat) (x : Stack) : (s.setStk n x).spares = s.spares := rfl
@[simp] theorem setStk_ctxs (s : State) (n : Nat) (x : Stack) : (s.setStk n x).ctxs = s.ctxs := rfl
@[simp] theorem setStk_fes (s : State) (n : Nat) (x : Stack) : (s.setStk n x).fes = s.fes := rfl
@[simp] theorem setStk_pen (s : State) (n : Nat) (x : Stack) : (s.setStk n x).pen = s.pen := rfl
@[simp] theorem setStk_fab (s : State) (n : Nat) (x : Stack) : (s.setStk n x).fab = s.fab := rfl
@[simp] theorem setStk_coll (s : State) (n : Nat) (x : Stack) : (s.setStk n x).coll = s.coll := rfl
@[simp] theorem setStk_rbd (s : State) (n : Nat) (x : Stack) : (s.setStk n x).rbd = s.rbd := rfl
@[simp] theorem setStk_pwr (s : State) (n : Nat) (x : Stack) : (s.setStk n x).pwr = s.pwr := rfl
@[simp] theorem setStk_um (s : State) (n : Nat) (x : Stack) : (s.setStk n x).um = s.um := rfl
@[simp] theorem setStk_obs (s : State) (n : Nat) (x : Stack) : (s.setStk n x).obs = s.obs := rfl

/-! ## modStk -/

@[simp] theorem modStk_pending (s : State) (n : Nat) (g : Stack → Stack) : (s.modStk n g).pending = s.pending := rfl
@[simp] theorem modStk_freeCtr (s : State) (n : Nat) (g : Stack → Stack) : (s.modStk n g).freeCtr = s.freeCtr := rfl
@[simp] theorem modStk_out (s : State) (n : Nat) (g : Stack → Stack) : (s.modStk n g).out = s.out := rfl
@[simp] theorem modStk_sys (s : State) (n : Nat) (g : Stack → Stack) : (s.modStk n g).sys = s.sys := rfl
@[simp] theorem modStk_xl (s : State) (n : Nat) (g : Stack → Stack) : (s.modStk n g).xl = s.xl := rfl
@[simp] theorem modStk_cores (s : State) (n : Nat) (g : Stack → Stack) : (s.modStk n g).cores = s.cores := rfl
@[simp] theorem modStk_spares (s : State) (n : Nat) (g : Stack → Stack) : (s.modStk n g).spares = s.spares := rfl
@[simp] theorem modStk_ctxs (s : State) (n : Nat) (g : Stack → Stack) : (s.modStk n g).ctxs = s.ctxs := rfl
@[simp] theorem modStk_fes (s : State) (n : Nat) (g : Stack → Stack) : (s.modStk n g).fes = s.fes := rfl
@[simp] theorem modStk_pen (s : State) (n : Nat) (g : Stack → Stack) : (s.modStk n g).pen = s.pen := rfl
@[simp] theorem modStk_fab (s : State) (n : Nat) (g : Stack → Stack) : (s.modStk n g).fab = s.fab := rfl
@[simp] theorem modStk_coll (s : State) (n : Nat) (g : Stack → Stack) : (s.modStk n g).coll = s.coll := rfl
@[simp] theorem modStk_rbd (s : State) (n : Nat) (g : Stack → Stack) : (s.modStk n g).rbd = s.rbd := rfl
@[simp] theorem modStk_pwr (s : State) (n : Nat) (g : Stack → Stack) : (s.modStk n g).pwr = s.pwr := rfl
@[simp] theorem modStk_um (s : State) (n : Nat) (g : Stack → Stack) : (s.modStk n g).um = s.um := rfl
@[simp] theorem modStk_obs (s : State) (n : Nat) (g : Stack → Stack) : (s.modStk n g).obs = s.obs := rfl

/-! ## setPort -/

@[simp] theorem setPort_pending (s : State) (p : Nat) (x : Port) : (s.setPort p x).pending = s.pending := rfl
@[simp] theorem setPort_freeCtr (s : State) (p : Nat) (x : Port) : (s.setPort p x).freeCtr = s.freeCtr := rfl
@[simp] theorem setPort_out (s : State) (p : Nat) (x : Port) : (s.setPort p x).out = s.out := rfl
@[simp] theorem setPort_sys (s : State) (p : Nat) (x : Port) : (s.setPort p x).sys = s.sys := rfl
@[simp] theorem setPort_xl (s : State) (p : Nat) (x : Port) : (s.setPort p x).xl = s.xl := rfl
@[simp] theorem setPort_cores (s : State) (p : Nat) (x : Port) : (s.setPort p x).cores = s.cores := rfl
@[simp] theorem setPort_spares (s : State) (p : Nat) (x : Port) : (s.setPort p x).spares = s.spares := rfl
@[simp] theorem setPort_mem (s : State) (p : Nat) (x : Port) : (s.setPort p x).mem = s.mem := rfl
@[simp] theorem setPort_ctxs (s : State) (p : Nat) (x : Port) : (s.setPort p x).ctxs = s.ctxs := rfl
@[simp] theorem setPort_fes (s : State) (p : Nat) (x : Port) : (s.setPort p x).fes = s.fes := rfl
@[simp] theorem setPort_pen (s : State) (p : Nat) (x : Port) : (s.setPort p x).pen = s.pen := rfl
@[simp] theorem setPort_coll (s : State) (p : Nat) (x : Port) : (s.setPort p x).coll = s.coll := rfl
@[simp] theorem setPort_rbd (s : State) (p : Nat) (x : Port) : (s.setPort p x).rbd = s.rbd := rfl
@[simp] theorem setPort_pwr (s : State) (p : Nat) (x : Port) : (s.setPort p x).pwr = s.pwr := rfl
@[simp] theorem setPort_um (s : State) (p : Nat) (x : Port) : (s.setPort p x).um = s.um := rfl
@[simp] theorem setPort_obs (s : State) (p : Nat) (x : Port) : (s.setPort p x).obs = s.obs := rfl

/-! ## modPort -/

@[simp] theorem modPort_pending (s : State) (p : Nat) (g : Port → Port) : (s.modPort p g).pending = s.pending := rfl
@[simp] theorem modPort_freeCtr (s : State) (p : Nat) (g : Port → Port) : (s.modPort p g).freeCtr = s.freeCtr := rfl
@[simp] theorem modPort_out (s : State) (p : Nat) (g : Port → Port) : (s.modPort p g).out = s.out := rfl
@[simp] theorem modPort_sys (s : State) (p : Nat) (g : Port → Port) : (s.modPort p g).sys = s.sys := rfl
@[simp] theorem modPort_xl (s : State) (p : Nat) (g : Port → Port) : (s.modPort p g).xl = s.xl := rfl
@[simp] theorem modPort_cores (s : State) (p : Nat) (g : Port → Port) : (s.modPort p g).cores = s.cores := rfl
@[simp] theorem modPort_spares (s : State) (p : Nat) (g : Port → Port) : (s.modPort p g).spares = s.spares := rfl
@[simp] theorem modPort_mem (s : State) (p : Nat) (g : Port → Port) : (s.modPort p g).mem = s.mem := rfl
@[simp] theorem modPort_ctxs (s : State) (p : Nat) (g : Port → Port) : (s.modPort p g).ctxs = s.ctxs := rfl
@[simp] theorem modPort_fes (s : State) (p : Nat) (g : Port → Port) : (s.modPort p g).fes = s.fes := rfl
@[simp] theorem modPort_pen (s : State) (p : Nat) (g : Port → Port) : (s.modPort p g).pen = s.pen := rfl
@[simp] theorem modPort_coll (s : State) (p : Nat) (g : Port → Port) : (s.modPort p g).coll = s.coll := rfl
@[simp] theorem modPort_rbd (s : State) (p : Nat) (g : Port → Port) : (s.modPort p g).rbd = s.rbd := rfl
@[simp] theorem modPort_pwr (s : State) (p : Nat) (g : Port → Port) : (s.modPort p g).pwr = s.pwr := rfl
@[simp] theorem modPort_um (s : State) (p : Nat) (g : Port → Port) : (s.modPort p g).um = s.um := rfl
@[simp] theorem modPort_obs (s : State) (p : Nat) (g : Port → Port) : (s.modPort p g).obs = s.obs := rfl

/-! ## modFe -/

@[simp] theorem modFe_pending (s : State) (k : Nat) (g : FrontEnd → FrontEnd) : (s.modFe k g).pending = s.pending := rfl
@[simp] theorem modFe_freeCtr (s : State) (k : Nat) (g : FrontEnd → FrontEnd) : (s.modFe k g).freeCtr = s.freeCtr := rfl
@[simp] theorem modFe_out (s : State) (k : Nat) (g : FrontEnd → FrontEnd) : (s.modFe k g).out = s.out := rfl
@[simp] theorem modFe_sys (s : State) (k : Nat) (g : FrontEnd → FrontEnd) : (s.modFe k g).sys = s.sys := rfl
@[simp] theorem modFe_xl (s : State) (k : Nat) (g : FrontEnd → FrontEnd) : (s.modFe k g).xl = s.xl := rfl
@[simp] theorem modFe_cores (s : State) (k : Nat) (g : FrontEnd → FrontEnd) : (s.modFe k g).cores = s.cores := rfl
@[simp] theorem modFe_spares (s : State) (k : Nat) (g : FrontEnd → FrontEnd) : (s.modFe k g).spares = s.spares := rfl
@[simp] theorem modFe_mem (s : State) (k : Nat) (g : FrontEnd → FrontEnd) : (s.modFe k g).mem = s.mem := rfl
@[simp] theorem modFe_ctxs (s : State) (k : Nat) (g : FrontEnd → FrontEnd) : (s.modFe k g).ctxs = s.ctxs := rfl
@[simp] theorem modFe_pen (s : State) (k : Nat) (g : FrontEnd → FrontEnd) : (s.modFe k g).pen = s.pen := rfl
@[simp] theorem modFe_fab (s : State) (k : Nat) (g : FrontEnd → FrontEnd) : (s.modFe k g).fab = s.fab := rfl
@[simp] theorem modFe_coll (s : State) (k : Nat) (g : FrontEnd → FrontEnd) : (s.modFe k g).coll = s.coll := rfl
@[simp] theorem modFe_rbd (s : State) (k : Nat) (g : FrontEnd → FrontEnd) : (s.modFe k g).rbd = s.rbd := rfl
@[simp] theorem modFe_pwr (s : State) (k : Nat) (g : FrontEnd → FrontEnd) : (s.modFe k g).pwr = s.pwr := rfl
@[simp] theorem modFe_um (s : State) (k : Nat) (g : FrontEnd → FrontEnd) : (s.modFe k g).um = s.um := rfl
@[simp] theorem modFe_obs (s : State) (k : Nat) (g : FrontEnd → FrontEnd) : (s.modFe k g).obs = s.obs := rfl

/-! ## setSlot -/

@[simp] theorem setSlot_pending (s : State) (k : Nat) (x : Slot) : (s.setSlot k x).pending = s.pending := rfl
@[simp] theorem setSlot_freeCtr (s : State) (k : Nat) (x : Slot) : (s.setSlot k x).freeCtr = s.freeCtr := rfl
@[simp] theorem setSlot_out (s : State) (k : Nat) (x : Slot) : (s.setSlot k x).out = s.out := rfl
@[simp] theorem setSlot_sys (s : State) (k : Nat) (x : Slot) : (s.setSlot k x).sys = s.sys := rfl
@[simp] theorem setSlot_xl (s : State) (k : Nat) (x : Slot) : (s.setSlot k x).xl = s.xl := rfl
@[simp] theorem setSlot_cores (s : State) (k : Nat) (x : Slot) : (s.setSlot k x).cores = s.cores := rfl
@[simp] theorem setSlot_spares (s : State) (k : Nat) (x : Slot) : (s.setSlot k x).spares = s.spares := rfl
@[simp] theorem setSlot_mem (s : State) (k : Nat) (x : Slot) : (s.setSlot k x).mem = s.mem := rfl
@[simp] theorem setSlot_ctxs (s : State) (k : Nat) (x : Slot) : (s.setSlot k x).ctxs = s.ctxs := rfl
@[simp] theorem setSlot_fes (s : State) (k : Nat) (x : Slot) : (s.setSlot k x).fes = s.fes := rfl
@[simp] theorem setSlot_fab (s : State) (k : Nat) (x : Slot) : (s.setSlot k x).fab = s.fab := rfl
@[simp] theorem setSlot_coll (s : State) (k : Nat) (x : Slot) : (s.setSlot k x).coll = s.coll := rfl
@[simp] theorem setSlot_rbd (s : State) (k : Nat) (x : Slot) : (s.setSlot k x).rbd = s.rbd := rfl
@[simp] theorem setSlot_pwr (s : State) (k : Nat) (x : Slot) : (s.setSlot k x).pwr = s.pwr := rfl
@[simp] theorem setSlot_um (s : State) (k : Nat) (x : Slot) : (s.setSlot k x).um = s.um := rfl
@[simp] theorem setSlot_obs (s : State) (k : Nat) (x : Slot) : (s.setSlot k x).obs = s.obs := rfl

/-! ## emit -/

@[simp] theorem emit_pending (s : State) (o : Out) : (s.emit o).pending = s.pending := rfl
@[simp] theorem emit_freeCtr (s : State) (o : Out) : (s.emit o).freeCtr = s.freeCtr := rfl
@[simp] theorem emit_sys (s : State) (o : Out) : (s.emit o).sys = s.sys := rfl
@[simp] theorem emit_xl (s : State) (o : Out) : (s.emit o).xl = s.xl := rfl
@[simp] theorem emit_cores (s : State) (o : Out) : (s.emit o).cores = s.cores := rfl
@[simp] theorem emit_spares (s : State) (o : Out) : (s.emit o).spares = s.spares := rfl
@[simp] theorem emit_mem (s : State) (o : Out) : (s.emit o).mem = s.mem := rfl
@[simp] theorem emit_ctxs (s : State) (o : Out) : (s.emit o).ctxs = s.ctxs := rfl
@[simp] theorem emit_fes (s : State) (o : Out) : (s.emit o).fes = s.fes := rfl
@[simp] theorem emit_pen (s : State) (o : Out) : (s.emit o).pen = s.pen := rfl
@[simp] theorem emit_fab (s : State) (o : Out) : (s.emit o).fab = s.fab := rfl
@[simp] theorem emit_coll (s : State) (o : Out) : (s.emit o).coll = s.coll := rfl
@[simp] theorem emit_rbd (s : State) (o : Out) : (s.emit o).rbd = s.rbd := rfl
@[simp] theorem emit_pwr (s : State) (o : Out) : (s.emit o).pwr = s.pwr := rfl
@[simp] theorem emit_um (s : State) (o : Out) : (s.emit o).um = s.um := rfl
@[simp] theorem emit_obs (s : State) (o : Out) : (s.emit o).obs = s.obs := rfl

/-! ## setObj -/

@[simp] theorem setObj_pending (s : State) (i j v : Nat) : (s.setObj i j v).pending = s.pending := rfl
@[simp] theorem setObj_freeCtr (s : State) (i j v : Nat) : (s.setObj i j v).freeCtr = s.freeCtr := rfl
@[simp] theorem setObj_out (s : State) (i j v : Nat) : (s.setObj i j v).out = s.out := rfl
@[simp] theorem setObj_sys (s : State) (i j v : Nat) : (s.setObj i j v).sys = s.sys := rfl
@[simp] theorem setObj_xl (s : State) (i j v : Nat) : (s.setObj i j v).xl = s.xl := rfl
@[simp] theorem setObj_cores (s : State) (i j v : Nat) : (s.setObj i j v).cores = s.cores := rfl
@[simp] theorem setObj_spares (s : State) (i j v : Nat) : (s.setObj i j v).spares = s.spares := rfl
@[simp] theorem setObj_mem (s : State) (i j v : Nat) : (s.setObj i j v).mem = s.mem := rfl
@[simp] theorem setObj_ctxs (s : State) (i j v : Nat) : (s.setObj i j v).ctxs = s.ctxs := rfl
@[simp] theorem setObj_fes (s : State) (i j v : Nat) : (s.setObj i j v).fes = s.fes := rfl
@[simp] theorem setObj_pen (s : State) (i j v : Nat) : (s.setObj i j v).pen = s.pen := rfl
@[simp] theorem setObj_fab (s : State) (i j v : Nat) : (s.setObj i j v).fab = s.fab := rfl
@[simp] theorem setObj_coll (s : State) (i j v : Nat) : (s.setObj i j v).coll = s.coll := rfl
@[simp] theorem setObj_rbd (s : State) (i j v : Nat) : (s.setObj i j v).rbd = s.rbd := rfl
@[simp] theorem setObj_pwr (s : State) (i j v : Nat) : (s.setObj i j v).pwr = s.pwr := rfl
@[simp] theorem setObj_obs (s : State) (i j v : Nat) : (s.setObj i j v).obs = s.obs := rfl

/-! ## modCmd -/

@[simp] theorem modCmd_pending (s : State) (k : CmdKey) (g : Cmd → Cmd) : (s.modCmd k g).pending = s.pending := rfl
@[simp] theorem modCmd_freeCtr (s : State) (k : CmdKey) (g : Cmd → Cmd) : (s.modCmd k g).freeCtr = s.freeCtr := rfl
@[simp] theorem modCmd_out (s : State) (k : CmdKey) (g : Cmd → Cmd) : (s.modCmd k g).out = s.out := rfl
@[simp] theorem modCmd_sys (s : State) (k : CmdKey) (g : Cmd → Cmd) : (s.modCmd k g).sys = s.sys := rfl
@[simp] theorem modCmd_xl (s : State) (k : CmdKey) (g : Cmd → Cmd) : (s.modCmd k g).xl = s.xl := rfl
@[simp] theorem modCmd_cores (s : State) (k : CmdKey) (g : Cmd → Cmd) : (s.modCmd k g).cores = s.cores := rfl
@[simp] theorem modCmd_spares (s : State) (k : CmdKey) (g : Cmd → Cmd) : (s.modCmd k g).spares = s.spares := rfl
@[simp] theorem modCmd_mem (s : State) (k : CmdKey) (g : Cmd → Cmd) : (s.modCmd k g).mem = s.mem := rfl
@[simp] theorem modCmd_fes (s : State) (k : CmdKey) (g : Cmd → Cmd) : (s.modCmd k g).fes = s.fes := rfl
@[simp] theorem modCmd_pen (s : State) (k : CmdKey) (g : Cmd → Cmd) : (s.modCmd k g).pen = s.pen := rfl
@[simp] theorem modCmd_fab (s : State) (k : CmdKey) (g : Cmd → Cmd) : (s.modCmd k g).fab = s.fab := rfl
@[simp] theorem modCmd_coll (s : State) (k : CmdKey) (g : Cmd → Cmd) : (s.modCmd k g).coll = s.coll := rfl
@[simp] theorem modCmd_rbd (s : State) (k : CmdKey) (g : Cmd → Cmd) : (s.modCmd k g).rbd = s.rbd := rfl
@[simp] theorem modCmd_pwr (s : State) (k : CmdKey) (g : Cmd → Cmd) : (s.modCmd k g).pwr = s.pwr := rfl
@[simp] theorem modCmd_um (s : State) (k : CmdKey) (g : Cmd → Cmd) : (s.modCmd k g).um = s.um := rfl
@[simp] theorem modCmd_obs (s : State) (k : CmdKey) (g : Cmd → Cmd) : (s.modCmd k g).obs = s.obs := rfl

/-! ## modRun -/

@[simp] theorem modRun_pending (s : State) (k : CollKey) (g : CollRun → CollRun) : (s.modRun k g).pending = s.pending := rfl
@[simp] theorem modRun_freeCtr (s : State) (k : CollKey) (g : CollRun → CollRun) : (s.modRun k g).freeCtr = s.freeCtr := rfl
@[simp] theorem modRun_out (s : State) (k : CollKey) (g : CollRun → CollRun) : (s.modRun k g).out = s.out := rfl
@[simp] theorem modRun_sys (s : State) (k : CollKey) (g : CollRun → CollRun) : (s.modRun k g).sys = s.sys := rfl
@[simp] theorem modRun_xl (s : State) (k : CollKey) (g : CollRun → CollRun) : (s.modRun k g).xl = s.xl := rfl
@[simp] theorem modRun_cores (s : State) (k : CollKey) (g : CollRun → CollRun) : (s.modRun k g).cores = s.cores := rfl
@[simp] theorem modRun_spares (s : State) (k : CollKey) (g : CollRun → CollRun) : (s.modRun k g).spares = s.spares := rfl
@[simp] theorem modRun_mem (s : State) (k : CollKey) (g : CollRun → CollRun) : (s.modRun k g).mem = s.mem := rfl
@[simp] theorem modRun_ctxs (s : State) (k : CollKey) (g : CollRun → CollRun) : (s.modRun k g).ctxs = s.ctxs := rfl
@[simp] theorem modRun_fes (s : State) (k : CollKey) (g : CollRun → CollRun) : (s.modRun k g).fes = s.fes := rfl
@[simp] theorem modRun_pen (s : State) (k : CollKey) (g : CollRun → CollRun) : (s.modRun k g).pen = s.pen := rfl
@[simp] theorem modRun_fab (s : State) (k : CollKey) (g : CollRun → CollRun) : (s.modRun k g).fab = s.fab := rfl
@[simp] theorem modRun_rbd (s : State) (k : CollKey) (g : CollRun → CollRun) : (s.modRun k g).rbd = s.rbd := rfl
@[simp] theorem modRun_pwr (s : State) (k : CollKey) (g : CollRun → CollRun) : (s.modRun k g).pwr = s.pwr := rfl
@[simp] theorem modRun_um (s : State) (k : CollKey) (g : CollRun → CollRun) : (s.modRun k g).um = s.um := rfl
@[simp] theorem modRun_obs (s : State) (k : CollKey) (g : CollRun → CollRun) : (s.modRun k g).obs = s.obs := rfl

/-! ## A part after its own update -/

@[simp] theorem core_setCore (s : State) (L : Nat) (x : CoreState) : (s.setCore L x).core L = x := by
  simp [State.setCore, State.core, find_put]

theorem core_setCore_ne (s : State) (L j : Nat) (x : CoreState) (h : j ≠ L) : (s.setCore L x).core j = s.core j := by
  simp [State.setCore, State.core, find_put, Ne.symm h]

@[simp] theorem setCore_setCore (s : State) (L : Nat) (x y : CoreState) : (s.setCore L x).setCore L y = s.setCore L y := by
  simp [State.setCore, put_put]

@[simp] theorem ctx_setCtx (s : State) (c : Nat) (x : CtxState) : (s.setCtx c x).ctx c = x := by
  simp [State.setCtx, State.ctx, find_put]

theorem ctx_setCtx_ne (s : State) (c d : Nat) (x : CtxState) (h : d ≠ c) : (s.setCtx c x).ctx d = s.ctx d := by
  simp [State.setCtx, State.ctx, find_put, Ne.symm h]

@[simp] theorem ctx_modCtx (s : State) (c : Nat) (g : CtxState → CtxState) : (s.modCtx c g).ctx c = g (s.ctx c) := by
  simp [State.modCtx]

@[simp] theorem core_modCore (s : State) (L : Nat) (g : CoreState → CoreState) : (s.modCore L g).core L = g (s.core L) := by
  simp [State.modCore]

@[simp] theorem ring_modRing (s : State) (c n : Nat) (g : Ring → Ring) : (s.modRing c n g).ring c n = g (s.ring c n) := by
  simp [State.modRing, State.ring, CtxState.ring, CtxState.setRing]

@[simp] theorem stk_setStk (s : State) (n : Nat) (x : Stack) : (s.setStk n x).stk n = x := by simp [State.setStk, State.stk]

@[simp] theorem port_setPort (s : State) (p : Nat) (x : Port) : (s.setPort p x).port p = x := by simp [State.setPort, State.port]

@[simp] theorem fe_modFe (s : State) (k : Nat) (g : FrontEnd → FrontEnd) : (s.modFe k g).fe k = g (s.fe k) := by
  simp [State.modFe, State.fe]

@[simp] theorem slot_setSlot (s : State) (k : Nat) (x : Slot) : (s.setSlot k x).slot k = x := by simp [State.setSlot, State.slot]

theorem slot_setSlot_ne (s : State) (k j : Nat) (x : Slot) (h : k ≠ j) : (s.setSlot k x).slot j = s.slot j := by
  simp [State.setSlot, State.slot, get_put_ne, h]

@[simp] theorem obj_setObj (s : State) (i j v : Nat) : (s.setObj i j v).obj i j = v := by simp [State.setObj, State.obj]

/-- A core that has its place in the state reads the same memories after an update of another core. -/
theorem core_modCore_ne (s : State) (L j : Nat) (g : CoreState → CoreState) (h : j ≠ L) : (s.modCore L g).core j = s.core j :=
  core_setCore_ne s L j _ h

end Sys2Proof.Laws
end

