-- ==== Sys2Proof/Laws/Issue.lean ====
section
/-! SUPPORT. What the issue of a tile instruction does once nothing holds it: one lemma per shared operation of the sequencer. -/

namespace Sys2Proof.Laws
open Sys2Proof Sys2Proof.Machine Sys2Proof.Claim

/-- What moving on reads of a core. -/
def seqKey (cs : CoreState) : Option TaskInfo × Option (BitVec 16) × Nat := (cs.task, cs.ended, cs.pc)

/-- With nothing that stops it at the front, the instruction goes on to its operands. -/
theorem front_go (s : State) (L cls opc : Nat) (f : TileFields) (ok : Bool) (u p) (go : State → State)
    (hok : ok = true) (h : ready s L cls opc f u p) : s.front L (tileWord cls opc f) f ok go = go s := by
  obtain ⟨⟨h1, h2, h3, h4, h5⟩, hr, ⟨t, ht, hpc⟩, -⟩ := h
  subst hok
  unfold State.front
  simp only [h2, h3, h4, h5]
  simp
  have hp : (peBit f = false → ¬ pnBit f = true) ∧ (peBit f = true → (s.core L).pPend = false) ∧ (peBit f = true → ¬ (s.core L).p = pnBit f) := by
    rcases hr with ⟨a, b⟩ | ⟨a, b, c⟩ <;> simp_all
  have hpn : ¬ (peBit f = false ∧ pnBit f = true) := fun hh => hp.1 hh.1 hh.2
  have hpp : ¬ (peBit f = true ∧ (s.core L).pPend = true) := fun hh => by simp [hp.2.1 hh.1] at hh
  have hpq : ¬ (peBit f = true ∧ (s.core L).p = pnBit f) := fun hh => hp.2.2 hh.1 hh.2
  simp only [hpn, hpp, hpq, if_false]

/-- With nothing that holds its operands, the instruction goes on. -/
theorem operands_go (s : State) (L : Nat) (u : TUnit) (p : Plan) (go : State → State) (h : unheld (s.core L) u p) :
    s.operands L u p go = go s := by
  obtain ⟨hu1, hu2, hu3, hu4, hu5, hu6⟩ := h
  have e1 : (p.aUse.any fun r => (s.core L).aPend.contains r) = false := by
    simp only [List.any_eq_false]; intro r hr'; simpa using hu1 r hr'
  have e2 : (p.ctl.any (s.core L).Ap) = false := by
    simp only [List.any_eq_false]; intro r hr'; simpa using hu2 r hr'
  have e4 : (u != .seq && decide (16 ≤ (s.core L).queued u)) = false := by
    by_cases hs : u = .seq
    · simp [hs]
    · have := hu4 hs; simp; intro _; omega
  unfold State.operands
  simp only [e1, e2, hu3, e4, hu5, hu6]
  simp

/-- An instruction of a unit that is ready enters its queue, acts, and PC moves on. -/
theorem issue_go (s : State) (L cls opc : Nat) (f : TileFields) (ok : Bool) (u : TUnit) (plan : State → Plan) (act : State → State)
    (hok : ok = true) (h : ready s L cls opc f u (plan s)) :
    s.issue L cls opc f ok u plan act = (act (entered s L u (plan s))).advance L := by
  unfold State.issue
  rw [front_go s L cls opc f ok u (plan s) _ hok h]
  exact operands_go s L u (plan s) _ h.2.2.2

/-- A control instruction that is ready acts. -/
theorem issueCtl_go (s : State) (L opc : Nat) (f : TileFields) (ok : Bool) (plan : State → Plan) (act : State → State)
    (hok : ok = true) (h : readyCtl s L opc f (plan s)) :
    s.issueCtl L opc f ok plan act = act (s.modCore L CoreState.issued) := by
  unfold State.issueCtl
  rw [front_go s L 5 opc f ok .seq (plan s) _ hok h]
  exact operands_go s L .seq (plan s) _ h.2.2.2

/-- A task whose instruction is ready has not ended. -/
theorem ready_ended {s L cls opc f u p} (h : ready s L cls opc f u p) : (s.core L).ended = none := by
  have h2 := h.1.2.1; simp [State.issuing] at h2; simpa using h2.1.1.1.2

/-- PC moves to the next instruction of the code. -/
theorem advance_eq (s : State) (L : Nat) (k : TaskInfo) (ht : (s.core L).task = some k) (he : (s.core L).ended = none)
    (hpc : (s.core L).pc + 1 < k.codeLen) : s.advance L = s.setCore L { s.core L with pc := (s.core L).pc + 1 } := by
  unfold State.advance State.goto
  rw [ht]; simp only [he]
  have : ¬ (((s.core L).pc : Int) + 1 < 0 ∨ (k.codeLen : Int) ≤ (s.core L).pc + 1) := by omega
  have e : (((s.core L).pc : Int) + 1).toNat = (s.core L).pc + 1 := by omega
  simp only [this, State.modCore, e, if_false]; simp [he]

/-- A control instruction whose effect keeps the task acts, and PC moves on. -/
theorem seqOp_eq (s : State) (L : Nat) (g : CoreState → CoreState) (k : TaskInfo) (hk : seqKey (g (s.core L)) = seqKey (s.core L))
    (ht : (s.core L).task = some k) (he : (s.core L).ended = none) (hpc : (s.core L).pc + 1 < k.codeLen) :
    State.seqOp L g s = s.setCore L { g (s.core L) with pc := (s.core L).pc + 1 } := by
  simp [seqKey] at hk
  unfold State.seqOp
  rw [advance_eq _ L k (by simp [State.modCore, hk, ht]) (by simp [State.modCore, hk, he]) (by simp [State.modCore, hk, hpc])]
  simp [State.modCore, hk]

/-- The same, from its issue. -/
theorem ctl_seq (s : State) (L opc : Nat) (f : TileFields) (ok : Bool) (plan : State → Plan) (g : CoreState → CoreState)
    (hok : ok = true) (h : readyCtl s L opc f (plan s)) (hk : ∀ cs, seqKey (g cs) = seqKey cs) :
    s.issueCtl L opc f ok plan (State.seqOp L g) = s.setCore L { g (s.core L).issued with pc := (s.core L).pc + 1 } := by
  rw [issueCtl_go s L opc f ok plan _ hok h]
  obtain ⟨k, ht, hpc⟩ := h.2.2.1
  rw [seqOp_eq _ L g k (hk _) (by simp only [State.modCore, core_setCore]; exact ht) (by simp only [State.modCore, core_setCore]; exact ready_ended h) (by simp only [State.modCore, core_setCore]; exact hpc)]
  simp only [State.modCore, core_setCore, setCore_setCore]; rfl

/-- A row of CTL that only writes registers, from its meaning. -/
theorem ctlRow_of {mk opc ok plan act} (act' : Nat → TileFields → CoreState → CoreState)
    (he : ∀ L f s, exec (mk L f) s = onCore L s (fun s => s.issueCtl L opc f (ok f) (fun s => plan f (s.core L)) (State.seqOp L (act' L f))))
    (ha : ∀ L f cs, act' L f cs = act f cs) (hk : ∀ f cs, seqKey (act f cs) = seqKey cs) : ctlRow mk opc ok plan act := by
  intro s L f hok h
  rw [he]
  simp only [onCore, h.1.1, if_true]
  congr 1
  rw [ctl_seq s L opc f (ok f) (fun s => plan f (s.core L)) (act' L f) hok h (fun cs => by rw [ha]; exact hk f cs)]
  rw [ha]

/-- An effect on a core that keeps its task, its end and its PC. -/
def keeps (g : CoreState → CoreState) : Prop := ∀ cs, (g cs).task = cs.task ∧ (g cs).ended = cs.ended ∧ (g cs).pc = cs.pc

/-- An instruction whose effect lies in its core leaves `after`. -/
theorem issue_after (s : State) (L cls opc : Nat) (f : TileFields) (ok : Bool) (u : TUnit) (plan : State → Plan) (act : CoreState → CoreState)
    (hok : ok = true) (h : ready s L cls opc f u (plan s)) (hk : keeps act) :
    s.issue L cls opc f ok u plan (fun s => s.modCore L act) = after s L u (plan s) act := by
  obtain ⟨⟨h1, h2, h3, h4, h5⟩, hr, ⟨t, ht, hpc⟩, hu1, hu2, hu3, hu4, hu5, hu6⟩ := h
  subst hok
  have e1 : ((plan s).aUse.any fun r => (s.core L).aPend.contains r) = false := by
    simp only [List.any_eq_false]; intro r hr'; simpa using hu1 r hr'
  have e2 : ((plan s).ctl.any (s.core L).Ap) = false := by
    simp only [List.any_eq_false]; intro r hr'; simpa using hu2 r hr'
  have e4 : (u != .seq && decide (16 ≤ (s.core L).queued u)) = false := by
    by_cases hs : u = .seq
    · simp [hs]
    · have := hu4 hs; simp; intro _; omega
  have hend : (s.core L).ended = none := by
    simp [State.issuing] at h2; simpa using h2.1.1.1.2
  unfold State.issue State.front
  simp only [h2, h3, h4, h5]
  simp
  have hp : (peBit f = false → ¬ pnBit f = true) ∧ (peBit f = true → (s.core L).pPend = false) ∧ (peBit f = true → ¬ (s.core L).p = pnBit f) := by
    rcases hr with ⟨a, b⟩ | ⟨a, b, c⟩ <;> simp_all
  have hpn : ¬ (peBit f = false ∧ pnBit f = true) := fun hh => hp.1 hh.1 hh.2
  have hpp : ¬ (peBit f = true ∧ (s.core L).pPend = true) := fun hh => by simp [hp.2.1 hh.1] at hh
  have hpq : ¬ (peBit f = true ∧ (s.core L).p = pnBit f) := fun hh => hp.2.2 hh.1 hh.2
  simp only [hpn, hpp, hpq, if_false]
  unfold State.operands
  simp only [e1, e2, hu3, e4, hu5, hu6]
  simp
  obtain ⟨k1, k2, k3⟩ := hk ((s.core L).issued.push u (plan s))
  have i1 : ((s.core L).issued.push u (plan s)).task = (s.core L).task := rfl
  have i2 : ((s.core L).issued.push u (plan s)).ended = (s.core L).ended := rfl
  have i3 : ((s.core L).issued.push u (plan s)).pc = (s.core L).pc := rfl
  unfold State.advance State.goto
  simp only [State.modCore, core_setCore, setCore_setCore, k1, k2, k3, i1, i2, i3, ht, hend]
  simp only [Option.isSome_none, Bool.false_eq_true, if_false]
  have : ¬ (((s.core L).pc : Int) + 1 < 0 ∨ (t.codeLen : Int) ≤ (s.core L).pc + 1) := by omega
  simp only [this, if_false]
  unfold after
  rw [← hend] 
  generalize act ((s.core L).issued.push u (plan s)) = X at k1 k2 k3 ⊢
  have e : ((s.core L).pc : Int) + 1 = (((s.core L).pc + 1 : Nat) : Int) := by push_cast; rfl
  cases X
  simp only [e, Int.toNat_natCast] at *
  subst k1 k2 k3
  simp [ht, i1, i2, hend]

theorem note_keeps (st : Status) : keeps (fun cs => cs.note st) := by
  intro cs
  simp only [CoreState.note]
  split <;> exact ⟨rfl, rfl, rfl⟩

theorem vecPair_keeps (r k : Nat) : keeps (fun cs => cs.vecPair r k) := by
  intro cs
  simp only [CoreState.vecPair]
  split
  · exact ⟨rfl, rfl, rfl⟩
  · rename_i n _
    by_cases h : n = 1
    · simp only [h, if_true]
      obtain ⟨a, b, c⟩ := note_keeps St.okCorr { cs with vErr := Tab.del cs.vErr (r * 32 + k) }
      exact ⟨a, b, c⟩
    · simp only [h, if_false, CoreState.poisonRead, CoreState.poisoned, CoreState.setSticky]
      generalize hx : CoreState.note _ St.uncorrectable = x
      obtain ⟨a, b, c⟩ := note_keeps St.uncorrectable
        { cs with vErr := Tab.del cs.vErr (r * 32 + k), vPoison := Tab.put cs.vPoison r (cs.vpois r ||| (3#64 <<< (2 * k))) }
      obtain ⟨d, e, f⟩ := note_keeps St.poison { x with sticky := x.sticky ||| (1#6 <<< 4), firm := x.firm ||| (1#6 <<< 4) }
      subst hx
      exact ⟨d.trans a, e.trans b, f.trans c⟩

theorem foldl_keeps {α : Type} (g : CoreState → α → CoreState) (h : ∀ a, keeps (fun cs => g cs a)) (l : List α) :
    keeps (fun cs => l.foldl g cs) := by
  induction l with
  | nil => exact fun cs => ⟨rfl, rfl, rfl⟩
  | cons a l ih =>
    intro cs
    obtain ⟨x, y, z⟩ := ih (g cs a)
    obtain ⟨x', y', z'⟩ := h a cs
    exact ⟨x.trans x', y.trans y', z.trans z'⟩

/-- Reading the vector register file keeps the task, its end and its PC. -/
theorem vecEcc_keeps (opc : Nat) (f : TileFields) : keeps (fun cs => cs.vecEcc opc f) := by
  intro cs
  simp only [CoreState.vecEcc]
  split
  · exact ⟨rfl, rfl, rfl⟩
  · exact foldl_keeps (fun (cs : CoreState) (e : Nat × Nat) => cs.vecPair e.1 e.2) (fun e => vecPair_keeps e.1 e.2) (cs.pairsRead opc f) cs

/-- A row of VEC, from its meaning. -/
theorem vecRow_of {mk opc ok plan act} (he : ∀ L f s, exec (mk L f) s = onCore L s (fun s => s.issueVec L opc f (ok f) (plan f) (act f)))
    (hk : ∀ f, keeps (act f)) : vecRow mk opc ok plan act := by
  intro s L f hok h
  rw [he]
  simp only [onCore, h.1.1, if_true, State.issueVec]
  congr 1
  exact issue_after s L 2 opc f (ok f) .vec (fun s => plan f (s.core L)) (fun cs => act f ((cs.vxuStart opc false).vecEcc opc f)) hok h
    (fun cs => by
      obtain ⟨a, b, c⟩ := hk f ((cs.vxuStart opc false).vecEcc opc f)
      obtain ⟨d, e, g⟩ := vecEcc_keeps opc f (cs.vxuStart opc false)
      exact ⟨a.trans (d.trans rfl), b.trans (e.trans rfl), c.trans (g.trans rfl)⟩)

end Sys2Proof.Laws
end

