-- ==== Sys2Proof/Laws/Ops.lean ====
section
/-! SUPPORT. What the shared operations do once their conditions hold: one lemma each, which a proof cites instead of unfolding. -/

namespace Sys2Proof.Laws
open Sys2Proof Sys2Proof.Machine Sys2Proof.Claim

/-! ## The units of the module -/

theorem onCore_eq {L : Nat} (h : coreOk L = true) (s : State) (g : State → State) : onCore L s g = .next (g s) := by simp [onCore, h]
theorem onCtx_eq {c : Nat} (h : ctxOk c = true) (s : State) (g : State → State) : onCtx c s g = .next (g s) := by simp [onCtx, h]
theorem onStack_eq {n : Nat} (h : stackOk n = true) (s : State) (g : State → State) : onStack n s g = .next (g s) := by simp [onStack, h]
theorem onPortIn_eq {p : Nat} (h : portInOk p = true) (s : State) (g : State → State) : onPortIn p s g = .next (g s) := by
  simp [onPortIn, h]
theorem onPort_eq {p : Nat} (h : portOk p = true) (s : State) (g : State → State) : onPort p s g = .next (g s) := by simp [onPort, h]
theorem onIod_eq {k : Nat} (h : iodOk k = true) (s : State) (g : State → State) : onIod k s g = .next (g s) := by simp [onIod, h]
theorem onCd_eq {d : Nat} (h : cdOk d = true) (s : State) (g : State → State) : onCd d s g = .next (g s) := by simp [onCd, h]
theorem onDie_eq {d : Nat} (h : dieOk d = true) (s : State) (g : State → State) : onDie d s g = .next (g s) := by simp [onDie, h]
theorem onRing_eq {c n : Nat} (hc : ctxOk c = true) (hn : ringOk n = true) (s : State) (g : State → State) :
    onRing c n s g = .next (g s) := by simp [onRing, hc, hn]
theorem onKey_eq {k : CmdKey} (hc : ctxOk k.c = true) (hq : (ringOk k.q || k.q == 15) = true) (s : State) (g : State → State) :
    onKey k s g = .next (g s) := by simp [onKey, hc, hq]
theorem onPath_eq {p : UmPath} (h : ∀ c, p = .svc c → ctxOk c = true) (s : State) (g : State → State) : onPath p s g = .next (g s) := by
  unfold onPath; cases p <;> simp_all [onCtx]

/-! ## Commands, collectives, packets -/

/-- A command that may act acts. -/
theorem actCmd_eq {s : State} {k : CmdKey} {op : Nat} {m : Cmd} (h : mayAct s k op m) (go : Cmd → State → State) :
    s.actCmd k op go = go m (acting s k) := by
  obtain ⟨h1, h2, h3, h4, h5, h6, h7, h8⟩ := h
  simp [State.actCmd, h3, h4, h5, h6, h7, h8, acting]

/-- An event of a running collective happens. -/
theorem onRun_eq {s : State} {k : CollKey} {r : CollRun} (h : running s k r) (g : CollRun → State → State) : s.onRun k g = g r s := by
  obtain ⟨h1, h2, h3, h4⟩ := h
  simp [State.onRun, h2, h3, h4]

/-- The work of an operation of a running collective happens. -/
theorem onOp_eq {s : State} {k : CollKey} {op : Nat} {r : CollRun} (h : working s k op r) (g : CollRun → State → State) :
    s.onOp k op g = g r s := by
  unfold State.onOp; rw [onRun_eq h.1]; simp [h.2.1, h.2.2]

/-- No wake event does anything to a module that is active (R316). -/
@[simp] theorem wakeBy_active {s : State} (h : s.pwr.state = 0) (c : Nat) : s.wakeBy c = s := by simp [State.wakeBy, h]

/-- A group that is on is not woken (R310). -/
@[simp] theorem wakeEngine_on {s : State} {k : Nat} (h : Tab.get .on s.pwr.engines k = .on) : s.wakeEngine k = s := by
  simp [State.wakeEngine, h]

/-- A packet of the right type for this module is taken. -/
theorem ingress_eq {s : State} {p ty : Nat} {pk : List Byte} (h : arrives s p ty pk) (g : State → State) : s.ingress p ty pk g = g (s.taken p ty pk) := by
  obtain ⟨h1, h2, h3, h4, h5, h6, h7⟩ := h
  simp [State.ingress, State.arrive, h2, h3, h4, h5, h6, h7]

/-! ## The management controller -/

/-- An accepted write acts and is answered. -/
theorem umTry_eq {s : State} {rq : Req} {idx sub v : Nat} (h : accepts s rq idx sub v) (a : Act) :
    s.umTry rq idx sub v a = (a s).2.answerTo rq.path (a s).1 := by
  simp [State.umTry, h.1, h.2]

/-- A request that no check stops is served. -/
theorem serve_eq {s : State} {p : UmPath} {op : Nat} {rq : UmReq} {rest : List UmReq} (h : serves s p op rq rest)
    (mine : List Byte → Bool) (hm : mine rq.bs = true) (g : UmReq → State → Option Rsp × State) :
    s.serve p mine g = (match (g rq (taken s p rq rest)).1 with
      | some x => (g rq (taken s p rq rest)).2.reply rq x
      | none => (g rq (taken s p rq rest)).2) := by
  obtain ⟨h1, h2, h3, h4, h5, h6, h7⟩ := h
  unfold State.serve
  simp only [h2, h3, hm, h4, h7, taken]
  simp <;> rfl

/-! ## Pennants -/

/-- Strikers served keep a slot's kind, and a counting slot stays full exactly while its value is not 0 (R174). -/
theorem serveStrikers_kind (n : Nat) : ∀ (x : Slot) (l : List (Waiter × BitVec 48)), (serveStrikers n x l).1.k = x.k ∧
    (x.k = true → (x.f = true ↔ x.value ≠ 0) → ((serveStrikers n x l).1.f = true ↔ (serveStrikers n x l).1.value ≠ 0)) := by
  induction n with
  | zero => intro x l; exact ⟨rfl, fun _ h => h⟩
  | succ n ih =>
    intro x l; unfold serveStrikers
    split
    · exact ⟨rfl, fun _ h => h⟩
    · split
      · rename_i w _ _
        exact ⟨(ih _ _).1.trans (by unfold Slot.consume; split <;> rfl),
          fun hk hf => (ih _ _).2 (by unfold Slot.consume; simp [hk]) (by unfold Slot.consume; simp [hk])⟩
      · exact ⟨rfl, fun _ h => h⟩

end Sys2Proof.Laws
end

