-- ==== Sys2Proof/Tests/Slice0.lean ====
section
/-! SUPPORT. Tests: each check of well-formedness refuses an ill-formed term; small cases whose results are worked out from the spec; and for
each statement of the obligations states and operands that meet its hypotheses. -/

namespace Sys2Proof.Tests

-- Each proof before the next, so that no more threads wait than the memory allows.
set_option Elab.async false
open Sys2Proof Sys2Proof.Machine Sys2Proof.Claim

/-! ## Well-formedness -/

theorem test_core_320_refused : Instr.wf (.taskStart 320) = false ∧ Instr.wf (.taskStart 319) = true := by decide
theorem test_context_16_refused : Instr.wf (.contextReset 16) = false ∧ Instr.wf (.contextReset 15) = true := by decide
theorem test_stack_24_refused : Instr.wf (.stackRetrain 24) = false ∧ Instr.wf (.stackRetrain 23) = true := by decide
theorem test_port_76_refused : Instr.wf (.portQuietEntry 76) = false ∧ Instr.wf (.portQuietEntry 75) = true := by decide
theorem test_iod_4_refused : Instr.wf (.commandStart 4) = false ∧ Instr.wf (.commandStart 3) = true := by decide
theorem test_compute_die_8_refused : Instr.wf (.dieLinkFailure 8 0) = false ∧ Instr.wf (.dieLinkFailure 7 3) = true := by decide
theorem test_die_12_refused : Instr.wf (.dieTempReading 12 0) = false ∧ Instr.wf (.dieTempReading 11 0) = true := by decide
theorem test_ring_4_refused : Instr.wf (.doorbell 0 4 0) = false ∧ Instr.wf (.doorbell 0 3 0) = true := by decide
theorem test_collective_packet_port_77_refused : Instr.wf (.chunkAck ⟨77, false, 0, 0, 0, 0, 0⟩ ⟨0, 0⟩) = false ∧
    Instr.wf (.abort ⟨0, false, 0, 16, 0, 0, 0⟩ 0 0) = false ∧ Instr.wf (.abort ⟨0, false, 0, 15, 0, 0, 0⟩ 0 0) = true := by decide
theorem test_partition_4_refused : Instr.wf (.autoSpill 0 4) = false ∧ Instr.wf (.autoSpill 0 3) = true := by decide
theorem test_destination_0_and_5_refused : Instr.wf (.event 0) = false ∧ Instr.wf (.event 5) = false ∧ Instr.wf (.event 4) = true := by decide
theorem test_queue_4_refused : Instr.wf (.nop ⟨0, 4, 0⟩) = false ∧ Instr.wf (.nop ⟨0, 15, 0⟩) = true ∧ Instr.wf (.nop ⟨16, 0, 0⟩) = false := by decide
theorem test_path_context_16_refused : Instr.wf (.read (.svc 16)) = false ∧ Instr.wf (.read (.svc 15)) = true := by decide
theorem test_function_16_refused : Instr.wf (.registerWrite (.host 16) 0 4 0) = false ∧ Instr.wf (.registerWrite .firmware 0 4 0) = true := by decide

/-! ## States of the tests -/

/-- The module in operation: bring-up over, the link up, 15 virtual functions. -/
def up : State := { State.reset with
  sys.step := 6
  sys.ready := 4
  sys.booting := false
  sys.fillDone := true
  sys.trainDone := true
  sys.fabDone := true
  sys.regulators := true
  sys.pllLock := 0x1FFF
  sys.pcieConfigured := true
  sys.linkUp := true
  sys.numVfs := 15
  mem.errFree := true }

/-- A word's fields, from the lowest bit and the value of each. -/
def fieldsOf (l : List (Nat × Nat)) : TileFields := BitVec.ofNat 116 (l.foldl (fun n e => n + e.2 * 2 ^ e.1) 0)

/-- A task of command 0 in ring 0 of context 0, with code of 8 instructions. -/
def aTask : TaskInfo := ⟨⟨0, 0, 0⟩, 0, 0, 0, 0, 8, 0, 0, 0, 0, 1⟩

/-- The module with that task on core 0, which has come to the word w. -/
def onTask (w : TileWord) : State := up.modCore 0 (fun cs => { cs with task := some aTask, code := [(0, w)] })

/-- The same, with a word of its class, opcode and fields. -/
def tileAt (cls opc : Nat) (f : TileFields) : State := onTask (tileWord cls opc f)

/-- The conditions under which a word issues, as a check. -/
def readyB (s : State) (L cls opc : Nat) (f : TileFields) (u : TUnit) (p : Plan) : Bool :=
  coreOk L && s.issuing L && (Tab.get 0 (s.core L).code (s.core L).pc == tileWord cls opc f) && !(s.core L).acqHold
    && (Tab.get 0 (s.core L).imemErr (s.core L).pc == 0) && ((!peBit f && !pnBit f) || (peBit f && !(s.core L).pPend && (s.core L).p != pnBit f))
    && (match (s.core L).task with
      | some t => decide ((s.core L).pc + 1 < t.codeLen)
      | none => false)
    && p.aUse.all (fun r => !(s.core L).aPend.contains r) && p.ctl.all (fun r => !(s.core L).Ap r) && p.check.isNone
    && (u == .seq || decide ((s.core L).queued u < 16)) && !(s.core L).conflict p && !p.hold

theorem ready_of {s : State} {L cls opc : Nat} {f : TileFields} {u : TUnit} {p : Plan} (h : readyB s L cls opc f u p = true) :
    ready s L cls opc f u p := by
  simp only [readyB, Bool.and_eq_true, Bool.or_eq_true, Bool.not_eq_true', beq_iff_eq, bne_iff_ne, List.all_eq_true, decide_eq_true_eq,
    Option.isNone_iff_eq_none] at h
  obtain ⟨⟨⟨⟨⟨⟨⟨⟨⟨⟨⟨⟨h1, h2⟩, h3⟩, h4⟩, h5⟩, h6⟩, h7⟩, h8⟩, h9⟩, h10⟩, h11⟩, h12⟩, h13⟩ := h
  refine ⟨⟨h1, h2, h3, h4, h5⟩, ?_, ?_, ?_, ?_, h10, ?_, h12, h13⟩
  · rcases h6 with h6 | h6
    · exact Or.inl h6
    · exact Or.inr ⟨h6.1.1, h6.1.2, h6.2⟩
  · cases ht : (s.core L).task with
    | none => simp [ht] at h7
    | some t => exact ⟨t, ht, by simpa [ht] using h7⟩
  · intro r hr; simpa using h8 r hr
  · intro r hr; simpa using h9 r hr
  · intro hu; exact h11.resolve_left hu

/-- What a row of tile instructions supposes, met by the word with fields f. -/
def Met (cls opc : Nat) (u : TUnit) (ok : TileFields → Bool) (plan : TileFields → CoreState → Plan) (f : TileFields) : Prop :=
  ok f = true ∧ ready (tileAt cls opc f) 0 cls opc f u (plan f ((tileAt cls opc f).core 0))

theorem met_of {cls opc : Nat} {u : TUnit} {ok : TileFields → Bool} {plan : TileFields → CoreState → Plan} {f : TileFields}
    (h1 : ok f = true) (h2 : readyB (tileAt cls opc f) 0 cls opc f u (plan f ((tileAt cls opc f).core 0)) = true) :
    Met cls opc u ok plan f := ⟨h1, ready_of h2⟩

/-- The rows of VecArithmeticCompletes. -/
theorem witness_VecArithmeticCompletes :
    Met 2 0x08 .vec (fun f => vecOk (useBin etArith) f) (fun _ => noPlan) (fieldsOf [(84, 7), (107, 31), (102, 31), (97, 30)]) ∧
    Met 2 0x09 .vec (fun f => vecOk (useBin etArith) f) (fun _ => noPlan) (fieldsOf [(84, 9), (113, 1), (0, 4294967295)]) ∧
    Met 2 0x0A .vec (fun f => vecOk (useBin etArith) f) (fun _ => noPlan) (fieldsOf [(84, 4)]) ∧
    Met 2 0x0B .vec (fun f => vecOk { useBin etFp with vc := true } f) (fun _ => noPlan) (fieldsOf [(84, 4)]) ∧
    Met 2 0x0C .vec (fun f => vecOk (useBin etArith) f) (fun _ => noPlan) (fieldsOf [(84, 4)]) ∧
    Met 2 0x0D .vec (fun f => vecOk (useBin etArith) f) (fun _ => noPlan) (fieldsOf [(84, 4)]) ∧
    Met 2 0x0E .vec (fun f => vecOk (useUn etSigned) f) (fun _ => noPlan) (fieldsOf [(84, 7)]) ∧
    Met 2 0x0F .vec (fun f => vecOk (useUn etSigned) f) (fun _ => noPlan) (fieldsOf [(84, 7)]) ∧
    Met 2 0x25 .vec (fun f => vecOk (useBin etFp) f) (fun _ => noPlan) (fieldsOf [(84, 4)]) ∧
    Met 2 0x26 .vec (fun f => vecOk (useUn etFp) f) (fun _ => noPlan) (fieldsOf [(84, 4)]) :=
  ⟨met_of (by decide +kernel) (by decide +kernel),
    met_of (by decide +kernel) (by decide +kernel),
    met_of (by decide +kernel) (by decide +kernel),
    met_of (by decide +kernel) (by decide +kernel),
    met_of (by decide +kernel) (by decide +kernel),
    met_of (by decide +kernel) (by decide +kernel),
    met_of (by decide +kernel) (by decide +kernel),
    met_of (by decide +kernel) (by decide +kernel),
    met_of (by decide +kernel) (by decide +kernel),
    met_of (by decide +kernel) (by decide +kernel)⟩

/-- The rows of VecTranscendentalCompletes. -/
theorem witness_VecTranscendentalCompletes :
    Met 2 0x20 .vec (fun f => vecOk (useUn etFp) f) (fun _ => noPlan) (fieldsOf [(84, 4)]) ∧
    Met 2 0x21 .vec (fun f => vecOk (useUn etFp) f) (fun _ => noPlan) (fieldsOf [(84, 4)]) ∧
    Met 2 0x22 .vec (fun f => vecOk (useUn etFp) f) (fun _ => noPlan) (fieldsOf [(84, 4)]) ∧
    Met 2 0x23 .vec (fun f => vecOk (useUn etFp) f) (fun _ => noPlan) (fieldsOf [(84, 4)]) ∧
    Met 2 0x24 .vec (fun f => vecOk (useUn etFp) f) (fun _ => noPlan) (fieldsOf [(84, 4)]) :=
  ⟨met_of (by decide +kernel) (by decide +kernel),
    met_of (by decide +kernel) (by decide +kernel),
    met_of (by decide +kernel) (by decide +kernel),
    met_of (by decide +kernel) (by decide +kernel),
    met_of (by decide +kernel) (by decide +kernel)⟩

/-- The rows of VecBitwiseCompletes. -/
theorem witness_VecBitwiseCompletes :
    Met 2 0x10 .vec (fun f => vecOk (useBin etAny) f) (fun _ => noPlan) (fieldsOf [(84, 4)]) ∧
    Met 2 0x11 .vec (fun f => vecOk (useBin etAny) f) (fun _ => noPlan) (fieldsOf [(84, 4)]) ∧
    Met 2 0x12 .vec (fun f => vecOk (useBin etAny) f) (fun _ => noPlan) (fieldsOf [(84, 4)]) ∧
    Met 2 0x13 .vec (fun f => vecOk (useBin etInt) f) (fun _ => noPlan) (fieldsOf [(84, 7)]) ∧
    Met 2 0x14 .vec (fun f => vecOk (useBin etInt) f) (fun _ => noPlan) (fieldsOf [(84, 9)]) ∧
    Met 2 0x15 .vec (fun f => vecOk (useBin etInt) f) (fun _ => noPlan) (fieldsOf [(84, 7)]) ∧
    Met 2 0x16 .vec (fun f => vecOk { useBin etAny with mu := false } f) (fun _ => noPlan) (fieldsOf [(84, 4)]) ∧
    Met 2 0x04 .vec (fun f => vecOk { vd := .vec, z := true, ms := true, mu := true, ar := true, ets := etArith } f) (fun f => fun _ => { aUse := [vAR f] }) (fieldsOf [(84, 4)]) ∧
    Met 2 0x05 .vec (fun f => vecOk { vd := .vec, z := true, ms := true, mu := true, ets := etInt, imm := 0xFFFFFFFF } f) (fun _ => noPlan) (fieldsOf [(84, 9), (0, 4294967295)]) :=
  ⟨met_of (by decide +kernel) (by decide +kernel),
    met_of (by decide +kernel) (by decide +kernel),
    met_of (by decide +kernel) (by decide +kernel),
    met_of (by decide +kernel) (by decide +kernel),
    met_of (by decide +kernel) (by decide +kernel),
    met_of (by decide +kernel) (by decide +kernel),
    met_of (by decide +kernel) (by decide +kernel),
    met_of (by decide +kernel) (by decide +kernel),
    met_of (by decide +kernel) (by decide +kernel)⟩

/-- The rows of VecMaskCompletes. -/
theorem witness_VecMaskCompletes :
    Met 2 0x18 .vec (fun f => vecOk { useBin etArith with vd := .mask, sb := false, imm := 7 } f && vIMM f != 7) (fun _ => noPlan) (fieldsOf [(84, 6), (107, 7), (0, 6)]) ∧
    Met 2 0x19 .vec (fun f => vecOk useMask2 f) (fun _ => noPlan) (fieldsOf [(107, 7), (102, 6), (97, 5)]) ∧
    Met 2 0x1A .vec (fun f => vecOk useMask2 f) (fun _ => noPlan) (fieldsOf [(107, 7)]) ∧
    Met 2 0x1B .vec (fun f => vecOk useMask2 f) (fun _ => noPlan) (fieldsOf [(107, 7)]) ∧
    Met 2 0x1C .vec (fun f => vecOk { vd := .mask, va := .mask } f) (fun _ => noPlan) (fieldsOf [(107, 7)]) ∧
    Met 2 0x1D .vec (fun f => vecOk useMaskA f) (fun f => fun _ => { aUse := [vAR f], aDst := some (vAR f) }) (fieldsOf [(84, 9), (74, 15)]) ∧
    Met 2 0x1E .vec (fun f => vecOk useMaskA f) (fun f => fun _ => { aUse := [vAR f], aDst := some (vAR f) }) (fieldsOf [(84, 0), (74, 15)]) :=
  ⟨met_of (by decide +kernel) (by decide +kernel),
    met_of (by decide +kernel) (by decide +kernel),
    met_of (by decide +kernel) (by decide +kernel),
    met_of (by decide +kernel) (by decide +kernel),
    met_of (by decide +kernel) (by decide +kernel),
    met_of (by decide +kernel) (by decide +kernel),
    met_of (by decide +kernel) (by decide +kernel)⟩

/-- The rows of VecPermuteCompletes. -/
theorem witness_VecPermuteCompletes :
    Met 2 0x28 .vec (fun f => vecOk (useBin etAny) f) (fun _ => noPlan) (fieldsOf [(84, 4)]) ∧
    Met 2 0x29 .vec (fun f => vecOk { useBin etAny with vc := true } f) (fun _ => noPlan) (fieldsOf [(84, 4)]) ∧
    Met 2 0x2A .vec (fun f => shufOk f) (fun f => fun cs => if vIMM f % 16 = 1 ∧ cs.nEl f % 2 = 1 then { check := some St.invalid } else {}) (fieldsOf [(84, 7), (0, 2)]) ∧
    Met 2 0x2B .vec (fun f => vecOk { useBin [4, 7] with sb := false } f) (fun _ => noPlan) (fieldsOf [(84, 7)]) ∧
    Met 2 0x2C .vec (fun f => vecOk { useUn [4, 7] with imm := 3 } f) (fun _ => noPlan) (fieldsOf [(84, 4), (0, 1)]) ∧
    Met 2 0x30 .vec (fun f => vecOk (useUn etAny) f && vMU f) (fun _ => noPlan) (fieldsOf [(84, 9), (88, 1)]) ∧
    Met 2 0x31 .vec (fun f => vecOk (useUn etAny) f && vMU f) (fun _ => noPlan) (fieldsOf [(84, 0), (88, 1)]) ∧
    Met 2 0x38 .vec (fun f => cvtOk f) (fun _ => noPlan) (fieldsOf [(84, 6), (80, 4), (0, 1)]) :=
  ⟨met_of (by decide +kernel) (by decide +kernel),
    met_of (by decide +kernel) (by decide +kernel),
    met_of (by decide +kernel) (by decide +kernel),
    met_of (by decide +kernel) (by decide +kernel),
    met_of (by decide +kernel) (by decide +kernel),
    met_of (by decide +kernel) (by decide +kernel),
    met_of (by decide +kernel) (by decide +kernel),
    met_of (by decide +kernel) (by decide +kernel)⟩

/-- The rows of VecMemoryCompletes. -/
theorem witness_VecMemoryCompletes :
    Met 2 0x00 .vec (fun f => vecOk { ar := true, imm := 0x7F } f && decide (vIMM f ≤ 64)) (fun f => fun _ => if vIMM f = 0 then { aUse := [vAR f], ctl := [vAR f] } else {}) (fieldsOf [(0, 64)]) ∧
    Met 2 0x01 .vec (fun f => vecOk useLoad f) (fun f => vMemPlan false false false f) (fieldsOf [(84, 9), (0, 64)]) ∧
    Met 2 0x03 .vec (fun f => vecOk useLoad f) (fun f => vMemPlan false true false f) (fieldsOf [(84, 4), (0, 2)]) ∧
    Met 2 0x02 .vec (fun f => vecOk useStore f) (fun f => vMemPlan true false false f) (fieldsOf [(84, 0), (73, 1)]) ∧
    Met 2 0x32 .vec (fun f => vecOk useStore f && vMU f) (fun f => vMemPlan true false true f) (fieldsOf [(84, 9), (88, 1), (0, 64)]) ∧
    Met 2 0x33 .vec (fun f => vecOk useLoad f && vMU f) (fun f => vMemPlan false false true f) (fieldsOf [(84, 9), (88, 1)]) :=
  ⟨met_of (by decide +kernel) (by decide +kernel),
    met_of (by decide +kernel) (by decide +kernel),
    met_of (by decide +kernel) (by decide +kernel),
    met_of (by decide +kernel) (by decide +kernel),
    met_of (by decide +kernel) (by decide +kernel),
    met_of (by decide +kernel) (by decide +kernel)⟩

/-- The rows of CtlRegisterWritesComplete. -/
theorem witness_CtlRegisterWritesComplete :
    Met 5 0x00 .seq ctlOk (fun _ _ => {}) (fieldsOf []) ∧
    Met 5 0x04 .seq (fun f => imm32Ok f && decide (ctlDA f < 8)) (fun _ _ => {}) (fieldsOf [(108, 7), (0, 4294967295)]) ∧
    Met 5 0x05 .seq ctlOk (fun f _ => { aUse := [ctlDA f] }) (fieldsOf [(108, 15), (0, 1)]) ∧
    Met 5 0x0C .seq imm32Ok (fun _ _ => {}) (fieldsOf []) ∧
    Met 5 0x0D .seq (fun f => ctlOk f && decide (ctlDA f < 8)) (fun f _ => { aUse := [ctlSA f], ctl := [ctlSA f] }) (fieldsOf [(108, 7)]) ∧
    Met 5 0x08 .seq (fun f => ctlOk f && decide (ctlCond f % 8 < 6)) (fun f _ => { aUse := cmpRegs f, ctl := cmpRegs f }) (fieldsOf [(96, 5), (104, 1)]) :=
  ⟨met_of (by decide +kernel) (by decide +kernel),
    met_of (by decide +kernel) (by decide +kernel),
    met_of (by decide +kernel) (by decide +kernel),
    met_of (by decide +kernel) (by decide +kernel),
    met_of (by decide +kernel) (by decide +kernel),
    met_of (by decide +kernel) (by decide +kernel)⟩

/-- The rows of MatrixInstructionsComplete. -/
theorem witness_MatrixInstructionsComplete :
    Met 1 0x00 .mxu (fun f => cfOk f && (fun f => decide (mxuPart f < 3) && bits f 109 0 == 0) f) (fun _ _ => {}) (fieldsOf [(110, 2)]) ∧
    Met 1 0x01 .mxu (fun f => cfOk f && ldbOk f) ldbPlan (fieldsOf [(106, 4)]) ∧
    Met 1 0x02 .mxu (fun f => cfOk f && passOk f) passPlan (fieldsOf [(106, 4), (65, 1)]) ∧
    Met 1 0x03 .mxu (fun f => cfOk f && (fun f => decide (spcfgS f ≤ 4096) && rowsOk (spcfgRows f) && bits f 67 0 == 0) f) (fun f cs =>
      { aUse := [spcfgBuf f]
        ctl := [spcfgBuf f]
        check := if partIn cs f && accIn cs.mode (mxuPart f) (spcfgAcc f) (spcfgRows f)
            && cs.A (spcfgBuf f) % spillRow cs.mode == 0
            && tileIn (cs.A (spcfgBuf f)) (spcfgRows f * spillRow cs.mode) then none else some St.invalid
        part := some (mxuPart f) }) (fieldsOf [(97, 1), (68, 1)]) ∧
    Met 1 0x04 .mxu (fun f => cfOk f && (fun f => bits f 109 0 == 0) f) windowPlan (fieldsOf []) ∧
    Met 1 0x05 .mxu (fun f => cfOk f && (fun f => bits f 109 0 == 0) f) windowPlan (fieldsOf []) ∧
    Met 1 0x06 .mxu (fun f => cfOk f && outOk f) outPlan (fieldsOf [(106, 4), (67, 1)]) :=
  ⟨met_of (by decide +kernel) (by decide +kernel),
    met_of (by decide +kernel) (by decide +kernel),
    met_of (by decide +kernel) (by decide +kernel),
    met_of (by decide +kernel) (by decide +kernel),
    met_of (by decide +kernel) (by decide +kernel),
    met_of (by decide +kernel) (by decide +kernel),
    met_of (by decide +kernel) (by decide +kernel)⟩

/-- The rows of ReductionsComplete. -/
theorem witness_ReductionsComplete :
    Met 6 0x00 .vec (redOk true true false false) (fun f => redPlan false (sumSize f) (sumSize f * rROWS f) f) (fieldsOf [(95, 4), (66, 1)]) ∧
    Met 6 0x01 .vec (redOk true false false false) (fun f => redPlan false (rSize f) (rSize f * rROWS f) f) (fieldsOf [(95, 4), (66, 1)]) ∧
    Met 6 0x02 .vec (redOk true false false false) (fun f => redPlan false (rSize f) (rSize f * rROWS f) f) (fieldsOf [(95, 4), (66, 1)]) ∧
    Met 6 0x03 .vec (redOk false false true false) (fun f => redPlan true 4 (4 * rROWS f) f) (fieldsOf [(95, 4), (66, 1)]) ∧
    Met 6 0x04 .vec (redOk false true false false) (fun f => redPlan false (sumSize f) (sumSize f * rROWS f) f) (fieldsOf [(95, 4), (66, 1)]) ∧
    Met 6 0x08 .vec (redOk false false true true) (fun f => redPlan true 64 (topkB f + 4 * rK f * rROWS f) f) (fieldsOf [(95, 4), (66, 1)]) :=
  ⟨met_of (by decide +kernel) (by decide +kernel),
    met_of (by decide +kernel) (by decide +kernel),
    met_of (by decide +kernel) (by decide +kernel),
    met_of (by decide +kernel) (by decide +kernel),
    met_of (by decide +kernel) (by decide +kernel),
    met_of (by decide +kernel) (by decide +kernel)⟩

/-- The rows of VectorInstructionsKeepTheRest. -/
theorem witness_VectorInstructionsKeepTheRest :
    Met 2 0x08 .vec (fun f => vecOk (useBin etArith) f) (fun _ => noPlan) (fieldsOf [(84, 7), (107, 31), (102, 31), (97, 30)]) ∧
    Met 2 0x09 .vec (fun f => vecOk (useBin etArith) f) (fun _ => noPlan) (fieldsOf [(84, 9), (113, 1), (0, 4294967295)]) ∧
    Met 2 0x0A .vec (fun f => vecOk (useBin etArith) f) (fun _ => noPlan) (fieldsOf [(84, 4)]) ∧
    Met 2 0x0B .vec (fun f => vecOk { useBin etFp with vc := true } f) (fun _ => noPlan) (fieldsOf [(84, 4)]) ∧
    Met 2 0x0C .vec (fun f => vecOk (useBin etArith) f) (fun _ => noPlan) (fieldsOf [(84, 4)]) ∧
    Met 2 0x0D .vec (fun f => vecOk (useBin etArith) f) (fun _ => noPlan) (fieldsOf [(84, 4)]) ∧
    Met 2 0x0E .vec (fun f => vecOk (useUn etSigned) f) (fun _ => noPlan) (fieldsOf [(84, 7)]) ∧
    Met 2 0x0F .vec (fun f => vecOk (useUn etSigned) f) (fun _ => noPlan) (fieldsOf [(84, 7)]) ∧
    Met 2 0x25 .vec (fun f => vecOk (useBin etFp) f) (fun _ => noPlan) (fieldsOf [(84, 4)]) ∧
    Met 2 0x26 .vec (fun f => vecOk (useUn etFp) f) (fun _ => noPlan) (fieldsOf [(84, 4)]) ∧
    Met 2 0x20 .vec (fun f => vecOk (useUn etFp) f) (fun _ => noPlan) (fieldsOf [(84, 4)]) ∧
    Met 2 0x21 .vec (fun f => vecOk (useUn etFp) f) (fun _ => noPlan) (fieldsOf [(84, 4)]) ∧
    Met 2 0x22 .vec (fun f => vecOk (useUn etFp) f) (fun _ => noPlan) (fieldsOf [(84, 4)]) ∧
    Met 2 0x23 .vec (fun f => vecOk (useUn etFp) f) (fun _ => noPlan) (fieldsOf [(84, 4)]) ∧
    Met 2 0x24 .vec (fun f => vecOk (useUn etFp) f) (fun _ => noPlan) (fieldsOf [(84, 4)]) ∧
    Met 2 0x10 .vec (fun f => vecOk (useBin etAny) f) (fun _ => noPlan) (fieldsOf [(84, 4)]) ∧
    Met 2 0x11 .vec (fun f => vecOk (useBin etAny) f) (fun _ => noPlan) (fieldsOf [(84, 4)]) ∧
    Met 2 0x12 .vec (fun f => vecOk (useBin etAny) f) (fun _ => noPlan) (fieldsOf [(84, 4)]) ∧
    Met 2 0x13 .vec (fun f => vecOk (useBin etInt) f) (fun _ => noPlan) (fieldsOf [(84, 7)]) ∧
    Met 2 0x14 .vec (fun f => vecOk (useBin etInt) f) (fun _ => noPlan) (fieldsOf [(84, 9)]) ∧
    Met 2 0x15 .vec (fun f => vecOk (useBin etInt) f) (fun _ => noPlan) (fieldsOf [(84, 7)]) ∧
    Met 2 0x16 .vec (fun f => vecOk { useBin etAny with mu := false } f) (fun _ => noPlan) (fieldsOf [(84, 4)]) ∧
    Met 2 0x05 .vec (fun f => vecOk { vd := .vec, z := true, ms := true, mu := true, ets := etInt, imm := 0xFFFFFFFF } f) (fun _ => noPlan) (fieldsOf [(84, 9), (0, 4294967295)]) ∧
    Met 2 0x28 .vec (fun f => vecOk (useBin etAny) f) (fun _ => noPlan) (fieldsOf [(84, 4)]) ∧
    Met 2 0x29 .vec (fun f => vecOk { useBin etAny with vc := true } f) (fun _ => noPlan) (fieldsOf [(84, 4)]) ∧
    Met 2 0x2B .vec (fun f => vecOk { useBin [4, 7] with sb := false } f) (fun _ => noPlan) (fieldsOf [(84, 7)]) ∧
    Met 2 0x2C .vec (fun f => vecOk { useUn [4, 7] with imm := 3 } f) (fun _ => noPlan) (fieldsOf [(84, 4), (0, 1)]) ∧
    Met 2 0x30 .vec (fun f => vecOk (useUn etAny) f && vMU f) (fun _ => noPlan) (fieldsOf [(84, 9), (88, 1)]) ∧
    Met 2 0x31 .vec (fun f => vecOk (useUn etAny) f && vMU f) (fun _ => noPlan) (fieldsOf [(84, 0), (88, 1)]) ∧
    Met 2 0x38 .vec (fun f => cvtOk f) (fun _ => noPlan) (fieldsOf [(84, 6), (80, 4), (0, 1)]) ∧
    Met 2 0x01 .vec (fun f => vecOk useLoad f) (fun f => vMemPlan false false false f) (fieldsOf [(84, 9), (0, 64)]) ∧
    Met 2 0x03 .vec (fun f => vecOk useLoad f) (fun f => vMemPlan false true false f) (fieldsOf [(84, 4), (0, 2)]) ∧
    Met 2 0x18 .vec (fun f => vecOk { useBin etArith with vd := .mask, sb := false, imm := 7 } f && vIMM f != 7) (fun _ => noPlan) (fieldsOf [(84, 6), (107, 7), (0, 6)]) ∧
    Met 2 0x19 .vec (fun f => vecOk useMask2 f) (fun _ => noPlan) (fieldsOf [(107, 7), (102, 6), (97, 5)]) ∧
    Met 2 0x1A .vec (fun f => vecOk useMask2 f) (fun _ => noPlan) (fieldsOf [(107, 7)]) ∧
    Met 2 0x1B .vec (fun f => vecOk useMask2 f) (fun _ => noPlan) (fieldsOf [(107, 7)]) ∧
    Met 2 0x1C .vec (fun f => vecOk { vd := .mask, va := .mask } f) (fun _ => noPlan) (fieldsOf [(107, 7)]) ∧
    Met 2 0x1D .vec (fun f => vecOk useMaskA f) (fun f => fun _ => { aUse := [vAR f], aDst := some (vAR f) }) (fieldsOf [(84, 9), (74, 15)]) ∧
    Met 2 0x1E .vec (fun f => vecOk useMaskA f) (fun f => fun _ => { aUse := [vAR f], aDst := some (vAR f) }) (fieldsOf [(84, 0), (74, 15)]) :=
  ⟨met_of (by decide +kernel) (by decide +kernel),
    met_of (by decide +kernel) (by decide +kernel),
    met_of (by decide +kernel) (by decide +kernel),
    met_of (by decide +kernel) (by decide +kernel),
    met_of (by decide +kernel) (by decide +kernel),
    met_of (by decide +kernel) (by decide +kernel),
    met_of (by decide +kernel) (by decide +kernel),
    met_of (by decide +kernel) (by decide +kernel),
    met_of (by decide +kernel) (by decide +kernel),
    met_of (by decide +kernel) (by decide +kernel),
    met_of (by decide +kernel) (by decide +kernel),
    met_of (by decide +kernel) (by decide +kernel),
    met_of (by decide +kernel) (by decide +kernel),
    met_of (by decide +kernel) (by decide +kernel),
    met_of (by decide +kernel) (by decide +kernel),
    met_of (by decide +kernel) (by decide +kernel),
    met_of (by decide +kernel) (by decide +kernel),
    met_of (by decide +kernel) (by decide +kernel),
    met_of (by decide +kernel) (by decide +kernel),
    met_of (by decide +kernel) (by decide +kernel),
    met_of (by decide +kernel) (by decide +kernel),
    met_of (by decide +kernel) (by decide +kernel),
    met_of (by decide +kernel) (by decide +kernel),
    met_of (by decide +kernel) (by decide +kernel),
    met_of (by decide +kernel) (by decide +kernel),
    met_of (by decide +kernel) (by decide +kernel),
    met_of (by decide +kernel) (by decide +kernel),
    met_of (by decide +kernel) (by decide +kernel),
    met_of (by decide +kernel) (by decide +kernel),
    met_of (by decide +kernel) (by decide +kernel),
    met_of (by decide +kernel) (by decide +kernel),
    met_of (by decide +kernel) (by decide +kernel),
    met_of (by decide +kernel) (by decide +kernel),
    met_of (by decide +kernel) (by decide +kernel),
    met_of (by decide +kernel) (by decide +kernel),
    met_of (by decide +kernel) (by decide +kernel),
    met_of (by decide +kernel) (by decide +kernel),
    met_of (by decide +kernel) (by decide +kernel),
    met_of (by decide +kernel) (by decide +kernel)⟩

/-- The rows of StoresStayInTheirBytes. -/
theorem witness_StoresStayInTheirBytes :
    Met 2 0x02 .vec (fun f => vecOk useStore f) (fun f => vMemPlan true false false f) (fieldsOf [(84, 0), (73, 1)]) ∧
    Met 2 0x32 .vec (fun f => vecOk useStore f && vMU f) (fun f => vMemPlan true false true f) (fieldsOf [(84, 9), (88, 1), (0, 64)]) ∧
    Met 6 0x00 .vec (redOk true true false false) (fun f => redPlan false (sumSize f) (sumSize f * rROWS f) f) (fieldsOf [(95, 4), (66, 1)]) ∧
    Met 6 0x01 .vec (redOk true false false false) (fun f => redPlan false (rSize f) (rSize f * rROWS f) f) (fieldsOf [(95, 4), (66, 1)]) ∧
    Met 6 0x02 .vec (redOk true false false false) (fun f => redPlan false (rSize f) (rSize f * rROWS f) f) (fieldsOf [(95, 4), (66, 1)]) ∧
    Met 6 0x04 .vec (redOk false true false false) (fun f => redPlan false (sumSize f) (sumSize f * rROWS f) f) (fieldsOf [(95, 4), (66, 1)]) ∧
    Met 1 0x01 .mxu (fun f => cfOk f && ldbOk f) ldbPlan (fieldsOf [(106, 4)]) ∧
    Met 1 0x02 .mxu (fun f => cfOk f && passOk f) passPlan (fieldsOf [(106, 4), (65, 1)]) ∧
    Met 1 0x06 .mxu (fun f => cfOk f && outOk f) outPlan (fieldsOf [(106, 4), (67, 1)]) :=
  ⟨met_of (by decide +kernel) (by decide +kernel),
    met_of (by decide +kernel) (by decide +kernel),
    met_of (by decide +kernel) (by decide +kernel),
    met_of (by decide +kernel) (by decide +kernel),
    met_of (by decide +kernel) (by decide +kernel),
    met_of (by decide +kernel) (by decide +kernel),
    met_of (by decide +kernel) (by decide +kernel),
    met_of (by decide +kernel) (by decide +kernel),
    met_of (by decide +kernel) (by decide +kernel)⟩

/-! ## Hypotheses met: the sequencer, the matrix unit's neighbours, pennants and markers -/

/-- The state of a tile word with its core changed. -/
def tileOn (cls opc : Nat) (f : TileFields) (g : CoreState → CoreState) : State := (tileAt cls opc f).modCore 0 g

/-- Registers 15, 14 and 13, and an immediate. -/
def fRegs : TileFields := fieldsOf [(108, 15), (104, 14), (100, 13), (0, 1)]

/-- Loop counter 7, a branch back by 1. -/
def fLoop : TileFields := fieldsOf [(108, 7), (0, 0xFFFF)]

theorem witness_VecActiveLanesTakeTheResult :
    vecOk (useBin etArith) (fieldsOf [(84, 7), (107, 1)]) = true ∧ vET (fieldsOf [(84, 7), (107, 1)]) = 7 ∧
      ready (tileAt 2 0x08 (fieldsOf [(84, 7), (107, 1)])) 0 2 0x08 (fieldsOf [(84, 7), (107, 1)]) .vec {} ∧
    vecOk (useBin etArith) (fieldsOf [(84, 9), (88, 1)]) = true ∧ vET (fieldsOf [(84, 9), (88, 1)]) = 9 ∧
      ready (tileAt 2 0x0A (fieldsOf [(84, 9), (88, 1)])) 0 2 0x0A (fieldsOf [(84, 9), (88, 1)]) .vec {} :=
  ⟨by decide +kernel, by decide +kernel, ready_of (by decide +kernel), by decide +kernel, by decide +kernel, ready_of (by decide +kernel)⟩

theorem witness_RegisterArithmeticWraps :
    (ctlOk fRegs = true ∧ readyCtl (tileAt 5 0x06 fRegs) 0 0x06 fRegs { aUse := [ctlDA fRegs, ctlSA fRegs] }) ∧
    readyCtl (tileAt 5 0x07 fRegs) 0 0x07 fRegs { aUse := [ctlDA fRegs, ctlSA fRegs, ctlSB fRegs] } ∧
    ((branchOk fLoop && decide (ctlDA fLoop < 8)) = true ∧
      readyCtl (tileOn 5 0x03 fLoop (fun cs => { cs with l := [(7, 1)] })) 0 0x03 fLoop {} ∧
      Tab.get 0 ((tileOn 5 0x03 fLoop (fun cs => { cs with l := [(7, 1)] })).core 0).l (ctlDA fLoop) = 1) :=
  ⟨⟨by decide +kernel, ready_of (by decide +kernel)⟩, ready_of (by decide +kernel), by decide +kernel, ready_of (by decide +kernel),
    by decide +kernel⟩

/-- ctl.adda past the end of 48 bits, and ctl.loop from 1 (R31, R38): worked out by hand. -/
theorem test_adda_wraps : ∃ t, exec (.ctlAdda 0 (fieldsOf [(108, 1), (104, 1), (0, 2)]))
    (tileOn 5 0x06 (fieldsOf [(108, 1), (104, 1), (0, 2)]) (fun cs => { cs with a := [(1, 0xFFFFFFFFFFFF)] })) = .next t ∧
    (t.core 0).A 1 = 1 ∧ (t.core 0).pc = 1 := ⟨_, rfl, by decide +kernel, by decide +kernel⟩

/-- A branch inside the code, one past each end, and a loop that goes on. -/
theorem witness_BranchesMovePc :
    (branchOk (fieldsOf [(0, 7)]) = true ∧ readyCtl (tileAt 5 0x02 (fieldsOf [(0, 7)])) 0 0x02 (fieldsOf [(0, 7)]) {} ∧
      ((tileAt 5 0x02 (fieldsOf [(0, 7)])).core 0).task = some aTask ∧
      0 ≤ (((tileAt 5 0x02 (fieldsOf [(0, 7)])).core 0).pc : Int) + branchOff (fieldsOf [(0, 7)]) ∧
      (((tileAt 5 0x02 (fieldsOf [(0, 7)])).core 0).pc : Int) + branchOff (fieldsOf [(0, 7)]) < 8) ∧
    (readyCtl (tileAt 5 0x02 (fieldsOf [(0, 8)])) 0 0x02 (fieldsOf [(0, 8)]) {} ∧
      (8 : Int) ≤ ((tileAt 5 0x02 (fieldsOf [(0, 8)])).core 0).pc + branchOff (fieldsOf [(0, 8)])) ∧
    (readyCtl (tileAt 5 0x02 (fieldsOf [(0, 0xFFFF)])) 0 0x02 (fieldsOf [(0, 0xFFFF)]) {} ∧
      (((tileAt 5 0x02 (fieldsOf [(0, 0xFFFF)])).core 0).pc : Int) + branchOff (fieldsOf [(0, 0xFFFF)]) < 0) ∧
    (readyCtl (tileOn 5 0x03 (fieldsOf [(108, 7)]) (fun cs => { cs with l := [(7, 2)] })) 0 0x03 (fieldsOf [(108, 7)]) {} ∧
      2 ≤ ((tileOn 5 0x03 (fieldsOf [(108, 7)]) (fun cs => { cs with l := [(7, 2)] })).core 0).L 7) :=
  ⟨⟨by decide +kernel, ready_of (by decide +kernel), rfl, by decide +kernel, by decide +kernel⟩,
    ⟨ready_of (by decide +kernel), by decide +kernel⟩, ⟨ready_of (by decide +kernel), by decide +kernel⟩,
    ⟨ready_of (by decide +kernel), by decide +kernel⟩⟩

/-- The last 8 bytes of tile memory's instruction-visible range, and a fence with and without work outstanding. -/
def fLast : TileFields := fieldsOf [(108, 2), (104, 1)]
def lastAt (opc : Nat) : State := tileOn 5 opc fLast (fun cs => { cs with a := [(1, 0x5FFFF8)] })
def fFence : TileFields := fieldsOf [(0, 1)]
def mxuWork : InFlight := ⟨0, 0, .mxu, [], [], none, false, none, [], false, false, false, none⟩

theorem witness_CtlMemoryAndFenceComplete :
    (ctlOk fLast = true ∧ ((lastAt 0x09).core 0).tmErr = [] ∧ ((lastAt 0x09).core 0).tmPoison = [] ∧
      ctlOff ((lastAt 0x09).core 0) fLast % 8 = 0 ∧ ctlOff ((lastAt 0x09).core 0) fLast < 0x600000 ∧
      readyCtl (lastAt 0x09) 0 0x09 fLast
        { aUse := [ctlDA fLast, ctlSA fLast], ctl := [ctlSA fLast], rd := blocksOf false (ctlOff ((lastAt 0x09).core 0) fLast) 8 }) ∧
    (((lastAt 0x0A).core 0).Ap (ctlDA fLast) = false ∧ readyCtl (lastAt 0x0A) 0 0x0A fLast
        { aUse := [ctlDA fLast, ctlSA fLast], ctl := [ctlSA fLast], wr := blocksOf false (ctlOff ((lastAt 0x0A).core 0) fLast) 8 }) ∧
    ((ctlOk fFence && bits fFence 47 6 == 0) = true ∧ readyCtl (tileAt 5 0x0B fFence) 0 0x0B fFence {} ∧
      (tileAt 5 0x0B fFence).fenceDone 0 (ctlImm fFence) = true) ∧
    (readyCtl (tileOn 5 0x0B fFence (fun cs => { cs with inflight := [mxuWork] })) 0 0x0B fFence {} ∧
      (tileOn 5 0x0B fFence (fun cs => { cs with inflight := [mxuWork] })).fenceDone 0 (ctlImm fFence) = false) :=
  ⟨⟨by decide +kernel, by decide +kernel, by decide +kernel, by decide +kernel, by decide +kernel, ready_of (by decide +kernel)⟩,
    ⟨by decide +kernel, ready_of (by decide +kernel)⟩, ⟨by decide +kernel, ready_of (by decide +kernel), by decide +kernel⟩,
    ⟨ready_of (by decide +kernel), by decide +kernel⟩⟩

theorem witness_CtlEndEndsTheTask :
    (ctlOk (fieldsOf []) = true ∧ readyCtl (tileAt 5 0x01 (fieldsOf [])) 0 0x01 (fieldsOf []) {} ∧
      (tileAt 5 0x01 (fieldsOf [])).drained 0 = true) ∧
    (readyCtl (tileOn 5 0x01 (fieldsOf []) (fun cs => { cs with inflight := [mxuWork] })) 0 0x01 (fieldsOf []) {} ∧
      (tileOn 5 0x01 (fieldsOf []) (fun cs => { cs with inflight := [mxuWork] })).drained 0 = false) :=
  ⟨⟨by decide +kernel, ready_of (by decide +kernel), by decide +kernel⟩, ⟨ready_of (by decide +kernel), by decide +kernel⟩⟩

/-- A word of the reserved class 8, and one of an undefined opcode of class 2. -/
theorem witness_UndefinedInstructionEndsTheTask :
    ((onTask (tileWord 8 0 0)).issuing 0 = true ∧ ((onTask (tileWord 8 0 0)).core 0).acqHold = false ∧
      Tab.get 0 ((onTask (tileWord 8 0 0)).core 0).imemErr ((onTask (tileWord 8 0 0)).core 0).pc = 0 ∧
      opDefined (bits (tileWord 8 0 0) 127 124) (bits (tileWord 8 0 0) 123 116) = false) ∧
    ((onTask (tileWord 2 0x17 0)).issuing 0 = true ∧ opDefined (bits (tileWord 2 0x17 0) 127 124) (bits (tileWord 2 0x17 0) 123 116) = false) :=
  ⟨⟨by decide +kernel, by decide +kernel, by decide +kernel, by decide +kernel⟩, by decide +kernel, by decide +kernel⟩

/-- The descriptor in the last 64 bytes. -/
def enqAt : State := tileOn 5 0x10 (fieldsOf [(104, 1)]) (fun cs => { cs with a := [(1, 0x5FFFC0)], enqHold := true })

theorem witness_CtlEnqAppendsToTheDeviceQueue :
    ctlOk (fieldsOf [(104, 1)]) = true ∧ (enqAt.core 0).task = some aTask ∧ (enqAt.core 0).tmErr = [] ∧ (enqAt.core 0).tmPoison = [] ∧
    aTask.depth + 1 ≤ 16 ∧ (enqAt.ctx 0).dq.length < 4096 ∧ (enqAt.core 0).A 1 % 64 = 0 ∧ (enqAt.core 0).A 1 + 64 ≤ 0x600000 ∧
    readyCtl enqAt 0 0x10 (fieldsOf [(104, 1)]) { aUse := [1], ctl := [1], rd := blocksOf false ((enqAt.core 0).A 1) 64 } :=
  ⟨by decide +kernel, rfl, by decide +kernel, by decide +kernel, by decide +kernel, by decide +kernel, by decide +kernel, by decide +kernel,
    ready_of (by decide +kernel)⟩

def fMov : TileFields := fieldsOf [(80, 8), (64, 1), (108, 2), (104, 1)]

theorem witness_MoverInstructionsComplete :
    ((movOk fMov && decide (movDir fMov < 8) && movRank fMov == 0) = true ∧
      ready (tileAt 3 0x01 fMov) 0 3 0x01 fMov .mov (fillPlan 0 fMov (tileAt 3 0x01 fMov))) ∧
    ((movOk (fieldsOf [(80, 8), (64, 1), (100, 3)]) && decide (movDir (fieldsOf [(80, 8), (64, 1), (100, 3)]) < 8)
        && movRank (fieldsOf [(80, 8), (64, 1), (100, 3)]) == 0) = true ∧
      ready (tileAt 3 0x00 (fieldsOf [(80, 8), (64, 1), (100, 3)])) 0 3 0x00 (fieldsOf [(80, 8), (64, 1), (100, 3)]) .mov
        (copyPlan 0 (fieldsOf [(80, 8), (64, 1), (100, 3)]) (tileAt 3 0x00 (fieldsOf [(80, 8), (64, 1), (100, 3)])))) ∧
    (remoteOk fMov = true ∧ (tileAt 3 0x04 fMov).flowReady ((tileAt 3 0x04 fMov).ctxOf 0) 0 ((tileAt 3 0x04 fMov).rankOf 0 fMov) = true ∧
      ready (tileAt 3 0x04 fMov) 0 3 0x04 fMov .mov (putPlan 0 fMov (tileAt 3 0x04 fMov)) ∧
      (tileAt 3 0x05 fMov).flowReady ((tileAt 3 0x05 fMov).ctxOf 0) 0 ((tileAt 3 0x05 fMov).rankOf 0 fMov) = true ∧
      ready (tileAt 3 0x05 fMov) 0 3 0x05 fMov .mov (getPlan 0 fMov (tileAt 3 0x05 fMov))) :=
  ⟨⟨by decide +kernel, ready_of (by decide +kernel)⟩, ⟨by decide +kernel, ready_of (by decide +kernel)⟩, by decide +kernel,
    by decide +kernel, ready_of (by decide +kernel), by decide +kernel, ready_of (by decide +kernel)⟩

/-- The last row of tile memory. -/
def fillAt : State := tileOn 3 0x01 fMov (fun cs => { cs with a := [(1, 0x5FFFF8), (2, 0x04030201)] })

theorem witness_FillWritesItsRows :
    movOk fMov = true ∧ movDir fMov = 0 ∧ movRank fMov = 0 ∧ movRows fMov = 1 ∧ (fillAt.core 0).tmErr = [] ∧ (fillAt.core 0).tmPoison = [] ∧
    (fillAt.core 0).Ap (movSrc fMov) = false ∧ ready fillAt 0 3 0x01 fMov .mov (fillPlan 0 fMov fillAt) :=
  ⟨by decide +kernel, by decide +kernel, by decide +kernel, by decide +kernel, by decide +kernel, by decide +kernel, by decide +kernel,
    ready_of (by decide +kernel)⟩

/-- mov.fill of 8 bytes with 0x04030201, from the table of R380. -/
theorem test_fill_pattern : ∃ t, exec (.movFill 0 fMov) fillAt = .next t ∧ (t.core 0).tm.readN 0x5FFFF8 8 = [1, 2, 3, 4, 1, 2, 3, 4] :=
  ⟨_, rfl, by decide +kernel⟩

/-- syn.hoist to this module, and to a rank with CHK; syn.strike, syn.watch and syn.test. -/
def fHoist : TileFields := fieldsOf [(103, 1)]
def fFar : TileFields := fieldsOf [(112, 1), (104, 1)]
def fWait : TileFields := fieldsOf [(103, 1), (98, 1), (0, 1)]
def hoistPlan (f : TileFields) : Plan := { aUse := hoistRegs f, ctl := hoistRegs f, pDst := synCHK f, waiting := true }

theorem witness_PennantInstructionsComplete :
    (hoistOk fHoist = true ∧ ready (tileAt 4 0x00 fHoist) 0 4 0x00 fHoist .syn (hoistPlan fHoist)) ∧
    (hoistOk fFar = true ∧ ready (tileAt 4 0x00 fFar) 0 4 0x00 fFar .syn (hoistPlan fFar)) ∧
    (waitOk false fWait = true ∧ ready (tileAt 4 0x01 fWait) 0 4 0x01 fWait .syn (holdPlan fWait) ∧
      ready (tileAt 4 0x02 fWait) 0 4 0x02 fWait .syn (holdPlan fWait)) ∧
    (waitOk true fHoist = true ∧ ready (tileAt 4 0x03 fHoist) 0 4 0x03 fHoist .syn (waitPlan fHoist)) :=
  ⟨⟨by decide +kernel, ready_of (by decide +kernel)⟩, ⟨by decide +kernel, ready_of (by decide +kernel)⟩,
    ⟨by decide +kernel, ready_of (by decide +kernel), ready_of (by decide +kernel)⟩, by decide +kernel, ready_of (by decide +kernel)⟩

def fMrk : TileFields := fieldsOf [(108, 15)]
def fSel : TileFields := fieldsOf [(105, 7), (97, 0x12)]
def fTag : TileFields := fieldsOf [(108, 1), (96, 1)]
def traced : State := { (tileAt 7 0x00 fTag).modCtx 0 (fun x => { x with traceBase := 4096 }) with obs.recoveryMode := true }

theorem witness_MarkerInstructionsComplete :
    ((mrkOk false true true false false fSel && decide (mEVT fSel ≤ 0x12)) = true ∧ ready (tileAt 7 1 fSel) 0 7 1 fSel .mrk {}) ∧
    (mrkOk true true false false false fMrk = true ∧
      ready (tileAt 7 2 fMrk) 0 7 2 fMrk .mrk { aUse := [mAR fMrk], aDst := some (mAR fMrk) }) ∧
    (mrkOk true false false false false fMrk = true ∧
      ready (tileAt 7 3 fMrk) 0 7 3 fMrk .mrk { aUse := [mAR fMrk], aDst := some (mAR fMrk) }) ∧
    (mrkOk true false false true true fTag = true ∧ ready (tileAt 7 0 fTag) 0 7 0 fTag .mrk { aUse := if mTR fTag then [mAR fTag] else [] } ∧
      (!(tileAt 7 0 fTag).ribbonMode || ((tileAt 7 0 fTag).ctx ((tileAt 7 0 fTag).ctxOf 0)).traceBase == 0) = true) ∧
    (ready traced 0 7 0 fTag .mrk { aUse := if mTR fTag then [mAR fTag] else [] } ∧
      (!traced.ribbonMode || (traced.ctx (traced.ctxOf 0)).traceBase == 0) = false) :=
  ⟨⟨by decide +kernel, ready_of (by decide +kernel)⟩, ⟨by decide +kernel, ready_of (by decide +kernel)⟩,
    ⟨by decide +kernel, ready_of (by decide +kernel)⟩, ⟨by decide +kernel, ready_of (by decide +kernel), by decide +kernel⟩,
    ready_of (by decide +kernel), by decide +kernel⟩

/-! ## Hypotheses met: reset, bring-up and signals (that an image is accepted rests on an opaque check, so that no state can be shown) -/

theorem witness_SuppliesAct :
    { up with sys.vaux := false }.sys.vaux = false ∧ { up with sys.regulators := false }.sys.regulators = false ∧ up.sys.regulators = true := by
  decide +kernel

def restStandby : State := { up with pwr.state := 2 }

theorem witness_ControlSignalsAct :
    up.sys.vaux = true ∧ { up with sys.modResetN := false }.sys.modResetN = false ∧ up.sys.perstSeenHigh = false ∧
    (restStandby.pwr.thermTrip = false ∧ restStandby.pwr.state = 2) ∧ { up with pwr.thermTrip := true }.pwr.thermTrip = true ∧
    (up.mcOn = true ∧ up.sys.perstN = true ∧ up.sys.pcieConfigured = true) ∧ up.sys.linkUp = true := by decide +kernel

theorem witness_ResetsAct :
    up.sys.vaux = true ∧ up.warmable = true ∧ (up.mcOn = true ∧ ctxOk 15 = true ∧ up.sys.linkUp = true ∧ 15 ≤ up.sys.numVfs) := by decide +kernel

/-- Bring-up at step n. -/
def atStep (n : Nat) : State := { State.reset with sys.step := n, sys.booting := false }

theorem witness_BringUpAdvances :
    (State.reset.mcOn = true ∧ State.reset.pwr.thermTrip = false ∧ State.reset.rbd.safeHold = false ∧ State.reset.sys.step = 1) ∧
    ((atStep 2).mcOn = true ∧ (atStep 2).sys.booting = false ∧ (atStep 2).sys.recoveryBoot = false ∧ (atStep 2).sys.strapTest = false) ∧
    ((atStep 3).sys.vin48 = true ∧ (atStep 3).sys.pllLock = 0) ∧ (atStep 4).sys.step = 4 ∧
    ((atStep 5).sys.trainDone = false ∧ (atStep 5).sys.warmUp = false ∧ (atStep 5).failedStacks.length ≤ 2) ∧
    ({ atStep 5 with sys.trainDone := true }.sys.trainDone = true ∧ { atStep 5 with sys.trainDone := true }.sys.fillDone = false) ∧
    ({ atStep 5 with sys.trainDone := true, sys.fillDone := true, sys.fabDone := true }.sys.step = 5) ∧
    ({ atStep 2 with sys.booting := true }.sys.booting = true ∧
      { atStep 2 with sys.booting := true }.slotOk (atStep 2).sys.activeSlot = false ∧
      { atStep 2 with sys.booting := true }.slotOk (1 - (atStep 2).sys.activeSlot) = false) := by decide +kernel

def oneLost : State := { up with sys.dieLinks := [(7, [2])] }

theorem witness_ClockAndLinkFailuresEnterSafeHold :
    up.alive = true ∧ (dieOk 11 = true ∧ up.sys.pllLock.getLsbD 11 = true) ∧ (up.sys.pllLock.getLsbD 12 = true ∧ up.pwr.state ≠ 2) ∧
    (cdOk 7 = true ∧ iodOk 3 = true ∧ up.sys.regulators = true ∧ NSet.mem (up.lostLinks 7) 3 = false ∧ up.lostLinks 7 = []) ∧
    (oneLost.alive = true ∧ NSet.mem (oneLost.lostLinks 7) 3 = false ∧ oneLost.lostLinks 7 = [2]) := by decide +kernel

theorem witness_TranslationInvalidation :
    up.mcOn = true ∧ up.sys.linkUp = true ∧ { up with xl.ptInvalDone := true }.xl.ptInvalDone = true ∧
    { up with xl.ptInvalDone := false }.xl.ptInvalDone = false := by decide +kernel

/-! ## Hypotheses met: the command front end -/

/-- Ring 0 of context 0 enabled, with its slots 0 to `tail` written. -/
def ringUp (tail : BitVec 32) : State :=
  up.modRing 0 0 (fun r => { r with enable := true, log2 := 6, cplLog2 := 6, tail := tail })

theorem witness_RingRegistersAct :
    up.barUp = true ∧ ((ringUp 3).ring 0 0).enable = true ∧ (ringUp 3).vfOn 0 = true ∧
    ((((ringUp 3).ring 0 0).tail - ((ringUp 3).ring 0 0).head).toNat ≤ ((64 : BitVec 32) - ((ringUp 3).ring 0 0).head).toNat ∧
      ((64 : BitVec 32) - ((ringUp 3).ring 0 0).head).toNat ≤ 2 ^ ((ringUp 3).ring 0 0).log2) ∧
    ((up.ring 15 3).enable = false ∧ cfgEnable 0x00010606 = true ∧ (up.ring 15 3).canEnable 0x00010606 = true ∧ cfgEnable 0x00000606 = false) ∧
    (1 ≤ bits (16777#32) 14 0 ∧ bits (16777#32) 14 0 ≤ 16777) := by decide +kernel

theorem witness_RingFetchTakesABatch :
    (ringUp 9).feOn 0 = true ∧ ((ringUp 9).ring 0 0).enable = true ∧ ((ringUp 9).ring 0 0).fetchStop = false ∧
    ((ringUp 9).ring 0 0).tail ≠ ((ringUp 9).ring 0 0).head ∧ 512 ≤ (List.replicate 512 (0 : Byte)).length := by decide +kernel

theorem witness_RingDisableEndsItsCommands :
    (ringUp 0).barUp = true ∧ cfgEnable 0 = false ∧ ((ringUp 0).ring 0 0).enable = true ∧
    ((up.modRing 0 0 (fun r => { r with draining := true })).ring 0 0).draining = true ∧
    ((up.modRing 0 0 (fun r => { r with draining := true })).ctx 0).started = [] := by decide +kernel

/-- A started command of opcode op in ring 0 of context 0, with a descriptor. -/
def cmdOf (op : Nat) (d : List Byte) : Cmd :=
  ⟨⟨0, 0, 0⟩, BitVec.ofNat 8 op :: d, 0, 0, 0, none, 0, [], 0, [], [], 0, false, false, false, false, none, 0, [], []⟩

def withCmd (m : Cmd) : State := up.modCtx 0 (fun x => { x with started := [m] })

/-- What a command that may act supposes, as a check. -/
theorem mayAct_of {s : State} {k : CmdKey} {op : Nat} {m : Cmd} (h : (ctxOk k.c && (ringOk k.q || k.q == 15) && s.alive
    && (s.findCmd k == some m) && !m.begun && !m.finished && !m.draining && (m.op == op)) = true) : mayAct s k op m := by
  simp only [Bool.and_eq_true, Bool.not_eq_true', beq_iff_eq] at h
  obtain ⟨⟨⟨⟨⟨⟨⟨h1, h2⟩, h3⟩, h4⟩, h5⟩, h6⟩, h7⟩, h8⟩ := h
  exact ⟨h1, h2, h3, h4, h5, h6, h7, h8⟩

def fetchedNop : State := (ringUp 1).modRing 0 0 (fun r => { r with fetched := [(0, List.replicate 64 0)] })

theorem witness_CommandStartTakesTheTurn :
    iodOk 0 = true ∧ fetchedNop.nextQueue 0 = some (0, 0) ∧ (fetchedNop.ctx 0).headOf 0 = some (0, 0, List.replicate 64 0) := by decide +kernel

/-- A HOIST to a rank and one with bit 31 of its rank field, and a WAIT. -/
def hoistCmd (hi : Byte) : Cmd := cmdOf 6 (List.replicate 22 0 ++ [hi] ++ List.replicate 40 0)

theorem witness_SimpleCommandsAct :
    mayAct (withCmd (cmdOf 0 [])) ⟨0, 0, 0⟩ 0 (cmdOf 0 []) ∧
    (mayAct (withCmd (hoistCmd 0)) ⟨0, 0, 0⟩ 6 (hoistCmd 0) ∧ dField (hoistCmd 0).desc 0x14 4 / 2 ^ 31 ≠ 1) ∧
    (mayAct (withCmd (hoistCmd 0x80)) ⟨0, 0, 0⟩ 6 (hoistCmd 0x80) ∧ dField (hoistCmd 0x80).desc 0x14 4 / 2 ^ 31 = 1) ∧
    mayAct (withCmd (cmdOf 7 [])) ⟨0, 0, 0⟩ 7 (cmdOf 7 []) :=
  ⟨mayAct_of (by decide +kernel), ⟨mayAct_of (by decide +kernel), by decide +kernel⟩, ⟨mayAct_of (by decide +kernel), by decide +kernel⟩,
    mayAct_of (by decide +kernel)⟩

/-- Page 1 of context 0 maps to 4 GiB, readable and writable (held by the translation hardware), and a COPY of 16 bytes to or from it. -/
def withPage (s : State) : State := { s with xl.tlb := [⟨0, 2, 1, 0x0000000100000000 + 0x3⟩] }

theorem witness_CommandsEnd :
    (let m := { cmdOf 0 [] with begun := true, finished := true }; (withCmd m).findCmd ⟨0, 0, 0⟩ = some m ∧ (withCmd m).alive = true) ∧
    (let m := { cmdOf 1 [] with begun := true }; (withCmd m).findCmd ⟨0, 0, 0⟩ = some m ∧ m.draining = false ∧
      (withCmd m).obj 0x2100 1 = 0 ∧ ((withCmd m).setObj 0x2100 1 1).obj 0x2100 1 = 1 ∧
      ((withCmd m).setObj 0x2100 1 1).findCmd ⟨0, 0, 0⟩ = some m) ∧
    (let m := { cmdOf 1 [] with begun := true, draining := true }; (withCmd m).findCmd ⟨0, 0, 0⟩ = some m ∧ m.finished = false) := by
  decide +kernel

theorem witness_FetchGateClosesAndOpens :
    up.alive = true ∧ up.obj 0x2100 2 ≠ 2 ∧ (up.fe 3).gated = false ∧ up.queuesEmpty 3 = true ∧
    (let s := up.modFe 3 (fun fe => { fe with gated := true, dbSeen := true }); (s.fe 3).gated = true ∧ (s.fe 3).dbSeen = true) ∧
    ((up.modFe 3 (fun fe => { fe with waking := true })).fe 3).waking = true := by decide +kernel

/-! ## Hypotheses met: tasks, partitions and pennants -/

def coreUp (g : CoreState → CoreState) : State := up.modCore 0 g

theorem witness_InstructionCompletionRetires :
    (let s := coreUp (fun cs => { cs with inflight := [mxuWork] }); (s.core 0).inflight.find? (fun i => i.seq == 0) = some mxuWork ∧
      mxuWork.waiting = false ∧ (s.core 0).oldest mxuWork = true ∧ mxuWork.part = none ∧ s.alive = true) ∧
    (let x : Part := { Part.reset with win := some ⟨0, 0, 32, 1, true⟩, passCount := 1, spillDue := true }
     let s := coreUp (fun cs => cs.setPart 3 x); (s.core 0).part 3 = x ∧ (s.core 0).spiller 3 = none) := by
  decide +kernel

theorem witness_TaskTimeoutDrains :
    (let s := coreUp (fun cs => { cs with task := some aTask }); (s.core 0).task = some aTask ∧ s.alive = true ∧ (s.core 0).drain = false ∧
      s.obj 0x2100 1 = 0 ∧ (s.core 0).ended = none ∧ (s.setObj 0x2100 1 1).obj 0x2100 1 = 1) ∧
    ((coreUp (fun cs => { cs with task := some aTask, drain := true })).core 0).drain = true := by decide +kernel

def partWork : InFlight := { mxuWork with part := some 0 }

theorem witness_PartitionFaultRebinds :
    (let s := coreUp (fun cs => { cs with inflight := [partWork] });
      (s.core 0).inflight.find? (fun i => i.part == some 0 && i.seq == 0) = some partWork ∧ s.alive = true ∧ (s.core 0).ended = none) ∧
    (let s := coreUp (fun cs => { cs with rebindDue := true }); (s.core 0).rebindDue = true ∧ (s.core 0).inflight = [] ∧ s.spareOf 0 = some 40) ∧
    (let s := { coreUp (fun cs => { cs with rebindDue := true }) with spares := [(0, [40, 41, 42, 43, 44, 45, 46, 47])] };
      (s.core 0).rebindDue = true ∧ s.spareOf 0 = none) := by decide +kernel

/-- A hoist of 1 on its way to handle 1's slot 0 on die 0, whose translation entry is valid. -/
def aHoist : PenMsg := ⟨0, 0, some 0, .cmd ⟨0, 0, 0⟩, .hoist 1 false⟩

theorem witness_PennantServiceActs :
    (let s : State := { up with pen.outcomes := [⟨.core 0 0 false, St.ok, 0⟩] }; s.alive = true ∧
      s.pen.outcomes[0]? = some ⟨.core 0 0 false, St.ok, 0⟩) ∧
    (let s := up.setSlot 0 { Slot.reset with waiters := [⟨.core 0 0 false, true, 1, none, 0, 0, 5, 0⟩] };
      s.pen.slots = [(0, { Slot.reset with waiters := [⟨.core 0 0 false, true, 1, none, 0, 0, 5, 0⟩] })]) ∧
    (up.obj 0x2200 1 ≠ 0 ∧ up.obj 0x2201 1 ≠ 0 ∧ up.blocked 0 = false ∧
      (up.modCtx 0 (fun x => { x with qblocked := true })).blocked 0 = true ∧ Tab.get 0 up.pen.txCount 0 = 0) := by decide +kernel

/-! ## Hypotheses met: what reads memory through a page table -/

/-- Bytes placed in the units of striped memory (inside one unit). -/
def place8 (s : State) (pa : Nat) (bs : List Byte) : State :=
  let l := s.locate pa
  { s with mem.units := s.mem.units.writeN (unitKey (s.stackOf l.l21 l.stripe (2 + l.u)) l.stripe + l.b) bs }

/-- The first GiB of context 0 is the GiB at 4 GiB, with every permission (Tables 1.7, 1.8). -/
def paged : State := place8 { up with xl.ptRoot := [(0, 1)] } 0 [0x7F, 0, 0, 0, 1, 0, 0, 0]

theorem test_walk_finds_the_leaf : (paged.xlate 0 0x123456 [.r, .w, .x, .fab]).1 = some 0x100123456 ∧ (paged.xlate 0 0x40000000 [.r]).1 = none ∧
    (paged.xlate 1 0 [.r]).1 = none := by decide +kernel

/-- A spine of one signature at 0x1000, one entry point and one task record (Table 7.8), its CRC-32 worked out outside the model. -/
def aSpine : List Byte := [49, 78, 80, 83, 1, 0, 0, 0, 1, 0, 0, 0, 1, 0, 0, 0, 1, 0, 0, 0, 128, 0, 0, 0, 64, 0, 0, 0, 72, 0, 0, 0, 80, 0, 0, 0, 80, 0,
  0, 0, 61, 202, 102, 177, 0, 0, 0, 0, 0, 0, 0, 0, 0, 0, 0, 0, 0, 0, 0, 0, 0, 0, 0, 0, 0, 16, 0, 0, 0, 0, 0, 0, 0, 0, 0, 0, 1, 0, 0, 0,
  0, 0, 0, 0, 1, 0, 0, 0, 0, 0, 0, 0, 0, 0, 0, 0, 0, 0, 0, 0, 0, 0, 0, 0, 0, 0, 0, 0, 0, 0, 0, 0, 255, 255, 255, 255, 0, 0, 0, 0, 0, 0,
  0, 0, 0, 0, 0, 0]

theorem foldl_chunk {l m : List Byte} {a b c : BitVec 32} (h : l.foldl crcByte a = b) (h2 : m.foldl crcByte b = c) : (l ++ m).foldl crcByte a = c := by
  rw [List.foldl_append, h, h2]

/-- The CRC-32 of the spine with its own field 0, in pieces of 16 bytes. -/
theorem test_spine_crc : crc32 (patchAt aSpine 0x28 [0, 0, 0, 0]) = 0xB166CA3D := by
  have e : patchAt aSpine 0x28 [0, 0, 0, 0] = ([49, 78, 80, 83, 1, 0, 0, 0, 1, 0, 0, 0, 1, 0, 0, 0] : List Byte) ++ (
      ([1, 0, 0, 0, 128, 0, 0, 0, 64, 0, 0, 0, 72, 0, 0, 0] : List Byte) ++ (
      ([80, 0, 0, 0, 80, 0, 0, 0, 0, 0, 0, 0, 0, 0, 0, 0] : List Byte) ++ (
      ([0, 0, 0, 0, 0, 0, 0, 0, 0, 0, 0, 0, 0, 0, 0, 0] : List Byte) ++ (
      ([0, 16, 0, 0, 0, 0, 0, 0, 0, 0, 0, 0, 1, 0, 0, 0] : List Byte) ++ (
      ([0, 0, 0, 0, 1, 0, 0, 0, 0, 0, 0, 0, 0, 0, 0, 0] : List Byte) ++ (
      ([0, 0, 0, 0, 0, 0, 0, 0, 0, 0, 0, 0, 0, 0, 0, 0] : List Byte) ++ (
      ([255, 255, 255, 255, 0, 0, 0, 0, 0, 0, 0, 0, 0, 0, 0, 0] : List Byte)))))))) := by
    decide +kernel
  have f : (patchAt aSpine 0x28 [0, 0, 0, 0]).foldl crcByte 0xFFFFFFFF#32 = (0x4E9935C2 : BitVec 32) := e ▸ foldl_chunk (by decide +kernel : _ = (0x1744B866 : BitVec 32))
    (foldl_chunk (by decide +kernel : _ = (0x0F8AEDA8 : BitVec 32))
    (foldl_chunk (by decide +kernel : _ = (0x4A70BCB6 : BitVec 32))
    (foldl_chunk (by decide +kernel : _ = (0x541C7DB5 : BitVec 32))
    (foldl_chunk (by decide +kernel : _ = (0x5444D52D : BitVec 32))
    (foldl_chunk (by decide +kernel : _ = (0xE76FFA44 : BitVec 32))
    (foldl_chunk (by decide +kernel : _ = (0xDC382FB2 : BitVec 32))
    ((by decide +kernel : _ = (0x4E9935C2 : BitVec 32)))))))))
  unfold crc32; rw [f]; decide +kernel

theorem test_spine_accepted : headerOk (aSpine.take 64) = true ∧ spineOk aSpine = true := by
  refine ⟨by decide +kernel, ?_⟩
  unfold spineOk
  simp only [test_spine_crc]
  decide +kernel

def spined : State := place8 paged 0x100000000 aSpine
def aFolio : Folio := ⟨0, 0, 0, [(0, ⟨[0x1000], 0⟩)], 0, none, []⟩

/-- The state with command m started and folio 3 open. -/
def inFolio (m : Cmd) (fo : Folio) : State := spined.modCtx 0 (fun x => { x with started := [m], folios := [(3, fo)], coreSet := [0] })

/-- A descriptor of opcode op for handle 3. -/
def folioCmd (op : Nat) : Cmd := cmdOf op (List.replicate 15 0 ++ [3] ++ List.replicate 47 0)

theorem witness_CopyMovesItsBytes :
    (let m := cmdOf 5 (List.replicate 19 0 ++ [16] ++ List.replicate 43 0)
     let s := paged.modCtx 0 (fun x => { x with started := [m] })
     (ctxOk 0 && s.alive && (s.findCmd ⟨0, 0, 0⟩ == some m) && (m.op == 5)) = true ∧ dField m.desc 0x10 1 % 4 = 0 ∧
       ((acting s ⟨0, 0, 0⟩).vaWrite none 0 (dField m.desc 0x20 8)
         ((sliceAt (List.replicate 16 1) 0 (dField m.desc 0x14 4)).map (fun x => (x, false))) [.w]).1.fault = false) ∧
    (let m := cmdOf 5 (List.replicate 15 0 ++ [1, 0, 0, 0, 16] ++ List.replicate 43 0)
     let s := paged.modCtx 0 (fun x => { x with started := [m] })
     (ctxOk 0 && s.alive && (s.findCmd ⟨0, 0, 0⟩ == some m) && (m.op == 5)) = true ∧ dField m.desc 0x10 1 % 4 = 1 ∧
       (let r := ((acting s ⟨0, 0, 0⟩).vaRead 0 (dField m.desc 0x18 8) (dField m.desc 0x14 4) [.r]).1
        r.fault = false ∧ (List.zip r.bytes r.pois).all (fun e => !e.2) = true ∧ r.uncorr = false)) := by decide +kernel

/-- Whether a launch that reads its plan in t finds a working core for its one task, needs no block, and reads its endpaper (which has
no entry). -/
def dispatches (t : State) (fo : Folio) : Bool :=
  let r := t.launchPlan ⟨0, 0, 0⟩ fo 0
  match r.1 with
  | .ok p => p.templated == 0 && (p.recs.length == 1) && p.recs.all (fun t => NSet.mem (r.2.ctx 0).coreSet (trLcore t) && !(r.2.core (trLcore t)).failed)
      && (r.2.ctx 0).freeBlocks 0 == some [] && (r.2.endpaper ⟨0, 0, 0⟩ 0 0 false .error).1.toOption == some []
      && (r.2.fillBlocks ⟨0, 0, 0⟩ 0 p [] []).1.isNone
  | .error _ => false

/-- A launch that its start has bound to generation 0. -/
def boundLaunch : Cmd := { folioCmd 1 with handle := 3, bound := true }

theorem witness_LaunchDispatchesItsTasks :
    (mayAct (inFolio (folioCmd 1) aFolio) ⟨0, 0, 0⟩ 1 (folioCmd 1) ∧
      (inFolio (folioCmd 1) aFolio).arenaWaits 0 (folioCmd 1).desc = false ∧
      Tab.find ((inFolio (folioCmd 1) aFolio).ctx 0).folios (fieldAt (folioCmd 1).desc 0x10 1) = some aFolio ∧ aFolio.closing = none ∧
      fieldAt (folioCmd 1).desc 0x14 2 = 0 ∧ dispatches (binding (inFolio (folioCmd 1) aFolio) ⟨0, 0, 0⟩ (folioCmd 1) aFolio) aFolio = true) ∧
    (mayAct (inFolio boundLaunch aFolio.bind) ⟨0, 0, 0⟩ 1 boundLaunch ∧
      Tab.find ((inFolio boundLaunch aFolio.bind).ctx 0).folios (fieldAt boundLaunch.desc 0x10 1) = some aFolio.bind ∧
      dispatches (acting (inFolio boundLaunch aFolio.bind) ⟨0, 0, 0⟩) aFolio.bind = true) :=
  ⟨⟨mayAct_of (by decide +kernel), by decide +kernel, by decide +kernel, by decide +kernel, by decide +kernel, by decide +kernel⟩,
    mayAct_of (by decide +kernel), by decide +kernel, by decide +kernel⟩

theorem witness_FoliosOpenAndClose :
    (let s := acting (spined.modCtx 0 (fun x => { x with started := [folioCmd 2] })) ⟨0, 0, 0⟩
     Tab.has (s.ctx 0).folios (fieldAt (folioCmd 2).desc 0x10 1) = false ∧
     (s.rdCmd ⟨0, 0, 0⟩ (fieldAt (folioCmd 2).desc 0x18 8) 64 [.r]).1.toOption = some (aSpine.take 64) ∧
     (s.rdCmd ⟨0, 0, 0⟩ (fieldAt (folioCmd 2).desc 0x18 8) 128 [.r]).1.toOption = some aSpine ∧
     (s.foliosMapped 0 [0x1000] 0 0).1 = true) ∧
    (mayAct (inFolio (folioCmd 4) aFolio) ⟨0, 0, 0⟩ 4 (folioCmd 4) ∧ aFolio.closing = none ∧ aFolio.idle = true) :=
  ⟨by decide +kernel, mayAct_of (by decide +kernel), by decide +kernel, by decide +kernel⟩

theorem witness_FolioPatchWorksInTurn :
    (mayAct (inFolio (folioCmd 3) aFolio) ⟨0, 0, 0⟩ 3 (folioCmd 3) ∧ fieldAt (folioCmd 3).desc 0x14 2 ≤ 1024) ∧
    (let m := { folioCmd 3 with bound := true, handle := 3 }
     mayAct (inFolio m { aFolio with patchers := [⟨0, 0, 0⟩] }) ⟨0, 0, 0⟩ 3 m) ∧
    (let m := { folioCmd 3 with begun := true, bound := true, handle := 3 }
     let s := inFolio m { aFolio with patchers := [⟨0, 0, 0⟩] }
     s.findCmd ⟨0, 0, 0⟩ = some m ∧ m.op = 3 ∧
       Tab.find (s.ctx 0).folios m.handle = some { aFolio with patchers := [⟨0, 0, 0⟩] } ∧ s.alive = true) ∧
    (aFolio.gens.length < 4 ∧ Tab.has aFolio.gens ((aFolio.current + 1) % 256) = false ∧
      ((inFolio (folioCmd 3) aFolio).launchPlan ⟨0, 0, 0⟩ aFolio 0).1.toOption.isSome = true) :=
  ⟨⟨mayAct_of (by decide +kernel), by decide +kernel⟩, mayAct_of (by decide +kernel), by decide +kernel, by decide +kernel⟩

/-- A task of one instruction of generation 0 of folio 3, in core 0's queue. -/
def queued : TaskInfo := ⟨⟨0, 0, 0⟩, 0, 3, 0, 0, 1, 0, 0, 0, 0, 1⟩
def starting : State := (inFolio (folioCmd 1) aFolio).modCore 0 (fun cs => { cs with queue := [queued] })

theorem witness_TaskStartLoadsTheTask :
    starting.alive = true ∧ (starting.core 0).task = none ∧ (starting.core 0).failed = false ∧ (starting.core 0).rebindDue = false ∧
    (starting.core 0).gate = .on ∧ (starting.core 0).queue = [queued] ∧
    ((starting.setCore 0 ((starting.core 0).take queued)).loadCode queued).1 = false ∧
    (let r := (((starting.setCore 0 ((starting.core 0).take queued)).loadCode queued).2.2.loadArgs queued).1
     r.fault = false ∧ r.uncorr = false ∧ r.pois.all (fun b => !b) = true) ∧
    (let k := { queued with argVa := 2 ^ 47 }
     let s := starting.modCore 0 (fun cs => { cs with queue := [k] })
     (s.core 0).queue = [k] ∧ ((s.setCore 0 ((s.core 0).take k)).loadCode k).1 = false ∧
       (((s.setCore 0 ((s.core 0).take k)).loadCode k).2.2.loadArgs k).1.fault = true) ∧
    (let k := { queued with key := ⟨1, 0, 0⟩ }
     let s := starting.modCore 0 (fun cs => { cs with queue := [k] })
     (s.core 0).queue = [k] ∧ ((s.setCore 0 ((s.core 0).take k)).loadCode k).1 = true) := by decide +kernel

/-- The pennant table of context 0 at 128 MiB; its entry 0 names slot 0 of die 0 with generation 0. -/
def penned : State := { place8 { up with xl.penRoot := [(0, 0x08000001)] } 0x08000000 [1] with pen.msgs := [aHoist] }

theorem witness_HoistTakesEffectAtItsSlot :
    (penned.pen.msgs[0]? = some aHoist ∧ penned.alive = true) ∧
    (let r := ({ penned with pen.msgs := penned.pen.msgs.eraseIdx 0 } : State).penEntry 0 0
     r.1 = some 1 ∧ penned.behind 0 aHoist = false ∧
     (peV 1 = true ∧ aHoist.gen = some (BitVec.ofNat 8 (peGen 1)) ∧ (r.2.slot (slotKey (peHome 1) (peIdx 1))).gen = BitVec.ofNat 8 (peGen 1)) ∧
     ((r.2.slot (slotKey (peHome 1) (peIdx 1))).refuses 1 = none ∧ (r.2.slot (slotKey (peHome 1) (peIdx 1))).waiters = [])) ∧
    (({ Slot.reset with f := true } : Slot).refuses 1 = some St.penOverrun ∧
      ({ Slot.reset with k := true, value := 0xFFFFFFFFFFFF, f := true } : Slot).refuses 1 = some St.penCount) := by decide +kernel

/-! ## Hypotheses met: striped memory and power -/

theorem up_online : allOnline up := fun _ => ⟨rfl, rfl, rfl⟩

theorem witness_AReadReturnsWhatWasWritten :
    (∀ k, up.errsAt k = noErrs) ∧ up.dieOn = true ∧ allOnline up ∧ List.replicate 256 (7 : Byte) ≠ [] ∧ 0x02BFFFFFFF00 % 256 + (List.replicate 256 (7 : Byte)).length ≤ 256 ∧
    0x02BFFFFFFF00 + (List.replicate 256 (7 : Byte)).length ≤ up.stripedEnd ∧ up.mem.gather = [] ∧ up.holdsRead 320 0x02BFFFFFFF00 256 = false ∧
    up.poisonMask (up.locate 0x02BFFFFFFF00).l21 (up.locate 0x02BFFFFFFF00).stripe (up.locate 0x02BFFFFFFF00).u = 0 :=
  ⟨fun _ => rfl, by decide +kernel, up_online, by decide +kernel, by decide +kernel, by decide +kernel, by decide +kernel, by decide +kernel, by decide +kernel⟩

theorem witness_AWriteLeavesOtherUnitsAlone :
    (∀ k, up.errsAt k = noErrs) ∧ allOnline up ∧ up.mem.gather = [] ∧ ([1, 2] : List Byte) ≠ [] ∧ 254 % 256 + ([1, 2] : List Byte).length ≤ 256 ∧ 254 < up.stripedEnd ∧ 256 < up.stripedEnd ∧
    up.mem.restripe ≠ 2 ∧ 254 / 256 ≠ 256 / 256 := ⟨fun _ => rfl, up_online, by decide +kernel⟩

theorem witness_OneErasureIsDecoded :
    ∀ x ∈ ([] ++ (2, List.replicate 256 (5 : Byte)) :: [(23, List.replicate 256 (6 : Byte))] : List (Nat × List Byte)), x.2.length = 256 := by
  decide +kernel

def gathering : State := { up with mem.gather := [⟨7, [], [], [], [3]⟩] }

theorem witness_MemoryAccessesAct :
    (up.dieOn = true ∧ 0 + 0x02C000000000 ≤ up.stripedEnd ∧ up.stripedEnd < 1 + 0x02C000000000 ∧ stackOk 23 = true) ∧
    (up.mem.gather = [] ∧ up.mem.portWait = [] ∧ up.heldAhead 0 256 1 = false ∧ up.holdsRead 0 0 256 = false ∧ gathering.holdsRead 3 0x000000001000 256 = false ∧ 256 % 256 + ([1] : List Byte).length ≤ 256) ∧
    gathering.mem.gather.find? (fun g => g.stripe % 2 ^ 30 == 7) = some ⟨7, [], [], [], [3]⟩ ∧
    (320, 7) ∈ ({ up with mem.acks := [(320, 7)] } : State).mem.acks := by decide +kernel

def stackAt (x : Stack) : State := up.setStk 23 x

theorem witness_StacksChangeState :
    (stackOk 23 = true ∧ up.dieOn = true ∧ up.sys.regulators = true) ∧ f32le (.fin false 105 0) (f32 0x42D20000) = true ∧
    (f32le (.fin false 105 0) (f32 0x42D00000) = false ∧ (up.stk 23).st < 5 ∧ f32le (f32 (up.obj 0x7040 3)) (f32 0x42D00000) = true) ∧
    ((up.stk 23).st = 0 ∧ up.obj 0x7030 1 = 1 ∧ ({ up with mem.retrainNext := 23 } : State).nextRetrain = 23 ∧ up.mem.retrainDue = false ∧
      ∀ j, j < 24 → j ≠ 23 → (up.stk j).st = 0) ∧
    ((stackAt { Stack.reset with st := 3 }).stk 23).st = 3 ∧
    (((stackAt { Stack.reset with st := 4 }).stk 23).st = 4 ∧ ((stackAt { Stack.reset with st := 4 }).stk 23).stale = []) ∧
    (up.pwr.state = 0 ∧ up.obj 0x3105 1 = 1 ∧ (up.stk 23).selfRef = false) := by
  refine ⟨by decide +kernel, by decide +kernel, by decide +kernel, ⟨by decide +kernel, by decide +kernel, by decide +kernel, by decide +kernel, fun _ _ _ => rfl⟩, by decide +kernel,
    by decide +kernel, by decide +kernel⟩

/-- Three stacks FAILED. -/
def threeOut : State := { up with mem.stack := [(0, { Stack.reset with st := 5 }), (1, { Stack.reset with st := 5 }), (2, { Stack.reset with st := 5 })] }

theorem witness_ScrubSettlesAStripe :
    (up.setObj 0x7020 2 2).obj 0x7020 2 = 2 ∧ Tab.find (up.setObj 0x7020 2 2).um.doms 0x702005 = none ∧ up.obj 0x7020 2 ≠ 2 ∧
    threeOut.dieOn = true ∧ threeOut.obj 0x7020 1 = 1 ∧ threeOut.scrubs 5 = true ∧ up.scrubs 5 = true ∧
    (up.obj 0x7020 1 = 1 ∧ up.dieOn = true ∧ up.erasures (up.rowLayout 5) 5 [] = [] ∧ up.skips (up.stackOf (up.rowLayout 5) 5 7) 5 = false) ∧
    3 ≤ (threeOut.erasures (threeOut.rowLayout 5) 5 []).length := by decide +kernel

def oneFailed : State := { up with mem.stack := [(3, { Stack.reset with st := 5 })] }

theorem witness_RestripeAdvances :
    (oneFailed.dieOn = true ∧ oneFailed.failedStacks = [3] ∧ oneFailed.mem.layout21 = false ∧ oneFailed.mem.restripe = 0 ∧ oneFailed.obj 0x7010 1 = 1 ∧
      oneFailed.obj 0x7010 2 ≤ 1 ∧ (oneFailed.setObj 0x7010 2 2).obj 0x7010 2 = 2 ∧ oneFailed.mcOn = true) ∧
    (let s : State := { up with mem.restripe := 2, mem.watermark := 2 * 5376 }; s.mem.restripe = 2 ∧ s.obj 0x7010 1 = 1 ∧ 2 * 5376 ≤ s.mem.watermark) ∧
    (let s : State := { up with mem.restripe := 2, mem.watermark := 5376 }; s.mem.watermark = 5376 ∧ s.mem.removed = none) := by decide +kernel

/-- With the root of a page table not enabled, no context maps any address. -/
theorem oneFailed_maps (c : Nat) : oneFailed.mapsTop c = false := by unfold State.mapsTop; rfl

theorem witness_GatingEntersAndWakes :
    up.mayGate = true ∧ (coreOk 319 = true ∧ (up.core 319).idle = true ∧ (up.core 319).gate = .on ∧ up.obj 0x3105 1 = 1) ∧
    ((up.modCore 319 (fun cs => { cs with gate := .gated })).core 319).gate = .gated ∧ (iodOk 3 = true ∧ up.engineIdle = true) ∧
    Tab.get .on ({ up with pwr.engines := [(3, .gated)] } : State).pwr.engines 3 = .gated := by decide +kernel

/-- A session of level 3 on T1S. -/
def owned : State := { up with um.sessions := [(1, ⟨3, .t1s, true, [], [], [], 0, 0⟩)] }
def owner : Req := ⟨.t1s, 1⟩

theorem accepts_of {s : State} {rq : Req} {i j v : Nat} (h : (s.mcOn && (s.valueRefusal rq i j v).isNone) = true) : accepts s rq i j v := by
  simp only [Bool.and_eq_true, Option.isNone_iff_eq_none] at h; exact h

theorem witness_StandbyEntersAndWakes :
    ((owned.setObj 0x3106 1 1).restful = true ∧ accepts (owned.setObj 0x3106 1 1) owner 0x3106 3 1) ∧
    (let s : State := { up with pwr.state := 1 }; s.pwr.state = 1 ∧ s.pwr.thermTrip = false ∧ s.mem.gather = [] ∧ s.mem.portWait = []) ∧
    (restStandby.pwr.thermTrip = false ∧ restStandby.pwr.state = 2 ∧ restStandby.alive = true ∧ restStandby.obj 0x7020 1 = 1 ∧
      restStandby.scrubs 5 = true ∧ accepts { owned with pwr.state := 2 } owner 0x3106 4 1) :=
  ⟨⟨by decide +kernel, accepts_of (by decide +kernel)⟩, by decide +kernel, by decide +kernel, by decide +kernel, by decide +kernel, by decide +kernel,
    by decide +kernel, accepts_of (by decide +kernel)⟩

theorem witness_PowerLimiterSteps :
    (up.sys.regulators = true ∧ up.pwr.thermTrip = false ∧ up.mayGate = true ∧ 4 < up.pwr.duty) ∧
    ({ up with pwr.duty := 4 } : State).pwr.duty ≤ 4 ∧ (up.belowLimit = true ∧ up.coreDiv ≤ up.obj 0x3020 1) ∧
    (({ up with pwr.effDiv := 2 } : State).obj 0x3020 1 < ({ up with pwr.effDiv := 2 } : State).coreDiv) ∧ accepts owned owner 0x3020 1 12 :=
  ⟨by decide +kernel, by decide +kernel, by decide +kernel, by decide +kernel, accepts_of (by decide +kernel)⟩

theorem witness_DieTemperatureActs :
    (dieOk 11 = true ∧ up.sys.vaux = true ∧ up.pwr.thermTrip = false) ∧ f32le (.fin false 110 0) (f32 0x42DC0000) = true ∧
    (f32le (.fin false 110 0) (f32 0x42DA0000) = false ∧ f32le (f32 (up.obj 0x3201 1)) (f32 0x42DA0000) = true) ∧
    (f32le (.fin false 110 0) (f32 0x42000000) = false ∧ f32le (f32 (up.obj 0x3201 1)) (f32 0x42000000) = false ∧
      f32le (f32 0x42000000) up.dieRelease = true) := by decide +kernel

/-! ## Hypotheses met: the fabric -/

/-- Module 0 of a line of two (R209): port 0 is cabled to module 1. -/
def paired : State := { up with um.vals := [(0x600101, 2), (0x600201, 1)] }.takeShape

def portAt (x : Port) : State := paired.setPort 0 x
def portUp2 : State := portAt { Port.reset with st := 2, lanes := 3 }

theorem witness_PortsChangeState :
    (paired.alive = true ∧ paired.mayTrain 0 = true ∧ paired.takeShape.neighbourOf 0 ≠ none ∧ paired.takeShape.peerOk 0 (1, 0) = true ∧
      (paired.takeShape.trainsLr 0 ⟨true, 3, some (1, 0), 0⟩).isSome = true) ∧
    (portOk 75 = true ∧ paired.mayTrain 75 = true ∧ paired.takeShape.neighbourOf 75 = none) ∧
    (portUp (portUp2.port 0).st = true ∧ (portUp2.port 0).st = 2 ∧ (portUp2.port 0).lanes = 3 ∧ portUp2.spareLane 0 = none) ∧
    ((portUp2.setObj 0x6005 1 0).spareLane 0 = some 0 ∧ ((portUp2.setObj 0x6005 1 0).port 0).lanes = 3) ∧
    ((portUp2.port 0).outq = [] ∧ (portUp2.port 0).retry = [] ∧ portUp2.obj 0x6012 2 = 1) ∧
    ((portAt { Port.reset with st := 4, lanes := 3 }).port 0).st = 4 := by decide +kernel

theorem witness_FlitsAct :
    (portUp2.alive = true ∧ (portUp2.port 0).st = 2 ∧ flitOk [] = false) ∧
    (let s := portAt { Port.reset with st := 2, retry := [(5, []), (6, [])] }; (s.port 0).retry.dropWhile (fun e => e.1 != 6) = [(6, [])]) := by
  decide +kernel

/-- A packet of type ty from module 1 for module `dst`, with the rest of its 32 B header and its data (Table 9.4). -/
def pkt (ty dst : Nat) (rest : List Byte) : List Byte :=
  natLe 1 ty ++ [0, 0, 0] ++ natLe 4 dst ++ natLe 4 1 ++ natLe 4 0 ++ rest

theorem arrives_of {s : State} {port ty : Nat} {pk : List Byte} (h : (portInOk port && s.alive && ((hdrOf pk).ty == ty) && ((hdrOf pk).dst == s.myDid)
    && !s.didLost (hdrOf pk).src && (s.pwr.state == 0) && pkOk pk) = true) : arrives s port ty pk := by
  simp only [Bool.and_eq_true, Bool.not_eq_true', beq_iff_eq] at h
  obtain ⟨⟨⟨⟨⟨⟨h1, h2⟩, h3⟩, h4⟩, h5⟩, h6⟩, h7⟩ := h
  exact ⟨h1, h2, h3, h4, h5, h6, h7⟩

/-- A PUT of 8 bytes to VA 0, a GET of 8, a fetching add of 4, a hoist without REL and one with it. -/
def aPut : List Byte := pkt 1 0 ([0, 0, 0, 0, 0, 0, 8, 0] ++ List.replicate 8 0 ++ [1, 2, 3, 4, 5, 6, 7, 8])
def aGet : List Byte := pkt 2 0 ([0, 0, 0, 0, 0, 0, 8, 0] ++ List.replicate 8 0)
def anAtomic : List Byte := pkt (4 + 32) 0 (List.replicate 16 0)
def aHoistPk (rel : Nat) : List Byte := pkt (3 + 16 * rel) 0 (List.replicate 16 0)
def relWaits : State := { up with fab.putsIn := [⟨1, 0, aPut, none, 0⟩], fab.relHeld := [⟨0, aHoistPk 1, 1⟩] }

theorem witness_RemoteRequestsAct :
    (arrives paged 0 1 aPut ∧ (paged.xlate (hdrOf aPut).ctx (pkVa aPut) [.w, .fab]).1 = some 0x100000000) ∧
    (arrives paged 0 2 aGet ∧ (paged.xlate (hdrOf aGet).ctx (pkVa aGet) [.r, .fab]).1 = some 0x100000000 ∧
      (let r := (((paged.xlate (hdrOf aGet).ctx (pkVa aGet) [.r, .fab]).2.settlePort 0 0x100000000 (pkLen aGet)).memRead 0x100000000 (pkLen aGet)).1
       r.uncorr = false ∧ r.pois.any id = false)) ∧
    (arrives paged 0 4 anAtomic ∧ pkVa anAtomic % atomicSize anAtomic = 0 ∧
      (paged.xlate (hdrOf anAtomic).ctx (pkVa anAtomic) [.r, .w, .fab]).1 = some 0x100000000) ∧
    (arrives up 75 3 (aHoistPk 0) ∧ (hdrOf (aHoistPk 0)).rel = false ∧ arrives relWaits 0 3 (aHoistPk 1) ∧ (hdrOf (aHoistPk 1)).rel = true ∧
      (∃ x ∈ relWaits.fab.putsIn, x.port = 0) ∧ relWaits.fab.relHeld.find? (fun r => r.port == 0) = some ⟨0, aHoistPk 1, 1⟩ ∧
      ∀ x ∈ relWaits.fab.putsIn, x.port = 0 → 1 ≤ x.no) := by
  refine ⟨⟨arrives_of (by decide +kernel), by decide +kernel⟩, ⟨arrives_of (by decide +kernel), by decide +kernel, by decide +kernel⟩,
    ⟨arrives_of (by decide +kernel), by decide +kernel, by decide +kernel⟩, arrives_of (by decide +kernel), by decide +kernel,
    arrives_of (by decide +kernel), by decide +kernel, ⟨_, List.mem_singleton_self _, rfl⟩, by decide +kernel, by decide +kernel⟩

/-- An outstanding PUT, GET and hoist of core 0 to rank 5, with tags 1 to 3, and the answers to them. -/
def tPut : Trans := ⟨1, 0, 0, .put 0 4, 5, 1⟩
def tGet : Trans := ⟨2, 0, 0, .get 0 4 0 8, 5, 1⟩
def tHoist : Trans := ⟨3, 0, 0, .hoist (.cmd ⟨0, 0, 0⟩) 9, 5, 1⟩
def asking : State := { (up.modCore 0 (fun cs => { cs with task := some aTask, inflight := [{ mxuWork with seq := 4, unit := .mov }] })) with
  fab.trans := [tPut, tGet, tHoist] }
def tagged (ty tag : Nat) (data : List Byte) : List Byte :=
  natLe 1 ty ++ [0] ++ natLe 2 tag ++ natLe 4 0 ++ natLe 4 1 ++ natLe 4 0 ++ List.replicate 16 0 ++ data

def aData : List Byte :=
  natLe 1 9 ++ [0] ++ natLe 2 2 ++ natLe 4 0 ++ natLe 4 1 ++ natLe 4 0 ++ [0, 0, 0, 0, 0, 0, 8, 0] ++ List.replicate 8 0 ++ List.replicate 8 7

theorem witness_ResponsesEndTransactions :
    asking.fab.trans.Nodup ∧ (arrives asking 0 8 (tagged 8 1 []) ∧ asking.transOf (tagged 8 1 []) = some tPut ∧ pkStatus (tagged 8 1 []) = St.ok) ∧
    (arrives asking 0 9 aData ∧ asking.transOf aData = some tGet ∧
      pkStatus aData = St.ok ∧ (asking.core 0).owns 4 = true) ∧
    asking.fab.trans.find? (fun y => y.tag.toNat == 1) = some tPut ∧ tHoist ∈ asking.fab.trans :=
  ⟨by decide +kernel, ⟨arrives_of (by decide +kernel), by decide +kernel, by decide +kernel⟩,
    ⟨arrives_of (by decide +kernel), by decide +kernel, by decide +kernel, by decide +kernel⟩, by decide +kernel, by decide +kernel⟩

/-- A packet for module 1, a management frame of 48 bytes for this module. -/
def aFrame : List Byte := pkt 6 0 (List.replicate 16 0 ++ List.replicate 48 0)

theorem witness_PacketsMove :
    ((hdrOf (pkt 1 1 ([0, 0, 0, 0, 0, 0, 8, 0] ++ List.replicate 8 0 ++ List.replicate 8 0))).dst ≠ paired.myDid ∧
      paired.didLost (hdrOf (pkt 1 1 ([0, 0, 0, 0, 0, 0, 8, 0] ++ List.replicate 8 0 ++ List.replicate 8 0))).src = false ∧
      pkOk (pkt 1 1 ([0, 0, 0, 0, 0, 0, 8, 0] ++ List.replicate 8 0 ++ List.replicate 8 0)) = true) ∧
    ((hdrOf aFrame).dst = paired.myDid ∧ (hdrOf aFrame).ty = 6 ∧ paired.didLost (hdrOf aFrame).src = false ∧ pkOk aFrame = true ∧
      48 + fieldAt (aFrame.drop 32) 0x10 4 % 2 ^ 20 ≤ (aFrame.drop 32).length ∧ fieldAt (aFrame.drop 32) 1 1 < 0x40 ∧
      paired.inShape (hdrOf aFrame).src = true ∧ (Tab.get [] paired.um.queues 3).length < 32) := by decide +kernel

/-! ## Hypotheses met: collectives, the token router and updates -/

/-- A collective 7 of context 0 over two members, of operation op, this module the first of them. -/
def aRun (op : Nat) : CollRun :=
  { CollRun.init ⟨0, 0, 0⟩ ⟨op, 0, 6, 0, 6, 0, 7, 0, false, 64, 0, 2, 0, [2, 1, 1, 1], List.replicate 64 0⟩ [0, 1] 0 with check := 5 }

def runs (r : CollRun) : State := { paged with rbd.rank := 0, coll.runs := [r] }

theorem working_of {s : State} {k : CollKey} {op : Nat} {r : CollRun} (h : (ctxOk k.c && s.alive && (s.findRun k == some r) && !r.held
    && (r.d.op == op) && !r.dataDone) = true) : working s k op r := by
  simp only [Bool.and_eq_true, Bool.not_eq_true', beq_iff_eq] at h
  obtain ⟨⟨⟨⟨⟨h1, h2⟩, h3⟩, h4⟩, h5⟩, h6⟩ := h
  exact ⟨⟨h1, h2, h3, h4⟩, h5, h6⟩

theorem running_of {s : State} {k : CollKey} {r : CollRun} (h : (ctxOk k.c && s.alive && (s.findRun k == some r) && !r.held) = true) :
    running s k r := by
  simp only [Bool.and_eq_true, Bool.not_eq_true', beq_iff_eq] at h
  obtain ⟨⟨⟨h1, h2⟩, h3⟩, h4⟩ := h
  exact ⟨h1, h2, h3, h4⟩

/-- Two elements from each member, those of the other one poisoned; and a whole source of two blocks. -/
def twoEach : List MemberIn := [⟨[], 0, false, []⟩, ⟨[1, 2], 0, false, [true]⟩]
def fourEach : List MemberIn := [⟨[], 0, false, []⟩, ⟨[1, 2, 3, 4], 0, false, []⟩]

/-- An ALL_REDUCE of one FP32 element over this module alone (Table 10.1), whose rank list of one zero word stands at 0x100000080. -/
def aDesc : List Byte :=
  [3, 0, 6, 6, 0, 0, 0, 0] ++ natLe 8 7 ++ natLe 8 0x1000 ++ natLe 8 0x2000 ++ natLe 8 1 ++ natLe 8 0x80 ++ natLe 4 1 ++ natLe 4 1 ++ natLe 4 1
    ++ natLe 4 1 ++ List.replicate 64 0
def withDesc : State := (place8 { paged with rbd.rank := 0 } 0x100000000 aDesc).modCtx 0 (fun x => { x with started := [cmdOf 8 (List.replicate 63 0)] })

theorem witness_CollectivesStartAndReduce :
    (mayAct withDesc ⟨0, 0, 0⟩ 8 (cmdOf 8 (List.replicate 63 0)) ∧ withDesc.coll.runs.length < 256 ∧ withDesc.obj 0x2300 1 = 1 ∧
      (let r := (acting withDesc ⟨0, 0, 0⟩).rdCmd ⟨0, 0, 0⟩ 0 128 [.r]
       r.1.toOption = some aDesc ∧ (r.2.rankList ⟨0, 0, 0⟩ (collDesc aDesc)).1.toOption = some [0]) ∧
      collDescOk aDesc = true ∧ (collDesc aDesc).op < 0x10 ∧ (collDesc aDesc).updEn = false) ∧
    (working (runs (aRun 1)) ⟨0, 7⟩ 1 (aRun 1) ∧ (aRun 1).insOk fourEach ((aRun 1).d.n * (aRun 1).d.count) = true ∧ (aRun 1).d.updEn = false ∧
      (aRun 1).updHeld = false ∧ (aRun 1).d.gnEn = false) ∧
    (working (runs (aRun 3)) ⟨0, 7⟩ 3 (aRun 3) ∧ (aRun 3).insOk twoEach 2 = true ∧ (aRun 3).d.gnEn = false) :=
  ⟨⟨mayAct_of (by decide +kernel), by decide +kernel, by decide +kernel, by decide +kernel, by decide +kernel, by decide +kernel,
    by decide +kernel⟩, ⟨working_of (by decide), by decide, by decide, by decide⟩, working_of (by decide), by decide, by decide⟩

/-- ALL_GATHER with VMODE 1. -/
def vGather : CollRun := { aRun 2 with d := { (aRun 2).d with spec := 1 :: List.replicate 63 0 } }

theorem witness_ExchangesMoveElements :
    (working (runs (aRun 2)) ⟨0, 7⟩ 2 (aRun 2) ∧ (aRun 2).insOk twoEach 2 = true ∧ (aRun 2).shardWait = false ∧ (aRun 2).d.f 0x40 4 = 0) ∧
    (working (runs vGather) ⟨0, 7⟩ 2 vGather ∧ vGather.insOk twoEach 2 = true ∧ vGather.d.f 0x40 4 = 1 ∧ 64 ≤ vGather.d.srcVa) ∧
    (working (runs { vGather with shardWait := true }) ⟨0, 7⟩ 2 { vGather with shardWait := true }) ∧
    working (runs (aRun 4)) ⟨0, 7⟩ 4 (aRun 4) ∧ working (runs (aRun 5)) ⟨0, 7⟩ 5 (aRun 5) ∧
    (working (runs (aRun 6)) ⟨0, 7⟩ 6 (aRun 6) ∧ twoEach.length = (aRun 6).d.n ∧ (aRun 6).me = (aRun 6).d.f 0x40 4) ∧
    (let r := { aRun 6 with d := { (aRun 6).d with spec := 1 :: List.replicate 63 0 } }
     working (runs r) ⟨0, 7⟩ 6 r ∧ r.me ≠ r.d.f 0x40 4 ∧ (contribution twoEach r.d.wtype r.d.count (r.d.f 0x40 4)).length = r.d.count) := by
  refine ⟨⟨working_of (by decide), by decide, by decide, by decide⟩, ⟨working_of (by decide), by decide, by decide, by decide⟩,
    working_of (by decide), working_of (by decide), working_of (by decide), ⟨working_of (by decide), by decide, by decide⟩,
    working_of (by decide), by decide, by decide⟩

/-- A packet of module 1 for the collective, from this module's own port. -/
def aTag : CollTag := ⟨76, false, 1, 0, 7, 0, 5⟩

theorem comes_of {s : State} {t : CollTag} {r : CollRun} (h : (portInOk t.port && !s.didLost t.src && (s.pwr.state == 0) && (s.coll.stuck == []) &&
    (t.epoch == (s.ctx t.c).epoch) && (ctxOk t.c && s.alive && (s.findRun ⟨t.c, t.id⟩ == some r) && !r.held) && !r.updHeld &&
    (t.chk == r.check)) = true) : comes s t r := by
  simp only [Bool.and_eq_true, Bool.not_eq_true', beq_iff_eq] at h
  obtain ⟨⟨⟨⟨⟨⟨⟨h1, h2⟩, h3⟩, h4⟩, h5⟩, h6⟩, h7⟩, h8⟩ := h
  exact ⟨h1, h2, h3, h4, h5, ⟨h6.1.1.1, h6.1.1.2, h6.1.2, h6.2⟩, h7, h8⟩

theorem witness_AccumulateReshardAndNoiseAct :
    (working (runs (aRun 7)) ⟨0, 7⟩ 7 (aRun 7) ∧ (runs (aRun 7)).collTrans (aRun 7).ck = false ∧
      ((runs (aRun 7)).readElems (aRun 7).key ((aRun 7).d.srcVa + 4 * (aRun 7).sent) 6 (Nat.min 4096 ((aRun 7).d.count - (aRun 7).sent))).1.toOption
        = some [(0, false), (0, false)]) ∧
    (let s := (runs (aRun 0x20)).modCtx 0 (fun x => { x with fence := some ⟨0, 0, 0⟩ })
     working s ⟨0, 7⟩ 0x20 (aRun 0x20) ∧ (aRun 0x20).fenceStage = 0 ∧ (s.ctx 0).fence = some (aRun 0x20).key ∧
       ∀ x ∈ s.coll.runs, x.key.c = (aRun 0x20).key.c → x.key = (aRun 0x20).key ∨ x.held = true) ∧
    (up.alive = true ∧ up.findRun ⟨15, 7⟩ = none) ∧
    (let r := { aRun 3 with gn := some (0, 0), gnWait := true }
     comes (runs r) aTag r ∧ ((runs r).collPut r.key (r.d.f 0x50 8) (List.replicate 64 (0, false))).1 = false) := by
  refine ⟨⟨working_of (by decide), by decide, by decide +kernel⟩, ⟨working_of (by decide), by decide, by decide, by decide⟩, by decide,
    comes_of (by decide), by decide +kernel⟩

def aPkt (epoch : BitVec 16) : CollPkt := ⟨1, 0, 7, epoch, 5, 1, 0, 0, true, false, [1, 2], [], 0, 0, 0, 0, false, none⟩
def aChunk : SentChunk := ⟨1, 0, 0, 0, 0, 0, 0, 0, []⟩

theorem witness_ChunksProgressAndAbortsAct :
    (let r := { aRun 3 with unacked := [aChunk], tReal := 5 }; running (runs r) ⟨0, 7⟩ r ∧ r.unacked.find? (·.isRef ⟨1, 0⟩) = some aChunk ∧
      r.unacked.any (·.isRef ⟨1, 0⟩) = true ∧ r.updHeld = false ∧ r.sentProg < r.tReal ∧ r.tReal < 6 ∧ comes (runs r) aTag r) ∧
    statusClass St.killed ≠ 0 ∧
    (let s := { runs (aRun 3) with coll.runs := [] }; aTag.epoch = (s.ctx aTag.c).epoch ∧ s.findRun ⟨0, 7⟩ = none ∧
      s.endedOf (tagPkt aTag (.abort St.killed 1)) = none ∧ s.earlyUnits 0 + msgUnits (.abort St.killed 1) ≤ s.obj 0x2302 0 ∧
      ({ s with coll.ended := [⟨⟨0, 7⟩, 5, 0, [], false⟩] } : State).endedOf (tagPkt aTag (.ack ⟨1, 0⟩)) = some ⟨⟨0, 7⟩, 5, 0, [], false⟩) ∧
    ({ aTag with chk := 6 }.chk ≠ (aRun 3).check ∧ (aRun 3).updHeld = false) ∧
    (portInOk 76 = true ∧ (runs (aRun 3)).didLost 1 = false ∧ (runs (aRun 3)).pwr.state = 0 ∧ (runs (aRun 3)).coll.stuck = []) ∧
    ((aPkt 1).epoch = ((runs (aRun 3)).ctx 0).epoch + 1 ∧ (runs (aRun 3)).earlyUnits 0 + collUnits (aPkt 1) ≤ (runs (aRun 3)).obj 0x2302 0) ∧
    (let s := (runs (aRun 3)).setObj 0x2302 0 0; s.obj 0x2302 0 < s.earlyUnits 0 + collUnits (aPkt 1) ∧ (aPkt 1).epoch = (s.ctx 0).epoch + 1) ∧
    ((aPkt 2).epoch ≠ ((runs (aRun 3)).ctx 0).epoch + 1 ∧ (aPkt 2).epoch ≠ ((runs (aRun 3)).ctx 0).epoch) ∧
    ((aPkt 0).epoch = ((runs (aRun 3)).ctx 0).epoch ∧ (runs (aRun 3)).findRun ⟨0, 7⟩ = some (aRun 3) ∧ (aRun 3).updHeld = false ∧ (aPkt 0).chk = (aRun 3).check) := by
  refine ⟨⟨running_of (by decide), by decide, by decide, by decide, by decide, by decide, comes_of (by decide)⟩, by decide, by decide +kernel,
    by decide, by decide, by decide, by decide +kernel, by decide, by decide⟩

/-- A dispatch of one token to one of 32 experts. -/
def rSpec : List Byte := natLe 4 1 ++ natLe 2 32 ++ [0x11, 0] ++ natLe 4 1 ++ natLe 4 2 ++ List.replicate 48 0
def dRun (op : Nat) : CollRun := { aRun op with d := { (aRun op).d with spec := rSpec } }
def aDisp : DispRun := ⟨[], [], 1, [], [], [], [], 0, 0, 1, [], [], 0, false⟩

theorem witness_TokenRouterActs :
    (working (runs (dRun 0x10)) ⟨0, 7⟩ 0x10 (dRun 0x10) ∧ (dRun 0x10).disp = none ∧
      dispOk (dRun 0x10) ((chunksOf 8 (dRun 0x10).d.experts (List.replicate 256 0)).map leNat) [0] = true) ∧
    (let r := { dRun 0x10 with disp := some aDisp }; comes (runs r) aTag r ∧ r.disp.isSome = true ∧ 1 < r.d.n ∧ 1 ≠ r.me ∧ r.dataDone = false ∧
      ∀ g ∈ aDisp.grants, g.1 ≠ 1) ∧
    (working (runs (dRun 0x11)) ⟨0, 7⟩ 0x11 (dRun 0x11) ∧ (dRun 0x11).rowsFit [⟨[], 0, false, []⟩] [0] = true) := by
  refine ⟨⟨working_of (by decide), by decide, by decide +kernel⟩, ⟨comes_of (by decide), by decide⟩, working_of (by decide), by decide⟩

/-- A REDUCE_SCATTER with an update of group 0 in its phase. -/
def anUpd (phase : Nat) : UpdRun := ⟨0, List.replicate 256 0, [], phase, false, [], [], [], false, none, false, false, 0, [], .none⟩
def uRun (u : UpdRun) : CollRun := { aRun 1 with d := { (aRun 1).d with spec := [0, 0, 0, 0, 0, 0x20] ++ List.replicate 58 0 }, upd := some u, dataDone := true }

theorem witness_UpdatesRunInTheirPhases :
    (running (runs (uRun (anUpd 0))) ⟨0, 7⟩ (uRun (anUpd 0)) ∧ (anUpd 0).held = false ∧ (uRun (anUpd 0)).dataDone = true ∧
      NSet.mem (anUpd 0).chunks 0 = false ∧ 0 < chunkCount 0 2 ∧ (runs (uRun (anUpd 0))).cutHolds (uRun (anUpd 0)) (anUpd 0) = false) ∧
    (let u := { anUpd 0 with held := true }; running (runs (uRun u)) ⟨0, 7⟩ (uRun u) ∧ (runs (uRun u)).updBusy (uRun u) = false ∧
      (runs (uRun u)).coll.runs.find? (fun x => x.key.c == 0 && x.d.updEn && x.d.pgroup == (uRun u).d.pgroup && x.updHeld) = some (uRun u)) ∧
    (let u := { anUpd 1 with chunks := [0] }; running (runs (uRun u)) ⟨0, 7⟩ (uRun u) ∧ u.phase ≠ 0 ∧ u.p1Done = false ∧
      ∀ n, n < chunkCount 0 2 → NSet.mem u.chunks n = true) ∧
    (let u := { anUpd 3 with gnorm := some 0 }; running (runs (uRun u)) ⟨0, 7⟩ (uRun u) ∧ u.gnorm.isSome = true ∧ u.p2 = false) := by
  refine ⟨⟨running_of (by decide +kernel), by decide +kernel, by decide +kernel, by decide +kernel, by decide +kernel, by decide +kernel⟩,
    ⟨running_of (by decide +kernel), by decide +kernel, by decide +kernel⟩, ⟨running_of (by decide +kernel), by decide +kernel, by decide +kernel,
      by decide +kernel⟩, running_of (by decide +kernel), by decide +kernel⟩

/-- A combine buffer with one block. -/
def aBlock : ParBlock := ⟨0, 0, [], [], 0, []⟩

theorem witness_UpdatesCompleteAndParityCombines :
    (let u := { anUpd 0 with chunks := [0] }; running (runs (uRun u)) ⟨0, 7⟩ (uRun u) ∧ u.deltas = 0 ∧ u.deltaQ = [] ∧ enOut u.entry = 0 ∧
      (runs (uRun u)).runDone { uRun u with upd := none } = true ∧ (uRun u).allWritten u = true) ∧
    (let s : State := { up with coll.combine := [(3, [aBlock])] }; iodOk 3 = true ∧ s.alive = true ∧ (Tab.get [] s.coll.combine 3)[0]? = some aBlock ∧
      ∀ e ∈ aBlock.counts, (s.ctx aBlock.c).parSenders ≤ e.2) := by
  refine ⟨⟨running_of (by decide +kernel), by decide +kernel, by decide +kernel, by decide +kernel, by decide +kernel, by decide +kernel⟩,
    by decide +kernel⟩


/-! ## Hypotheses met: cuts, recovery and functions -/

theorem witness_FunctionsAct :
    (FuncId.scrub ≠ .fetch ∧ accepts owned owner (fnIdx .scrub) 1 0 ∧ Tab.get 0 owned.rbd.disable (fnNo .scrub) = 0) ∧
    (accepts owned owner (fnIdx .scrub) 1 1 ∧ owned.disableState .scrub ≠ 1) ∧
    (let s : State := { owned with mem.stack := [(0, { Stack.reset with st := 3 })], rbd.disable := [(fnNo .retrain, 1)] }
     accepts s owner (fnIdx .retrain) 1 1 ∧ s.disableState .retrain = 1 ∧ NSet.mem (s.fnKill .retrain).rbd.reenable (fnNo .retrain) = false) ∧
    accepts owned owner (fnIdx .scrub) 2 1 :=
  ⟨⟨by decide, accepts_of (by decide +kernel), by decide +kernel⟩, ⟨accepts_of (by decide +kernel), by decide +kernel⟩,
    ⟨accepts_of (by decide +kernel), by decide +kernel, by decide +kernel⟩, accepts_of (by decide +kernel)⟩

def held (s : State) : State := { s with rbd.safeHold := true }

theorem witness_StopsAndResetsByRequest :
    accepts owned owner 0x4010 1 1 ∧ accepts owned owner 0x4010 3 0x10000 ∧ (accepts owned owner 0x4010 2 5 ∧ 5 < 2 ^ 36) ∧
    accepts owned owner 0x4020 3 1 ∧
    (accepts (held owned) owner 0x4020 2 1 ∧ (held owned).rbd.safeHold = true ∧ (held owned).sys.regulators = true ∧
      (held owned).pwr.thermTrip = false) ∧
    (accepts owned owner 0x4021 1 1 ∧ owned.warmable = true) ∧ accepts owned owner 0x4021 2 1 ∧ accepts owned owner 0x4021 3 1 ∧
    (accepts owned owner 0x4002 0 2 ∧ owned.rbd.role ≠ 2) ∧
    (accepts { owned with rbd.role := 2 } owner 0x4002 0 0 ∧ { owned with rbd.role := 2 }.rbd.role = 2 ∧ (0 : Nat) ≠ 1 ∧ (0 : Nat) ≠ 2) :=
  ⟨accepts_of (by decide +kernel), accepts_of (by decide +kernel), ⟨accepts_of (by decide +kernel), by decide⟩, accepts_of (by decide +kernel),
    ⟨accepts_of (by decide +kernel), by decide +kernel⟩, ⟨accepts_of (by decide +kernel), by decide +kernel⟩, accepts_of (by decide +kernel),
    accepts_of (by decide +kernel), ⟨accepts_of (by decide +kernel), by decide +kernel⟩, accepts_of (by decide +kernel), by decide +kernel⟩

theorem witness_WatchdogRestartsTheController : up.mcOn = true ∧ up.rbd.wdLast = none := by decide +kernel

/-- This module rank 0 and coordinator, module 1 rank 1. -/
def coord : State := { paired with rbd.rank := 0, xl.rankMap := [(0, reBound 0), (1, reBound 1)] }

/-- A cut of step 3 in progress into slot 0. -/
def aCut : Cut := ⟨3, 0, false, [], false, 0, []⟩
def cutting : State := up.modCtx 0 (fun x => { x with cut := some aCut, cutState := 1 })

theorem witness_CutsAdvance :
    (up.barUp = true ∧ up.pwr.state = 0 ∧ up.cutRefuses 0 0 = true) ∧
    (let s := up.modCtx 0 (fun x => { x with cutSize := 64 }); s.barUp = true ∧ s.pwr.state = 0 ∧ s.cutRefuses 0 1 = false ∧
      (s.ctx 0).sealGlobal = none) ∧
    (cutting.alive = true ∧ (cutting.ctx 0).cut = some aCut ∧ aCut.copied = false ∧ cutting.updating 0 = false ∧
      ((cutting.copyImages 0 0).ctx 0).holderRanks = []) ∧
    (cutting.isCoord = false ∧
      (let s := up.modCtx 0 (fun x => { x with cutState := 3, cutStepLocal := 3 }); s.isCoord = false ∧ (s.ctx 0).cutState = 3 ∧
        (s.ctx 0).cutStepLocal = 3)) ∧
    (coord.alive = true ∧ coord.isCoord = true ∧ coord.sealEpochs 0 3 = none ∧
      ({ coord with rbd.seals := [⟨0, 3, 0, 7⟩, ⟨0, 3, 1, 7⟩] } : State).sealEpochs 0 3 = some [7, 7]) := by decide +kernel

/-- A module that is alone in its shape has no other module that could be busy. -/
theorem alone_free (s : State) (hd : ∀ k < 4, s.dimSize k = 1) (hm : s.myDid = 0) (hs : s.ctxs.any (fun e => !e.2.started.isEmpty) = false) :
    s.anyBusy = false := by
  have : s.shapeDids = [] := by
    unfold State.shapeDids
    refine List.filter_eq_nil_iff.mpr fun d _ => ?_
    intro h
    rw [Bool.and_eq_true] at h
    have hc := List.all_eq_true.mp h.1
    have h0 := of_decide_eq_true (hc 0 (by decide))
    have h1 := of_decide_eq_true (hc 1 (by decide))
    have h2 := of_decide_eq_true (hc 2 (by decide))
    have h3 := of_decide_eq_true (hc 3 (by decide))
    rw [hd _ (by decide)] at h0 h1 h2 h3
    unfold Sys2Proof.Machine.coord at h0 h1 h2 h3
    have : d ≠ 0 := by have := h.2; rw [hm] at this; exact bne_iff_ne.mp this
    norm_num at h0 h1 h2 h3
    omega
  simp [State.anyBusy, hs, this]

theorem noRanks_refusal (s : State) (m : List (BitVec 32)) (hl : m.length = 131072) (hm : m.filter reValid = [])
    (hb : s.anyBusy = false) (hs : (s.rbd.recState != 0 || s.xl.rankLoad.isSome) = false) : s.mapRefusal m = 0 := by
  unfold State.mapRefusal State.mapOk
  rw [hm, if_neg (not_not.mpr hl)]
  simp only [Bool.or_eq_false_iff] at hs
  simp [hb, hs.1, hs.2]

theorem noRanks_valid (n : Nat) : (List.replicate n (0 : BitVec 32)).filter reValid = [] := by
  refine List.filter_eq_nil_iff.mpr fun a ha => ?_
  rw [(List.mem_replicate.mp ha).2]; decide

theorem witness_RankMapLoads :
    (let s := { owned with um.sessions := [(1, ⟨3, .mbox, true, [], [], [], 0, 0⟩)], fab.dims := [1, 1, 1, 1] }
     s.mcOn = true ∧ s.writeRefusal ⟨.mbox, 1⟩ 0x4006 0 = none ∧ s.mapRefusal (List.replicate 131072 0) = 0) ∧
    up.rbd.recRank = none ∧ ({ up with xl.rankLoad := some ([], []) }.mcOn = true ∧ { up with xl.rankLoad := some ([], []) }.xl.rankLoad = some ([], [])) ∧
    up.didLost 7 = false ∧
    (portOk 0 = true ∧ portUp2.alive = true ∧ portUp2.askPort = some 0 ∧ portUp2.xl.rankMap = []) := by
  exact ⟨⟨by decide +kernel, by decide +kernel, noRanks_refusal _ _ List.length_replicate (noRanks_valid _)
      (alone_free _ (by decide +kernel) (by decide +kernel) (by decide +kernel)) (by decide +kernel)⟩,
    by decide +kernel, by decide +kernel, by decide +kernel, by decide +kernel⟩

theorem witness_LossesAreDetected :
    (paired.alive = true ∧ paired.sys.regulators = true) ∧ (paired.watchers.contains 1 = true ∧ paired.didLost 1 = false) ∧
    (coord.alive = true ∧ coord.isCoordBut 1 = true ∧ coord.didLost 1 = false ∧ coord.didLost 5 = false ∧ coord.rbd.recState = 0 ∧ coord.rbd.suspicions = [] ∧
      coord.rbd.probes = []) ∧
    (let s : State := { coord with rbd.recState := 1, rbd.suspicions := [(1, 5)], rbd.probes := [1] }
     s.isCoordBut 1 = true ∧ s.didLost 1 = false ∧ s.rbd.recState = 1 ∧ s.rbd.suspicions = [(1, 5)] ∧ s.rbd.probes.contains 1 = true) := by
  decide +kernel

/-- A globally sealed cut of context 0. -/
def sealed (s : State) (g : Seal) : State := s.modCtx 0 (fun x => { x with sealGlobal := some g })
def aSeal : Seal := ⟨0, 0, 0, 0⟩

theorem witness_RecoveryAdvances :
    (coord.alive = true ∧ (coord.setObj 0x4003 1 0).alive = true ∧ (coord.setObj 0x4003 1 0).obj 0x4003 1 = 0) ∧
    (coord.obj 0x4003 1 = 1 ∧ coord.obj 0x4003 2 ≠ 2) ∧
    (let s := coord.setObj 0x4003 2 2; s.obj 0x4003 1 = 1 ∧ s.obj 0x4003 2 = 2 ∧ s.rbd.recConfirm = false ∧
      ({ s with rbd.lastLost := BitVec.ofNat 17 1 } : State).leads 1 = true) ∧
    (accepts { owned with rbd.recWait := some 1 } owner 0x4003 6 1 ∧ { owned with rbd.recWait := some 1 }.rbd.recWait.isSome = true) ∧
    (let s : State := { coord with rbd.recState := 4 }; (sealed s aSeal).rbd.recState = 4 ∧ ((sealed s aSeal).ctx 0).sealGlobal = some aSeal ∧
      s.rbd.recState = 4 ∧ (s.ctx 0).sealGlobal = none ∧ s.myRank.isSome = true) ∧
    ({ coord with rbd.recState := 5 } : State).rbd.recState = 5 ∧ (coord.rbd.recState ≠ 4 ∧ coord.rbd.recState ≠ 5) ∧
    (up.obj 0x4003 1 = 1 ∧ up.myRank ≠ some 1 ∧ (5 : Nat) ≠ up.myDid ∧ up.isCoord = false) ∧
    (((sealed coord aSeal).didOfRank 1).isSome = true ∧ ((sealed coord aSeal).ctx 0).sealGlobal = some aSeal) :=
  ⟨by decide +kernel, by decide +kernel, by decide +kernel, ⟨accepts_of (by decide +kernel), by decide +kernel⟩, by decide +kernel,
    by decide +kernel, by decide +kernel, by decide +kernel, by decide +kernel⟩

/-! ## Hypotheses met: Umasel -/

/-- A frame without session or tag (Table 13.2): operation, object, offset, LEN and flags, DID, payload. -/
def frame (op idx sub off len did : Nat) (pl : List Byte) : List Byte :=
  natLe 1 1 ++ natLe 1 op ++ [0, 0, 0, 0, 0, 0] ++ natLe 2 idx ++ natLe 1 sub ++ [0] ++ natLe 4 off ++ natLe 4 len ++ natLe 4 did
    ++ List.replicate 24 0 ++ pl

/-- A request at the head of a path's queue. -/
def atHead (p : UmPath) (bs : List Byte) : State := { up with um.queues := [(pathNo p, [⟨p, bs⟩])] }

def servesB (s : State) (p : UmPath) (op : Nat) (rq : UmReq) (rest : List UmReq) : Bool :=
  (match p with
    | .svc c => ctxOk c
    | _ => true) && s.mcOn && (s.umQueue p == rq :: rest) && (rq.path == p) && (frOp rq.bs == op) && !frFwd rq.bs
    && ((({ s with um.queues := Tab.put s.um.queues (pathNo p) rest } : State).settleDrains).precheck rq == .pass)

theorem serves_of {s : State} {p : UmPath} {op : Nat} {rq : UmReq} {rest : List UmReq} (h : servesB s p op rq rest = true) :
    serves s p op rq rest := by
  simp only [servesB, Bool.and_eq_true, Bool.not_eq_true', beq_iff_eq] at h
  obtain ⟨⟨⟨⟨⟨⟨h1, h2⟩, h3⟩, h4⟩, h5⟩, h6⟩, h7⟩ := h
  refine ⟨?_, h2, h3, h4, h5, h6, h7⟩
  rintro c rfl
  exact h1

/-- READ of the protocol version, WRITE of the frequency divider's ceiling, READ_SEG of the rank map, DESCRIBE and NEXT. -/
def fRead : List Byte := frame 1 0x1004 0 0 0 0 []
def fWrite : List Byte := frame 2 0x3020 1 0 1 0 [12]
def fReadSeg : List Byte := frame 3 0x4006 0 0 4 0 (natLe 4 208)
def fDescribe : List Byte := frame 5 0x3020 1 0 0 0 []
def fNext : List Byte := frame 6 0x3020 1 0 0 0 []

theorem witness_ObjectOperationsAct :
    (serves (atHead .mbox fRead) .mbox 1 ⟨.mbox, fRead⟩ [] ∧ (objAt (frIndex fRead) (frSub fRead)).isSome = true ∧
      (taken (atHead .mbox fRead) .mbox ⟨.mbox, fRead⟩ []).readRefusal ⟨.mbox, fRead⟩ false = none) ∧
    (serves (atHead .mbox fWrite) .mbox 2 ⟨.mbox, fWrite⟩ [] ∧
      (objAt (frIndex fWrite) (frSub fWrite)).any (fun r => r.ty != .domain && inRange r 0x3020 1 12 && r.ty.len == 1) = true ∧
      (taken (atHead .mbox fWrite) .mbox ⟨.mbox, fWrite⟩ []).writeRefusal (reqOf ⟨.mbox, fWrite⟩) 0x3020 1 = none ∧
      (taken (atHead .mbox fWrite) .mbox ⟨.mbox, fWrite⟩ []).frPayload fWrite = [12] ∧ resetAct 0x3020 1 12 = none ∧
      (objAct 0x3020 1 12 (taken (atHead .mbox fWrite) .mbox ⟨.mbox, fWrite⟩ [])).1 = 0) ∧
    (serves (atHead .mbox fReadSeg) .mbox 3 ⟨.mbox, fReadSeg⟩ [] ∧
      (taken (atHead .mbox fReadSeg) .mbox ⟨.mbox, fReadSeg⟩ []).readRefusal ⟨.mbox, fReadSeg⟩ true = none ∧ frBulk fReadSeg = false) ∧
    (serves (atHead (.fabric 1) fDescribe) (.fabric 1) 5 ⟨.fabric 1, fDescribe⟩ [] ∧ (objAt 0x3020 1).isSome = true) ∧
    serves (atHead .t1s fNext) .t1s 6 ⟨.t1s, fNext⟩ [] :=
  ⟨⟨serves_of (by decide +kernel), by decide +kernel, by decide +kernel⟩, ⟨serves_of (by decide +kernel), by decide +kernel, by decide +kernel,
      by decide +kernel, by decide +kernel, by decide +kernel⟩, ⟨serves_of (by decide +kernel), by decide +kernel, by decide +kernel⟩,
    ⟨serves_of (by decide +kernel), by decide +kernel⟩, serves_of (by decide +kernel)⟩

/-- SESSION_OPEN at level 3 with a nonce, SESSION_AUTH of session 1 with a value of zeros, and SESSION_CLOSE. -/
def fOpen : List Byte := frame 0x10 0 0 0 33 0 ([3] ++ List.replicate 32 9)
def hAuth : List Byte := [1, 0x11, 0, 0, 1, 0, 0, 0, 0, 0, 0, 0, 0, 0, 0, 0] ++ natLe 4 48 ++ List.replicate 28 0
def fAuth : List Byte := hAuth ++ List.replicate 48 0
def opening : Session := ⟨3, .t1s, false, [], [], [], 0, 0⟩

theorem witness_SessionsOpenAndClose :
    (serves (atHead .t1s fOpen) .t1s 0x10 ⟨.t1s, fOpen⟩ [] ∧ ((taken (atHead .t1s fOpen) .t1s ⟨.t1s, fOpen⟩ []).frPayload fOpen).length = 33 ∧
      fieldAt ((taken (atHead .t1s fOpen) .t1s ⟨.t1s, fOpen⟩ []).frPayload fOpen) 0 1 = 3 ∧
      NSet.mem (taken (atHead .t1s fOpen) .t1s ⟨.t1s, fOpen⟩ []).um.authBlock (pathNo .t1s) = false ∧
      (taken (atHead .t1s fOpen) .t1s ⟨.t1s, fOpen⟩ []).um.sessions.length < 8) ∧
    (let s := { atHead .t1s fAuth with um.sessions := [(1, opening)] }
     serves s .t1s 0x11 ⟨.t1s, fAuth⟩ [] ∧ ((taken s .t1s ⟨.t1s, fAuth⟩ []).frPayload fAuth).length = 48 ∧
       Tab.find (taken s .t1s ⟨.t1s, fAuth⟩ []).um.sessions (frSession fAuth) = some opening) ∧
    Tab.find owned.um.sessions 1 = some ⟨3, .t1s, true, [], [], [], 0, 0⟩ :=
  ⟨⟨serves_of (by decide +kernel), by decide +kernel, by decide +kernel, by decide +kernel, by decide +kernel⟩,
    ⟨serves_of (by decide +kernel), by decide +kernel, by decide +kernel⟩, by decide +kernel⟩

/-- A state whose request is a SESSION_AUTH with the value A. -/
def authState (A : List Byte) : State := { atHead .t1s (hAuth ++ A) with um.sessions := [(1, opening)] }

theorem hmac_length (key msg : List Byte) : (hmac key msg).length = 48 := rfl

theorem auth_field (B : List Byte) {o n : Nat} (ho : o + n ≤ 48) : fieldAt (hAuth ++ B) o n = fieldAt hAuth o n := by
  have hl : hAuth.length = 48 := by decide
  unfold fieldAt
  rw [List.drop_append_of_le_length (by omega), List.take_append_of_le_length (by rw [List.length_drop]; omega)]

theorem auth_pass {s : State} {B : List Byte} (h0 : (s.inBoot || s.sys.strapTest) = false) : s.precheck ⟨.t1s, hAuth ++ B⟩ = .pass := by
  have fld : ∀ o n, o + n ≤ 48 → fieldAt (hAuth ++ B) o n = fieldAt hAuth o n := fun o n ho => auth_field B ho
  have ck : s.sessionCheck ⟨.t1s, hAuth ++ B⟩ = .pass := by
    unfold State.sessionCheck
    simp only [show frOp (hAuth ++ B) = 0x11 by simp only [frOp, fld 1 1 (by omega)]; decide]
    simp
  have e5 : frMalformed (hAuth ++ B) = false := by
    simp only [frMalformed, frVer, frBulk, frLen, fld 0 1 (by omega), fld 0x10 4 (by omega), fld 0x14 4 (by omega), fld 0x1C 4 (by omega)]
    decide
  have e6 : pathRefusal .t1s (hAuth ++ B) = none := by
    simp only [pathRefusal, frBulk, frFwd, frOp, fld 1 1 (by omega), fld 0x10 4 (by omega), fld 0x14 4 (by omega)]
    decide
  have bp : s.bootPass ⟨.t1s, hAuth ++ B⟩ = true := by unfold State.bootPass; rw [h0]; rfl
  unfold State.precheck
  simp only [e5, e6, ck, bp]
  split <;> simp_all

theorem auth_congr {s t : State} {n : Nat} {x : Session} (h : s.um.keys = t.um.keys) : s.authValue n x = t.authValue n x := by
  unfold State.authValue State.keyOf; rw [h]; rfl

/-- SESSION_AUTH with the right value: the frame carries what A must be. -/
theorem witness_RightAuthentication :
    let A := (authState []).authValue 1 opening
    serves (authState A) .t1s 0x11 ⟨.t1s, hAuth ++ A⟩ [] ∧
      (taken (authState A) .t1s ⟨.t1s, hAuth ++ A⟩ []).frPayload (hAuth ++ A) =
        (taken (authState A) .t1s ⟨.t1s, hAuth ++ A⟩ []).authValue (frSession (hAuth ++ A)) opening ∧ opening.opened = false := by
  intro A
  have hA : A.length = 48 := hmac_length _ _
  have hp : ∀ s : State, s.frPayload (hAuth ++ A) = A := fun s => by
    have h1 : frBulk (hAuth ++ A) = false := by unfold frBulk; rw [auth_field A (by omega)]; decide
    have h2 : frLen (hAuth ++ A) = 48 := by unfold frLen; rw [auth_field A (by omega)]; decide
    rw [State.frPayload, h1, h2, List.drop_left' (by decide)]
    simp [← hA]
  have h3 : frSession (hAuth ++ A) = 1 := by unfold frSession; rw [auth_field A (by omega)]; decide
  refine ⟨⟨fun c hc => (by cases hc), by decide +kernel, rfl, rfl, ?_, ?_, auth_pass (by decide +kernel)⟩, ?_, rfl⟩
  · show fieldAt _ 1 1 = 0x11; rw [auth_field A (by omega)]; decide
  · show (fieldAt _ 0x14 4).testBit 17 = false; rw [auth_field A (by omega)]; decide
  · rw [hp, h3]
    exact auth_congr (by decide +kernel)
/-- A service operation for context 0, all but its common part being `pl`. -/
def service (op : Nat) (pl : List Byte) : List Byte := frame op 0 0 0 (8 + pl.length) 0 (List.replicate 8 0 ++ pl)

def tk (s : State) (p : UmPath) (bs : List Byte) : State := taken s p ⟨p, bs⟩ []

/-- MAP of one page of 2 MiB at VA 0, readable and writable, to 4 GiB; UNMAP of it; PEN_ALLOC of any counting handle; CORE_SET of core 3. -/
def fMap : List Byte := service 0x30 (natLe 8 0 ++ natLe 4 1 ++ [0, 3, 0, 0] ++ natLe 8 (2 ^ 32))
def fUnmap : List Byte := service 0x31 (natLe 8 0 ++ natLe 4 1 ++ [0, 0, 0, 0])
def fAlloc : List Byte := service 0x32 ([3, 0] ++ natLe 2 320 ++ natLe 4 0)
def fCores : List Byte := service 0x34 (natLe 8 8 ++ List.replicate 32 0)
def mappedPage (s : State) : State := s.modCtx 0 (fun x => { x with vaPages := [(0, 2 ^ 12)] })

theorem fits_of {t : State} {rq : UmReq} {c : Nat} (h : (frLen rq.bs == svcLen (frOp rq.bs) && fieldAt (t.frPayload rq.bs) 0 1 == c && decide (c < 16)
    && fieldAt (t.frPayload rq.bs) 1 7 == 0 && (match rq.path with
      | .svc d => d == c
      | _ => true)) = true) : svcFits t rq c := by
  simp only [Bool.and_eq_true, beq_iff_eq, decide_eq_true_eq] at h
  obtain ⟨⟨⟨⟨h1, h2⟩, h3⟩, h4⟩, h5⟩ := h
  refine ⟨h1, h2, h3, h4, ?_⟩
  intro d hd
  rw [hd] at h5
  simpa using h5

theorem witness_ServiceOperationsAct :
    (serves (atHead .mbox fMap) .mbox 0x30 ⟨.mbox, fMap⟩ [] ∧ svcFits (tk (atHead .mbox fMap) .mbox fMap) ⟨.mbox, fMap⟩ 0 ∧
      (tk (atHead .mbox fMap) .mbox fMap).frPayload fMap =
        natLe 1 0 ++ List.replicate 7 0 ++ natLe 8 0 ++ natLe 4 1 ++ [0, 3, 0, 0] ++ natLe 8 (2 ^ 32) ∧
      2 ^ 32 + 2 ^ 21 ≤ (tk (atHead .mbox fMap) .mbox fMap).stripedEnd ∧ ((tk (atHead .mbox fMap) .mbox fMap).ctx 0).mapped = [] ∧
      (tk (atHead .mbox fMap) .mbox fMap).um.ptTables = 0) ∧
    (let s := mappedPage (atHead (.svc 0) fUnmap)
     serves s (.svc 0) 0x31 ⟨.svc 0, fUnmap⟩ [] ∧ svcFits (tk s (.svc 0) fUnmap) ⟨.svc 0, fUnmap⟩ 0 ∧
       (svcUnmap 0 ((tk s (.svc 0) fUnmap).frPayload fUnmap) (tk s (.svc 0) fUnmap)).1 = some {}) ∧
    (let s := atHead (.svc 0) fAlloc
     serves s (.svc 0) 0x32 ⟨.svc 0, fAlloc⟩ [] ∧ svcFits (tk s (.svc 0) fAlloc) ⟨.svc 0, fAlloc⟩ 0 ∧
       (svcPenAlloc 0 ((tk s (.svc 0) fAlloc).frPayload fAlloc) (tk s (.svc 0) fAlloc)).1 = some { payload := natLe 4 0 }) ∧
    (let s := atHead .mbox fCores
     serves s .mbox 0x34 ⟨.mbox, fCores⟩ [] ∧ svcFits (tk s .mbox fCores) ⟨.mbox, fCores⟩ 0 ∧
       (svcCoreSet 0 ((tk s .mbox fCores).frPayload fCores) (tk s .mbox fCores)).1 = some {}) :=
  ⟨⟨serves_of (by decide +kernel), fits_of (by decide +kernel), by decide +kernel, by decide +kernel, by decide +kernel, by decide +kernel⟩,
    ⟨serves_of (by decide +kernel), fits_of (by decide +kernel), by decide +kernel⟩,
    ⟨serves_of (by decide +kernel), fits_of (by decide +kernel), by decide +kernel⟩,
    ⟨serves_of (by decide +kernel), fits_of (by decide +kernel), by decide +kernel⟩⟩

def fwdFrame : List Byte := frame 1 0x1004 0 0 0 (1 + 2 ^ 17) []
def forwarding : State := { paired with um.queues := [(0, [⟨.t1s, fwdFrame⟩])] }
def oneEvent : State := { up with um.events := [(1, [⟨1, 2, 3⟩])] }

theorem witness_UmaselPathsAct :
    (up.mcOn = true ∧ up.sys.linkUp = true ∧ ({ up with um.mbox := { up.um.mbox with go := true } } : State).um.mbox.go = true) ∧
    (up.um.mbox.go = false ∧ (1#32).getLsbD 0 = true ∧ (up.umQueue .mbox).length < 32) ∧
    (ctxOk 15 = true ∧ up.vfOn 15 = true ∧ up.pwr.state = 0 ∧ (up.ctx 15).svc.go = false ∧ (up.umQueue (.svc 15)).length < 32) ∧
    (frShort fRead = false ∧ (up.umQueue .t1s).length < 32) ∧ frShort [1, 2] = true ∧
    (forwarding.umQueue .t1s = [⟨.t1s, fwdFrame⟩] ∧ frFwd fwdFrame = true ∧
      (({ forwarding with um.queues := Tab.put forwarding.um.queues 0 [] } : State).settleDrains).precheck ⟨.t1s, fwdFrame⟩ = .pass ∧
      (tk forwarding .t1s fwdFrame).inShape (frDid fwdFrame) = true ∧ (tk forwarding .t1s fwdFrame).didLost (frDid fwdFrame) = false) ∧
    ({ up with um.fwd := [(.t1s, fwdFrame)] } : State).um.fwd[0]? = some (.t1s, fwdFrame) ∧
    (Tab.get [] oneEvent.um.events 1).length = 1 := by decide +kernel

theorem witness_MaintenanceActs :
    accepts owned owner 0x1020 1 1 ∧ accepts owned owner 0x1020 2 1 ∧ accepts owned owner 0x1030 2 1 ∧ accepts owned owner 0x1030 4 1 ∧
    (up.works = true ∧ cdOk 7 = true ∧ 40 ≤ 47 ∧ 47 < 48) ∧ ∀ j, j < 40 → (up.core (7 * 40 + j)).physIdx ≠ 47 := by
  refine ⟨accepts_of (by decide +kernel), accepts_of (by decide +kernel), accepts_of (by decide +kernel), accepts_of (by decide +kernel),
    by decide +kernel, by decide +kernel⟩

theorem witness_DumpsAndTimestampsAct :
    (owned.mcOn = true ∧ owned.obj 0x5E00 1 / 2 ^ 5 % 2 = 1 ∧ owned.obs.dumpState = 0 ∧
      (let s : State := { owned with obs.dumpState := 2 }; s.obj 0x5E00 1 / 2 ^ 0 % 2 = 1 ∧ s.rbd.safeHold = false ∧ s.obs.dumpState = 2)) ∧
    ({ up with obs.dumpState := 1 } : State).obs.dumpState = 1 ∧ accepts owned owner 0x5E00 2 1 ∧
    (accepts owned owner 0x5E00 4 1 ∧ owned.obs.dumpState ≠ 1) ∧ (accepts owned owner 0x5100 7 1 ∧ owned.obj 0x5100 1 = 1) ∧
    (portOk 0 = true ∧ portUp2.alive = true ∧ portUp2.obj 0x5100 1 = 1 ∧ portUp2.obj 0x5100 2 ≠ 2 ∧ portUp (portUp2.port 0).st = true ∧
      Tab.get 0 portUp2.obs.linkN 0 < 63) :=
  ⟨by decide +kernel, by decide +kernel, accepts_of (by decide +kernel), ⟨accepts_of (by decide +kernel), by decide +kernel⟩,
    ⟨accepts_of (by decide +kernel), by decide +kernel⟩, by decide +kernel⟩

theorem witness_RegisterAndBarAccessesAct :
    (up.mcOn = true ∧ up.sys.linkUp = true ∧ up.vfOn 0 = true ∧ 0 < 2 ^ 30 * up.sys.bar2Pf ∧ up.works = true ∧ up.xl.bar2Base.toNat + 0 < 2 ^ 32) ∧
    (let s : State := { up with xl.bar2Base := 0x100000000 }; s.vfOn 0 = true ∧ 2 ^ 32 ≤ s.xl.bar2Base.toNat + 0 ∧
      s.xl.bar2Base.toNat + 0 + 8 ≤ s.stripedEnd) := by decide +kernel

/-! ## Hypotheses met: frames of a session (the tag is a hash of the frame, which the frame then carries) -/

/-- A frame of header h with its tag under a key. -/
def signed (key h pl : List Byte) : List Byte := h ++ (tagOf key h pl ++ pl)

theorem tagOf_length (key h pl : List Byte) : (tagOf key h pl).length = 16 := by
  simp only [tagOf, List.length_append, List.length_take, List.length_replicate]; omega

theorem signed_field {key h pl : List Byte} {o n : Nat} (hl : h.length = 32) (ho : o + n ≤ 32) :
    fieldAt (signed key h pl) o n = fieldAt h o n := by
  unfold fieldAt signed
  rw [List.drop_append_of_le_length (by omega), List.take_append_of_le_length (by rw [List.length_drop]; omega)]

theorem signed_tag {key h pl : List Byte} (hl : h.length = 32) : frTag (signed key h pl) = tagOf key h pl := by
  unfold frTag signed
  rw [show (0x20 : Nat) = h.length from hl.symm, List.drop_left, List.take_left' (tagOf_length key h pl)]

theorem signed_head {key h pl : List Byte} (hl : h.length = 32) : (signed key h pl).take 0x20 = h := List.take_left' hl

theorem signed_payload {key h pl : List Byte} (s : State) (hl : h.length = 32) (hb : frBulk h = false) (hn : frLen h = pl.length) :
    s.frPayload (signed key h pl) = pl := by
  have hb' : frBulk (signed key h pl) = false := by unfold frBulk at *; rw [signed_field hl (by omega)]; exact hb
  have hn' : frLen (signed key h pl) = pl.length := by unfold frLen at *; rw [signed_field hl (by omega)]; exact hn
  have hd : (signed key h pl).drop 48 = pl := by
    unfold signed; rw [← List.append_assoc]; exact List.drop_left' (by rw [List.length_append, hl, tagOf_length])
  rw [State.frPayload, hb', hn', hd]; simp

/-- A session's frame with the right tag and number passes the checks of every request. -/
theorem signed_pass {s : State} {key h pl : List Byte} {x : Session} (hl : h.length = 32) (hb : frBulk h = false) (hn : frLen h = pl.length)
    (hs : s.session .mbox (frSession h) = some x) (hk : x.key = key) (hm : frMseq h = (x.mseqIn + 1) % 2 ^ 32) (hf : frMalformed h = false)
    (hr : pathRefusal .mbox h = none) (h0 : (s.inBoot || s.sys.strapTest) = false) :
    s.precheck ⟨.mbox, signed key h pl⟩ = .pass := by
  have fld : ∀ o n, o + n ≤ 32 → fieldAt (signed key h pl) o n = fieldAt h o n := fun o n ho => signed_field hl ho
  have e1 : frFwd (signed key h pl) = frFwd h := by simp only [frFwd, fld 0x14 4 (by omega)]
  have e2 : frSession (signed key h pl) = frSession h := by simp only [frSession, fld 4 2 (by omega)]
  have e3 : frOp (signed key h pl) = frOp h := by simp only [frOp, fld 1 1 (by omega)]
  have e4 : frMseq (signed key h pl) = frMseq h := by simp only [frMseq, fld 0x18 4 (by omega)]
  have e5 : frMalformed (signed key h pl) = frMalformed h := by
    simp only [frMalformed, frVer, frBulk, frLen, fld 0 1 (by omega), fld 0x10 4 (by omega), fld 0x14 4 (by omega), fld 0x1C 4 (by omega)]
    congr!
  have e6 : pathRefusal .mbox (signed key h pl) = pathRefusal .mbox h := by
    simp only [pathRefusal, frBulk, e1, e3, fld 0x10 4 (by omega)]
    congr!
  have ck : s.sessionCheck ⟨.mbox, signed key h pl⟩ = .pass := by
    unfold State.sessionCheck
    simp only [e2, e3, e4, hs, hk, signed_tag hl, signed_head hl, signed_payload s hl hb hn, hm]
    simp
  have bp : s.bootPass ⟨.mbox, signed key h pl⟩ = true := by unfold State.bootPass; rw [h0]; rfl
  unfold State.precheck
  simp only [e5, e6, hf, hr, ck, bp]
  split <;> simp_all

/-- The header of a WRITE_SEG of four bytes of the rank map at offset 0, and that of a SESSION_CLOSE, in session 1 with number 1. -/
def hSeg : List Byte := [1, 4, 0, 0, 1, 0, 0, 0, 6, 0x40, 0, 0] ++ natLe 4 0 ++ natLe 4 4 ++ natLe 4 0 ++ natLe 4 1 ++ natLe 4 0
def hClose : List Byte := [1, 0x12, 0, 0, 1, 0, 0, 0, 0, 0, 0, 0] ++ natLe 4 0 ++ natLe 4 0 ++ natLe 4 0 ++ natLe 4 1 ++ natLe 4 0
def mboxSession : Session := ⟨3, .mbox, true, [], [], [], 0, 0⟩
def inSession (h pl : List Byte) : State :=
  { up with um.sessions := [(1, mboxSession)], um.queues := [(1, [⟨.mbox, signed [] h pl⟩])] }

theorem signed_serves {s s' : State} {h pl : List Byte} {op : Nat} (hl : h.length = 32) (hb : frBulk h = false) (hn : frLen h = pl.length)
    (ho : frOp h = op) (hw : frFwd h = false) (hm : frMseq h = 1) (hf : frMalformed h = false) (hr : pathRefusal .mbox h = none)
    (hq : s.umQueue .mbox = [⟨.mbox, signed [] h pl⟩]) (hc : s.mcOn = true)
    (hd : s' = ({ s with um.queues := Tab.put s.um.queues (pathNo .mbox) [] } : State).settleDrains)
    (hs : s'.session .mbox (frSession h) = some mboxSession) (h0 : (s'.inBoot || s'.sys.strapTest) = false) :
    serves s .mbox op ⟨.mbox, signed [] h pl⟩ [] := by
  refine ⟨fun c hc => (by cases hc), hc, hq, rfl, ?_, ?_, ?_⟩
  · show fieldAt _ 1 1 = op; rw [signed_field hl (by omega)]; exact ho
  · show (fieldAt _ 0x14 4).testBit 17 = false; rw [signed_field hl (by omega)]; exact hw
  · rw [← hd]; exact signed_pass (x := mboxSession) hl hb hn hs rfl hm hf hr h0

theorem witness_SessionFrames :
    serves (inSession hSeg [1, 2, 3, 4]) .mbox 4 ⟨.mbox, signed [] hSeg [1, 2, 3, 4]⟩ [] ∧
    serves (inSession hClose []) .mbox 0x12 ⟨.mbox, signed [] hClose []⟩ [] ∧ frSession (signed [] hClose []) = 1 := by
  refine ⟨signed_serves rfl (by decide) (by decide) (by decide) (by decide) (by decide) (by decide) (by decide) rfl
      (by decide +kernel) rfl (by decide +kernel) (by decide +kernel),
    signed_serves rfl (by decide) (by decide) (by decide) (by decide) (by decide) (by decide) (by decide) rfl
      (by decide +kernel) rfl (by decide +kernel) (by decide +kernel), ?_⟩
  show fieldAt _ 4 2 = 1; rw [signed_field rfl (by omega)]; decide

/-- The other conditions of the clause of WRITE_SEG. -/
theorem witness_WriteSegOfTheRankMap :
    (objAt 0x4006 0).any (fun r => r.ty == .domain) = true ∧
    ({ up with um.sessions := [(1, mboxSession)] } : State).writeRefusal ⟨.mbox, 1⟩ 0x4006 0 = none ∧
    Tab.find up.um.locks (0x4006 * 256) = none ∧ frOffset hSeg = 0 ∧ frLast hSeg = false ∧ 4 ≤ domainMax 0x4006 := by decide +kernel

/-! ## Hypotheses met: clauses left over -/

/-- A WAIT that all of context 0's work is. -/
def allWait : State := withCmd { cmdOf 7 [] with begun := true }

theorem witness_QuiescentContext :
    allWait.alive = true ∧ allWait.obj 0x2200 1 ≠ 0 ∧ allWait.quiescent 0 = true ∧ allWait.blocked 0 = false := by decide +kernel

/-- PEN_RELEASE of handle 0, whose entry is valid. -/
def fRelease : List Byte := service 0x33 (natLe 4 0)
def allocated : State := place8 { atHead (.svc 0) fRelease with xl.penRoot := [(0, 1)] } 0 [1, 0, 0, 0, 0, 0, 0, 0]

theorem witness_PenRelease :
    serves allocated (.svc 0) 0x33 ⟨.svc 0, fRelease⟩ [] ∧ svcFits (tk allocated (.svc 0) fRelease) ⟨.svc 0, fRelease⟩ 0 ∧
    (svcPenRelease 0 ((tk allocated (.svc 0) fRelease).frPayload fRelease) (tk allocated (.svc 0) fRelease)).1 = some {} :=
  ⟨serves_of (by decide +kernel), fits_of (by decide +kernel), by decide +kernel⟩

/-- A delta packet of 8 bytes for offset 0 of context 0's held image (Table 11.8). -/
def aDelta : List Byte := pkt 5 0 ([0x0A, 0] ++ natLe 2 8 ++ natLe 4 0 ++ natLe 8 0 ++ List.replicate 8 1)

theorem witness_ParityDelta :
    arrives up 75 5 aDelta ∧ pdOk aDelta = true ∧ pdOffset aDelta % 4096 + pdLen aDelta ≤ 4096 :=
  ⟨arrives_of (by decide +kernel), by decide +kernel, by decide +kernel⟩

theorem witness_UpdateWithNoDeltas :
    (runs (uRun { anUpd 0 with chunks := [0] })).sendDeltas ⟨0, 7⟩ = runs (uRun { anUpd 0 with chunks := [0] }) := by decide +kernel

/-! ## Cases worked out in the spec -/

/-- Rows of Table 4.5: 464, 470, 61 440 (IEEE and saturating), 61 439, 7.0, -0, 3 · 2^-134 and 2^-140. -/
theorem test_table_4_5 :
    Fp.encode Fp.e4m3 false .rne (.fin false 464 0) = (0x7E, false) ∧ Fp.encode Fp.e4m3 false .rne (.fin false 470 0) = (0x7E, true) ∧
    Fp.encode Fp.e5m2 false .rne (.fin false 61439 0) = (0x7B, false) ∧ Fp.encode Fp.e5m2 false .rne (.fin false 61440 0) = (0x7C, true) ∧
    Fp.encode Fp.e5m2 true .rne (.fin false 61440 0) = (0x7B, true) ∧ Fp.encode Fp.e2m1 false .rne (.fin false 7 0) = (7, true) ∧
    Fp.encode Fp.bf16 false .rne (.fin true 0 0) = (0x8000, false) ∧ Fp.encode Fp.bf16 false .rne (.fin false 3 (-134)) = (2, false) ∧
    Fp.encode Fp.bf16 false .rne (.fin false 1 (-140)) = (0, false) := by decide +kernel

/-- The INT8 rows of Table 4.5: 127.5 is 127 with overflow, -128.5 is -128 without. -/
theorem test_table_4_5_integers : Fp.toInt (-128) 127 .rne (.fin false 255 (-1)) = (127, true) ∧
    Fp.toInt (-128) 127 .rne (.fin true 257 (-1)) = (-128, false) := by decide +kernel

/-- The decode of Table 6.3. -/
theorem test_table_6_3 :
    State.reset.locate 0x00012E4B5A40 = ⟨false, 900507, 8, 64⟩ ∧ State.reset.stackOf false 900507 0 = 3 ∧ State.reset.stackOf false 900507 1 = 4 ∧
    State.reset.stackOf false 900507 10 = 13 ∧ dieOfStack 13 = 4 ∧ stackInternal 900507 = (27, 2, 11, 54) := by decide +kernel

/-- With nothing in its queue the module idles: it takes nothing and leaves the queue empty. -/
theorem test_step_idles : (match step State.reset with
    | .next t => t.pending.isEmpty
    | _ => false) = true := by decide +kernel

/-- The first draw from SEED_INIT 1 advances SEED to 0x00042021, and 1 + 2^-10 then rounds to 0x3F81 (Stochastic rounding, the example). -/
theorem test_first_draw : Fp.seedStep 1 = 0x00042021#32 ∧ Fp.drawOf 0x00042021#32 = 4 ∧
    Fp.encode Fp.bf16 false (.sr 4) (.fin false 1025 (-10)) = (0x3F81, false) := by decide +kernel

/-! ## SHA-384 and HMAC, with the test vectors of FIPS 180-4 and RFC 4231 -/

theorem test_sha384_abc : sha384 [0x61, 0x62, 0x63] = natBe 48 0xcb00753f45a35e8bb5a03d699ac65007272c32ab0eded1631a8b605a43ff5bed8086072ba1e7cc2358baeca134c825a7 := by
  decide +kernel

theorem test_hmac_jefe : hmac [0x4a, 0x65, 0x66, 0x65] ([0x77, 0x68, 0x61, 0x74, 0x20, 0x64, 0x6f, 0x20, 0x79, 0x61, 0x20, 0x77, 0x61, 0x6e, 0x74,
    0x20, 0x66, 0x6f, 0x72, 0x20, 0x6e, 0x6f, 0x74, 0x68, 0x69, 0x6e, 0x67, 0x3f]) =
    natBe 48 0xaf45d2e376484031617f78d2b58a6b1b9c7ef464f5a01b47e42ec3736322445e8e2240ca5e69e2c78b3239ecfab21649 := by decide +kernel

end Sys2Proof.Tests
end

section
/-! # The canonical form of the memories (O59)

A state is in form when its striped memory and the memories of its cores are. Each operation of the model keeps the form: it leaves these
memories, writes bytes over them, or clears them. The lemmas follow the model's files; `memWf_f` is about `f` on a state, `coreMemWf_f`
about `f` on a core, `keepsForm_execC` about the command C. -/

namespace Sys2Proof.Laws
open Sys2Proof Sys2Proof.Machine

/-! ## The form of the memories, of a state and of a core -/

theorem memWf_iff {s : State} : s.memWf = true ↔ s.mem.units.wf = true ∧ s.cores.all (fun e => e.2.memWf) = true := by
  simp only [State.memWf, Bool.and_eq_true]

theorem coreMemWf_iff {cs : CoreState} : cs.memWf = true ↔ cs.tm.wf = true ∧ cs.am.wf = true := by
  simp only [CoreState.memWf, Bool.and_eq_true]

/-- A change that leaves the units of striped memory and the cores leaves the form. -/
theorem memWf_frame {s t : State} (h : s.memWf = true) (hu : t.mem.units = s.mem.units)
    (hc : t.cores = s.cores) : t.memWf = true := by
  simpa only [State.memWf, hu, hc] using h

/-- A change that leaves both memories of a core leaves their form. -/
theorem coreMemWf_frame {cs ds : CoreState} (h : cs.memWf = true) (ht : ds.tm = cs.tm)
    (ha : ds.am = cs.am) : ds.memWf = true := by
  simpa only [CoreState.memWf, ht, ha] using h

/-- A change of the pennants alone. -/
theorem memWf_withPen {s : State} {p : Pen} (h : s.memWf = true) : ({ s with pen := p } : State).memWf = true := h

/-- A change of the fabric alone. -/
theorem memWf_withFab {s : State} {f : Fab} (h : s.memWf = true) : ({ s with fab := f } : State).memWf = true := h

/-- A change of the system's registers alone. -/
theorem memWf_withSys {s : State} {x : Sys} (h : s.memWf = true) : ({ s with sys := x } : State).memWf = true := h

/-- A change of what is observed alone. -/
theorem memWf_withObs {s : State} {x : Obs} (h : s.memWf = true) : ({ s with obs := x } : State).memWf = true := h

/-- A change of the recovery alone. -/
theorem memWf_withRbd {s : State} {x : Rbd} (h : s.memWf = true) : ({ s with rbd := x } : State).memWf = true := h

/-- A change of the management protocol alone. -/
theorem memWf_withUm {s : State} {x : Um} (h : s.memWf = true) : ({ s with um := x } : State).memWf = true := h

/-- A change of the collectives alone. -/
theorem memWf_withColl {s : State} {x : Coll} (h : s.memWf = true) : ({ s with coll := x } : State).memWf = true := h

theorem memWf_withXlRbd {s : State} {x : Xl} {r : Rbd} (h : s.memWf = true) : ({ s with xl := x, rbd := r } : State).memWf = true := h

/-! ## Choices and folds -/

section
variable {α β : Type} {c : Prop} {dec : Decidable c}

theorem memWf_ite {s t : State} (hs : s.memWf = true) (ht : t.memWf = true) : (if c then s else t).memWf = true := by
  split
  · exact hs
  · exact ht

/-- A state in a pair. -/
theorem memWf_snd_mk {a : α} {s : State} (h : s.memWf = true) : (a, s).2.memWf = true := h

theorem memWf_snd_ite {x y : α × State} (hx : x.2.memWf = true) (hy : y.2.memWf = true) : (if c then x else y).2.memWf = true := by
  split
  · exact hx
  · exact hy

theorem coreMemWf_ite {x y : CoreState} (hx : x.memWf = true) (hy : y.memWf = true) : (if c then x else y).memWf = true := by
  split
  · exact hx
  · exact hy

theorem coreMemWf_snd_ite {x y : α × CoreState} (hx : x.2.memWf = true) (hy : y.2.memWf = true) :
    (if c then x else y).2.memWf = true := by
  split
  · exact hx
  · exact hy

theorem memWf_foldl {f : State → β → State} {l : List β} {s : State} (h : s.memWf = true)
    (hf : ∀ t b, t.memWf = true → (f t b).memWf = true) : (l.foldl f s).memWf = true :=
  List.foldlRecOn (motive := fun t => t.memWf = true) l f h fun t ht b _ => hf t b ht

theorem memWf_snd_foldl {f : α × State → β → α × State} {l : List β} {x : α × State} (h : x.2.memWf = true)
    (hf : ∀ y b, y.2.memWf = true → (f y b).2.memWf = true) : (l.foldl f x).2.memWf = true :=
  List.foldlRecOn (motive := fun y => y.2.memWf = true) l f h fun t ht b _ => hf t b ht

/-- A state first in a pair. -/
theorem memWf_fst_mk {a : α} {s : State} (h : s.memWf = true) : (s, a).1.memWf = true := h

theorem memWf_fst_foldl {f : State × α → β → State × α} {l : List β} {x : State × α} (h : x.1.memWf = true)
    (hf : ∀ y b, y.1.memWf = true → (f y b).1.memWf = true) : (l.foldl f x).1.memWf = true :=
  List.foldlRecOn (motive := fun y => y.1.memWf = true) l f h fun t ht b _ => hf t b ht

theorem memWf_fst_snd_foldl {γ : Type} {f : (γ × State) × α → β → (γ × State) × α} {l : List β} {x : (γ × State) × α}
    (h : x.1.2.memWf = true) (hf : ∀ y b, y.1.2.memWf = true → (f y b).1.2.memWf = true) : (l.foldl f x).1.2.memWf = true :=
  List.foldlRecOn (motive := fun y => y.1.2.memWf = true) l f h fun t ht b _ => hf t b ht

theorem memWf_snd2_foldl {γ : Type} {f : α × γ × State → β → α × γ × State} {l : List β} {x : α × γ × State}
    (h : x.2.2.memWf = true) (hf : ∀ y b, y.2.2.memWf = true → (f y b).2.2.memWf = true) : (l.foldl f x).2.2.memWf = true :=
  List.foldlRecOn (motive := fun y => y.2.2.memWf = true) l f h fun t ht b _ => hf t b ht

theorem memWf_snd3_foldl {γ δ : Type} {f : α × γ × δ × State → β → α × γ × δ × State} {l : List β} {x : α × γ × δ × State}
    (h : x.2.2.2.memWf = true) (hf : ∀ y b, y.2.2.2.memWf = true → (f y b).2.2.2.memWf = true) : (l.foldl f x).2.2.2.memWf = true :=
  List.foldlRecOn (motive := fun y => y.2.2.2.memWf = true) l f h fun t ht b _ => hf t b ht

theorem coreMemWf_foldl {f : CoreState → β → CoreState} {l : List β} {cs : CoreState} (h : cs.memWf = true)
    (hf : ∀ t b, t.memWf = true → (f t b).memWf = true) : (l.foldl f cs).memWf = true :=
  List.foldlRecOn (motive := fun t => t.memWf = true) l f h fun t ht b _ => hf t b ht

theorem coreMemWf_snd_foldl {f : α × CoreState → β → α × CoreState} {l : List β} {x : α × CoreState} (h : x.2.memWf = true)
    (hf : ∀ y b, y.2.memWf = true → (f y b).2.memWf = true) : (l.foldl f x).2.memWf = true :=
  List.foldlRecOn (motive := fun y => y.2.memWf = true) l f h fun t ht b _ => hf t b ht

theorem coreMemWf_snd2_foldl {γ : Type} {f : α × γ × CoreState → β → α × γ × CoreState} {l : List β} {x : α × γ × CoreState}
    (h : x.2.2.memWf = true) (hf : ∀ y b, y.2.2.memWf = true → (f y b).2.2.memWf = true) : (l.foldl f x).2.2.memWf = true :=
  List.foldlRecOn (motive := fun y => y.2.2.memWf = true) l f h fun t ht b _ => hf t b ht

end

/-! ## The table of cores -/

theorem allWf_put {t : Tab CoreState} {cs : CoreState} (ht : t.all (fun e => e.2.memWf) = true) (hc : cs.memWf = true) (L : Nat) :
    (Tab.put t L cs).all (fun e => e.2.memWf) = true := by
  induction t with
  | nil => simpa [Tab.put] using hc
  | cons e t ih =>
    obtain ⟨a, w⟩ := e
    simp only [List.all_cons, Bool.and_eq_true] at ht
    obtain ⟨hw, ht⟩ := ht
    simp only [Tab.put]
    split
    · simp [hc, hw, ht]
    · split
      · simp [hc, ht]
      · simp [hw, ih ht]

theorem coreMemWf_of_find {t : Tab CoreState} {L : Nat} {cs : CoreState} (ht : t.all (fun e => e.2.memWf) = true)
    (hf : Tab.find t L = some cs) : cs.memWf = true := by
  induction t with
  | nil => simp [Tab.find] at hf
  | cons e t ih =>
    obtain ⟨a, w⟩ := e
    simp only [List.all_cons, Bool.and_eq_true] at ht
    simp only [Tab.find] at hf
    split at hf
    · obtain rfl := Option.some.inj hf; exact ht.1
    · exact ih ht.2 hf

/-- Every core of a state in form is in form. -/
theorem coreMemWf_core {s : State} {L : Nat} (h : s.memWf = true) : (s.core L).memWf = true := by
  unfold State.core
  cases hf : Tab.find s.cores L with
  | none => rfl
  | some cs => exact coreMemWf_of_find (memWf_iff.mp h).2 hf

theorem memWf_setCore {s : State} {L : Nat} {cs : CoreState} (h : s.memWf = true) (hc : cs.memWf = true) : (s.setCore L cs).memWf = true :=
  memWf_iff.mpr ⟨(memWf_iff.mp h).1, allWf_put (memWf_iff.mp h).2 hc L⟩

theorem memWf_modCore {s : State} {L : Nat} {g : CoreState → CoreState} (h : s.memWf = true) (hg : (g (s.core L)).memWf = true) :
    (s.modCore L g).memWf = true := memWf_setCore h hg

/-- The same change at every core, whatever else changes that is not the units of striped memory. -/
theorem memWf_mapCores {s t : State} {g : Nat → CoreState → CoreState} (h : s.memWf = true)
    (hg : ∀ L cs, cs.memWf = true → (g L cs).memWf = true) (hu : t.mem.units = s.mem.units)
    (hc : t.cores = Tab.mapV s.cores g) : t.memWf = true := by
  refine memWf_iff.mpr ⟨hu ▸ (memWf_iff.mp h).1, ?_⟩
  have hs := (memWf_iff.mp h).2
  simp only [hc, List.all_eq_true, Tab.mapV, List.mem_map] at hs ⊢
  rintro _ ⟨e, he, rfl⟩
  exact hg _ _ (hs e he)

/-! ## Outcomes -/

/-- The memories of the state that an outcome answers, if any, have their canonical form. -/
def KeepsForm (o : Host.Outcome State Fault Refusal) : Prop := ∀ t, o = .next t → t.memWf = true

theorem keepsForm_next {t : State} (h : t.memWf = true) : KeepsForm (.next t) := by
  rintro _ ⟨⟩
  exact h

theorem keepsForm_fault {f : Fault} : KeepsForm (.fault f) := by
  intro _ e
  cases e

theorem keepsForm_ite {c : Prop} {dec : Decidable c} {o p : Host.Outcome State Fault Refusal} (ho : KeepsForm o) (hp : KeepsForm p) :
    KeepsForm (if c then o else p) := by
  split
  · exact ho
  · exact hp

section
variable {s : State} {g : State → State} (hg : (g s).memWf = true)
include hg

theorem keepsForm_onCore {L : Nat} : KeepsForm (onCore L s g) := keepsForm_ite (keepsForm_next hg) keepsForm_fault
theorem keepsForm_onCtx {c : Nat} : KeepsForm (onCtx c s g) := keepsForm_ite (keepsForm_next hg) keepsForm_fault
theorem keepsForm_onRing {c n : Nat} : KeepsForm (onRing c n s g) :=
  keepsForm_ite (keepsForm_ite (keepsForm_next hg) keepsForm_fault) keepsForm_fault
theorem keepsForm_onKey {k : CmdKey} : KeepsForm (onKey k s g) :=
  keepsForm_ite (keepsForm_ite (keepsForm_next hg) keepsForm_fault) keepsForm_fault
theorem keepsForm_onStack {n : Nat} : KeepsForm (onStack n s g) := keepsForm_ite (keepsForm_next hg) keepsForm_fault
theorem keepsForm_onPort {p : Nat} : KeepsForm (onPort p s g) := keepsForm_ite (keepsForm_next hg) keepsForm_fault
theorem keepsForm_onPortIn {p : Nat} : KeepsForm (onPortIn p s g) := keepsForm_ite (keepsForm_next hg) keepsForm_fault
theorem keepsForm_onTag {t : CollTag} : KeepsForm (onTag t s g) := keepsForm_ite (keepsForm_onCtx hg) keepsForm_fault
theorem keepsForm_onIod {k : Nat} : KeepsForm (onIod k s g) := keepsForm_ite (keepsForm_next hg) keepsForm_fault
theorem keepsForm_onCd {d : Nat} : KeepsForm (onCd d s g) := keepsForm_ite (keepsForm_next hg) keepsForm_fault
theorem keepsForm_onDie {d : Nat} : KeepsForm (onDie d s g) := keepsForm_ite (keepsForm_next hg) keepsForm_fault

theorem keepsForm_onPath {p : UmPath} : KeepsForm (onPath p s g) := by
  unfold onPath
  split
  · exact keepsForm_onCtx hg
  · exact keepsForm_next hg

end

/-! ## The objects -/

theorem memWf_setObj {s : State} {idx sub v : Nat} (h : s.memWf = true) : (s.setObj idx sub v).memWf = true := memWf_frame h rfl rfl

/-! ## The shared operations -/

theorem memWf_setCtx {s : State} {c : Nat} {x : CtxState} (h : s.memWf = true) : (s.setCtx c x).memWf = true :=
  memWf_frame h rfl rfl

theorem memWf_modCtx {s : State} {c : Nat} {g : CtxState → CtxState} (h : s.memWf = true) : (s.modCtx c g).memWf = true :=
  memWf_setCtx h

theorem memWf_modRing {s : State} {c n : Nat} {g : Ring → Ring} (h : s.memWf = true) : (s.modRing c n g).memWf = true :=
  memWf_modCtx h

theorem memWf_setStk {s : State} {n : Nat} {x : Stack} (h : s.memWf = true) : (s.setStk n x).memWf = true := memWf_frame h rfl rfl

theorem memWf_modStk {s : State} {n : Nat} {g : Stack → Stack} (h : s.memWf = true) : (s.modStk n g).memWf = true := memWf_setStk h

theorem memWf_setPort {s : State} {p : Nat} {x : Port} (h : s.memWf = true) : (s.setPort p x).memWf = true := memWf_frame h rfl rfl

theorem memWf_modPort {s : State} {p : Nat} {g : Port → Port} (h : s.memWf = true) : (s.modPort p g).memWf = true := memWf_setPort h

theorem memWf_modFe {s : State} {k : Nat} {g : FrontEnd → FrontEnd} (h : s.memWf = true) : (s.modFe k g).memWf = true :=
  memWf_frame h rfl rfl

theorem memWf_setSlot {s : State} {key : Nat} {x : Slot} (h : s.memWf = true) : (s.setSlot key x).memWf = true :=
  memWf_frame h rfl rfl

theorem memWf_emit {s : State} {o : Out} (h : s.memWf = true) : (s.emit o).memWf = true := memWf_frame h rfl rfl

theorem coreMemWf_condition {cs : CoreState} {st : Status} (h : cs.memWf = true) : (cs.condition st).memWf = true :=
  coreMemWf_frame h rfl rfl

theorem coreMemWf_event {cs : CoreState} {ev n : Nat} (h : cs.memWf = true) : (cs.event ev n).memWf = true :=
  coreMemWf_frame h rfl rfl

theorem memWf_dieEvent {s : State} {d ev n : Nat} {c : Option Nat} (h : s.memWf = true) : (s.dieEvent d ev n c).memWf = true :=
  memWf_frame h rfl rfl

theorem memWf_forCtx {s : State} {c : Option Nat} {was : State} (h : s.memWf = true) : (s.forCtx c was).memWf = true := by
  unfold State.forCtx
  split
  · exact h
  · exact memWf_ite h (memWf_frame h rfl rfl)

theorem memWf_stkCtr {s : State} {n i k : Nat} (h : s.memWf = true) : (s.stkCtr n i k).memWf = true := memWf_modStk h

theorem memWf_portCtr {s : State} {p i k : Nat} (h : s.memWf = true) : (s.portCtr p i k).memWf = true := memWf_modPort h

theorem memWf_dieCtrAdd {s : State} {d i k : Nat} (h : s.memWf = true) : (s.dieCtrAdd d i k).memWf = true := memWf_frame h rfl rfl

theorem memWf_free {s : State} (h : s.memWf = true) : s.free.2.memWf = true := memWf_frame h rfl rfl

theorem memWf_freeBytes {s : State} {n : Nat} (h : s.memWf = true) : (s.freeBytes n).2.memWf = true := memWf_frame h rfl rfl

theorem memWf_event {s : State} {code detail : Nat} (h : s.memWf = true) : (s.event code detail).memWf = true :=
  memWf_foldl h (fun _ _ ht => memWf_ite ht (memWf_ite (memWf_frame ht rfl rfl) (memWf_frame ht rfl rfl)))

theorem memWf_event2 {s : State} {code a b : Nat} (h : s.memWf = true) : (s.event2 code a b).memWf = true := memWf_event h

theorem memWf_logRebind {s : State} {kind logical physical : Nat} (h : s.memWf = true) :
    (s.logRebind kind logical physical).memWf = true := by
  unfold State.logRebind
  exact memWf_event (memWf_frame h rfl rfl)

theorem memWf_enterSafeHold {s : State} {code unit : Nat} (h : s.memWf = true) : (s.enterSafeHold code unit).memWf = true := by
  unfold State.enterSafeHold
  split
  · exact h
  · exact memWf_event (memWf_mapCores (g := fun _ cs => { cs with task := none, queue := [], inflight := [], ended := none }) h
      (fun _ _ hcs => coreMemWf_frame hcs rfl rfl) rfl rfl)

theorem memWf_wakeBy {s : State} {code : Nat} (h : s.memWf = true) : (s.wakeBy code).memWf = true :=
  memWf_ite h (memWf_ite (memWf_frame h rfl rfl) (memWf_ite (memWf_frame h rfl rfl) (memWf_ite (memWf_frame h rfl rfl) h)))

theorem memWf_wakeEngine {s : State} {k : Nat} (h : s.memWf = true) : (s.wakeEngine k).memWf = true :=
  memWf_ite h (memWf_frame h rfl rfl)

theorem memWf_dump {s : State} {cause : Nat} (h : s.memWf = true) : (s.dump cause).memWf = true :=
  memWf_ite h (memWf_ite (memWf_frame h rfl rfl) (memWf_frame h rfl rfl))

/-! ## One count of the clock -/

theorem coreMemWf_cycles {cs : CoreState} {n : Nat} (h : cs.memWf = true) : (cs.cycles n).memWf = true := by
  unfold CoreState.cycles
  extract_lets c1 c2 c3 c4 c5
  have h1 : c1.memWf = true := coreMemWf_ite (coreMemWf_frame h rfl rfl) h
  have h2 : c2.memWf = true := coreMemWf_ite h1 (coreMemWf_event h1)
  have h3 : c3.memWf = true := coreMemWf_ite (coreMemWf_event h2) h2
  have h4 : c4.memWf = true := coreMemWf_ite (coreMemWf_event h3) h3
  have h5 : c5.memWf = true := coreMemWf_ite (coreMemWf_event h4) h4
  exact coreMemWf_ite (coreMemWf_event h5) h5

theorem memWf_dieCycles {s : State} {d n : Nat} (h : s.memWf = true) : (s.dieCycles d n).memWf = true :=
  memWf_ite h (memWf_ite (memWf_dieCtrAdd (memWf_dieCtrAdd (memWf_dieCtrAdd (memWf_dieCtrAdd h))))
    (memWf_dieCtrAdd (memWf_dieCtrAdd (memWf_dieCtrAdd h))))

theorem memWf_count {s : State} (h : s.memWf = true) : s.count.memWf = true := by
  unfold State.count
  split
  · exact h
  · refine memWf_foldl ?_ fun t b ht => memWf_dieCycles ht
    by_cases hc : (s.pwr.state == 2 || s.pwr.state == 3 || s.rbd.safeHold) = true
    · exact memWf_frame h rfl (if_pos hc)
    · exact memWf_mapCores h (fun _ _ hcs => coreMemWf_cycles hcs) rfl (if_neg hc)

/-! ## Operands of tile instructions -/

theorem coreMemWf_setA {cs : CoreState} {r v : Nat} {pois : Bool} (h : cs.memWf = true) : (cs.setA r v pois).memWf = true :=
  coreMemWf_frame h rfl rfl

theorem coreMemWf_setL {cs : CoreState} {r v : Nat} (h : cs.memWf = true) : (cs.setL r v).memWf = true := coreMemWf_frame h rfl rfl

theorem coreMemWf_setLoc {cs : CoreState} {am : Bool} {m : Memory} (h : cs.memWf = true) (hm : m.wf = true) :
    (cs.setLoc am m).memWf = true := by
  obtain ⟨ht, ha⟩ := coreMemWf_iff.mp h
  cases am
  · exact coreMemWf_iff.mpr ⟨hm, ha⟩
  · exact coreMemWf_iff.mpr ⟨ht, hm⟩

/-- Each memory of a core in form is in form. -/
theorem wf_loc {cs : CoreState} {am : Bool} (h : cs.memWf = true) : (cs.loc am).wf = true := by
  obtain ⟨ht, ha⟩ := coreMemWf_iff.mp h
  cases am
  · exact ht
  · exact ha

/-- Bytes written over one memory of a core. -/
theorem coreMemWf_setLoc_writeN {cs ds : CoreState} {am bm : Bool} {a : Nat} {bs : List Byte} (h : cs.memWf = true) (hd : ds.memWf = true) :
    (cs.setLoc am ((ds.loc bm).writeN a bs)).memWf = true := coreMemWf_setLoc h (wf_writeN bs _ a (wf_loc hd))

theorem coreMemWf_setLocPoison {cs : CoreState} {am : Bool} {p : NSet} (h : cs.memWf = true) :
    (cs.setLocPoison am p).memWf = true := coreMemWf_ite (coreMemWf_frame h rfl rfl) (coreMemWf_frame h rfl rfl)

theorem coreMemWf_setLocErr {cs : CoreState} {am : Bool} {e : Tab Nat} (h : cs.memWf = true) : (cs.setLocErr am e).memWf = true :=
  coreMemWf_ite (coreMemWf_frame h rfl rfl) (coreMemWf_frame h rfl rfl)

theorem coreMemWf_setSticky {cs : CoreState} {i : Nat} (h : cs.memWf = true) : (cs.setSticky i).memWf = true :=
  coreMemWf_frame h rfl rfl

theorem coreMemWf_note {cs : CoreState} {st : Status} (h : cs.memWf = true) : (cs.note st).memWf = true :=
  coreMemWf_ite h (coreMemWf_frame h rfl rfl)

theorem coreMemWf_poisoned {cs : CoreState} (h : cs.memWf = true) : cs.poisoned.memWf = true :=
  coreMemWf_note (coreMemWf_setSticky h)

theorem coreMemWf_poisonRead {cs : CoreState} {n : Nat} (h : cs.memWf = true) : (cs.poisonRead n).memWf = true :=
  coreMemWf_ite h (coreMemWf_frame (coreMemWf_poisoned h) rfl rfl)

theorem coreMemWf_eccWord {cs : CoreState} {am : Bool} {w : Nat} (h : cs.memWf = true) : (cs.eccWord am w).memWf = true := by
  unfold CoreState.eccWord
  split
  · exact h
  · exact coreMemWf_ite (coreMemWf_frame (coreMemWf_setLocErr h) rfl rfl)
      (coreMemWf_note (coreMemWf_setLocPoison (coreMemWf_setLocErr h)))

theorem coreMemWf_load {cs : CoreState} {am : Bool} {a n : Nat} (h : cs.memWf = true) : (cs.load am a n).2.memWf = true := by
  unfold CoreState.load
  extract_lets _ c1
  have h1 : c1.memWf = true := coreMemWf_ite h (coreMemWf_foldl h (fun _ _ ht => coreMemWf_eccWord ht))
  exact coreMemWf_snd_ite h1 (coreMemWf_poisonRead h1)

theorem coreMemWf_store {cs : CoreState} {am : Bool} {a : Nat} {bs : List (Byte × Bool)} (h : cs.memWf = true) :
    (cs.store am a bs).memWf = true := by
  unfold CoreState.store
  extract_lets n whole ws ds any es badAt p fs
  have hd : ds.memWf = true := coreMemWf_ite h (coreMemWf_foldl h fun t b ht =>
    coreMemWf_ite (coreMemWf_setLocErr ht) (coreMemWf_poisonRead (coreMemWf_eccWord ht)))
  have he : es.memWf = true := coreMemWf_setLoc_writeN hd hd
  exact coreMemWf_ite he (coreMemWf_ite (coreMemWf_poisoned (coreMemWf_setLocPoison he)) (coreMemWf_setLocPoison he))

theorem coreMemWf_vecPair {cs : CoreState} {r k : Nat} (h : cs.memWf = true) : (cs.vecPair r k).memWf = true := by
  unfold CoreState.vecPair
  split
  · exact h
  · dsimp only
    split
    · have hb : ({ cs with vErr := Tab.del cs.vErr (r * 32 + k) } : CoreState).memWf = true := coreMemWf_frame h rfl rfl
      exact coreMemWf_frame (coreMemWf_note hb) rfl rfl
    · exact coreMemWf_poisonRead (coreMemWf_note (coreMemWf_frame h rfl rfl))

/-! ## Striped memory -/

theorem memWf_nextErrs {s : State} (h : s.memWf = true) : s.nextErrs.2.memWf = true := memWf_frame h rfl rfl

theorem memWf_setPoison {s : State} {l21 : Bool} {stripe u : Nat} {m : BitVec 8} (h : s.memWf = true) :
    (s.setPoison l21 stripe u m).memWf = true :=
  memWf_ite (memWf_frame h rfl rfl) (memWf_ite (memWf_enterSafeHold h) (memWf_frame (memWf_ite h (memWf_dieEvent h)) rfl rfl))

theorem memWf_setStackState {s : State} {n st : Nat} (h : s.memWf = true) : (s.setStackState n st).memWf = true :=
  memWf_ite h (memWf_event2 (memWf_modStk h))

theorem memWf_touch {s : State} {n : Nat} (h : s.memWf = true) : (s.touch n).memWf = true := memWf_ite h (memWf_modStk h)

theorem memWf_startRetrain {s : State} (h : s.memWf = true) : s.startRetrain.memWf = true := by
  unfold State.startRetrain
  exact memWf_ite h (memWf_frame (memWf_setStackState (memWf_touch h)) rfl rfl)

theorem memWf_settleBypass {s : State} (h : s.memWf = true) : s.settleBypass.memWf = true :=
  memWf_startRetrain (memWf_foldl h (fun _ _ ht => memWf_modStk ht))

theorem memWf_forceBypass {s : State} (h : s.memWf = true) : s.forceBypass.memWf = true :=
  memWf_foldl h (fun _ _ ht => memWf_modStk ht)

theorem memWf_bgFail {s : State} {i : Nat} (h : s.memWf = true) : (s.bgFail i).memWf = true := memWf_event (memWf_frame h rfl rfl)

theorem memWf_failStack {s : State} {n : Nat} (h : s.memWf = true) : (s.failStack n).memWf = true :=
  memWf_ite h (memWf_forceBypass (memWf_logRebind
    (memWf_setStackState (memWf_ite (memWf_bgFail h) (memWf_ite (memWf_bgFail h) h)))))

theorem memWf_uncorrError {s : State} {n : Nat} (h : s.memWf = true) : (s.uncorrError n).memWf = true :=
  memWf_ite (memWf_failStack (memWf_stkCtr (memWf_modStk h))) (memWf_stkCtr (memWf_modStk h))

theorem memWf_severity {s : State} {e : ReadErrs} {n : Nat} (h : s.memWf = true) : (s.severity e n).memWf = true :=
  memWf_ite (memWf_uncorrError h) (memWf_ite (memWf_stkCtr (memWf_modStk h)) h)

theorem memWf_readUnits {s : State} {l21 : Bool} {stripe : Nat} {is : List Nat} (h : s.memWf = true) :
    (s.readUnits l21 stripe is).memWf = true := memWf_foldl h (fun _ _ ht => memWf_touch (memWf_stkCtr ht))

theorem memWf_readMeeting {s : State} {l21 : Bool} {stripe : Nat} {is : List Nat} {e : ReadErrs} (h : s.memWf = true) :
    (s.readMeeting l21 stripe is e).memWf = true := memWf_foldl (memWf_readUnits h) (fun _ _ ht => memWf_severity ht)

theorem memWf_readPiece {s : State} {pa n : Nat} {e : ReadErrs} (h : s.memWf = true) : (s.readPiece pa n e).2.memWf = true := by
  unfold State.readPiece
  extract_lets _ _ _ _ _ _ t1
  have h1 : t1.memWf = true := memWf_setPoison (memWf_readMeeting h)
  split
  · exact memWf_snd_ite (memWf_dieEvent (memWf_severity (memWf_readUnits h))) (memWf_dieEvent (memWf_stkCtr (memWf_readMeeting h)))
  · exact memWf_frame h1 rfl rfl

theorem memWf_readStripe {s : State} {l21 : Bool} {stripe : Nat} {e : ReadErrs} (h : s.memWf = true) :
    (s.readStripe l21 stripe e).2.memWf = true :=
  memWf_ite (memWf_dieEvent (memWf_foldl (memWf_readMeeting h) (fun _ _ ht => memWf_ite (memWf_setPoison ht) (memWf_stkCtr ht))))
    (memWf_frame (memWf_foldl (memWf_readMeeting h) (fun _ _ ht => memWf_ite (memWf_setPoison ht) (memWf_stkCtr ht))) rfl rfl)

theorem memWf_readGo {s : State} {e : ReadErrs} {fuel pa n : Nat} {acc : MemRes} (h : s.memWf = true) :
    (s.readGo e fuel pa n acc).2.memWf = true := by
  induction fuel generalizing s pa n acc with
  | zero => exact h
  | succ fuel ih =>
    simp only [State.readGo]
    split
    · exact h
    · refine ih ?_
      exact memWf_snd_ite (memWf_readStripe h) (memWf_readPiece h)

theorem memWf_memReadE {s : State} {pa n : Nat} {e : ReadErrs} (h : s.memWf = true) : (s.memReadE pa n e).2.memWf = true :=
  memWf_readGo h

theorem memWf_memRead {s : State} {pa n : Nat} (h : s.memWf = true) : (s.memRead pa n).2.memWf = true :=
  memWf_memReadE (memWf_nextErrs h)

theorem memWf_tableRead {s : State} {pa n : Nat} (h : s.memWf = true) : (s.tableRead pa n).2.memWf = true :=
  memWf_snd_ite (memWf_enterSafeHold (memWf_memRead h)) (memWf_memRead h)

theorem memWf_skipUnit {s : State} {l21 : Bool} {stripe i : Nat} (h : s.memWf = true) : (s.skipUnit l21 stripe i).memWf = true :=
  memWf_ite (memWf_dieEvent (memWf_stkCtr h)) (memWf_modStk (memWf_dieEvent (memWf_stkCtr h)))

theorem memWf_writeUnit {s : State} {l21 : Bool} {stripe i : Nat} {bs : List Byte} (h : s.memWf = true) :
    (s.writeUnit l21 stripe i bs).memWf = true := by
  unfold State.writeUnit
  dsimp only
  split
  · exact memWf_skipUnit h
  · obtain ⟨hu, hc⟩ := memWf_iff.mp h
    exact memWf_iff.mpr ⟨wf_writeN bs s.mem.units _ hu, hc⟩

theorem memWf_writeStripe {s : State} {l21 : Bool} {stripe : Nat} {w : StripeWrite} {errs : ReadErrs} (h : s.memWf = true) :
    (s.writeStripe l21 stripe w errs).2.memWf = true :=
  memWf_ite (memWf_foldl (memWf_foldl (memWf_foldl (memWf_dieEvent (memWf_ite h (memWf_readMeeting h)))
    (fun _ _ ht => memWf_writeUnit ht)) (fun _ _ ht => memWf_setPoison ht)) (fun _ _ ht => memWf_setPoison ht))
    (memWf_frame (memWf_foldl (memWf_foldl (memWf_foldl (memWf_dieEvent (memWf_ite h (memWf_readMeeting h)))
    (fun _ _ ht => memWf_writeUnit ht)) (fun _ _ ht => memWf_setPoison ht)) (fun _ _ ht => memWf_setPoison ht)) rfl rfl)

theorem memWf_ackAll {s : State} {srcs : List Nat} {stripe : Nat} (h : s.memWf = true) : (s.ackAll srcs stripe).memWf = true :=
  memWf_frame h rfl rfl

theorem memWf_coreCond {s : State} {L : Nat} {st : Status} (h : s.memWf = true) : (s.coreCond L st).memWf = true :=
  memWf_modCore h (coreMemWf_ite (coreMemWf_condition (coreMemWf_core h)) (coreMemWf_core h))

theorem memWf_lostFor {s : State} {srcs : List Nat} {stripe : Nat} (h : s.memWf = true) : (s.lostFor srcs stripe).memWf = true :=
  memWf_foldl h (fun _ _ ht => memWf_ite (memWf_coreCond ht) (memWf_frame ht rfl rfl))

theorem memWf_performGather {s : State} {g : Gather} {errs : ReadErrs} (h : s.memWf = true) :
    (s.performGather g errs).memWf = true :=
  memWf_ite (memWf_lostFor (memWf_ackAll (memWf_frame (memWf_forCtx (memWf_writeStripe h)) rfl rfl)))
    (memWf_ackAll (memWf_frame (memWf_forCtx (memWf_writeStripe h)) rfl rfl))

theorem memWf_memWriteP {s : State} {pa : Nat} {bs : List (Byte × Bool)} (h : s.memWf = true) :
    (s.memWriteP pa bs).2.memWf = true := by
  unfold State.memWriteP
  dsimp only
  refine memWf_snd_foldl h (fun _ _ ht => ?_)
  split
  · exact memWf_ite (memWf_lostFor (memWf_ackAll (memWf_frame (memWf_writeStripe (memWf_nextErrs ht)) rfl rfl)))
      (memWf_ackAll (memWf_frame (memWf_writeStripe (memWf_nextErrs ht)) rfl rfl))
  · exact memWf_writeStripe (memWf_nextErrs ht)

theorem memWf_memWrite {s : State} {pa : Nat} {bs : List Byte} (h : s.memWf = true) : (s.memWrite pa bs).2.memWf = true :=
  memWf_memWriteP h

theorem memWf_memScramble {s : State} {pa n : Nat} (h : s.memWf = true) : (s.memScramble pa n).memWf = true :=
  memWf_memWrite (memWf_freeBytes h)

/-! ## Accesses to striped memory -/

theorem memWf_readNote {s : State} {src : Nat} {r : MemRes} (h : s.memWf = true) : (s.readNote src r).memWf = true := by
  unfold State.readNote
  extract_lets t1
  have h1 : t1.memWf = true := memWf_ite (memWf_modCore h (coreMemWf_note (coreMemWf_core h))) h
  exact memWf_ite (memWf_ite (memWf_modCore h1 (coreMemWf_note (coreMemWf_core h1))) h1) h

theorem memWf_readCheck {s : State} {src pa : Nat} {r : MemRes} (h : s.memWf = true) : (s.readCheck src pa r).memWf = true :=
  memWf_ite (memWf_enterSafeHold h) h

theorem memWf_readTo {s : State} {src pa len : Nat} {e : ReadErrs} (h : s.memWf = true) : (s.readTo src pa len e).memWf = true :=
  memWf_readCheck (memWf_emit (memWf_readNote (memWf_forCtx (memWf_memReadE h))))

theorem memWf_readStriped {s : State} {src pa len : Nat} {e : ReadErrs} (h : s.memWf = true) :
    (s.readStriped src pa len e).memWf = true :=
  memWf_ite h (memWf_ite (memWf_emit h) (memWf_ite (memWf_frame h rfl rfl) (memWf_readTo h)))

theorem memWf_joinGather {s : State} {src pa : Nat} {bs : List (Byte × Bool)} (h : s.memWf = true) :
    (s.joinGather src pa bs).memWf = true := memWf_ite (memWf_performGather (memWf_frame h rfl rfl)) (memWf_frame h rfl rfl)

theorem memWf_admitGo {s : State} {fuel : Nat} (h : s.memWf = true) : (s.admitGo fuel).memWf = true := by
  induction fuel generalizing s with
  | zero => exact h
  | succ fuel ih =>
    simp only [State.admitGo]
    split
    · exact h
    · exact ih (memWf_joinGather (memWf_frame h rfl rfl))

theorem memWf_admitWaiting {s : State} (h : s.memWf = true) : s.admitWaiting.memWf = true := memWf_admitGo h

theorem memWf_gatherPiece {s : State} {src pa : Nat} {bs : List (Byte × Bool)} (h : s.memWf = true) :
    (s.gatherPiece src pa bs).memWf = true := memWf_ite (memWf_frame h rfl rfl) (memWf_admitWaiting (memWf_joinGather h))

theorem memWf_sendPiece {s : State} {src pa : Nat} {bs : List (Byte × Bool)} (h : s.memWf = true) :
    (s.sendPiece src pa bs).memWf = true := memWf_ite (memWf_frame h rfl rfl) (memWf_gatherPiece h)

theorem memWf_sendWrite {s : State} {src pa : Nat} {bs : List (Byte × Bool)} (h : s.memWf = true) :
    (s.sendWrite src pa bs).memWf = true := memWf_foldl h (fun _ _ ht => memWf_sendPiece ht)

theorem memWf_writeStriped {s : State} {src pa : Nat} {bs : List Byte} {poison : Bool} (h : s.memWf = true) :
    (s.writeStriped src pa bs poison).memWf = true := memWf_ite h (memWf_ite (memWf_emit h) (memWf_sendWrite h))

theorem memWf_releaseOne {s : State} {h : HeldRead} (hs : s.memWf = true) : (s.releaseOne h).memWf = true := by
  unfold State.releaseOne
  split
  · exact memWf_ite hs (memWf_gatherPiece (memWf_frame hs rfl rfl))
  · exact memWf_ite hs (memWf_readTo (memWf_frame hs rfl rfl))

theorem memWf_releaseReads {s : State} {src : Nat} (h : s.memWf = true) : (s.releaseReads src).memWf = true :=
  memWf_foldl h (fun _ _ ht => memWf_releaseOne ht)

theorem memWf_makeRoom {s : State} {pa : Nat} (h : s.memWf = true) : (s.makeRoom pa).memWf = true := by
  unfold State.makeRoom
  refine memWf_ite h ?_
  extract_lets _ r1
  have h1 : r1.2.memWf = true := memWf_nextErrs h
  split
  · exact memWf_performGather h1
  · exact h

theorem memWf_bringPort {s : State} {src : Nat} (h : s.memWf = true) : (s.bringPort src).memWf = true :=
  memWf_foldl h (fun _ _ ht => memWf_joinGather (memWf_frame (memWf_makeRoom ht) rfl rfl))

theorem memWf_endWindows {s : State} {src pa len : Nat} (h : s.memWf = true) : (s.endWindows src pa len).memWf = true := by
  unfold State.endWindows
  refine memWf_foldl h (fun _ _ ht => ?_)
  extract_lets _ r1
  have h1 : r1.2.memWf = true := memWf_nextErrs ht
  split
  · exact memWf_performGather h1
  · exact ht

theorem memWf_settleOwn {s : State} {src pa len : Nat} (h : s.memWf = true) : (s.settleOwn src pa len).memWf = true :=
  memWf_ite h (memWf_endWindows (memWf_ite (memWf_bringPort h) h))

theorem memWf_settleGo {s : State} {src pa len fuel : Nat} (h : s.memWf = true) : (s.settleGo src pa len fuel).memWf = true := by
  induction fuel generalizing s with
  | zero => exact h
  | succ fuel ih =>
    simp only [State.settleGo]
    split
    · exact h
    · exact ih (memWf_releaseReads (memWf_foldl (memWf_settleOwn h) fun t b ht => memWf_frame ht rfl rfl))

theorem memWf_settleCore {s : State} {src pa len : Nat} (h : s.memWf = true) : (s.settleCore src pa len).memWf = true :=
  memWf_settleGo h

/-! ## Address translation -/

theorem memWf_tableEntry {s : State} {pa : Nat} (h : s.memWf = true) : (s.tableEntry pa).2.memWf = true :=
  memWf_snd_ite h (memWf_tableRead h)

theorem memWf_walk {s : State} {c va : Nat} (h : s.memWf = true) : (s.walk c va).2.memWf = true := by
  generalize hw : s.walk c va = w
  unfold State.walk at hw
  extract_lets root r at hw
  have hr : r.2.memWf = true := memWf_tableEntry h
  clear_value r root
  split at hw
  · subst hw; exact h
  · obtain ⟨_ | e, t⟩ := r
    · subst hw; exact hr
    · dsimp only at hw hr
      cases hl : level1 e va with
      | some v => rw [hl] at hw; subst hw; exact hr
      | none =>
        have hq : (t.tableEntry (bits e 47 12 * 4096 + 8 * (va / 2 ^ 21 % 512))).2.memWf = true := memWf_tableEntry hr
        rw [hl] at hw
        dsimp only at hw
        generalize t.tableEntry _ = q at hq hw
        obtain ⟨_ | _, _⟩ := q <;> (subst hw; exact hq)

theorem memWf_fetchLeaf {s : State} {c va : Nat} {ps : List Perm} (h : s.memWf = true) : (s.fetchLeaf c va ps).2.memWf = true := by
  unfold State.fetchLeaf
  extract_lets r1 _ t2
  have h1 : r1.2.memWf = true := memWf_walk h
  have h2 : t2.memWf = true := h1
  split
  · exact memWf_frame h2 rfl rfl
  · exact h1

theorem memWf_xlate {s : State} {c va : Nat} {ps : List Perm} (h : s.memWf = true) : (s.xlate c va ps).2.memWf = true := by
  unfold State.xlate
  refine memWf_snd_ite h ?_
  split
  · exact memWf_fetchLeaf h
  · exact memWf_snd_ite h (memWf_snd_ite (memWf_free h) (memWf_fetchLeaf (memWf_free h)))

theorem memWf_vaRuns {s : State} {c va n : Nat} {ps : List Perm} (h : s.memWf = true) : (s.vaRuns c va n ps).2.memWf = true := by
  unfold State.vaRuns
  refine memWf_snd_foldl h fun y p hy => memWf_snd_ite hy ?_
  have hx : (y.2.xlate c p.1 ps).2.memWf = true := memWf_xlate hy
  dsimp only
  split <;> exact hx

theorem memWf_vaReadBy {s : State} {src : Option Nat} {c va n : Nat} {ps : List Perm} (h : s.memWf = true) :
    (s.vaReadBy src c va n ps).2.memWf = true := by
  unfold State.vaReadBy
  refine memWf_snd_foldl (memWf_vaRuns h) (fun _ _ ht => memWf_forCtx (memWf_memRead ?_))
  split
  · exact memWf_settleCore ht
  · exact ht

theorem memWf_vaRead {s : State} {c va n : Nat} {ps : List Perm} (h : s.memWf = true) : (s.vaRead c va n ps).2.memWf = true :=
  memWf_vaReadBy h

theorem memWf_vaWrite {s : State} {src : Option Nat} {c va : Nat} {bs : List (Byte × Bool)} {ps : List Perm} (h : s.memWf = true) :
    (s.vaWrite src c va bs ps).2.memWf = true := by
  unfold State.vaWrite
  refine memWf_snd_foldl (memWf_snd_foldl h (fun _ _ ht => memWf_snd_ite ht ?_)) (fun _ _ ht => memWf_forCtx ?_)
  · split
    · extract_lets r1
      have h1 : r1.2.memWf = true := memWf_xlate ht
      split <;> exact h1
    · extract_lets r1
      have h1 : r1.2.memWf = true := memWf_xlate ht
      split <;> exact h1
  · split
    · exact memWf_sendWrite ht
    · exact memWf_memWriteP ht

theorem memWf_vaOk {s : State} {c va n : Nat} {ps : List Perm} (h : s.memWf = true) : (s.vaOk c va n ps).2.memWf = true :=
  memWf_snd_ite h (memWf_snd_foldl h (fun _ _ ht => memWf_xlate ht))

/-! ## The commands of striped memory -/

@[simp] theorem keepsForm_execMemRequestTimeout {src pa len stack : Nat} {s : State} (h : s.memWf = true) :
    KeepsForm (execMemRequestTimeout src pa len stack s) := keepsForm_onStack (memWf_readStriped h)

theorem memWf_fxGatherWindowExpiry {o : StripeOp} {s : State} (h : s.memWf = true) : (fxGatherWindowExpiry o s).memWf = true := by
  unfold fxGatherWindowExpiry
  refine memWf_ite h ?_
  split
  · exact memWf_admitWaiting (memWf_performGather h)
  · exact h

@[simp] theorem keepsForm_execGatherWindowExpiry {stripe : StripeOp} {s : State} (h : s.memWf = true) :
    KeepsForm (execGatherWindowExpiry stripe s) := keepsForm_next (memWf_fxGatherWindowExpiry h)

theorem memWf_thermalTrip {s : State} (h : s.memWf = true) : s.thermalTrip.memWf = true := by
  unfold State.thermalTrip
  split
  · exact h
  · refine memWf_iff.mpr ⟨rfl, ?_⟩
    simp only [Tab.mapV, List.all_eq_true, List.mem_map]
    rintro _ ⟨_, _, rfl⟩
    rfl

theorem memWf_toCatchUp {s : State} {n : Nat} (h : s.memWf = true) : (s.toCatchUp n).memWf = true :=
  memWf_setStackState (memWf_frame h rfl rfl)

theorem memWf_fxStackTemp {n : Nat} {t : BitVec 32} {s : State} (h : s.memWf = true) : (fxStackTemp n t s).memWf = true := by
  unfold fxStackTemp
  extract_lets _ _ t1 _ t2 _ t3
  have h1 : t1.memWf = true := memWf_modStk h
  have h2 : t2.memWf = true := memWf_modStk h1
  have h3 : t3.memWf = true := memWf_modStk h1
  exact memWf_ite (memWf_thermalTrip h1) (memWf_ite h1
    (memWf_ite (memWf_ite (memWf_modStk h1) (memWf_ite (memWf_modStk h1) h1))
    (memWf_ite (memWf_forceBypass (memWf_setStackState (memWf_modStk h1)))
    (memWf_ite (memWf_ite (memWf_settleBypass (memWf_setStackState h2)) h2)
    (memWf_ite (memWf_ite (memWf_settleBypass (memWf_toCatchUp (memWf_modStk h3)))
    (memWf_ite (memWf_settleBypass (memWf_toCatchUp h3)) h3)) h1)))))

@[simp] theorem keepsForm_execStackTempReading {stack : Nat} {t : BitVec 32} {s : State} (h : s.memWf = true) :
    KeepsForm (execStackTempReading stack t s) := keepsForm_onStack (memWf_ite (memWf_fxStackTemp h) h)

theorem memWf_settleStripe {s : State} {l21 : Bool} {stripe i : Nat} {errs : ReadErrs} (h : s.memWf = true) :
    (s.settleStripe l21 stripe i errs).memWf = true :=
  memWf_frame (memWf_foldl (memWf_foldl (memWf_readMeeting h) (fun _ _ ht => memWf_setPoison ht))
    (fun _ _ ht => memWf_ite (memWf_writeUnit ht) (memWf_ite (memWf_skipUnit ht) (memWf_ite (memWf_writeUnit ht) ht)))) rfl rfl

theorem memWf_fxCatchUp {n : Nat} {s : State} (h : s.memWf = true) : (fxCatchUp n s).memWf = true := by
  unfold fxCatchUp
  extract_lets _ r1
  have h1 : r1.2.memWf = true := memWf_nextErrs h
  refine memWf_ite h ?_
  split
  · exact memWf_settleBypass (memWf_setStackState h)
  · refine memWf_ite h (memWf_ite (memWf_settleBypass (memWf_setStackState (memWf_modStk ?_))) (memWf_modStk ?_))
    · split
      · exact h
      · split
        · exact memWf_writeUnit (memWf_readMeeting h1)
        · exact memWf_settleStripe h1
    · split
      · exact h
      · split
        · exact memWf_writeUnit (memWf_readMeeting h1)
        · exact memWf_settleStripe h1

@[simp] theorem keepsForm_execCatchUpStripe {stack : Nat} {s : State} (h : s.memWf = true) :
    KeepsForm (execCatchUpStripe stack s) := keepsForm_onStack (memWf_fxCatchUp h)

theorem memWf_tryRestripe {s : State} (h : s.memWf = true) : s.tryRestripe.memWf = true := by
  unfold State.tryRestripe
  split
  · exact memWf_ite h (memWf_ite h (memWf_frame h rfl rfl))
  · exact h

@[simp] theorem keepsForm_execRestripeStart {s : State} (h : s.memWf = true) : KeepsForm (execRestripeStart s) :=
  keepsForm_next (memWf_ite (memWf_tryRestripe h) h)

theorem memWf_flushOld {s : State} {base : Nat} (h : s.memWf = true) : (s.flushOld base).memWf = true :=
  memWf_foldl h (fun _ _ ht => memWf_performGather (memWf_nextErrs ht))

theorem memWf_restripeWrite {s : State} (h : s.memWf = true) : s.restripeWrite.memWf = true := by
  unfold State.restripeWrite
  split
  · exact h
  · extract_lets _ s1 w s2 _ s3 _ s4
    have h2 : s2.memWf = true := memWf_writeStripe (memWf_frame h rfl rfl)
    have h3 : s3.memWf = true := memWf_frame h2 rfl rfl
    refine memWf_ite (memWf_admitWaiting (memWf_settleBypass ?_)) (memWf_admitWaiting h3)
    split
    · exact memWf_setStackState (memWf_frame h3 rfl rfl)
    · exact memWf_frame h2 rfl rfl

/-- The journal takes what was read, and the new stripe is written where the module goes on. -/
theorem memWf_restripeFrom {r : MemRes × State} {base : Nat} (hr : r.2.memWf = true) :
    (let t := { r.2 with mem.journal := some (base, r.1.bytes.zip r.1.pois) }
     if t.alive then t.restripeWrite else t).memWf = true :=
  memWf_ite (memWf_restripeWrite (memWf_frame hr rfl rfl)) (memWf_frame hr rfl rfl)

theorem memWf_fxRestripeStep {s : State} (h : s.memWf = true) : (fxRestripeStep s).memWf = true := by
  unfold fxRestripeStep
  split
  · exact h
  · exact memWf_restripeFrom (memWf_memRead (memWf_flushOld h))

@[simp] theorem keepsForm_execRestripeStep {s : State} (h : s.memWf = true) : KeepsForm (execRestripeStep s) :=
  keepsForm_next (memWf_fxRestripeStep h)

theorem memWf_scrubFix {s : State} {l21 : Bool} {stripe i : Nat} {v : List Byte} (h : s.memWf = true) :
    (s.scrubFix l21 stripe i v).memWf = true := by
  unfold State.scrubFix
  exact memWf_frame (memWf_writeUnit h) rfl rfl

theorem memWf_scrubLost {s : State} {l21 : Bool} {stripe : Nat} (h : s.memWf = true) : (s.scrubLost l21 stripe).memWf = true :=
  memWf_ite (memWf_enterSafeHold (memWf_bgFail (memWf_frame (memWf_foldl h (fun _ _ ht => memWf_setPoison ht)) rfl rfl)))
    (memWf_bgFail (memWf_frame (memWf_foldl h (fun _ _ ht => memWf_setPoison ht)) rfl rfl))

theorem memWf_fxScrub {o : StripeOp} {s : State} (h : s.memWf = true) : (fxScrub o s).memWf = true := by
  unfold fxScrub
  refine memWf_ite h (memWf_ite (memWf_wakeBy h) (memWf_ite (memWf_scrubLost (memWf_readMeeting h)) ?_))
  split
  · refine memWf_ite (memWf_readMeeting h) ?_
    split
    · exact memWf_scrubFix (memWf_readMeeting h)
    · exact memWf_scrubLost (memWf_readMeeting h)
  · exact memWf_ite (memWf_scrubLost (memWf_readMeeting h)) (memWf_foldl (memWf_readMeeting h) (fun _ _ ht => memWf_scrubFix ht))

@[simp] theorem keepsForm_execScrubStripe {stripe : StripeOp} {s : State} (h : s.memWf = true) :
    KeepsForm (execScrubStripe stripe s) := keepsForm_next (memWf_fxScrub h)

theorem memWf_fxRetrain {n : Nat} {s : State} (h : s.memWf = true) : (fxRetrain n s).memWf = true :=
  memWf_ite h (memWf_ite (memWf_wakeBy (memWf_frame h rfl rfl)) (memWf_startRetrain (memWf_frame h rfl rfl)))

@[simp] theorem keepsForm_execStackRetrain {stack : Nat} {s : State} (h : s.memWf = true) : KeepsForm (execStackRetrain stack s) :=
  keepsForm_onStack (memWf_fxRetrain h)

theorem memWf_fxRetrainEnd {n : Nat} {ok : Bool} {s : State} (h : s.memWf = true) : (fxRetrainEnd n ok s).memWf = true :=
  memWf_ite h (memWf_ite (memWf_settleBypass (memWf_toCatchUp h)) (memWf_startRetrain (memWf_failStack (memWf_modStk h))))

@[simp] theorem keepsForm_execRetrainEnd {stack : Nat} {ok : Bool} {s : State} (h : s.memWf = true) :
    KeepsForm (execRetrainEnd stack ok s) := keepsForm_onStack (memWf_fxRetrainEnd h)

/-! ## The flags of a core -/

theorem coreMemWf_overflowed {cs : CoreState} {n : Nat} (h : cs.memWf = true) : (cs.overflowed n).memWf = true :=
  coreMemWf_ite h (coreMemWf_event (coreMemWf_setSticky h))

theorem coreMemWf_indexRange {cs : CoreState} {n : Nat} (h : cs.memWf = true) : (cs.indexRange n).memWf = true :=
  coreMemWf_ite h (coreMemWf_event (coreMemWf_setSticky h))

theorem coreMemWf_draw {cs : CoreState} (h : cs.memWf = true) : cs.draw.2.memWf = true :=
  coreMemWf_event (coreMemWf_frame h rfl rfl)

theorem coreMemWf_convert {cs : CoreState} {f : Fp.Fmt} {sat sr : Bool} {v : Fp.Val} (h : cs.memWf = true) :
    (cs.convert f sat sr v).2.memWf = true := coreMemWf_overflowed (coreMemWf_snd_ite (coreMemWf_draw h) h)

theorem coreMemWf_convertInt {cs : CoreState} {n : Nat} {sr : Bool} {v : Fp.Val} (h : cs.memWf = true) :
    (cs.convertInt n sr v).2.memWf = true := coreMemWf_overflowed (coreMemWf_snd_ite (coreMemWf_draw h) h)

theorem coreMemWf_convertTo {cs : CoreState} {t : Nat} {sat sr : Bool} {v : Fp.Val} (h : cs.memWf = true) :
    (cs.convertTo t sat sr v).2.memWf = true := by
  unfold CoreState.convertTo
  split
  · exact coreMemWf_convert h
  · exact coreMemWf_convertInt h

theorem coreMemWf_setPart {cs : CoreState} {p : Nat} {x : Part} (h : cs.memWf = true) : (cs.setPart p x).memWf = true :=
  coreMemWf_frame h rfl rfl

/-! ## The task sequencer -/

theorem memWf_modCmd {s : State} {k : CmdKey} {g : Cmd → Cmd} (h : s.memWf = true) : (s.modCmd k g).memWf = true := memWf_modCtx h

theorem memWf_finishTask {s : State} {L : Nat} (h : s.memWf = true) : (s.finishTask L).memWf = true := by
  unfold State.finishTask
  extract_lets c1
  have h1 : c1.memWf = true := coreMemWf_core h
  split
  · exact h
  · exact memWf_setCore (memWf_modCmd h) (coreMemWf_frame h1 rfl rfl)

theorem memWf_settle {s : State} {L : Nat} (h : s.memWf = true) : (s.settle L).memWf = true := memWf_ite (memWf_finishTask h) h

theorem coreMemWf_stop {cs : CoreState} {st : Status} (h : cs.memWf = true) : (cs.stop st).memWf = true :=
  coreMemWf_ite (coreMemWf_ite h (coreMemWf_note h)) (coreMemWf_frame (coreMemWf_ite h (coreMemWf_condition h)) rfl rfl)

theorem memWf_endTask {s : State} {L : Nat} {st : Status} (h : s.memWf = true) : (s.endTask L st).memWf = true :=
  memWf_settle (memWf_modCore h (coreMemWf_stop (coreMemWf_core h)))

theorem memWf_goto {s : State} {L : Nat} {t : Int} (h : s.memWf = true) : (s.goto L t).memWf = true := by
  unfold State.goto
  split
  · exact h
  · exact memWf_ite h (memWf_ite (memWf_endTask h) (memWf_modCore h (coreMemWf_frame (coreMemWf_core h) rfl rfl)))

theorem memWf_advance {s : State} {L : Nat} (h : s.memWf = true) : (s.advance L).memWf = true := memWf_goto h

theorem memWf_stall {s : State} {L : Nat} {g : CoreState → CoreState} (h : s.memWf = true)
    (hg : ∀ cs, cs.memWf = true → (g cs).memWf = true) : (s.stall L g).memWf = true :=
  memWf_modCore h (hg _ (coreMemWf_frame (coreMemWf_core h) rfl rfl))

theorem coreMemWf_issued {cs : CoreState} (h : cs.memWf = true) : cs.issued.memWf = true :=
  coreMemWf_event (coreMemWf_frame h rfl rfl)

theorem memWf_front {s : State} {L : Nat} {w : TileWord} {f : TileFields} {ok : Bool} {go : State → State} (h : s.memWf = true)
    (hgo : ∀ t, t.memWf = true → (go t).memWf = true) : (s.front L w f ok go).memWf = true := by
  unfold State.front
  extract_lets c1 _ t2
  have h2 : t2.memWf = true := memWf_ite (memWf_modCore h (coreMemWf_frame (coreMemWf_core h) rfl rfl)) h
  exact memWf_ite h (memWf_ite h (memWf_ite (memWf_stall h (fun _ ht => coreMemWf_frame ht rfl rfl))
    (memWf_ite (memWf_endTask h2) (memWf_ite (memWf_endTask h2)
    (memWf_ite (memWf_stall h2 (fun _ ht => coreMemWf_frame ht rfl rfl))
    (memWf_ite (memWf_advance (memWf_modCore h2 (coreMemWf_issued (coreMemWf_core h2)))) (hgo _ h2)))))))

theorem coreMemWf_push {cs : CoreState} {u : TUnit} {p : Plan} (h : cs.memWf = true) : (cs.push u p).memWf = true :=
  coreMemWf_frame h rfl rfl

theorem memWf_operands {s : State} {L : Nat} {u : TUnit} {p : Plan} {go : State → State} (h : s.memWf = true)
    (hgo : ∀ t, t.memWf = true → (go t).memWf = true) : (s.operands L u p go).memWf = true := by
  unfold State.operands
  refine memWf_ite (memWf_stall h fun _ ht => coreMemWf_frame ht rfl rfl) (memWf_ite (memWf_endTask h) ?_)
  split
  · exact memWf_endTask h
  · exact memWf_ite (memWf_stall h fun _ ht => coreMemWf_frame ht rfl rfl)
      (memWf_ite (memWf_stall h fun _ ht => coreMemWf_frame ht rfl rfl) (memWf_ite (memWf_stall h fun _ ht => ht) (hgo _ h)))

theorem memWf_issue {s : State} {L cls opc : Nat} {f : TileFields} {ok : Bool} {u : TUnit} {plan : State → Plan}
    {act : State → State} (h : s.memWf = true) (hact : ∀ t, t.memWf = true → (act t).memWf = true) :
    (s.issue L cls opc f ok u plan act).memWf = true :=
  memWf_front h (fun _ ht => memWf_operands ht
    (fun _ ht1 => memWf_advance (hact _ (memWf_modCore ht1 (coreMemWf_push (coreMemWf_issued (coreMemWf_core ht1)))))))

theorem memWf_issueCtl {s : State} {L opc : Nat} {f : TileFields} {ok : Bool} {plan : State → Plan} {act : State → State}
    (h : s.memWf = true) (hact : ∀ t, t.memWf = true → (act t).memWf = true) : (s.issueCtl L opc f ok plan act).memWf = true :=
  memWf_front h (fun _ ht => memWf_operands ht (fun _ ht1 => hact _ (memWf_modCore ht1 (coreMemWf_issued (coreMemWf_core ht1)))))

theorem coreMemWf_confirm {cs : CoreState} {i : InFlight} (h : cs.memWf = true) : (cs.confirm i).memWf = true := by
  unfold CoreState.confirm
  split
  · exact h
  · exact coreMemWf_frame h rfl rfl

theorem coreMemWf_retire {cs : CoreState} {n : Nat} (h : cs.memWf = true) : (cs.retire n).memWf = true :=
  coreMemWf_frame (coreMemWf_foldl h (fun _ _ ht => coreMemWf_confirm ht)) rfl rfl

theorem coreMemWf_addDst {cs : CoreState} {d : List (Space × Nat × Nat)} (h : cs.memWf = true) : (cs.addDst d).memWf = true :=
  coreMemWf_frame h rfl rfl

/-! ## The data mover -/

theorem memWf_moverNote {s : State} {L : Nat} {corr uncorr slow : Bool} (h : s.memWf = true) :
    (s.moverNote L corr uncorr slow).memWf = true := by
  unfold State.moverNote
  extract_lets t1 t2
  have h1 : t1.memWf = true := by
    unfold t1
    split
    · exact memWf_modCmd h
    · exact h
  have h2 : t2.memWf = true := memWf_ite (memWf_modCore h1 (coreMemWf_note (coreMemWf_core h1))) h1
  exact memWf_ite (memWf_modCore h2 (coreMemWf_note (coreMemWf_core h2))) h2

theorem memWf_moverRead {s : State} {L : Nat} {sp : Space} {a : Int} {n : Nat} {ps : List Perm} (h : s.memWf = true) :
    (s.moverRead L sp a n ps).2.memWf = true := by
  unfold State.moverRead
  extract_lets r1 r2 r3 t4
  have h1 : r1.2.memWf = true := coreMemWf_load (coreMemWf_core h)
  have h2 : r2.2.memWf = true := coreMemWf_load (coreMemWf_core h)
  have h3 : r3.2.memWf = true := memWf_vaReadBy h
  have h4 : t4.memWf = true := memWf_modCore (memWf_moverNote h3) (coreMemWf_event (coreMemWf_core (memWf_moverNote h3)))
  split
  · exact memWf_setCore h h1
  · exact memWf_setCore h h2
  · exact memWf_snd_ite h (memWf_ite (memWf_modCore h4 (coreMemWf_poisoned (coreMemWf_core h4))) h4)

theorem memWf_moverWrite {s : State} {L : Nat} {sp : Space} {a : Int} {bs : List (Byte × Bool)} (h : s.memWf = true) :
    (s.moverWrite L sp a bs).2.memWf = true := by
  unfold State.moverWrite
  split
  · exact memWf_modCore h (coreMemWf_store (coreMemWf_core h))
  · exact memWf_modCore h (coreMemWf_store (coreMemWf_core h))
  · exact memWf_snd_ite h (memWf_modCore (memWf_moverNote (memWf_vaWrite h))
      (coreMemWf_addDst (coreMemWf_event (coreMemWf_ite (coreMemWf_poisoned (coreMemWf_core (memWf_moverNote (memWf_vaWrite h))))
      (coreMemWf_core (memWf_moverNote (memWf_vaWrite h)))))))

theorem memWf_moverBytes {s : State} {L rd wr : Nat} (h : s.memWf = true) : (s.moverBytes L rd wr).memWf = true :=
  memWf_modCore h (coreMemWf_frame (coreMemWf_core h) rfl rfl)

theorem memWf_fxMovCopy {L : Nat} {f : TileFields} {s : State} (h : s.memWf = true) : (fxMovCopy L f s).memWf = true := by
  unfold fxMovCopy
  extract_lets _ _ _ r1
  have h1 : r1.2.memWf = true := memWf_snd_foldl h
    (fun _ _ ht => memWf_snd_ite ht (memWf_moverBytes (memWf_moverWrite (memWf_moverRead ht))))
  exact memWf_ite (memWf_endTask h1) h1

@[simp] theorem keepsForm_execMovCopy {core : Nat} {f : TileFields} {s : State} (h : s.memWf = true) :
    KeepsForm (execMovCopy core f s) := by
  unfold execMovCopy
  exact keepsForm_onCore (memWf_issue h (fun _ ht => memWf_fxMovCopy ht))

theorem memWf_fxMovFill {L : Nat} {f : TileFields} {s : State} (h : s.memWf = true) : (fxMovFill L f s).memWf = true :=
  memWf_moverBytes (memWf_foldl h (fun _ _ ht => memWf_moverWrite ht))

@[simp] theorem keepsForm_execMovFill {core : Nat} {f : TileFields} {s : State} (h : s.memWf = true) :
    KeepsForm (execMovFill core f s) := by
  unfold execMovFill
  exact keepsForm_onCore (memWf_issue h (fun _ ht => memWf_fxMovFill ht))

/-! ## The matrix unit -/

theorem coreMemWf_spillOne {cs : CoreState} {w : Window} {i : Nat} (h : cs.memWf = true) : (cs.spillOne w i).memWf = true :=
  coreMemWf_store (coreMemWf_store (coreMemWf_snd_ite (coreMemWf_load h) (coreMemWf_load (coreMemWf_load h))))

theorem coreMemWf_spill {cs : CoreState} {p : Nat} (h : cs.memWf = true) : (cs.spill p).memWf = true := by
  unfold CoreState.spill
  split
  · exact coreMemWf_setPart h
  · exact coreMemWf_setPart (coreMemWf_foldl h (fun _ _ ht => coreMemWf_spillOne ht))

theorem coreMemWf_apart {cs : CoreState} {act : CoreState → CoreState} (h : cs.memWf = true)
    (hact : ∀ cs', cs'.memWf = true → (act cs').memWf = true) : (cs.apart act).1.memWf = true :=
  have hr : (act { cs with sticky := 0, conds := [] }).memWf = true := hact _ (coreMemWf_frame h rfl rfl)
  coreMemWf_frame hr rfl rfl

theorem coreMemWf_spillIfDue {cs : CoreState} {p : Nat} (h : cs.memWf = true) : (cs.spillIfDue p).memWf = true := by
  unfold CoreState.spillIfDue
  split
  · exact h
  · split
    · exact coreMemWf_spill h
    · exact coreMemWf_frame (coreMemWf_apart h fun _ ht => coreMemWf_spill ht) rfl rfl

theorem coreMemWf_resumeOne {cs : CoreState} {w : Window} {i : Nat} (h : cs.memWf = true) : (cs.resumeOne w i).memWf = true :=
  coreMemWf_store (coreMemWf_snd_foldl (coreMemWf_ite (coreMemWf_snd_ite (coreMemWf_load h) (coreMemWf_load (coreMemWf_load h)))
    (coreMemWf_store (coreMemWf_snd_ite (coreMemWf_load h) (coreMemWf_load (coreMemWf_load h)))))
    (fun _ _ ht => coreMemWf_convert ht))

theorem coreMemWf_resume {cs : CoreState} {p : Nat} (h : cs.memWf = true) : (cs.resume p).memWf = true := by
  unfold CoreState.resume
  split
  · exact h
  · exact coreMemWf_setPart (coreMemWf_foldl h (fun _ _ ht => coreMemWf_resumeOne ht))

theorem memWf_issueMxu {s : State} {L opc : Nat} {f : TileFields} {ok : Bool} {plan : CoreState → Plan}
    {act : CoreState → CoreState} (h : s.memWf = true) (hact : ∀ cs, cs.memWf = true → (act cs).memWf = true) :
    (s.issueMxu L opc f ok plan act).memWf = true :=
  memWf_issue h (fun _ ht => memWf_modCore ht (hact _ (coreMemWf_frame (coreMemWf_spillIfDue (coreMemWf_core ht)) rfl rfl)))

@[simp] theorem keepsForm_execMxuMode {core : Nat} {f : TileFields} {s : State} (h : s.memWf = true) :
    KeepsForm (execMxuMode core f s) := by
  unfold execMxuMode
  exact keepsForm_onCore (memWf_issueMxu h (fun _ ht => coreMemWf_frame
    (coreMemWf_foldl ht (fun _ _ ht1 => coreMemWf_spillIfDue ht1)) (by rfl) (by rfl)))

theorem memWf_expandElem {f : TileFields} {mode k c : Nat} {q : Nat × Bool} {aux : List (Byte × Bool)} {cs : CoreState}
    (h : cs.memWf = true) : (expandElem f mode k c q aux cs).2.memWf = true := by
  unfold expandElem
  split
  · exact h
  · exact h
  · exact coreMemWf_snd_ite (coreMemWf_convert h) (coreMemWf_convert h)

theorem memWf_ldbRow {f : TileFields} {mode k : Nat} {aux : List (Byte × Bool)} {x : Tab Nat × NSet × CoreState}
    (h : x.2.2.memWf = true) : (ldbRow f mode k aux x).2.2.memWf = true :=
  coreMemWf_snd2_foldl (coreMemWf_load h) fun _ _ hy => memWf_expandElem hy

theorem memWf_fxMxuLdb {f : TileFields} {cs : CoreState} (h : cs.memWf = true) : (fxMxuLdb f cs).memWf = true := by
  unfold fxMxuLdb
  extract_lets mode k n aux r sc tsBad pois set ds
  have hr : r.2.2.memWf = true := coreMemWf_snd2_foldl (coreMemWf_load h) fun _ _ hy => memWf_ldbRow hy
  exact coreMemWf_event (coreMemWf_setPart (coreMemWf_ite (coreMemWf_poisoned hr) hr))

@[simp] theorem keepsForm_execMxuLdb {core : Nat} {f : TileFields} {s : State} (h : s.memWf = true) :
    KeepsForm (execMxuLdb core f s) := by
  unfold execMxuLdb
  exact keepsForm_onCore (memWf_issueMxu h (fun _ ht => memWf_fxMxuLdb ht))

theorem memWf_passRow {f : TileFields} {t : Option StatSet} {i : Nat} {cs : CoreState} (h : cs.memWf = true) :
    (passRow f t i cs).memWf = true :=
  coreMemWf_store (coreMemWf_snd_foldl (coreMemWf_snd_ite
    (coreMemWf_snd_ite (coreMemWf_load (coreMemWf_load h)) (coreMemWf_load h))
    (coreMemWf_load (coreMemWf_snd_ite (coreMemWf_load (coreMemWf_load h)) (coreMemWf_load h))))
    (fun _ _ ht => coreMemWf_convert ht))

theorem memWf_fxMxuPass {f : TileFields} {cs : CoreState} (h : cs.memWf = true) : (fxMxuPass f cs).memWf = true := by
  unfold fxMxuPass
  extract_lets _ _ c1 _ c2 c3 c4
  have h1 : c1.memWf = true := coreMemWf_ite (coreMemWf_setPart h) h
  have h2 : c2.memWf = true := coreMemWf_foldl h1 (fun _ _ ht => memWf_passRow ht)
  have h3 : c3.memWf = true := coreMemWf_event h2
  have h4 : c4.memWf = true := coreMemWf_frame h3 rfl rfl
  split
  · exact h4
  · exact coreMemWf_setPart h4

@[simp] theorem keepsForm_execMxuPass {core : Nat} {f : TileFields} {s : State} (h : s.memWf = true) :
    KeepsForm (execMxuPass core f s) := by
  unfold execMxuPass
  exact keepsForm_onCore (memWf_issueMxu h (fun _ ht => memWf_fxMxuPass ht))

@[simp] theorem keepsForm_execMxuSpcfg {core : Nat} {f : TileFields} {s : State} (h : s.memWf = true) :
    KeepsForm (execMxuSpcfg core f s) := by
  unfold execMxuSpcfg
  exact keepsForm_onCore (memWf_issueMxu h (fun _ ht => coreMemWf_setPart ht))

@[simp] theorem keepsForm_execMxuSpill {core : Nat} {f : TileFields} {s : State} (h : s.memWf = true) :
    KeepsForm (execMxuSpill core f s) := by
  unfold execMxuSpill
  exact keepsForm_onCore (memWf_issueMxu h (fun _ ht => coreMemWf_spill ht))

@[simp] theorem keepsForm_execMxuResume {core : Nat} {f : TileFields} {s : State} (h : s.memWf = true) :
    KeepsForm (execMxuResume core f s) := by
  unfold execMxuResume
  exact keepsForm_onCore (memWf_issueMxu h (fun _ ht => coreMemWf_resume ht))

@[simp] theorem keepsForm_execAutoSpill {core part : Nat} {s : State} (h : s.memWf = true) :
    KeepsForm (execAutoSpill core part s) := by
  unfold execAutoSpill
  exact keepsForm_onCore (memWf_ite (memWf_modCore h (coreMemWf_spillIfDue (coreMemWf_core h))) h)

theorem memWf_epilogue {f : TileFields} {a s b : Nat} {cs : CoreState} (h : cs.memWf = true) :
    (epilogue f a s b cs).2.memWf = true :=
  coreMemWf_snd_ite (coreMemWf_convert h) (coreMemWf_snd_ite (coreMemWf_convert h) (coreMemWf_snd_ite (coreMemWf_convert h) h))

theorem memWf_fp4Block {f : TileFields} {us : List Nat} {cs : CoreState} (h : cs.memWf = true) :
    (fp4Block f us cs).2.memWf = true :=
  coreMemWf_snd_foldl (coreMemWf_overflowed h) (fun _ _ ht => coreMemWf_snd_ite (coreMemWf_draw ht) ht)

theorem memWf_outRow {f : TileFields} {sv bv : List (Byte × Bool)} {i : Nat} {cs : CoreState} (h : cs.memWf = true) :
    (outRow f sv bv i cs).memWf = true := by
  unfold outRow
  extract_lets _ _ _ r1 _ _ r2 r3 _ r4 c5
  have h1 : r1.2.memWf = true := coreMemWf_load h
  have h2 : r2.2.memWf = true := coreMemWf_snd_foldl h1 (fun _ _ ht => memWf_epilogue ht)
  have h3 : r3.2.memWf = true := memWf_fp4Block h2
  have h4 : r4.2.memWf = true := coreMemWf_snd_foldl h2 (fun _ _ ht => coreMemWf_convertTo ht)
  have h5 : c5.memWf = true := coreMemWf_ite (coreMemWf_store (coreMemWf_store h3)) (coreMemWf_store h4)
  exact coreMemWf_ite (coreMemWf_store h5) h5

theorem memWf_fxMxuOut {f : TileFields} {cs : CoreState} (h : cs.memWf = true) : (fxMxuOut f cs).memWf = true :=
  coreMemWf_foldl (coreMemWf_snd_ite (coreMemWf_load (coreMemWf_snd_ite (coreMemWf_load h) h))
    (coreMemWf_snd_ite (coreMemWf_load h) h)) (fun _ _ ht => memWf_outRow ht)

@[simp] theorem keepsForm_execMxuOut {core : Nat} {f : TileFields} {s : State} (h : s.memWf = true) :
    KeepsForm (execMxuOut core f s) := by
  unfold execMxuOut
  exact keepsForm_onCore (memWf_issueMxu h (fun _ ht => memWf_fxMxuOut ht))

theorem coreMemWf_poisonRange {cs : CoreState} {d : Space × Nat × Nat} (h : cs.memWf = true) : (cs.poisonRange d).memWf = true := by
  unfold CoreState.poisonRange
  split
  · exact coreMemWf_setLocPoison h
  · exact coreMemWf_setLocPoison h
  · exact h

theorem coreMemWf_restore {cs : CoreState} {am : Bool} {a : Nat} {bs : List (Byte × Bool)} (h : cs.memWf = true) :
    (cs.restore am a bs).memWf = true :=
  coreMemWf_setLocPoison (coreMemWf_setLoc_writeN h h)

theorem coreMemWf_discard {cs : CoreState} {p : Nat} {i : InFlight} (h : cs.memWf = true) : (cs.discard p i).memWf = true := by
  unfold CoreState.discard
  extract_lets cs1
  split
  · exact coreMemWf_frame h rfl rfl
  · next u _ =>
    extract_lets cs2
    have h2 : cs2.memWf = true := coreMemWf_foldl (coreMemWf_frame h rfl rfl) fun _ _ ht => coreMemWf_restore ht
    have h3 : (cs2.setPart p u.part).memWf = true := coreMemWf_setPart h2
    exact coreMemWf_frame h3 rfl rfl

theorem memWf_fxPartitionFault {L part n chk : Nat} {s : State} (h : s.memWf = true) :
    (fxPartitionFault L part n chk s).memWf = true := by
  unfold fxPartitionFault
  extract_lets c1 c2
  have h1 : c1.memWf = true := coreMemWf_core h
  have h2 : c2.memWf = true := coreMemWf_foldl h1 (fun _ _ ht => coreMemWf_discard ht)
  split
  · exact h
  · exact memWf_ite h (memWf_setCore h (coreMemWf_ite
      (coreMemWf_event (coreMemWf_frame (coreMemWf_confirm
      (coreMemWf_setPart (coreMemWf_foldl h2 (fun _ _ ht => coreMemWf_poisonRange ht)))) rfl rfl))
      (coreMemWf_frame (coreMemWf_confirm (coreMemWf_setPart (coreMemWf_foldl h2 (fun _ _ ht => coreMemWf_poisonRange ht))))
      rfl rfl)))

@[simp] theorem keepsForm_execPartitionFault {core part : Nat} {chk : CheckFail} {s : State} (h : s.memWf = true) :
    KeepsForm (execPartitionFault core part chk s) := keepsForm_onCore (memWf_fxPartitionFault h)

theorem coreMemWf_carry {cs : CoreState} (h : cs.memWf = true) : cs.carry.memWf = true :=
  coreMemWf_frame (coreMemWf_foldl (coreMemWf_foldl h (fun _ _ ht => coreMemWf_eccWord ht)) (fun _ _ ht => coreMemWf_eccWord ht))
    rfl rfl

theorem memWf_rebind {s : State} {L : Nat} (h : s.memWf = true) : (s.rebind L).2.memWf = true := by
  unfold State.rebind
  split
  · extract_lets t
    have ht : t.memWf = true := memWf_frame h rfl rfl
    exact memWf_logRebind (memWf_modCore ht (coreMemWf_frame (coreMemWf_carry (coreMemWf_core ht)) rfl rfl))
  · exact memWf_modCore h (coreMemWf_frame (coreMemWf_core h) rfl rfl)

theorem memWf_failQueue {s : State} {L : Nat} (h : s.memWf = true) : (s.failQueue L).memWf = true :=
  memWf_modCore (memWf_foldl h (fun _ _ ht => memWf_modCmd ht))
    (coreMemWf_frame (coreMemWf_core (memWf_foldl h (fun _ _ ht => memWf_modCmd ht))) rfl rfl)

theorem memWf_fxCoreRebind {L : Nat} {s : State} (h : s.memWf = true) : (fxCoreRebind L s).memWf = true :=
  memWf_ite h (memWf_ite (memWf_settle (memWf_modCore (memWf_rebind h) (coreMemWf_condition (coreMemWf_core (memWf_rebind h)))))
    (memWf_failQueue (memWf_settle (memWf_modCore (memWf_rebind h) (coreMemWf_condition (coreMemWf_core (memWf_rebind h)))))))

@[simp] theorem keepsForm_execCoreRebind {core : Nat} {s : State} (h : s.memWf = true) : KeepsForm (execCoreRebind core s) :=
  keepsForm_onCore (memWf_fxCoreRebind h)

/-! ## Fabric packets -/

theorem memWf_sendFlit {s : State} {p ftype vc sop : Nat} {slots : List Byte} (h : s.memWf = true) :
    (s.sendFlit p ftype vc sop slots).memWf = true := memWf_emit (memWf_setPort h)

theorem memWf_sendFlits {s : State} {p : Nat} {q : QPacket} (h : s.memWf = true) : (s.sendFlits p q).memWf = true :=
  memWf_foldl h (fun _ _ ht => memWf_sendFlit ht)

theorem memWf_sendIdle {s : State} {p : Nat} (h : s.memWf = true) : (s.sendIdle p).memWf = true := memWf_ite (memWf_sendFlit h) h

theorem memWf_flush {s : State} {p : Nat} (h : s.memWf = true) : (s.flush p).memWf = true :=
  memWf_foldl h (fun _ _ ht => memWf_ite ht (memWf_sendIdle ht))

theorem memWf_holdUnits {s : State} {p vc n : Nat} (h : s.memWf = true) : (s.holdUnits p vc n).memWf = true :=
  memWf_ite h (memWf_modPort h)

theorem memWf_freeUnits {s : State} {p vc n : Nat} (h : s.memWf = true) : (s.freeUnits p vc n).memWf = true :=
  memWf_ite h (memWf_flush (memWf_modPort h))

theorem memWf_giveBack {s : State} {q : QPacket} (h : s.memWf = true) : (s.giveBack q).memWf = true := by
  unfold State.giveBack
  split
  · exact h
  · exact memWf_freeUnits h

theorem memWf_transmitGo {s : State} {p fuel : Nat} (h : s.memWf = true) : (s.transmitGo p fuel).memWf = true := by
  induction fuel generalizing s with
  | zero => exact h
  | succ fuel ih =>
    simp only [State.transmitGo]
    split
    · exact h
    · exact ih (memWf_giveBack (memWf_emit (memWf_sendFlits (memWf_setPort h))))

theorem memWf_transmit {s : State} {p : Nat} (h : s.memWf = true) : (s.transmit p).memWf = true :=
  memWf_ite h (memWf_flush (memWf_transmitGo h))

theorem memWf_enqueue {s : State} {p vc k : Nat} {h : Hdr} {pk : List Byte} {src : Option (Nat × Nat)} (hs : s.memWf = true) :
    (s.enqueue p vc k h pk src).memWf = true := memWf_transmit (memWf_modPort hs)

theorem memWf_routeOn {s t : State} {inDim : Option Nat} {src : Option (Nat × Nat)} {pk : List Byte} (h : s.memWf = true)
    (ht : s.routeOn inDim src pk = some t) : t.memWf = true := by
  have hgo : ∀ {p vc k : Nat} {hd : Hdr}, some (s.enqueue p vc k hd pk src) = some t → t.memWf = true :=
    fun e => Option.some.inj e ▸ memWf_enqueue h
  unfold State.routeOn at ht
  extract_lets hd at ht
  split at ht
  · cases ht
  · split at ht
    · cases ht
    · extract_lets at ht
      split at ht
      · exact hgo ht
      · split at ht
        · cases ht
        · split at ht
          · cases ht
          · exact hgo ht

theorem memWf_send {s t : State} {pk : List Byte} (h : s.memWf = true) (ht : s.send pk = some t) : t.memWf = true := by
  unfold State.send at ht
  split at ht
  · cases ht; exact memWf_emit h
  · exact memWf_routeOn h ht

/-- A packet is sent, or lost where it finds no route. -/
theorem memWf_send_getD {s : State} {pk : List Byte} (h : s.memWf = true) : ((s.send pk).getD s).memWf = true := by
  cases ht : s.send pk with
  | none => exact h
  | some t => exact memWf_send h ht

theorem memWf_respond {s : State} {pk : List Byte} {st : Status} {data : Option (List Byte)} (h : s.memWf = true) :
    (s.respond pk st data).memWf = true := memWf_send_getD h

theorem memWf_passUnits {s : State} {p vc n : Nat} (h : s.memWf = true) : (s.passUnits p vc n).memWf = true :=
  memWf_ite (memWf_flush (memWf_modPort h)) h

theorem memWf_occupy {s : State} {p vc : Nat} {pk : List Byte} (h : s.memWf = true) : (s.occupy p vc pk).memWf = true :=
  memWf_flush (memWf_holdUnits h)

theorem memWf_passOn {s : State} {p : Nat} {pk : List Byte} (h : s.memWf = true) : (s.passOn p pk).memWf = true := memWf_passUnits h

theorem memWf_takeFlow {s t : State} {c unit rank dst : Nat} {f : Flow} (h : s.memWf = true)
    (ht : s.takeFlow c unit rank dst = some (f, t)) : t.memWf = true := by
  unfold State.takeFlow at ht
  dsimp only at ht
  split at ht
  · cases ht; exact memWf_frame h rfl rfl
  · split at ht
    · cases ht; exact memWf_frame h rfl rfl
    · split at ht
      · cases ht; exact memWf_frame h rfl rfl
      · cases ht

/-- The state in which a transaction has been formed and its packet sent. -/
theorem memWf_form_sent {s t : State} {c unit rank ty : Nat} {rel : Bool} {tail : List Byte} {kind : TransKind} (h : s.memWf = true)
    (ht : s.form c unit rank ty rel tail kind = .sent t) : t.memWf = true := by
  unfold State.form at ht
  split at ht
  · cases ht
  · split at ht
    · cases ht
    · next hf =>
      dsimp only at ht
      split at ht
      · next hs =>
        cases ht
        refine memWf_send ?_ hs
        exact memWf_frame (memWf_takeFlow h hf) rfl rfl
      · cases ht

/-- The state in which a transaction has found no route. -/
theorem memWf_form_noRoute {s t : State} {c unit rank ty : Nat} {rel : Bool} {tail : List Byte} {kind : TransKind} (h : s.memWf = true)
    (ht : s.form c unit rank ty rel tail kind = .noRoute t) : t.memWf = true := by
  unfold State.form at ht
  split at ht
  · cases ht; exact memWf_dieEvent h
  · split at ht
    · cases ht
    · dsimp only at ht
      split at ht
      · cases ht
      · cases ht; exact memWf_dieEvent h

theorem memWf_mgmt {s : State} {did kind : Nat} {bs : List Byte} (h : s.memWf = true) : (s.mgmt did kind bs).memWf = true :=
  memWf_foldl (memWf_emit h) fun _ _ ht => memWf_send_getD ht

theorem memWf_tellCoordBut {s : State} {but : Option Nat} {kind : Nat} {bs : List Byte} (h : s.memWf = true) :
    (s.tellCoordBut but kind bs).memWf = true := by
  unfold State.tellCoordBut
  split
  · exact memWf_mgmt h
  · exact h

theorem memWf_tellCoord {s : State} {kind : Nat} {bs : List Byte} (h : s.memWf = true) : (s.tellCoord kind bs).memWf = true :=
  memWf_tellCoordBut h

theorem memWf_tellAll {s : State} {kind : Nat} {bs : List Byte} (h : s.memWf = true) : (s.tellAll kind bs).memWf = true :=
  memWf_foldl h (fun _ _ ht => memWf_mgmt ht)

theorem memWf_releaseFlow {s : State} {t : Trans} {echo : Option Nat} (h : s.memWf = true) : (s.releaseFlow t echo).memWf = true :=
  memWf_frame h rfl rfl

theorem coreMemWf_unwait {cs : CoreState} {seq : Nat} (h : cs.memWf = true) : (cs.unwait seq).memWf = true :=
  coreMemWf_frame h rfl rfl

theorem coreMemWf_endsAt {cs : CoreState} {seq : Nat} (h : cs.memWf = true) : (cs.endsAt seq).memWf = true := by
  unfold CoreState.endsAt
  split
  · exact coreMemWf_ite h (coreMemWf_frame h rfl rfl)
  · exact h

theorem coreMemWf_endsAtPc {cs : CoreState} {pc : Nat} (h : cs.memWf = true) : (cs.endsAtPc pc).memWf = true :=
  coreMemWf_ite h (coreMemWf_frame h rfl rfl)

theorem memWf_putEntry {s : State} {c group off : Nat} {bs : List Byte} (h : s.memWf = true) :
    (s.putEntry c group off bs).memWf = true := memWf_vaWrite h

theorem memWf_deltaFailed {s : State} {c group die : Nat} (h : s.memWf = true) : (s.deltaFailed c group die).memWf = true :=
  memWf_tellCoord (memWf_putEntry (memWf_dieEvent (memWf_modCtx h)))

theorem memWf_endTrans {s : State} {t : Trans} {st : Status} {echo : Option Nat} (h : s.memWf = true) :
    (s.endTrans t st echo).memWf = true := by
  unfold State.endTrans
  extract_lets _ s1
  have h1 : s1.memWf = true := memWf_releaseFlow (memWf_frame h rfl rfl)
  clear_value s1
  split
  · next L pc =>
    extract_lets mine s2
    have h2 : s2.memWf = true := memWf_modCore h1 (coreMemWf_frame (coreMemWf_core h1) rfl rfl)
    exact memWf_ite h2 (memWf_ite (memWf_settle h2) (memWf_endTask (memWf_modCore h2 (coreMemWf_endsAtPc (coreMemWf_core h2)))))
  · next L seq _ _ =>
    extract_lets s2
    have h2 : s2.memWf = true := memWf_ite h1 (memWf_modCore h1 (coreMemWf_unwait (coreMemWf_core h1)))
    exact memWf_ite h2 (memWf_ite h2 (memWf_endTask (memWf_modCore h2 (coreMemWf_endsAt (coreMemWf_core h2)))))
  · exact memWf_frame h1 rfl rfl
  · next k group =>
    extract_lets s2
    have h2 : s2.memWf = true := memWf_ite h1 (memWf_deltaFailed h1)
    exact memWf_frame h2 rfl rfl
  · exact h1
  · exact h1

/-! ## Pennants -/

theorem memWf_penEntry {s : State} {c id : Nat} (h : s.memWf = true) : (s.penEntry c id).2.memWf = true :=
  memWf_snd_ite h (memWf_snd_mk (memWf_tableRead h))

theorem memWf_penNote {s : State} {c id : Nat} {st : Status} (h : s.memWf = true) : (s.penNote c id st).memWf = true :=
  memWf_modCtx h

theorem memWf_progress {s : State} {c : Nat} (h : s.memWf = true) : (s.progress c).memWf = true :=
  memWf_ite (memWf_frame h rfl rfl) h

theorem memWf_blockedEvent {s : State} {raise : State → State} (h : s.memWf = true)
    (hraise : ∀ t, t.memWf = true → (raise t).memWf = true) : (s.blockedEvent raise).memWf = true :=
  memWf_ite (memWf_frame h rfl rfl) (hraise _ (memWf_frame h rfl rfl))

theorem memWf_enterModule {s : State} {was : Bool} (h : s.memWf = true) : (s.enterModule was).memWf = true :=
  memWf_ite h (memWf_blockedEvent (memWf_frame h rfl rfl) (fun _ ht => memWf_event2 ht))

theorem memWf_endCmd {s : State} {k : CmdKey} {st : Status} (h : s.memWf = true) : (s.endCmd k st).memWf = true :=
  memWf_progress (memWf_modCmd h)

theorem memWf_endStrike {s : State} {k : CollKey} {got : Bool} (h : s.memWf = true) : (s.endStrike k got).memWf = true :=
  memWf_frame h rfl rfl

theorem memWf_endWait {s : State} {src : PenSrc} {wr : Option Nat} {v : Option (BitVec 48)} {stale : Bool} (h : s.memWf = true) :
    (s.endWait src wr v stale).memWf = true := by
  unfold State.endWait
  split
  · refine memWf_progress (memWf_modCore h (coreMemWf_ite (coreMemWf_core h) ?_))
    split
    · split
      · exact coreMemWf_setA (coreMemWf_event (coreMemWf_note (coreMemWf_frame (coreMemWf_core h) rfl rfl)))
      · exact coreMemWf_event (coreMemWf_note (coreMemWf_frame (coreMemWf_core h) rfl rfl))
    · split
      · exact coreMemWf_setA (coreMemWf_frame (coreMemWf_core h) rfl rfl)
      · exact coreMemWf_frame (coreMemWf_core h) rfl rfl
  · exact memWf_endCmd h
  · exact memWf_progress (memWf_endStrike h)
  · exact h

theorem memWf_outcome {s : State} {src : PenSrc} {st : Status} {id : Nat} (h : s.memWf = true) :
    (s.outcome src st id).memWf = true := memWf_frame h rfl rfl

theorem memWf_stale {s : State} {m : PenMsg} (h : s.memWf = true) : (s.stale m).memWf = true := by
  unfold State.stale
  extract_lets _ t1
  have h1 : t1.memWf = true := memWf_penNote (memWf_frame h rfl rfl)
  split
  · exact memWf_outcome h1
  · exact h1
  · exact memWf_endWait (memWf_modCtx h1)
  · exact memWf_endWait (memWf_modCtx h1)
  · exact memWf_endWait (memWf_modCtx h1)

theorem memWf_proceedAll {s : State} {ws : List (Waiter × BitVec 48)} (h : s.memWf = true) : (s.proceedAll ws).memWf = true :=
  memWf_foldl h (fun _ _ ht => memWf_endWait ht)

theorem memWf_atSlot {s : State} {key : Nat} {m : PenMsg} (h : s.memWf = true) : (s.atSlot key m).memWf = true := by
  unfold State.atSlot
  dsimp only
  split
  · split
    · exact memWf_outcome (memWf_penNote (memWf_frame h rfl rfl))
    · exact memWf_progress (memWf_outcome (memWf_proceedAll (memWf_setSlot h)))
  · exact memWf_ite (memWf_endWait (memWf_setSlot h)) (memWf_setSlot h)
  · exact memWf_ite (memWf_endWait h) (memWf_setSlot h)
  · split
    · refine memWf_modCore h (coreMemWf_ite (coreMemWf_core h) ?_)
      split
      · exact coreMemWf_setA (coreMemWf_frame (coreMemWf_core h) rfl rfl)
      · exact coreMemWf_frame (coreMemWf_core h) rfl rfl
    · exact h
  · exact h

theorem memWf_penFault {s : State} {m : PenMsg} (h : s.memWf = true) : (s.penFault m).memWf = true := by
  unfold State.penFault
  split
  · exact memWf_outcome h
  · exact h
  · exact memWf_progress (memWf_modCore h (coreMemWf_ite (coreMemWf_note (coreMemWf_frame (coreMemWf_core h) rfl rfl))
      (coreMemWf_core h)))
  · exact memWf_endCmd h
  · exact memWf_progress (memWf_endStrike h)
  · exact h

theorem memWf_deliver {s : State} {m : PenMsg} (h : s.memWf = true) : (s.deliver m).memWf = true := by
  unfold State.deliver
  extract_lets r1
  have h1 : r1.2.memWf = true := memWf_penEntry h
  refine memWf_ite (memWf_penFault h) ?_
  split
  · exact memWf_ite h1 (memWf_stale h1)
  · exact memWf_ite (memWf_stale h1) (memWf_ite (memWf_stale h1) (memWf_atSlot h1))

theorem memWf_left {s : State} {m : PenMsg} (h : s.memWf = true) : (s.left m).memWf = true := by
  unfold State.left
  split
  · exact memWf_modCore h (coreMemWf_event (coreMemWf_ite (coreMemWf_core h) (coreMemWf_unwait (coreMemWf_core h))))
  · exact memWf_modCore h (coreMemWf_event (coreMemWf_ite (coreMemWf_core h) (coreMemWf_unwait (coreMemWf_core h))))
  · exact h

theorem memWf_fxPennantOperation {i : Nat} {s : State} (h : s.memWf = true) : (fxPennantOperation i s).memWf = true := by
  unfold fxPennantOperation
  split
  · exact h
  · next m _ =>
    refine memWf_ite h ?_
    extract_lets _ s0
    have h0 : s0.memWf = true := memWf_frame h rfl rfl
    split
    · split
      · next hf => exact memWf_left (memWf_form_sent h0 hf)
      · next hf => exact memWf_outcome (memWf_left (memWf_form_noRoute h0 hf))
      · exact h
    · exact memWf_deliver (memWf_left h0)

@[simp] theorem keepsForm_execPennantOperation {i : Nat} {s : State} (h : s.memWf = true) : KeepsForm (execPennantOperation i s) :=
  keepsForm_next (memWf_fxPennantOperation h)

theorem memWf_ackRemote {s : State} {c did unit tag cong : Nat} {st : Status} (h : s.memWf = true) :
    (s.ackRemote c did unit tag cong st).memWf = true := memWf_respond h

theorem memWf_fxHoistOutcome {i : Nat} {s : State} (h : s.memWf = true) : (fxHoistOutcome i s).memWf = true := by
  unfold fxHoistOutcome
  split
  · exact h
  · refine memWf_ite h ?_
    extract_lets _ s1
    have h1 : s1.memWf = true := memWf_frame h rfl rfl
    clear_value s1
    split
    · next L seq chk _ =>
      extract_lets c s2 s3
      have h2 : s2.memWf = true := memWf_ite (memWf_modCtx h1) h1
      refine memWf_settle (memWf_modCore h2 ?_)
      extract_lets c1 c2 c3
      have hc1 : c1.memWf = true := coreMemWf_frame (coreMemWf_core h2) rfl rfl
      have hc2 : c2.memWf = true := coreMemWf_ite (coreMemWf_event hc1) hc1
      have hc3 : c3.memWf = true := coreMemWf_ite (coreMemWf_note hc2) hc2
      have hc4 : (c3.unwait seq).memWf = true := coreMemWf_unwait hc3
      exact coreMemWf_ite (coreMemWf_frame hc4 rfl rfl) hc3
    · exact memWf_endCmd (memWf_ite (memWf_modCtx h1) h1)
    · exact memWf_ackRemote h1
    · exact memWf_ite (memWf_modCtx h1) h1

@[simp] theorem keepsForm_execHoistOutcome {i : Nat} {s : State} (h : s.memWf = true) : KeepsForm (execHoistOutcome i s) :=
  keepsForm_next (memWf_fxHoistOutcome h)

theorem memWf_fxPerWaitTimeout {L : Nat} {s : State} (h : s.memWf = true) : (fxPerWaitTimeout L s).memWf = true :=
  memWf_foldl (memWf_frame h rfl rfl) (fun _ _ ht => memWf_endWait ht)

@[simp] theorem keepsForm_execPerWaitTimeout {core : Nat} {s : State} (h : s.memWf = true) :
    KeepsForm (execPerWaitTimeout core s) := keepsForm_onCore (memWf_fxPerWaitTimeout h)

theorem memWf_post {s : State} {L : Nat} {f : TileFields} {chk : Bool} {op : CoreState → PenOp} (h : s.memWf = true) :
    (s.post L f chk op).memWf = true := memWf_frame h rfl rfl

@[simp] theorem keepsForm_execSynHoist {core : Nat} {f : TileFields} {s : State} (h : s.memWf = true) :
    KeepsForm (execSynHoist core f s) := by
  unfold execSynHoist
  exact keepsForm_onCore (memWf_issue h (fun _ ht => memWf_post (memWf_modCore ht (coreMemWf_frame (coreMemWf_core ht) rfl rfl))))

@[simp] theorem keepsForm_execSynStrike {core : Nat} {f : TileFields} {s : State} (h : s.memWf = true) :
    KeepsForm (execSynStrike core f s) := by
  unfold execSynStrike
  exact keepsForm_onCore (memWf_issue h (fun _ ht => memWf_post ht))

@[simp] theorem keepsForm_execSynWatch {core : Nat} {f : TileFields} {s : State} (h : s.memWf = true) :
    KeepsForm (execSynWatch core f s) := by
  unfold execSynWatch
  exact keepsForm_onCore (memWf_issue h (fun _ ht => memWf_post ht))

@[simp] theorem keepsForm_execSynTest {core : Nat} {f : TileFields} {s : State} (h : s.memWf = true) :
    KeepsForm (execSynTest core f s) := by
  unfold execSynTest
  exact keepsForm_onCore (memWf_issue h (fun _ ht => memWf_post ht))

@[simp] theorem keepsForm_execPennantQuarantineEnd {i : Nat} {s : State} (h : s.memWf = true) :
    KeepsForm (execPennantQuarantineEnd i s) := keepsForm_next (memWf_frame h rfl rfl)

theorem memWf_fxQuiescentBlocked {c : Nat} {s : State} (h : s.memWf = true) : (fxQuiescentBlocked c s).memWf = true :=
  memWf_ite h (memWf_dump (memWf_enterModule
    (memWf_frame (memWf_blockedEvent (memWf_modCtx h) (fun _ ht => memWf_event ht)) rfl rfl)))

@[simp] theorem keepsForm_execQuiescentBlocked {c : Nat} {s : State} (h : s.memWf = true) : KeepsForm (execQuiescentBlocked c s) :=
  keepsForm_onCtx (memWf_fxQuiescentBlocked h)

theorem memWf_fxStallCensus {c : Nat} {others : Bool} {count : Nat} {s : State} (h : s.memWf = true) :
    (fxStallCensus c others count s).memWf = true :=
  memWf_ite h (memWf_ite (memWf_dump (memWf_event (memWf_frame (memWf_tellCoord h) rfl rfl)))
    (memWf_frame (memWf_tellCoord h) rfl rfl))

@[simp] theorem keepsForm_execStallCensus {c : Nat} {othersBlocked : Bool} {count : Nat} {s : State} (h : s.memWf = true) :
    KeepsForm (execStallCensus c othersBlocked count s) := keepsForm_onCtx (memWf_fxStallCensus h)

/-! ## Transactions over the fabric -/

theorem memWf_putPiece {s : State} {L rank src va n : Nat} (h : s.memWf = true) : (s.putPiece L rank src va n).2.memWf = true := by
  unfold State.putPiece
  extract_lets r s1
  have h1 : s1.memWf = true := memWf_setCore h (coreMemWf_load (coreMemWf_core h))
  split
  · exact h1
  · split
    · next hf =>
      have h2 := memWf_form_sent h1 hf
      exact memWf_moverBytes (memWf_modCore h2 (coreMemWf_event (coreMemWf_frame (coreMemWf_core h2) rfl rfl)))
    · next hf => exact memWf_endTask (memWf_form_noRoute h1 hf)
    · exact h1

theorem memWf_getPiece {s : State} {L rank va dst n : Nat} (h : s.memWf = true) : (s.getPiece L rank va dst n).2.memWf = true := by
  unfold State.getPiece
  split
  · next hf =>
    have h2 := memWf_form_sent h hf
    exact memWf_modCore h2 (coreMemWf_event (coreMemWf_core h2))
  · next hf => exact memWf_endTask (memWf_form_noRoute h hf)
  · exact h

theorem memWf_remoteRow {s : State} {L : Nat} {va : Int} {n : Nat} {go : State → Nat → Nat → Bool × State} (h : s.memWf = true)
    (hgo : ∀ t y z, t.memWf = true → (go t y z).2.memWf = true) : (s.remoteRow L va n go).2.memWf = true :=
  memWf_snd_ite (memWf_endTask h) (memWf_snd_foldl h (fun _ _ ht => memWf_snd_ite ht (hgo _ _ _ ht)))

theorem memWf_fxMovPut {L : Nat} {f : TileFields} {s : State} (h : s.memWf = true) : (fxMovPut L f s).memWf = true :=
  memWf_snd_foldl h (fun _ _ ht => memWf_snd_ite ht (memWf_remoteRow ht (fun _ _ _ ht1 => memWf_putPiece ht1)))

theorem memWf_fxMovGet {L : Nat} {f : TileFields} {s : State} (h : s.memWf = true) : (fxMovGet L f s).memWf = true := by
  unfold fxMovGet
  extract_lets _ _ _ _ t1
  have h1 : t1.memWf = true := memWf_snd_foldl h
    (fun _ _ ht => memWf_snd_ite ht (memWf_remoteRow ht (fun _ _ _ ht1 => memWf_getPiece ht1)))
  exact memWf_ite h1 (memWf_modCore h1 (coreMemWf_unwait (coreMemWf_core h1)))

theorem memWf_issueRemote {s : State} {L opc : Nat} {f : TileFields} {plan : State → Plan} {act : State → State}
    (h : s.memWf = true) (hact : ∀ t, t.memWf = true → (act t).memWf = true) : (s.issueRemote L opc f plan act).memWf = true :=
  memWf_front h (fun _ ht => memWf_operands ht
    (fun _ ht1 => memWf_ite (memWf_advance (hact _ (memWf_modCore ht1 (coreMemWf_push (coreMemWf_issued (coreMemWf_core ht1))))))
    (memWf_stall ht1 (fun _ ht2 => coreMemWf_frame ht2 rfl rfl))))

@[simp] theorem keepsForm_execMovPut {core : Nat} {f : TileFields} {s : State} (h : s.memWf = true) :
    KeepsForm (execMovPut core f s) := by
  unfold execMovPut
  exact keepsForm_onCore (memWf_issueRemote h (fun _ ht => memWf_fxMovPut ht))

@[simp] theorem keepsForm_execMovGet {core : Nat} {f : TileFields} {s : State} (h : s.memWf = true) :
    KeepsForm (execMovGet core f s) := by
  unfold execMovGet
  exact keepsForm_onCore (memWf_issueRemote h (fun _ ht => memWf_fxMovGet ht))

theorem memWf_discard {s : State} {port : Nat} (h : s.memWf = true) : (s.discard port).memWf = true := memWf_portCtr h

theorem memWf_taken {s : State} {port ty : Nat} {pk : List Byte} (h : s.memWf = true) : (s.taken port ty pk).memWf = true :=
  memWf_ite (memWf_frame (memWf_passOn h) rfl rfl) (memWf_passOn h)

theorem memWf_kept {s : State} {port : Nat} {pk : List Byte} (h : s.memWf = true) : (s.kept port pk).memWf = true :=
  memWf_withPen (memWf_occupy h)

theorem memWf_leavePort {s : State} {port : Nat} {pk : List Byte} (h : s.memWf = true) : (s.leavePort port pk).memWf = true :=
  memWf_freeUnits h

theorem memWf_arrive {s : State} {port ty : Nat} {pk : List Byte} {go : State → State} (h : s.memWf = true)
    (hgo : ∀ t, t.memWf = true → (go t).memWf = true) : (s.arrive port ty pk go).memWf = true := by
  unfold State.arrive
  extract_lets hd s1
  have h1 : s1.memWf = true := memWf_wakeBy h
  exact memWf_ite h (memWf_ite h (memWf_ite (memWf_passOn h) (memWf_ite h1 (memWf_ite
    (memWf_ite (memWf_respond (memWf_discard (memWf_passOn h1))) (memWf_discard (memWf_passOn h1))) (hgo _ h1)))))

theorem memWf_ingress {s : State} {port ty : Nat} {pk : List Byte} {go : State → State} (h : s.memWf = true)
    (hgo : ∀ t, t.memWf = true → (go t).memWf = true) : (s.ingress port ty pk go).memWf = true :=
  memWf_arrive h (fun _ ht => hgo _ (memWf_taken ht))

theorem memWf_answer {s : State} {pk : List Byte} {st : Status} (h : s.memWf = true) : (s.answer pk st).memWf = true :=
  memWf_ite (memWf_respond h) h

theorem memWf_ackPut {s : State} {port stripe : Nat} (h : s.memWf = true) : (s.ackPut port stripe).memWf = true := by
  unfold State.ackPut
  split
  · exact h
  · exact memWf_respond (memWf_frame h rfl rfl)

theorem memWf_settlePort {s : State} {port pa len : Nat} (h : s.memWf = true) : (s.settlePort port pa len).memWf = true :=
  memWf_foldl (memWf_settleOwn h) (fun _ _ ht => memWf_ackPut (memWf_frame ht rfl rfl))

theorem memWf_fxPut {port : Nat} {pk : List Byte} {s : State} (h : s.memWf = true) : (fxPut port pk s).memWf = true := by
  unfold fxPut
  refine memWf_ingress h (fun _ ht => ?_)
  extract_lets r1 _ t2 _ t3
  have h1 : r1.2.memWf = true := memWf_xlate ht
  have h2 : t2.memWf = true := h1
  have h3 : t3.memWf = true := memWf_frame h2 rfl rfl
  split
  · exact memWf_answer h1
  · exact memWf_forCtx (memWf_sendWrite h3)

@[simp] theorem keepsForm_execPut {port : Nat} {pk : List Byte} {s : State} (h : s.memWf = true) : KeepsForm (execPut port pk s) :=
  keepsForm_onPortIn (memWf_fxPut h)

theorem memWf_fxGet {port : Nat} {pk : List Byte} {s : State} (h : s.memWf = true) : (fxGet port pk s).memWf = true := by
  unfold fxGet
  refine memWf_ingress h (fun _ ht => ?_)
  extract_lets r1
  have h1 : r1.2.memWf = true := memWf_xlate ht
  split
  · exact memWf_answer h1
  · exact memWf_ite (memWf_answer (memWf_forCtx (memWf_memRead (memWf_settlePort h1))))
      (memWf_ite (memWf_answer (memWf_forCtx (memWf_memRead (memWf_settlePort h1))))
      (memWf_respond (memWf_forCtx (memWf_memRead (memWf_settlePort h1)))))

@[simp] theorem keepsForm_execGet {port : Nat} {pk : List Byte} {s : State} (h : s.memWf = true) : KeepsForm (execGet port pk s) :=
  keepsForm_onPortIn (memWf_fxGet h)

theorem memWf_fxHoistPacket {port : Nat} {pk : List Byte} {s : State} (h : s.memWf = true) : (fxHoistPacket port pk s).memWf = true :=
  memWf_arrive h fun _ ht => memWf_ite (memWf_withFab (memWf_kept ht)) (memWf_deliver (memWf_taken ht))

@[simp] theorem keepsForm_execHoistPacket {port : Nat} {pk : List Byte} {s : State} (h : s.memWf = true) :
    KeepsForm (execHoistPacket port pk s) := keepsForm_onPortIn (memWf_fxHoistPacket h)

theorem memWf_fxRelHoistRelease {port : Nat} {s : State} (h : s.memWf = true) : (fxRelHoistRelease port s).memWf = true := by
  unfold fxRelHoistRelease
  split
  · exact h
  · exact memWf_ite h (memWf_deliver (memWf_leavePort (memWf_frame h rfl rfl)))

@[simp] theorem keepsForm_execRelHoistRelease {port : Nat} {s : State} (h : s.memWf = true) :
    KeepsForm (execRelHoistRelease port s) := keepsForm_onPortIn (memWf_fxRelHoistRelease h)

theorem memWf_fxAtomic {port : Nat} {pk : List Byte} {s : State} (h : s.memWf = true) : (fxAtomic port pk s).memWf = true := by
  unfold fxAtomic
  refine memWf_ingress h (fun _ ht => memWf_ite (memWf_answer ht) ?_)
  split
  · extract_lets r1
    have h1 : r1.2.memWf = true := memWf_xlate ht
    split
    · exact memWf_answer h1
    · exact memWf_ite (memWf_answer (memWf_forCtx (memWf_memRead (memWf_settlePort h1))))
        (memWf_ite (memWf_answer (memWf_forCtx (memWf_memRead (memWf_settlePort h1))))
        (memWf_ite (memWf_answer (memWf_forCtx (memWf_memWrite (memWf_forCtx (memWf_memRead (memWf_settlePort h1))))))
        (memWf_respond (memWf_forCtx (memWf_memWrite (memWf_forCtx (memWf_memRead (memWf_settlePort h1))))))))
  · extract_lets r1
    have h1 : r1.2.memWf = true := memWf_xlate ht
    split
    · exact memWf_answer h1
    · exact memWf_ite (memWf_answer (memWf_forCtx (memWf_memRead (memWf_settlePort h1))))
        (memWf_ite (memWf_answer (memWf_forCtx (memWf_memRead (memWf_settlePort h1))))
        (memWf_ite (memWf_answer (memWf_forCtx (memWf_memWrite (memWf_forCtx (memWf_memRead (memWf_settlePort h1))))))
        (memWf_respond (memWf_forCtx (memWf_memWrite (memWf_forCtx (memWf_memRead (memWf_settlePort h1))))))))

@[simp] theorem keepsForm_execAtomic {port : Nat} {pk : List Byte} {s : State} (h : s.memWf = true) :
    KeepsForm (execAtomic port pk s) := keepsForm_onPortIn (memWf_fxAtomic h)

theorem memWf_fxStripeWriteAck {src stripe : Nat} {s : State} (h : s.memWf = true) : (fxStripeWriteAck src stripe s).memWf = true :=
  memWf_ite h (memWf_ite (memWf_settle (memWf_releaseReads (memWf_frame h rfl rfl)))
    (memWf_ite (memWf_ackPut (memWf_releaseReads (memWf_frame h rfl rfl))) (memWf_releaseReads (memWf_frame h rfl rfl))))

@[simp] theorem keepsForm_execStripeWriteAck {src stripe : Nat} {s : State} (h : s.memWf = true) :
    KeepsForm (execStripeWriteAck src stripe s) := keepsForm_next (memWf_fxStripeWriteAck h)

/-! ## Ports and forwarding -/

theorem memWf_watchBundle {s : State} {p : Nat} (h : s.memWf = true) : (s.watchBundle p).memWf = true := by
  unfold State.watchBundle
  split
  · exact memWf_ite (memWf_tellCoordBut h) h
  · exact h

theorem memWf_noWay {s : State} {p : Nat} {pk : List Byte} (h : s.memWf = true) : (s.noWay p pk).memWf = true :=
  memWf_respond (memWf_dieEvent h)

theorem memWf_rerouteOne {s : State} {p k : Nat} {q : QPacket} (h : s.memWf = true) : (s.rerouteOne p k q).memWf = true := by
  unfold State.rerouteOne
  dsimp only
  split
  · exact memWf_enqueue h
  · exact memWf_noWay (memWf_giveBack h)

theorem memWf_rerouteFrom {s : State} {p : Nat} (h : s.memWf = true) : (s.rerouteFrom p).memWf = true := by
  unfold State.rerouteFrom
  split
  · exact h
  · exact memWf_ite h (memWf_foldl (memWf_foldl h (fun _ _ ht => memWf_modPort ht)) (fun _ _ ht => memWf_rerouteOne ht))

theorem memWf_rerouteAll {s : State} (h : s.memWf = true) : s.rerouteAll.memWf = true :=
  memWf_foldl h (fun _ _ ht => memWf_rerouteFrom ht)

theorem memWf_setPortState {s : State} {p st : Nat} (h : s.memWf = true) : (s.setPortState p st).memWf = true :=
  memWf_ite h (memWf_watchBundle (memWf_foldl (memWf_rerouteFrom (memWf_event2 (memWf_modPort h))) (fun _ _ ht => memWf_mgmt ht)))

theorem memWf_portDown {s : State} {p : Nat} (h : s.memWf = true) : (s.portDown p).memWf = true :=
  memWf_setPortState (memWf_modPort h)

theorem memWf_laneFails {s : State} {p i : Nat} (h : s.memWf = true) : (s.laneFails p i).memWf = true := by
  unfold State.laneFails
  extract_lets _ t1
  have h1 : t1.memWf = true := memWf_modPort h
  split
  · exact memWf_logRebind (memWf_modPort (memWf_frame h1 rfl rfl))
  · exact memWf_modPort h1

theorem memWf_takeShape {s : State} (h : s.memWf = true) : s.takeShape.memWf = true := memWf_frame h rfl rfl

theorem memWf_fxPortTraining {p : Nat} {r : TrainResult} {s : State} (h : s.memWf = true) :
    (fxPortTraining p r s).memWf = true := by
  unfold fxPortTraining
  refine memWf_ite h (memWf_ite (memWf_setPortState (memWf_takeShape (memWf_frame h rfl rfl))) ?_)
  extract_lets _ t1
  have h1 : t1.memWf = true := memWf_emit (memWf_takeShape (memWf_frame h rfl rfl))
  split
  · exact memWf_ite (memWf_setPortState (memWf_foldl (memWf_modPort h1) (fun _ _ ht => memWf_ite ht (memWf_laneFails ht))))
      (memWf_transmit (memWf_setPortState (memWf_foldl (memWf_modPort h1) (fun _ _ ht => memWf_ite ht (memWf_laneFails ht)))))
  · exact memWf_setPortState h1

@[simp] theorem keepsForm_execPortTraining {port : Nat} {r : TrainResult} {s : State} (h : s.memWf = true) :
    KeepsForm (execPortTraining port r s) := keepsForm_onPort (memWf_fxPortTraining h)

theorem memWf_askRetry {s : State} {p : Nat} (h : s.memWf = true) : (s.askRetry p).memWf = true := memWf_emit (memWf_setPort h)

theorem memWf_resend {s : State} {p : Nat} {fseq : BitVec 12} (h : s.memWf = true) : (s.resend p fseq).memWf = true := by
  unfold State.resend
  dsimp only
  split
  · exact h
  · exact memWf_foldl (memWf_portCtr (memWf_setPort h)) (fun _ _ ht => memWf_emit ht)

theorem memWf_goodFlit {s : State} {p : Nat} {b : List Byte} {data : Bool} (h : s.memWf = true) :
    (s.goodFlit p b data).memWf = true :=
  memWf_ite (memWf_sendIdle (memWf_transmit (memWf_modPort h))) (memWf_transmit (memWf_modPort h))

theorem memWf_fxFlitReceive {p : Nat} {b : List Byte} {fecOk : Bool} {s : State} (h : s.memWf = true) :
    (fxFlitReceive p b fecOk s).memWf = true :=
  memWf_ite h (memWf_ite (memWf_askRetry (memWf_portCtr (memWf_modPort h)))
    (memWf_ite (memWf_resend (memWf_portCtr h))
    (memWf_ite (memWf_ite (memWf_ite (memWf_setPortState (memWf_goodFlit h)) (memWf_goodFlit h)) (memWf_ite h (memWf_askRetry h)))
    h)))

@[simp] theorem keepsForm_execFlitReceive {port : Nat} {bs : List Byte} {fecOk : Bool} {s : State} (h : s.memWf = true) :
    KeepsForm (execFlitReceive port bs fecOk s) := keepsForm_onPort (memWf_fxFlitReceive h)

@[simp] theorem keepsForm_execRetryRequest {port : Nat} {fseq : BitVec 12} {s : State} (h : s.memWf = true) :
    KeepsForm (execRetryRequest port fseq s) := keepsForm_onPort (memWf_ite (memWf_resend h) h)

@[simp] theorem keepsForm_execLinkRetryTimeout {port : Nat} {s : State} (h : s.memWf = true) :
    KeepsForm (execLinkRetryTimeout port s) := keepsForm_onPort (memWf_ite (memWf_portDown h) h)

theorem memWf_fxLaneSpare {p i : Nat} {s : State} (h : s.memWf = true) : (fxLaneSpare p i s).memWf = true :=
  memWf_ite h (memWf_ite (memWf_portDown (memWf_laneFails h))
    (memWf_ite (memWf_laneFails h) (memWf_setPortState (memWf_laneFails h))))

@[simp] theorem keepsForm_execLaneSpare {port lane : Nat} {s : State} (h : s.memWf = true) :
    KeepsForm (execLaneSpare port lane s) := keepsForm_onPort (memWf_fxLaneSpare h)

theorem memWf_fxPortQuietEntry {p : Nat} {s : State} (h : s.memWf = true) : (fxPortQuietEntry p s).memWf = true :=
  memWf_ite (memWf_setPortState (memWf_portCtr h)) h

@[simp] theorem keepsForm_execPortQuietEntry {port : Nat} {s : State} (h : s.memWf = true) :
    KeepsForm (execPortQuietEntry port s) := keepsForm_onPort (memWf_fxPortQuietEntry h)

@[simp] theorem keepsForm_execPortQuietWake {port : Nat} {s : State} (h : s.memWf = true) : KeepsForm (execPortQuietWake port s) :=
  keepsForm_onPort (memWf_ite (memWf_transmit (memWf_setPortState h)) h)

theorem memWf_fxPacketResidenceTimeout {p i : Nat} {s : State} (h : s.memWf = true) :
    (fxPacketResidenceTimeout p i s).memWf = true := by
  unfold fxPacketResidenceTimeout
  dsimp only
  split
  · exact memWf_giveBack (memWf_portCtr (memWf_setPort h))
  · exact memWf_ite (memWf_portCtr (memWf_setPort h)) h
  · exact memWf_leavePort (memWf_discard (memWf_frame h rfl rfl))
  · exact h

@[simp] theorem keepsForm_execPacketResidenceTimeout {port i : Nat} {s : State} (h : s.memWf = true) :
    KeepsForm (execPacketResidenceTimeout port i s) := keepsForm_onPort (memWf_fxPacketResidenceTimeout h)

@[simp] theorem keepsForm_execPortState {did nb : Nat} {up : Bool} {s : State} (h : s.memWf = true) :
    KeepsForm (execPortState did nb up s) := keepsForm_next (memWf_ite h (memWf_frame h rfl rfl))

/-! ## Marker instructions -/

theorem memWf_ribbon {s : State} {L pc tag : Nat} {pois : Bool} (h : s.memWf = true) : (s.ribbon L pc tag pois).memWf = true := by
  unfold State.ribbon
  extract_lets _ _ _ _ t1 _ r2 t3
  have h1 : t1.memWf = true := memWf_modCtx h
  have h2 : r2.2.memWf = true := memWf_vaWrite h1
  have h3 : t3.memWf = true := h2
  exact memWf_ite (memWf_frame h1 rfl rfl) (memWf_ite (memWf_frame h3 rfl rfl) h2)

theorem memWf_fxMrkRibbon {L : Nat} {f : TileFields} {s : State} (h : s.memWf = true) : (fxMrkRibbon L f s).memWf = true :=
  memWf_front h (fun _ ht => memWf_ite (memWf_advance (memWf_modCore ht (coreMemWf_issued (coreMemWf_core ht))))
    (memWf_operands ht (fun _ ht1 => memWf_advance
    (memWf_ribbon (memWf_modCore ht1 (coreMemWf_push (coreMemWf_issued (coreMemWf_core ht1))))))))

@[simp] theorem keepsForm_execMrkRibbon {core : Nat} {f : TileFields} {s : State} (h : s.memWf = true) :
    KeepsForm (execMrkRibbon core f s) := keepsForm_onCore (memWf_fxMrkRibbon h)

/-- A marker instruction, whose effect lies in its core alone. -/
theorem memWf_issueMrk {s : State} {L opc : Nat} {f : TileFields} {ok : Bool} {plan : State → Plan} {act : State → CoreState → CoreState}
    (h : s.memWf = true) (hact : ∀ t cs, cs.memWf = true → (act t cs).memWf = true) :
    (s.issue L 7 opc f ok .mrk plan (fun t => t.modCore L (act t))).memWf = true :=
  memWf_issue h fun _ ht => memWf_modCore ht (hact _ _ (coreMemWf_core ht))

@[simp] theorem keepsForm_execMrkCsel {core : Nat} {f : TileFields} {s : State} (h : s.memWf = true) : KeepsForm (execMrkCsel core f s) :=
  keepsForm_onCore (memWf_issueMrk h fun _ _ hcs => coreMemWf_frame hcs (by rfl) (by rfl))

@[simp] theorem keepsForm_execMrkCread {core : Nat} {f : TileFields} {s : State} (h : s.memWf = true) : KeepsForm (execMrkCread core f s) :=
  keepsForm_onCore (memWf_issueMrk h fun _ _ hcs => coreMemWf_setA hcs)

@[simp] theorem keepsForm_execMrkTime {core : Nat} {f : TileFields} {s : State} (h : s.memWf = true) : KeepsForm (execMrkTime core f s) :=
  keepsForm_onCore (memWf_issueMrk h fun _ _ hcs => coreMemWf_setA hcs)

/-! ## The vector unit -/

theorem coreMemWf_vecWritten {cs : CoreState} {r w : Nat} {out : List EOut} (h : cs.memWf = true) :
    (cs.vecWritten r w out).memWf = true :=
  coreMemWf_ite h (coreMemWf_foldl h (fun _ _ ht => coreMemWf_ite ht
    (coreMemWf_ite (coreMemWf_frame ht rfl rfl) (coreMemWf_vecPair ht))))

theorem coreMemWf_putV {cs : CoreState} {r w : Nat} {out : List EOut} (h : cs.memWf = true) : (cs.putV r w out).memWf = true :=
  coreMemWf_frame (coreMemWf_vecWritten h) rfl rfl

theorem memWf_vecMap {f : TileFields} {g : CoreState → Nat → Nat × Bool} {cs : CoreState} (h : cs.memWf = true) :
    (vecMap f g cs).memWf = true := coreMemWf_putV h

theorem memWf_vecBin {f : TileFields} {op : Nat → Nat → Nat} {cs : CoreState} (h : cs.memWf = true) :
    (vecBin f op cs).memWf = true := memWf_vecMap h

theorem memWf_vecUn {f : TileFields} {op : Nat → Nat} {cs : CoreState} (h : cs.memWf = true) : (vecUn f op cs).memWf = true :=
  memWf_vecMap h

theorem coreMemWf_vxuStart {cs : CoreState} {opc : Nat} {red : Bool} (h : cs.memWf = true) : (cs.vxuStart opc red).memWf = true :=
  coreMemWf_frame h rfl rfl

theorem coreMemWf_vecEcc {cs : CoreState} {opc : Nat} {f : TileFields} (h : cs.memWf = true) : (cs.vecEcc opc f).memWf = true :=
  coreMemWf_ite h (coreMemWf_foldl h (fun _ _ ht => coreMemWf_vecPair ht))

theorem memWf_issueVec {s : State} {L opc : Nat} {f : TileFields} {ok : Bool} {plan : CoreState → Plan}
    {act : CoreState → CoreState} (h : s.memWf = true) (hact : ∀ cs, cs.memWf = true → (act cs).memWf = true) :
    (s.issueVec L opc f ok plan act).memWf = true :=
  memWf_issue h (fun _ ht => memWf_modCore ht (hact _ (coreMemWf_vecEcc (coreMemWf_vxuStart (coreMemWf_core ht)))))

theorem coreMemWf_loadElems {cs : CoreState} {am : Bool} {off b : Nat} {is : List Nat} (h : cs.memWf = true) :
    (cs.loadElems am off b is).2.memWf = true := coreMemWf_poisonRead (coreMemWf_foldl h (fun _ _ ht => coreMemWf_eccWord ht))

theorem coreMemWf_storeElems {cs : CoreState} {am : Bool} {off b : Nat} {es : List (Nat × Nat × Bool)} (h : cs.memWf = true) :
    (cs.storeElems am off b es).memWf = true := coreMemWf_foldl h (fun _ _ ht => coreMemWf_store ht)

@[simp] theorem keepsForm_execVecSetvl {core : Nat} {f : TileFields} {s : State} (h : s.memWf = true) :
    KeepsForm (execVecSetvl core f s) := by
  unfold execVecSetvl
  exact keepsForm_onCore (memWf_issueVec h (fun _ ht => coreMemWf_frame ht (by rfl) (by rfl)))

theorem memWf_fxVecLd {f : TileFields} {cs : CoreState} (h : cs.memWf = true) : (fxVecLd f cs).memWf = true := by
  unfold fxVecLd
  exact memWf_vecMap (coreMemWf_loadElems h)

@[simp] theorem keepsForm_execVecLd {core : Nat} {f : TileFields} {s : State} (h : s.memWf = true) :
    KeepsForm (execVecLd core f s) := by
  unfold execVecLd
  exact keepsForm_onCore (memWf_issueVec h (fun _ ht => memWf_fxVecLd ht))

theorem memWf_fxVecSt {f : TileFields} {cs : CoreState} (h : cs.memWf = true) : (fxVecSt f cs).memWf = true :=
  coreMemWf_storeElems h

@[simp] theorem keepsForm_execVecSt {core : Nat} {f : TileFields} {s : State} (h : s.memWf = true) :
    KeepsForm (execVecSt core f s) := by
  unfold execVecSt
  exact keepsForm_onCore (memWf_issueVec h (fun _ ht => memWf_fxVecSt ht))

theorem memWf_fxVecLdr {f : TileFields} {cs : CoreState} (h : cs.memWf = true) : (fxVecLdr f cs).memWf = true := by
  unfold fxVecLdr
  exact memWf_vecMap (coreMemWf_loadElems h)

@[simp] theorem keepsForm_execVecLdr {core : Nat} {f : TileFields} {s : State} (h : s.memWf = true) :
    KeepsForm (execVecLdr core f s) := by
  unfold execVecLdr
  exact keepsForm_onCore (memWf_issueVec h (fun _ ht => memWf_fxVecLdr ht))

@[simp] theorem keepsForm_execVecBcast {core : Nat} {f : TileFields} {s : State} (h : s.memWf = true) :
    KeepsForm (execVecBcast core f s) := by
  unfold execVecBcast
  exact keepsForm_onCore (memWf_issueVec h (fun _ ht => memWf_vecMap ht))

@[simp] theorem keepsForm_execVecIota {core : Nat} {f : TileFields} {s : State} (h : s.memWf = true) :
    KeepsForm (execVecIota core f s) := by
  unfold execVecIota
  exact keepsForm_onCore (memWf_issueVec h (fun _ ht => memWf_vecMap ht))

@[simp] theorem keepsForm_execVecAdd {core : Nat} {f : TileFields} {s : State} (h : s.memWf = true) :
    KeepsForm (execVecAdd core f s) := by
  unfold execVecAdd
  exact keepsForm_onCore (memWf_issueVec h (fun _ ht => memWf_vecBin ht))

@[simp] theorem keepsForm_execVecSub {core : Nat} {f : TileFields} {s : State} (h : s.memWf = true) :
    KeepsForm (execVecSub core f s) := by
  unfold execVecSub
  exact keepsForm_onCore (memWf_issueVec h (fun _ ht => memWf_vecBin ht))

@[simp] theorem keepsForm_execVecMul {core : Nat} {f : TileFields} {s : State} (h : s.memWf = true) :
    KeepsForm (execVecMul core f s) := by
  unfold execVecMul
  exact keepsForm_onCore (memWf_issueVec h (fun _ ht => memWf_vecBin ht))

@[simp] theorem keepsForm_execVecFma {core : Nat} {f : TileFields} {s : State} (h : s.memWf = true) :
    KeepsForm (execVecFma core f s) := by
  unfold execVecFma
  exact keepsForm_onCore (memWf_issueVec h (fun _ ht => memWf_vecMap ht))

@[simp] theorem keepsForm_execVecMax {core : Nat} {f : TileFields} {s : State} (h : s.memWf = true) :
    KeepsForm (execVecMax core f s) := by
  unfold execVecMax
  exact keepsForm_onCore (memWf_issueVec h (fun _ ht => memWf_vecBin ht))

@[simp] theorem keepsForm_execVecMin {core : Nat} {f : TileFields} {s : State} (h : s.memWf = true) :
    KeepsForm (execVecMin core f s) := by
  unfold execVecMin
  exact keepsForm_onCore (memWf_issueVec h (fun _ ht => memWf_vecBin ht))

@[simp] theorem keepsForm_execVecAbs {core : Nat} {f : TileFields} {s : State} (h : s.memWf = true) :
    KeepsForm (execVecAbs core f s) := by
  unfold execVecAbs
  exact keepsForm_onCore (memWf_issueVec h (fun _ ht => memWf_vecUn ht))

@[simp] theorem keepsForm_execVecNeg {core : Nat} {f : TileFields} {s : State} (h : s.memWf = true) :
    KeepsForm (execVecNeg core f s) := by
  unfold execVecNeg
  exact keepsForm_onCore (memWf_issueVec h (fun _ ht => memWf_vecUn ht))

@[simp] theorem keepsForm_execVecAnd {core : Nat} {f : TileFields} {s : State} (h : s.memWf = true) :
    KeepsForm (execVecAnd core f s) := by
  unfold execVecAnd
  exact keepsForm_onCore (memWf_issueVec h (fun _ ht => memWf_vecBin ht))

@[simp] theorem keepsForm_execVecOr {core : Nat} {f : TileFields} {s : State} (h : s.memWf = true) :
    KeepsForm (execVecOr core f s) := by
  unfold execVecOr
  exact keepsForm_onCore (memWf_issueVec h (fun _ ht => memWf_vecBin ht))

@[simp] theorem keepsForm_execVecXor {core : Nat} {f : TileFields} {s : State} (h : s.memWf = true) :
    KeepsForm (execVecXor core f s) := by
  unfold execVecXor
  exact keepsForm_onCore (memWf_issueVec h (fun _ ht => memWf_vecBin ht))

@[simp] theorem keepsForm_execVecShl {core : Nat} {f : TileFields} {s : State} (h : s.memWf = true) :
    KeepsForm (execVecShl core f s) := by
  unfold execVecShl
  exact keepsForm_onCore (memWf_issueVec h (fun _ ht => memWf_vecBin ht))

@[simp] theorem keepsForm_execVecShr {core : Nat} {f : TileFields} {s : State} (h : s.memWf = true) :
    KeepsForm (execVecShr core f s) := by
  unfold execVecShr
  exact keepsForm_onCore (memWf_issueVec h (fun _ ht => memWf_vecBin ht))

@[simp] theorem keepsForm_execVecSra {core : Nat} {f : TileFields} {s : State} (h : s.memWf = true) :
    KeepsForm (execVecSra core f s) := by
  unfold execVecSra
  exact keepsForm_onCore (memWf_issueVec h (fun _ ht => memWf_vecBin ht))

@[simp] theorem keepsForm_execVecSel {core : Nat} {f : TileFields} {s : State} (h : s.memWf = true) :
    KeepsForm (execVecSel core f s) := by
  unfold execVecSel
  exact keepsForm_onCore (memWf_issueVec h (fun _ ht => memWf_vecMap ht))

theorem coreMemWf_putM {cs : CoreState} {r : Nat} {out : List (Nat × Option Bool × Bool)} (h : cs.memWf = true) :
    (cs.putM r out).memWf = true := coreMemWf_frame h rfl rfl

theorem memWf_fxVecCmp {f : TileFields} {cs : CoreState} (h : cs.memWf = true) : (fxVecCmp f cs).memWf = true := coreMemWf_putM h

@[simp] theorem keepsForm_execVecCmp {core : Nat} {f : TileFields} {s : State} (h : s.memWf = true) :
    KeepsForm (execVecCmp core f s) := by
  unfold execVecCmp
  exact keepsForm_onCore (memWf_issueVec h (fun _ ht => memWf_fxVecCmp ht))

theorem memWf_maskOp {f : TileFields} {op : BitVec 256 → BitVec 256 → BitVec 256} {two : Bool} {cs : CoreState}
    (h : cs.memWf = true) : (maskOp f op two cs).memWf = true := coreMemWf_frame h rfl rfl

@[simp] theorem keepsForm_execVecMand {core : Nat} {f : TileFields} {s : State} (h : s.memWf = true) :
    KeepsForm (execVecMand core f s) := by
  unfold execVecMand
  exact keepsForm_onCore (memWf_issueVec h (fun _ ht => memWf_maskOp ht))

@[simp] theorem keepsForm_execVecMor {core : Nat} {f : TileFields} {s : State} (h : s.memWf = true) :
    KeepsForm (execVecMor core f s) := by
  unfold execVecMor
  exact keepsForm_onCore (memWf_issueVec h (fun _ ht => memWf_maskOp ht))

@[simp] theorem keepsForm_execVecMxor {core : Nat} {f : TileFields} {s : State} (h : s.memWf = true) :
    KeepsForm (execVecMxor core f s) := by
  unfold execVecMxor
  exact keepsForm_onCore (memWf_issueVec h (fun _ ht => memWf_maskOp ht))

@[simp] theorem keepsForm_execVecMnot {core : Nat} {f : TileFields} {s : State} (h : s.memWf = true) :
    KeepsForm (execVecMnot core f s) := by
  unfold execVecMnot
  exact keepsForm_onCore (memWf_issueVec h (fun _ ht => memWf_maskOp ht))

theorem memWf_fxMaskA {f : TileFields} {g : List Nat → Nat → Nat} {cs : CoreState} (h : cs.memWf = true) :
    (fxMaskA f g cs).memWf = true := coreMemWf_setA h

@[simp] theorem keepsForm_execVecMpop {core : Nat} {f : TileFields} {s : State} (h : s.memWf = true) :
    KeepsForm (execVecMpop core f s) := by
  unfold execVecMpop
  exact keepsForm_onCore (memWf_issueVec h (fun _ ht => memWf_fxMaskA ht))

@[simp] theorem keepsForm_execVecMfirst {core : Nat} {f : TileFields} {s : State} (h : s.memWf = true) :
    KeepsForm (execVecMfirst core f s) := by
  unfold execVecMfirst
  exact keepsForm_onCore (memWf_issueVec h (fun _ ht => memWf_fxMaskA ht))

@[simp] theorem keepsForm_execVecExp2 {core : Nat} {f : TileFields} {s : State} (h : s.memWf = true) :
    KeepsForm (execVecExp2 core f s) := by
  unfold execVecExp2
  exact keepsForm_onCore (memWf_issueVec h (fun _ ht => memWf_vecUn ht))

@[simp] theorem keepsForm_execVecLog2 {core : Nat} {f : TileFields} {s : State} (h : s.memWf = true) :
    KeepsForm (execVecLog2 core f s) := by
  unfold execVecLog2
  exact keepsForm_onCore (memWf_issueVec h (fun _ ht => memWf_vecUn ht))

@[simp] theorem keepsForm_execVecRsqrt {core : Nat} {f : TileFields} {s : State} (h : s.memWf = true) :
    KeepsForm (execVecRsqrt core f s) := by
  unfold execVecRsqrt
  exact keepsForm_onCore (memWf_issueVec h (fun _ ht => memWf_vecUn ht))

@[simp] theorem keepsForm_execVecRecip {core : Nat} {f : TileFields} {s : State} (h : s.memWf = true) :
    KeepsForm (execVecRecip core f s) := by
  unfold execVecRecip
  exact keepsForm_onCore (memWf_issueVec h (fun _ ht => memWf_vecUn ht))

@[simp] theorem keepsForm_execVecTanh {core : Nat} {f : TileFields} {s : State} (h : s.memWf = true) :
    KeepsForm (execVecTanh core f s) := by
  unfold execVecTanh
  exact keepsForm_onCore (memWf_issueVec h (fun _ ht => memWf_vecUn ht))

@[simp] theorem keepsForm_execVecDiv {core : Nat} {f : TileFields} {s : State} (h : s.memWf = true) :
    KeepsForm (execVecDiv core f s) := by
  unfold execVecDiv
  exact keepsForm_onCore (memWf_issueVec h (fun _ ht => memWf_vecBin ht))

@[simp] theorem keepsForm_execVecSqrt {core : Nat} {f : TileFields} {s : State} (h : s.memWf = true) :
    KeepsForm (execVecSqrt core f s) := by
  unfold execVecSqrt
  exact keepsForm_onCore (memWf_issueVec h (fun _ ht => memWf_vecUn ht))

theorem memWf_vecGather {f : TileFields} {size : Nat} {ix tb : Nat → Nat × Bool} {cs : CoreState} (h : cs.memWf = true) :
    (vecGather f size ix tb cs).memWf = true := by
  unfold vecGather
  exact memWf_vecMap (coreMemWf_indexRange h)

@[simp] theorem keepsForm_execVecPerm {core : Nat} {f : TileFields} {s : State} (h : s.memWf = true) :
    KeepsForm (execVecPerm core f s) := by
  unfold execVecPerm
  exact keepsForm_onCore (memWf_issueVec h (fun _ ht => memWf_vecGather ht))

@[simp] theorem keepsForm_execVecPerm2 {core : Nat} {f : TileFields} {s : State} (h : s.memWf = true) :
    KeepsForm (execVecPerm2 core f s) := by
  unfold execVecPerm2
  exact keepsForm_onCore (memWf_issueVec h (fun _ ht => memWf_vecGather ht))

@[simp] theorem keepsForm_execVecShuf {core : Nat} {f : TileFields} {s : State} (h : s.memWf = true) :
    KeepsForm (execVecShuf core f s) := by
  unfold execVecShuf
  exact keepsForm_onCore (memWf_issueVec h (fun _ ht => memWf_vecGather ht))

theorem memWf_fxVecPack {f : TileFields} {cs : CoreState} (h : cs.memWf = true) : (fxVecPack f cs).memWf = true := coreMemWf_putV h

@[simp] theorem keepsForm_execVecPack {core : Nat} {f : TileFields} {s : State} (h : s.memWf = true) :
    KeepsForm (execVecPack core f s) := by
  unfold execVecPack
  exact keepsForm_onCore (memWf_issueVec h (fun _ ht => memWf_fxVecPack ht))

theorem memWf_fxVecUnpack {f : TileFields} {cs : CoreState} (h : cs.memWf = true) : (fxVecUnpack f cs).memWf = true := by
  unfold fxVecUnpack
  exact memWf_vecMap h

@[simp] theorem keepsForm_execVecUnpack {core : Nat} {f : TileFields} {s : State} (h : s.memWf = true) :
    KeepsForm (execVecUnpack core f s) := by
  unfold execVecUnpack
  exact keepsForm_onCore (memWf_issueVec h (fun _ ht => memWf_fxVecUnpack ht))

theorem memWf_fxVecCompress {f : TileFields} {cs : CoreState} (h : cs.memWf = true) : (fxVecCompress f cs).memWf = true :=
  coreMemWf_putV h

@[simp] theorem keepsForm_execVecCompress {core : Nat} {f : TileFields} {s : State} (h : s.memWf = true) :
    KeepsForm (execVecCompress core f s) := by
  unfold execVecCompress
  exact keepsForm_onCore (memWf_issueVec h (fun _ ht => memWf_fxVecCompress ht))

theorem coreMemWf_spread {cs : CoreState} {f : TileFields} {g : Nat → Nat × Bool} (h : cs.memWf = true) :
    (cs.spread f g).memWf = true := coreMemWf_putV h

@[simp] theorem keepsForm_execVecExpand {core : Nat} {f : TileFields} {s : State} (h : s.memWf = true) :
    KeepsForm (execVecExpand core f s) := by
  unfold execVecExpand
  exact keepsForm_onCore (memWf_issueVec h (fun _ ht => coreMemWf_spread ht))

theorem coreMemWf_bumpA {cs : CoreState} {f : TileFields} {c : Nat} {bad : Bool} (h : cs.memWf = true) :
    (cs.bumpA f c bad).memWf = true := coreMemWf_setA h

theorem memWf_fxVecCst {f : TileFields} {cs : CoreState} (h : cs.memWf = true) : (fxVecCst f cs).memWf = true :=
  coreMemWf_bumpA (coreMemWf_storeElems h)

@[simp] theorem keepsForm_execVecCst {core : Nat} {f : TileFields} {s : State} (h : s.memWf = true) :
    KeepsForm (execVecCst core f s) := by
  unfold execVecCst
  exact keepsForm_onCore (memWf_issueVec h (fun _ ht => memWf_fxVecCst ht))

theorem memWf_fxVecXld {f : TileFields} {cs : CoreState} (h : cs.memWf = true) : (fxVecXld f cs).memWf = true :=
  coreMemWf_bumpA (coreMemWf_spread (coreMemWf_loadElems h))

@[simp] theorem keepsForm_execVecXld {core : Nat} {f : TileFields} {s : State} (h : s.memWf = true) :
    KeepsForm (execVecXld core f s) := by
  unfold execVecXld
  exact keepsForm_onCore (memWf_issueVec h (fun _ ht => memWf_fxVecXld ht))

theorem memWf_fxVecCvt {f : TileFields} {cs : CoreState} (h : cs.memWf = true) : (fxVecCvt f cs).memWf = true :=
  coreMemWf_putV (coreMemWf_snd_foldl h (fun _ _ ht => coreMemWf_snd_ite (coreMemWf_convertTo ht) ht))

@[simp] theorem keepsForm_execVecCvt {core : Nat} {f : TileFields} {s : State} (h : s.memWf = true) :
    KeepsForm (execVecCvt core f s) := by
  unfold execVecCvt
  exact keepsForm_onCore (memWf_issueVec h (fun _ ht => memWf_fxVecCvt ht))

/-! ## The reduction unit -/

theorem memWf_issueRed {s : State} {L opc : Nat} {f : TileFields} {ok : Bool} {plan : CoreState → Plan}
    {act : Nat → CoreState → CoreState} (h : s.memWf = true) (hact : ∀ x cs, cs.memWf = true → (act x cs).memWf = true) :
    (s.issueRed L opc f ok plan act).memWf = true :=
  memWf_issue h (fun _ ht => memWf_modCore ht (hact _ _ (coreMemWf_vxuStart (coreMemWf_core ht))))

theorem memWf_landRows {outs : List RowOut} {cs : CoreState} (h : cs.memWf = true) : (landRows outs cs).memWf = true :=
  coreMemWf_foldl h (fun _ _ ht => coreMemWf_foldl ht (fun _ _ ht1 => coreMemWf_store ht1))

theorem memWf_redSweep {row : Nat → CoreState → RowOut × CoreState} {k r n : Nat} {outs : List RowOut} {cs : CoreState}
    (h : cs.memWf = true) (hrow : ∀ r ds, ds.memWf = true → (row r ds).2.memWf = true) : (redSweep row k r n outs cs).memWf = true := by
  induction k generalizing r n outs cs with
  | zero => exact memWf_landRows h
  | succ k ih => exact ih (hrow _ _ (memWf_landRows h))

theorem memWf_redRow {f : TileFields} {r : Nat} {cs : CoreState} (h : cs.memWf = true) : (redRow f r cs).2.memWf = true :=
  coreMemWf_load h

theorem memWf_redRows {f : TileFields} {n : Nat} {g : List Nat → CoreState → Nat × CoreState} {order : Nat} {cs : CoreState}
    (h : cs.memWf = true) (hg : ∀ x cs, cs.memWf = true → (g x cs).2.memWf = true) : (redRows f n g order cs).memWf = true :=
  memWf_redSweep h fun _ _ hd => hg _ _ (memWf_redRow hd)

theorem memWf_redSumOf {f : TileFields} {sq : Bool} {row : List Nat} {cs : CoreState} (h : cs.memWf = true) :
    (redSumOf f sq row cs).2.memWf = true := coreMemWf_snd_ite h (coreMemWf_snd_ite h (coreMemWf_snd_ite (coreMemWf_convert h) h))

@[simp] theorem keepsForm_execRedSum {core : Nat} {f : TileFields} {s : State} (h : s.memWf = true) :
    KeepsForm (execRedSum core f s) := by
  unfold execRedSum
  exact keepsForm_onCore (memWf_issueRed h (fun _ _ ht => memWf_redRows ht (fun _ _ ht1 => memWf_redSumOf ht1)))

@[simp] theorem keepsForm_execRedSqnorm {core : Nat} {f : TileFields} {s : State} (h : s.memWf = true) :
    KeepsForm (execRedSqnorm core f s) := by
  unfold execRedSqnorm
  exact keepsForm_onCore (memWf_issueRed h (fun _ _ ht => memWf_redRows ht (fun _ _ ht1 => memWf_redSumOf ht1)))

theorem memWf_redExt {f : TileFields} {fo : Fp.Val → Fp.Val → Fp.Val} {io : Int → Int → Int} {row : List Nat} {cs : CoreState}
    (h : cs.memWf = true) : (redExt f fo io row cs).2.memWf = true := by
  unfold redExt
  split <;> exact h

@[simp] theorem keepsForm_execRedMax {core : Nat} {f : TileFields} {s : State} (h : s.memWf = true) :
    KeepsForm (execRedMax core f s) := by
  unfold execRedMax
  exact keepsForm_onCore (memWf_issueRed h (fun _ _ ht => memWf_redRows ht (fun _ _ ht1 => memWf_redExt ht1)))

@[simp] theorem keepsForm_execRedMin {core : Nat} {f : TileFields} {s : State} (h : s.memWf = true) :
    KeepsForm (execRedMin core f s) := by
  unfold execRedMin
  exact keepsForm_onCore (memWf_issueRed h (fun _ _ ht => memWf_redRows ht (fun _ _ ht1 => memWf_redExt ht1)))

theorem memWf_redIndexed {f : TileFields} {r : Nat} {cs : CoreState} (h : cs.memWf = true) : (redIndexed f r cs).2.memWf = true :=
  coreMemWf_snd_ite (coreMemWf_load (memWf_redRow h)) (memWf_redRow h)

theorem memWf_fxRedArgmax {f : TileFields} {order : Nat} {cs : CoreState} (h : cs.memWf = true) :
    (fxRedArgmax f order cs).memWf = true := memWf_redSweep h (fun _ _ ht => memWf_redIndexed ht)

@[simp] theorem keepsForm_execRedArgmax {core : Nat} {f : TileFields} {s : State} (h : s.memWf = true) :
    KeepsForm (execRedArgmax core f s) := by
  unfold execRedArgmax
  exact keepsForm_onCore (memWf_issueRed h (fun _ _ ht => memWf_fxRedArgmax ht))

theorem memWf_topkRow {f : TileFields} {r : Nat} {cs : CoreState} (h : cs.memWf = true) : (topkRow f r cs).2.memWf = true :=
  memWf_redIndexed h

@[simp] theorem keepsForm_execRedTopk {core : Nat} {f : TileFields} {s : State} (h : s.memWf = true) :
    KeepsForm (execRedTopk core f s) := by
  unfold execRedTopk
  exact keepsForm_onCore (memWf_issueRed h (fun _ _ ht => memWf_redSweep ht (fun _ _ ht1 => memWf_topkRow ht1)))

/-! ## Control instructions and tasks -/

theorem memWf_seqOp {L : Nat} {g : CoreState → CoreState} {s : State} (hg : ∀ cs, cs.memWf = true → (g cs).memWf = true)
    (h : s.memWf = true) : (State.seqOp L g s).memWf = true := memWf_advance (memWf_modCore h (hg _ (coreMemWf_core h)))

@[simp] theorem keepsForm_execCtlNop {core : Nat} {f : TileFields} {s : State} (h : s.memWf = true) : KeepsForm (execCtlNop core f s) :=
  keepsForm_onCore (memWf_issueCtl h fun _ ht => memWf_seqOp (fun _ hcs => hcs) ht)

@[simp] theorem keepsForm_execCtlEnd {core : Nat} {f : TileFields} {s : State} (h : s.memWf = true) :
    KeepsForm (execCtlEnd core f s) := by
  unfold execCtlEnd
  exact keepsForm_onCore (memWf_issueCtl h (fun _ ht => memWf_endTask ht))

@[simp] theorem keepsForm_execCtlJmp {core : Nat} {f : TileFields} {s : State} (h : s.memWf = true) :
    KeepsForm (execCtlJmp core f s) := by
  unfold execCtlJmp
  exact keepsForm_onCore (memWf_issueCtl h (fun _ ht => memWf_goto ht))

theorem memWf_fxCtlLoop {L : Nat} {f : TileFields} {s : State} (h : s.memWf = true) : (fxCtlLoop L f s).memWf = true :=
  memWf_ite (memWf_goto (memWf_ite h (memWf_modCore h (coreMemWf_setL (coreMemWf_core h)))))
    (memWf_advance (memWf_ite h (memWf_modCore h (coreMemWf_setL (coreMemWf_core h)))))

@[simp] theorem keepsForm_execCtlLoop {core : Nat} {f : TileFields} {s : State} (h : s.memWf = true) :
    KeepsForm (execCtlLoop core f s) := by
  unfold execCtlLoop
  exact keepsForm_onCore (memWf_issueCtl h (fun _ ht => memWf_fxCtlLoop ht))

@[simp] theorem keepsForm_execCtlSetl {core : Nat} {f : TileFields} {s : State} (h : s.memWf = true) :
    KeepsForm (execCtlSetl core f s) := by
  unfold execCtlSetl
  exact keepsForm_onCore (memWf_issueCtl h (fun _ ht => memWf_seqOp (fun _ ht1 => coreMemWf_setL ht1) ht))

@[simp] theorem keepsForm_execCtlSeta {core : Nat} {f : TileFields} {s : State} (h : s.memWf = true) :
    KeepsForm (execCtlSeta core f s) := by
  unfold execCtlSeta
  exact keepsForm_onCore (memWf_issueCtl h (fun _ ht => memWf_seqOp (fun _ ht1 => coreMemWf_setA ht1) ht))

@[simp] theorem keepsForm_execCtlAdda {core : Nat} {f : TileFields} {s : State} (h : s.memWf = true) :
    KeepsForm (execCtlAdda core f s) := by
  unfold execCtlAdda
  exact keepsForm_onCore (memWf_issueCtl h (fun _ ht => memWf_seqOp (fun _ ht1 => coreMemWf_setA ht1) ht))

@[simp] theorem keepsForm_execCtlAddr {core : Nat} {f : TileFields} {s : State} (h : s.memWf = true) :
    KeepsForm (execCtlAddr core f s) := by
  unfold execCtlAddr
  exact keepsForm_onCore (memWf_issueCtl h (fun _ ht => memWf_seqOp (fun _ ht1 => coreMemWf_setA ht1) ht))

@[simp] theorem keepsForm_execCtlCmp {core : Nat} {f : TileFields} {s : State} (h : s.memWf = true) :
    KeepsForm (execCtlCmp core f s) := by
  unfold execCtlCmp
  exact keepsForm_onCore (memWf_issueCtl h (fun _ ht => memWf_seqOp (fun _ ht1 => coreMemWf_frame ht1 (by rfl) (by rfl)) ht))

@[simp] theorem keepsForm_execCtlLda {core : Nat} {f : TileFields} {s : State} (h : s.memWf = true) :
    KeepsForm (execCtlLda core f s) := by
  unfold execCtlLda
  exact keepsForm_onCore (memWf_issueCtl h (fun _ ht => memWf_seqOp (fun _ ht1 => coreMemWf_setA (coreMemWf_load ht1)) ht))

@[simp] theorem keepsForm_execCtlSta {core : Nat} {f : TileFields} {s : State} (h : s.memWf = true) :
    KeepsForm (execCtlSta core f s) := by
  unfold execCtlSta
  exact keepsForm_onCore (memWf_issueCtl h (fun _ ht => memWf_seqOp (fun _ ht1 => coreMemWf_store ht1) ht))

theorem memWf_fxCtlFence {L : Nat} {f : TileFields} {s : State} (h : s.memWf = true) : (fxCtlFence L f s).memWf = true :=
  memWf_front h (fun _ ht => memWf_ite (memWf_seqOp (fun _ ht1 => coreMemWf_issued ht1) ht)
    (memWf_stall ht (fun _ ht1 => coreMemWf_frame ht1 rfl rfl)))

@[simp] theorem keepsForm_execCtlFence {core : Nat} {f : TileFields} {s : State} (h : s.memWf = true) :
    KeepsForm (execCtlFence core f s) := keepsForm_onCore (memWf_fxCtlFence h)

@[simp] theorem keepsForm_execCtlSeed {core : Nat} {f : TileFields} {s : State} (h : s.memWf = true) :
    KeepsForm (execCtlSeed core f s) := by
  unfold execCtlSeed
  exact keepsForm_onCore (memWf_issueCtl h (fun _ ht => memWf_seqOp (fun _ ht1 => coreMemWf_frame ht1 (by rfl) (by rfl)) ht))

@[simp] theorem keepsForm_execCtlMovl {core : Nat} {f : TileFields} {s : State} (h : s.memWf = true) :
    KeepsForm (execCtlMovl core f s) := by
  unfold execCtlMovl
  exact keepsForm_onCore (memWf_issueCtl h (fun _ ht => memWf_seqOp (fun _ ht1 => coreMemWf_setL ht1) ht))

theorem memWf_dbSeen {s : State} {c : Nat} (h : s.memWf = true) : (s.dbSeen c).memWf = true := memWf_modFe h

theorem memWf_enq {s : State} {L off : Nat} (h : s.memWf = true) : (s.enq L off).memWf = true := by
  unfold State.enq
  split
  · exact h
  · exact memWf_ite (memWf_endTask h) (memWf_ite (memWf_endTask (memWf_setCore h (coreMemWf_load (coreMemWf_core h))))
      (memWf_ite (memWf_modCore h (coreMemWf_frame (coreMemWf_core h) rfl rfl))
      (memWf_advance (memWf_dbSeen (memWf_modCtx
      (memWf_setCore h (coreMemWf_frame (coreMemWf_issued (coreMemWf_load (coreMemWf_core h))) rfl rfl)))))))

theorem memWf_fxCtlEnq {L : Nat} {f : TileFields} {s : State} (h : s.memWf = true) : (fxCtlEnq L f s).memWf = true :=
  memWf_front h (fun _ ht => memWf_operands ht (fun _ ht1 => memWf_enq ht1))

@[simp] theorem keepsForm_execCtlEnq {core : Nat} {f : TileFields} {s : State} (h : s.memWf = true) :
    KeepsForm (execCtlEnq core f s) := keepsForm_onCore (memWf_fxCtlEnq h)

theorem memWf_fxEnqQueueAccept {L : Nat} {s : State} (h : s.memWf = true) : (fxEnqQueueAccept L s).memWf = true :=
  memWf_ite (memWf_fxCtlEnq h) h

@[simp] theorem keepsForm_execEnqQueueAccept {core : Nat} {s : State} (h : s.memWf = true) :
    KeepsForm (execEnqQueueAccept core s) := keepsForm_onCore (memWf_fxEnqQueueAccept h)

theorem memWf_fxUndefined {L : Nat} {w : TileWord} {s : State} (h : s.memWf = true) : (fxUndefined L w s).memWf = true :=
  memWf_ite h (memWf_front h fun _ ht => ht)

@[simp] theorem keepsForm_execUndefinedInstruction {core : Nat} {w : TileWord} {s : State} (h : s.memWf = true) :
    KeepsForm (execUndefinedInstruction core w s) := keepsForm_onCore (memWf_fxUndefined h)

theorem coreMemWf_take {cs : CoreState} {t : TaskInfo} (h : cs.memWf = true) : (cs.take t).memWf = true := coreMemWf_frame h rfl rfl

theorem coreMemWf_begin {cs : CoreState} {t : TaskInfo} {w : Tab TileWord × Tab Nat} {a : Tab (BitVec 48)} (h : cs.memWf = true) :
    (cs.begin t w a).memWf = true := coreMemWf_frame h rfl rfl

theorem memWf_taskNote {s : State} {t : TaskInfo} {corr slow : Bool} (h : s.memWf = true) : (s.taskNote t corr slow).memWf = true :=
  memWf_ite (memWf_modCmd h) h

theorem memWf_loadCode {s : State} {t : TaskInfo} (h : s.memWf = true) : (s.loadCode t).2.2.memWf = true := by
  unfold State.loadCode
  exact memWf_snd2_foldl h fun _ _ ht => memWf_taskNote (memWf_vaRead ht)

theorem memWf_loadArgs {s : State} {t : TaskInfo} (h : s.memWf = true) : (s.loadArgs t).2.memWf = true :=
  memWf_snd_ite h (memWf_snd_ite h (memWf_vaRead h))

theorem memWf_fxTaskStart {L : Nat} {s : State} (h : s.memWf = true) : (fxTaskStart L s).memWf = true := by
  unfold fxTaskStart
  extract_lets c1
  have h1 : c1.memWf = true := coreMemWf_core h
  refine memWf_ite h ?_
  split
  · exact h
  · exact memWf_ite (memWf_endTask (memWf_loadCode (memWf_setCore h (coreMemWf_take h1))))
      (memWf_ite (memWf_endTask (memWf_loadArgs (memWf_loadCode (memWf_setCore h (coreMemWf_take h1)))))
      (memWf_ite (memWf_endTask (memWf_loadArgs (memWf_loadCode (memWf_setCore h (coreMemWf_take h1)))))
      (memWf_ite (memWf_endTask (memWf_loadArgs (memWf_loadCode (memWf_setCore h (coreMemWf_take h1)))))
      (memWf_modCore (memWf_taskNote (memWf_loadArgs (memWf_loadCode (memWf_setCore h (coreMemWf_take h1)))))
      (coreMemWf_begin (coreMemWf_core (memWf_taskNote
      (memWf_loadArgs (memWf_loadCode (memWf_setCore h (coreMemWf_take h1)))))))))))

@[simp] theorem keepsForm_execTaskStart {core : Nat} {s : State} (h : s.memWf = true) : KeepsForm (execTaskStart core s) :=
  keepsForm_onCore (memWf_fxTaskStart h)

theorem memWf_scrambleDst {s : State} {L : Nat} {d : List (Space × Nat × Nat)} (h : s.memWf = true) :
    (s.scrambleDst L d).memWf = true := by
  refine memWf_foldl h fun t r ht => ?_
  have hb : (t.freeBytes r.2.2).2.memWf = true := memWf_freeBytes ht
  have hc : ((t.freeBytes r.2.2).2.core L).memWf = true := coreMemWf_core hb
  obtain ⟨htm, ham⟩ := coreMemWf_iff.mp hc
  split
  · exact memWf_memScramble ht
  · exact memWf_modCore hb (coreMemWf_setLoc hc (wf_writeN _ _ _ htm))
  · exact memWf_modCore hb (coreMemWf_setLoc hc (wf_writeN _ _ _ ham))

theorem memWf_dropPen {s : State} {L : Nat} (h : s.memWf = true) : (s.dropPen L).memWf = true := memWf_frame h rfl rfl

theorem memWf_killTask {s : State} {L : Nat} {st : Status} (h : s.memWf = true) : (s.killTask L st).memWf = true := by
  unfold State.killTask
  extract_lets c1 t2 _ _ t3 t4
  have h2 : t2.memWf = true := memWf_foldl h (fun _ _ ht => memWf_scrambleDst ht)
  have h3 : t3.memWf = true := memWf_frame h2 rfl rfl
  have h4 : t4.memWf = true := memWf_modCore (memWf_dropPen h3) (coreMemWf_frame (coreMemWf_core (memWf_dropPen h3)) rfl rfl)
  exact memWf_ite h (memWf_finishTask h4)

/-! ## Folios, endpapers and launches -/

theorem memWf_failCmd {s : State} {k : CmdKey} {st : Status} {detail : Nat} (h : s.memWf = true) :
    (s.failCmd k st detail).memWf = true := memWf_modCmd h

theorem memWf_noteCmd {s : State} {k : CmdKey} {st : Status} (h : s.memWf = true) : (s.noteCmd k st).memWf = true := memWf_modCmd h

theorem memWf_actCmd {s : State} {k : CmdKey} {op : Nat} {go : Cmd → State → State} (h : s.memWf = true)
    (hgo : ∀ x t, t.memWf = true → (go x t).memWf = true) : (s.actCmd k op go).memWf = true := by
  unfold State.actCmd
  split
  · exact h
  · exact memWf_ite h (hgo _ _ (memWf_modCmd h))

theorem memWf_metCmd {s : State} {k : CmdKey} {corr slow : Bool} (h : s.memWf = true) : (s.metCmd k corr slow).memWf = true :=
  memWf_ite (memWf_modCmd h) h

theorem memWf_rdCmd {s : State} {k : CmdKey} {va n : Nat} {ps : List Perm} (h : s.memWf = true) :
    (s.rdCmd k va n ps).2.memWf = true := memWf_metCmd (memWf_vaRead h)

theorem memWf_foliosMapped {s : State} {c : Nat} {sigs : List Nat} {pool n : Nat} (h : s.memWf = true) :
    (s.foliosMapped c sigs pool n).2.memWf = true := by
  unfold State.foliosMapped
  extract_lets r
  have hr : r.2.memWf = true := memWf_snd_foldl h fun _ _ ht => memWf_snd_mk (memWf_vaOk ht)
  exact memWf_snd_ite hr (memWf_snd_mk (memWf_vaOk hr))

theorem memWf_fxFolioOpen {k : CmdKey} {m : Cmd} {s : State} (h : s.memWf = true) : (fxFolioOpen k m s).memWf = true := by
  unfold fxFolioOpen
  extract_lets _ _ _ _ t1 r2
  have h1 : t1.memWf = true := memWf_modCmd h
  have h2 : r2.2.memWf = true := memWf_rdCmd h1
  refine memWf_ite (memWf_failCmd h1) ?_
  split
  · exact memWf_failCmd h2
  · refine memWf_ite (memWf_failCmd h2) ?_
    split
    · extract_lets r3
      have h3 : r3.2.memWf = true := memWf_rdCmd h2
      split
      · exact memWf_failCmd h3
      · exact memWf_ite (memWf_failCmd h3) (memWf_ite (memWf_failCmd (memWf_foliosMapped h3))
          (memWf_endCmd (memWf_modCtx (memWf_foliosMapped h3))))
    · extract_lets r3
      have h3 : r3.2.memWf = true := memWf_rdCmd h2
      split
      · exact memWf_failCmd h3
      · exact memWf_ite (memWf_failCmd h3) (memWf_ite (memWf_failCmd (memWf_foliosMapped h3))
          (memWf_endCmd (memWf_modCtx (memWf_foliosMapped h3))))

@[simp] theorem keepsForm_execFolioOpen {k : CmdKey} {s : State} (h : s.memWf = true) : KeepsForm (execFolioOpen k s) :=
  keepsForm_onKey (memWf_actCmd h (fun _ _ ht => memWf_fxFolioOpen ht))

theorem memWf_endpaper {s : State} {k : CmdKey} {addr n : Nat} {host : Bool} {ep : HostRead} (h : s.memWf = true) :
    (s.endpaper k addr n host ep).2.memWf = true := memWf_snd_ite h (memWf_snd_ite h (memWf_rdCmd h))

theorem memWf_epEntry {s : State} {k : CmdKey} {launch : Bool} {sites : List Site} {e : List Byte} (h : s.memWf = true) :
    (s.epEntry k launch sites e).2.memWf = true := by
  unfold State.epEntry
  split
  · exact h
  · exact memWf_snd_ite h (memWf_snd_ite h (memWf_snd_ite h (memWf_rdCmd h)))

theorem memWf_epEntries {s : State} {k : CmdKey} {launch : Bool} {sites : List Site} {b : List Byte} {n : Nat}
    (h : s.memWf = true) : (s.epEntries k launch sites b n).2.memWf = true := by
  unfold State.epEntries
  refine memWf_snd_foldl h (fun _ _ ht => ?_)
  split
  · exact ht
  · exact memWf_epEntry ht

theorem memWf_launchPlan {s : State} {k : CmdKey} {fo : Folio} {entry : Nat} (h : s.memWf = true) :
    (s.launchPlan k fo entry).2.memWf = true := by
  unfold State.launchPlan
  extract_lets r1
  have h1 : r1.2.memWf = true := memWf_rdCmd h
  split
  · exact h1
  · refine memWf_snd_ite h1 ?_
    extract_lets r2
    have h2 : r2.2.memWf = true := memWf_rdCmd h1
    split
    · exact h2
    · extract_lets r3 r4
      have h3 : r3.2.memWf = true := memWf_rdCmd h2
      have h4 : r4.2.memWf = true := memWf_rdCmd h3
      split <;> exact h4

theorem memWf_readFolio {s : State} {k : CmdKey} {sigs : List Nat} {off n : Nat} (h : s.memWf = true) :
    (s.readFolio k sigs off n).2.memWf = true := by
  unfold State.readFolio
  refine memWf_snd_foldl h (fun _ _ ht => ?_)
  split
  · exact ht
  · exact memWf_rdCmd ht

theorem memWf_fillBlock {s : State} {k : CmdKey} {p : LaunchPlan} {ps : List (Nat × List Byte)} {tmpl va : Nat}
    (h : s.memWf = true) : (s.fillBlock k p ps tmpl va).2.memWf = true := by
  unfold State.fillBlock
  extract_lets r1
  have h1 : r1.2.memWf = true := memWf_readFolio h
  split
  · exact h1
  · exact memWf_metCmd (memWf_vaWrite h1)

theorem memWf_fillBlocks {s : State} {k : CmdKey} {base : Nat} {p : LaunchPlan} {ps : List (Nat × List Byte)} {blks : List Nat}
    (h : s.memWf = true) : (s.fillBlocks k base p ps blks).2.2.memWf = true := by
  unfold State.fillBlocks
  refine memWf_snd_foldl h (fun _ _ ht => ?_)
  split
  · exact memWf_snd_ite ht (memWf_fillBlock ht)
  · exact ht

theorem memWf_dispatch {s : State} {k : CmdKey} {m : Cmd} {hd gen : Nat} {p : LaunchPlan} {vas : List (Option Nat)}
    (h : s.memWf = true) : (s.dispatch k m hd gen p vas).memWf = true :=
  memWf_foldl h (fun _ _ ht => memWf_modCore ht (coreMemWf_frame (coreMemWf_core ht) rfl rfl))

theorem memWf_launchTasks {s : State} {k : CmdKey} {m : Cmd} {hd gen : Nat} {p : LaunchPlan} {blks : List Nat} {ep : HostRead}
    (h : s.memWf = true) : (s.launchTasks k m hd gen p blks ep).memWf = true := by
  unfold State.launchTasks
  extract_lets _ _ t1 r2
  have h1 : t1.memWf = true := memWf_modCmd (memWf_modCtx h)
  have h2 : r2.2.memWf = true := memWf_endpaper h1
  split
  · exact memWf_failCmd h2
  · extract_lets r3
    have h3 : r3.2.memWf = true := memWf_epEntries h2
    split
    · exact memWf_failCmd h3
    · extract_lets r4
      have h4 : r4.2.2.memWf = true := memWf_fillBlocks h3
      split
      · exact memWf_failCmd h4
      · exact memWf_dispatch (memWf_modCmd h4)

theorem memWf_launchOn {s : State} {k : CmdKey} {p : LaunchPlan} {go : State → State} (h : s.memWf = true)
    (hgo : ∀ t, t.memWf = true → (go t).memWf = true) : (s.launchOn k p go).memWf = true :=
  memWf_ite (memWf_failCmd h) (memWf_ite (memWf_failCmd (memWf_frame h rfl rfl)) (hgo _ h))

theorem memWf_launchBind {s : State} {k : CmdKey} {m : Cmd} {go : Nat → LaunchPlan → List Nat → State → State} (h : s.memWf = true)
    (hgo : ∀ x y z t, t.memWf = true → (go x y z t).memWf = true) : (s.launchBind k m go).memWf = true := by
  unfold State.launchBind
  extract_lets _ _ t1
  have h1 : t1.memWf = true := memWf_modCmd h
  split
  · exact memWf_failCmd h1
  · refine memWf_ite (memWf_failCmd h1) (memWf_ite (memWf_failCmd h1) ?_)
    extract_lets t2 r3
    have h2 : t2.memWf = true := memWf_modCmd (memWf_modCtx h1)
    have h3 : r3.2.memWf = true := memWf_launchPlan h2
    split
    · exact memWf_failCmd h3
    · refine memWf_launchOn (memWf_modCmd h3) (fun _ ht => memWf_ite (memWf_failCmd ht) ?_)
      split
      · exact memWf_failCmd ht
      · exact hgo _ _ _ _ ht

theorem memWf_launchBegin {s : State} {k : CmdKey} {m : Cmd} (h : s.memWf = true) : (s.launchBegin k m).memWf = true :=
  memWf_launchBind h (fun _ _ _ _ ht => memWf_modCmd (memWf_modCtx ht))

theorem memWf_fxLaunch {k : CmdKey} {ep : HostRead} {m : Cmd} {s : State} (h : s.memWf = true) :
    (fxLaunch k ep m s).memWf = true := by
  unfold fxLaunch
  refine memWf_ite (memWf_launchBind h (fun _ _ _ _ ht => memWf_launchTasks ht)) ?_
  split
  · exact memWf_failCmd h
  · extract_lets r1
    have h1 : r1.2.memWf = true := memWf_launchPlan h
    split
    · exact memWf_failCmd h1
    · exact memWf_launchOn h1 (fun _ ht => memWf_launchTasks ht)

@[simp] theorem keepsForm_execLaunch {k : CmdKey} {ep : HostRead} {s : State} (h : s.memWf = true) :
    KeepsForm (execLaunch k ep s) := by
  unfold execLaunch
  refine keepsForm_onKey ?_
  split
  · exact h
  · exact memWf_ite h (memWf_actCmd h (fun _ _ ht => memWf_fxLaunch ht))

theorem memWf_patchSig {s : State} {k : CmdKey} {i src dst : Nat} {ps : List (Nat × List Byte)} (h : s.memWf = true) :
    (s.patchSig k i src dst ps).2.2.memWf = true := by
  unfold State.patchSig
  extract_lets r1 _ r2
  have h1 : r1.2.memWf = true := memWf_vaRead h
  have h2 : r2.2.memWf = true := memWf_vaWrite h1
  split
  · exact h1
  · split
    · exact h1
    · exact memWf_metCmd h2

theorem memWf_patchWork {s : State} {k : CmdKey} {m : Cmd} {fo : Folio} {ep : HostRead} (h : s.memWf = true) :
    (s.patchWork k m fo ep).memWf = true := by
  unfold State.patchWork
  dsimp only
  refine memWf_ite (memWf_failCmd h) ?_
  split
  · exact memWf_failCmd (memWf_launchPlan h)
  · split
    · exact memWf_failCmd (memWf_endpaper (memWf_launchPlan h))
    · split
      · exact memWf_failCmd (memWf_epEntries (memWf_endpaper (memWf_launchPlan h)))
      · split
        · exact memWf_failCmd (memWf_epEntries (memWf_endpaper (memWf_launchPlan h)))
        · split
          · exact memWf_failCmd (memWf_snd_foldl (memWf_epEntries (memWf_endpaper (memWf_launchPlan h)))
              (fun _ _ ht => memWf_snd_ite ht (memWf_patchSig ht)))
          · exact memWf_modCmd (memWf_ite (memWf_noteCmd
              (memWf_snd_foldl (memWf_epEntries (memWf_endpaper (memWf_launchPlan h)))
              (fun _ _ ht => memWf_snd_ite ht (memWf_patchSig ht))))
              (memWf_snd_foldl (memWf_epEntries (memWf_endpaper (memWf_launchPlan h)))
              (fun _ _ ht => memWf_snd_ite ht (memWf_patchSig ht))))

theorem memWf_patchBegin {s : State} {k : CmdKey} {m : Cmd} (h : s.memWf = true) : (s.patchBegin k m).memWf = true := by
  unfold State.patchBegin
  extract_lets _ t1
  have h1 : t1.memWf = true := memWf_modCmd h
  split
  · exact memWf_failCmd h1
  · exact memWf_ite (memWf_failCmd h1) (memWf_ite (memWf_failCmd h1) (memWf_modCmd (memWf_modCtx h1)))

theorem memWf_patchTurn {s : State} {k : CmdKey} {ep : HostRead} (h : s.memWf = true) : (s.patchTurn k ep).memWf = true := by
  unfold State.patchTurn
  split
  · exact h
  · split
    · exact h
    · exact memWf_ite (memWf_patchWork h) h

theorem memWf_fxFolioPatch {k : CmdKey} {ep : HostRead} {m : Cmd} {s : State} (h : s.memWf = true) :
    (fxFolioPatch k ep m s).memWf = true := memWf_patchTurn (memWf_ite h (memWf_patchBegin h))

@[simp] theorem keepsForm_execFolioPatch {k : CmdKey} {ep : HostRead} {s : State} (h : s.memWf = true) :
    KeepsForm (execFolioPatch k ep s) := keepsForm_onKey (memWf_actCmd h (fun _ _ ht => memWf_fxFolioPatch ht))

theorem memWf_fxFolioPatchBegin {k : CmdKey} {ep : HostRead} {s : State} (h : s.memWf = true) :
    (fxFolioPatchBegin k ep s).memWf = true := by
  unfold fxFolioPatchBegin
  split
  · exact h
  · exact memWf_ite (memWf_patchTurn h) h

@[simp] theorem keepsForm_execFolioPatchBegin {k : CmdKey} {ep : HostRead} {s : State} (h : s.memWf = true) :
    KeepsForm (execFolioPatchBegin k ep s) := keepsForm_onKey (memWf_fxFolioPatchBegin h)

theorem memWf_closeIfIdle {s : State} {c hd : Nat} (h : s.memWf = true) : (s.closeIfIdle c hd).memWf = true := by
  unfold State.closeIfIdle
  split
  · exact h
  · split
    · exact memWf_ite (memWf_modCmd h) h
    · exact h

theorem memWf_fxFolioClose {k : CmdKey} {m : Cmd} {s : State} (h : s.memWf = true) : (fxFolioClose k m s).memWf = true := by
  unfold fxFolioClose
  extract_lets _ t1
  have h1 : t1.memWf = true := memWf_modCmd h
  split
  · exact memWf_failCmd h1
  · exact memWf_ite (memWf_failCmd h1) (memWf_closeIfIdle (memWf_modCtx h1))

@[simp] theorem keepsForm_execFolioClose {k : CmdKey} {s : State} (h : s.memWf = true) : KeepsForm (execFolioClose k s) :=
  keepsForm_onKey (memWf_actCmd h (fun _ _ ht => memWf_fxFolioClose ht))

theorem memWf_releaseFolio {s : State} {m : Cmd} (h : s.memWf = true) : (s.releaseFolio m).memWf = true := by
  unfold State.releaseFolio
  extract_lets _ t1
  have h1 : t1.memWf = true := memWf_modCtx h
  split
  · exact h1
  · exact memWf_ite (memWf_closeIfIdle (memWf_modCtx h1))
      (memWf_ite (memWf_closeIfIdle (memWf_modCtx h1)) (memWf_ite (memWf_ite (memWf_modCtx h1) (memWf_modCtx h1)) h1))

/-! ## Rings and commands -/

theorem memWf_ringWrite {s : State} {c n : Nat} {g : Ring → Ring} (h : s.memWf = true) : (s.ringWrite c n g).memWf = true :=
  memWf_ite (memWf_wakeBy (memWf_modRing h)) h

theorem memWf_fxDoorbell {c n : Nat} {v : BitVec 32} {s : State} (h : s.memWf = true) : (fxDoorbell c n v s).memWf = true :=
  memWf_ite h (memWf_ite (memWf_wakeBy (memWf_dbSeen (memWf_modRing h))) (memWf_wakeBy (memWf_modRing h)))

@[simp] theorem keepsForm_execDoorbell {c ring : Nat} {v : BitVec 32} {s : State} (h : s.memWf = true) :
    KeepsForm (execDoorbell c ring v s) := keepsForm_onRing (memWf_fxDoorbell h)

@[simp] theorem keepsForm_execCplDoorbell {c ring : Nat} {v : BitVec 32} {s : State} (h : s.memWf = true) :
    KeepsForm (execCplDoorbell c ring v s) := keepsForm_onRing (memWf_ringWrite h)

@[simp] theorem keepsForm_execRingEnable {c ring : Nat} {v : BitVec 32} {s : State} (h : s.memWf = true) :
    KeepsForm (execRingEnable c ring v s) := keepsForm_onRing (memWf_ite (memWf_ringWrite h) h)

theorem memWf_drainDone {s : State} {c n : Nat} (h : s.memWf = true) : (s.drainDone c n).memWf = true :=
  memWf_ite (memWf_modRing h) h

theorem memWf_fxRingDisable {c n : Nat} {v : BitVec 32} {s : State} (h : s.memWf = true) : (fxRingDisable c n v s).memWf = true :=
  memWf_ite h (memWf_ite (memWf_modRing h) (memWf_drainDone (memWf_modRing (memWf_modCtx h))))

@[simp] theorem keepsForm_execRingDisable {c ring : Nat} {v : BitVec 32} {s : State} (h : s.memWf = true) :
    KeepsForm (execRingDisable c ring v s) := keepsForm_onRing (memWf_wakeBy (memWf_fxRingDisable h))

@[simp] theorem keepsForm_execCfeCtxCfg {c : Nat} {v : BitVec 32} {s : State} (h : s.memWf = true) :
    KeepsForm (execCfeCtxCfg c v s) := keepsForm_onCtx (memWf_ite h (memWf_wakeBy (memWf_modCtx h)))

theorem memWf_fxRingFetch {c n : Nat} {h : HostRead} {s : State} (hs : s.memWf = true) : (fxRingFetch c n h s).memWf = true := by
  unfold fxRingFetch
  refine memWf_ite hs ?_
  split <;> exact memWf_modRing hs

@[simp] theorem keepsForm_execRingFetch {c ring : Nat} {r : HostRead} {s : State} (h : s.memWf = true) :
    KeepsForm (execRingFetch c ring r s) := keepsForm_onRing (memWf_fxRingFetch h)

theorem memWf_entryGen {s : State} {c id : Nat} (h : s.memWf = true) : (s.entryGen c id).2.memWf = true := memWf_penEntry h

theorem memWf_atStart {s : State} {k : CmdKey} {m : Cmd} (h : s.memWf = true) : (s.atStart k m).memWf = true :=
  memWf_ite (memWf_launchBegin h) (memWf_ite (memWf_patchBegin h) (memWf_ite (memWf_modCmd (memWf_entryGen h)) h))

theorem memWf_startCmd {s : State} {c q : Nat} (h : s.memWf = true) : (s.startCmd c q).memWf = true := by
  unfold State.startCmd
  dsimp only
  split
  · exact h
  · exact memWf_ite (memWf_progress (memWf_dieEvent
      (memWf_modFe (memWf_ite (memWf_modCtx (memWf_modCtx h)) (memWf_modRing (memWf_modCtx h))))))
      (memWf_atStart (memWf_progress (memWf_dieEvent
      (memWf_modFe (memWf_ite (memWf_modCtx (memWf_modCtx h)) (memWf_modRing (memWf_modCtx h)))))))

@[simp] theorem keepsForm_execCommandStart {iod : Nat} {s : State} (h : s.memWf = true) : KeepsForm (execCommandStart iod s) := by
  unfold execCommandStart
  refine keepsForm_onIod ?_
  split
  · exact h
  · exact memWf_startCmd h

@[simp] theorem keepsForm_execNop {k : CmdKey} {s : State} (h : s.memWf = true) : KeepsForm (execNop k s) :=
  keepsForm_onKey (memWf_actCmd h (fun _ _ ht => memWf_endCmd ht))

theorem memWf_copyFrom {s : State} {k : CmdKey} {dir n va : Nat} {h : HostRead} (hs : s.memWf = true) :
    (s.copyFrom k dir n va h).2.2.memWf = true := by
  unfold State.copyFrom
  split
  · split <;> exact hs
  · extract_lets r1
    have h1 : r1.2.memWf = true := memWf_vaRead hs
    split
    · exact h1
    · exact memWf_metCmd h1

theorem memWf_fxCopy {k : CmdKey} {h : HostRead} {m : Cmd} {s : State} (hs : s.memWf = true) : (fxCopy k h m s).memWf = true := by
  unfold fxCopy
  extract_lets _ _ _ _ r1
  have h1 : r1.2.2.memWf = true := memWf_copyFrom hs
  split
  · exact memWf_failCmd h1
  · exact memWf_ite (memWf_endCmd (memWf_emit (memWf_ite (memWf_noteCmd (memWf_ite (memWf_noteCmd h1) h1))
      (memWf_ite (memWf_noteCmd h1) h1)))) (memWf_ite
      (memWf_failCmd (memWf_metCmd (memWf_vaWrite
      (memWf_ite (memWf_noteCmd (memWf_ite (memWf_noteCmd h1) h1)) (memWf_ite (memWf_noteCmd h1) h1)))))
      (memWf_endCmd (memWf_metCmd (memWf_vaWrite
      (memWf_ite (memWf_noteCmd (memWf_ite (memWf_noteCmd h1) h1)) (memWf_ite (memWf_noteCmd h1) h1))))))

@[simp] theorem keepsForm_execCopy {k : CmdKey} {src : HostRead} {s : State} (h : s.memWf = true) : KeepsForm (execCopy k src s) :=
  keepsForm_onKey (memWf_actCmd h (fun _ _ ht => memWf_fxCopy ht))

theorem memWf_fxHoist {k : CmdKey} {m : Cmd} {s : State} (h : s.memWf = true) : (fxHoist k m s).memWf = true :=
  memWf_ite (memWf_frame h rfl rfl) (memWf_frame h rfl rfl)

@[simp] theorem keepsForm_execHoist {k : CmdKey} {s : State} (h : s.memWf = true) : KeepsForm (execHoist k s) :=
  keepsForm_onKey (memWf_actCmd h (fun _ _ ht => memWf_fxHoist ht))

theorem memWf_fxWait {k : CmdKey} {m : Cmd} {s : State} (h : s.memWf = true) : (fxWait k m s).memWf = true := memWf_frame h rfl rfl

@[simp] theorem keepsForm_execWait {k : CmdKey} {s : State} (h : s.memWf = true) : KeepsForm (execWait k s) :=
  keepsForm_onKey (memWf_actCmd h (fun _ _ ht => memWf_fxWait ht))

theorem memWf_writeRecord {s : State} {m : Cmd} {wrOk : Bool} (h : s.memWf = true) : (s.writeRecord m wrOk).memWf = true :=
  memWf_ite h (memWf_ite (memWf_modRing h) (memWf_ite (memWf_emit (memWf_modRing (memWf_emit (memWf_emit h))))
    (memWf_modRing (memWf_emit (memWf_emit h)))))

theorem memWf_completeCmd {s : State} {m : Cmd} {wrOk : Bool} (h : s.memWf = true) : (s.completeCmd m wrOk).memWf = true :=
  memWf_enterModule (memWf_drainDone (memWf_modCtx (memWf_releaseFolio (memWf_writeRecord h))))

@[simp] theorem keepsForm_execCommandComplete {k : CmdKey} {wrOk : Bool} {s : State} (h : s.memWf = true) :
    KeepsForm (execCommandComplete k wrOk s) := by
  unfold execCommandComplete
  refine keepsForm_onKey ?_
  split
  · exact h
  · exact memWf_ite (memWf_completeCmd h) h

theorem memWf_fxFetchIdleEntry {iod : Nat} {db : Option Nat} {s : State} (h : s.memWf = true) :
    (fxFetchIdleEntry iod db s).memWf = true := by
  unfold fxFetchIdleEntry
  refine memWf_ite h ?_
  split
  · exact memWf_modFe h
  · exact memWf_ite h (memWf_modFe h)

@[simp] theorem keepsForm_execFetchIdleEntry {iod : Nat} {db : Option Nat} {s : State} (h : s.memWf = true) :
    KeepsForm (execFetchIdleEntry iod db s) := keepsForm_onIod (memWf_ite h (memWf_fxFetchIdleEntry h))

@[simp] theorem keepsForm_execFetchWake {iod : Nat} {s : State} (h : s.memWf = true) : KeepsForm (execFetchWake iod s) :=
  keepsForm_onIod (memWf_ite (memWf_modFe h) h)

@[simp] theorem keepsForm_execFetchGateReopen {iod : Nat} {s : State} (h : s.memWf = true) :
    KeepsForm (execFetchGateReopen iod s) := keepsForm_onIod (memWf_ite (memWf_modFe h) h)

/-! ## What the collective engines share -/

theorem memWf_modRun {s : State} {k : CollKey} {g : CollRun → CollRun} (h : s.memWf = true) : (s.modRun k g).memWf = true :=
  memWf_frame h rfl rfl

theorem memWf_collProgress {s : State} {k : CollKey} (h : s.memWf = true) : (s.collProgress k).memWf = true :=
  memWf_progress (memWf_modRun h)

theorem memWf_collSlow {s : State} {k : CmdKey} {slow : Bool} (h : s.memWf = true) : (s.collSlow k slow).memWf = true :=
  memWf_ite (memWf_frame h rfl rfl) h

theorem memWf_rdColl {s : State} {k : CmdKey} {va n : Nat} (h : s.memWf = true) : (s.rdColl k va n).2.memWf = true :=
  memWf_collSlow (memWf_rdCmd h)

theorem memWf_collPut {s : State} {k : CmdKey} {va : Nat} {bs : List (Byte × Bool)} (h : s.memWf = true) :
    (s.collPut k va bs).2.memWf = true :=
  memWf_collSlow (memWf_metCmd (memWf_ite (memWf_noteCmd (memWf_vaWrite h)) (memWf_vaWrite h)))

theorem memWf_sendCollTo {s : State} {did rank unit flowlet : Nat} {h : CollHead} {bs : List Byte} (hs : s.memWf = true) :
    (s.sendCollTo did rank unit flowlet h bs).memWf = true := by
  unfold State.sendCollTo
  exact memWf_send_getD (memWf_emit hs)

theorem memWf_tellMember {s : State} {r : CollRun} {m kind : Nat} {bs : List Byte} (h : s.memWf = true) :
    (s.tellMember r m kind bs).memWf = true := by
  unfold State.tellMember
  split
  · exact h
  · exact memWf_foldl h (fun _ _ ht => memWf_sendCollTo ht)

theorem memWf_sendPackets {s : State} {r : CollRun} {x : SentChunk} (h : s.memWf = true) : (s.sendPackets r x).memWf = true := by
  unfold State.sendPackets
  split
  · exact h
  · exact memWf_foldl h (fun _ _ ht => memWf_sendCollTo ht)

theorem memWf_sendChunk {s : State} {r : CollRun} {x : SentChunk} (h : s.memWf = true) : (s.sendChunk r x).memWf = true :=
  memWf_modRun (memWf_sendPackets h)

theorem memWf_readElems {s : State} {k : CmdKey} {va t n : Nat} (h : s.memWf = true) : (s.readElems k va t n).2.memWf = true :=
  memWf_snd_ite (memWf_collSlow (memWf_metCmd (memWf_ite (memWf_noteCmd (memWf_vaRead h)) (memWf_vaRead h))))
    (memWf_collSlow (memWf_metCmd (memWf_ite (memWf_noteCmd (memWf_vaRead h)) (memWf_vaRead h))))

theorem memWf_writeElems {s : State} {k : CmdKey} {va t : Nat} {xs : List (Nat × Bool)} (h : s.memWf = true) :
    (s.writeElems k va t xs).2.memWf = true := memWf_collPut h

theorem memWf_vaScramble {s : State} {c va n : Nat} (h : s.memWf = true) : (s.vaScramble c va n).memWf = true := by
  unfold State.vaScramble
  refine memWf_foldl h (fun _ _ ht => ?_)
  extract_lets r1
  have h1 : r1.2.memWf = true := memWf_xlate ht
  split
  · exact memWf_memScramble h1
  · exact h1

theorem memWf_dieOverflow {s : State} {r : CollRun} {die : Nat} (h : s.memWf = true) : (s.dieOverflow r die).memWf = true :=
  memWf_modCmd (memWf_dieEvent (memWf_frame h rfl rfl))

theorem memWf_collOverflow {s : State} {r : CollRun} {ovs : List Bool} (h : s.memWf = true) : (s.collOverflow r ovs).memWf = true :=
  memWf_foldl h (fun _ _ ht => memWf_dieOverflow ht)

theorem memWf_collOverflows {s : State} {r : CollRun} {ovs : List (List Bool)} (h : s.memWf = true) :
    (s.collOverflows r ovs).memWf = true := memWf_foldl h (fun _ _ ht => memWf_collOverflow ht)

theorem memWf_collPoison {s : State} {r : CollRun} {ps : List Bool} (h : s.memWf = true) : (s.collPoison r ps).memWf = true :=
  memWf_ite (memWf_noteCmd h) h

theorem memWf_failHeader {s : State} {r : CollRun} (h : s.memWf = true) : (s.failHeader r).memWf = true := by
  unfold State.failHeader
  split
  · exact h
  · exact memWf_ite h (memWf_ite (memWf_modCtx h) (memWf_vaWrite (memWf_modCtx h)))

theorem memWf_dropDeltas {s : State} {r : CollRun} (h : s.memWf = true) : (s.dropDeltas r).memWf = true := by
  unfold State.dropDeltas
  split
  · exact h
  · exact memWf_foldl h (fun _ _ ht => memWf_deltaFailed ht)

theorem memWf_dropRun {s : State} {r : CollRun} (h : s.memWf = true) : (s.dropRun r).memWf = true :=
  memWf_frame (memWf_dropDeltas h) rfl rfl

theorem memWf_noteSlow {s : State} {r : CollRun} (h : s.memWf = true) : (s.noteSlow r).memWf = true :=
  memWf_ite (memWf_modCtx (memWf_modCmd h)) h

theorem memWf_abortAll {s : State} {r : CollRun} {st : Status} {rank : Nat} (h : s.memWf = true) :
    (s.abortAll r st rank).memWf = true := memWf_foldl h (fun _ _ ht => memWf_tellMember ht)

theorem memWf_dropFence {s : State} {r : CollRun} (h : s.memWf = true) : (s.dropFence r).memWf = true :=
  memWf_ite (memWf_modCtx h) h

theorem memWf_failRun {s : State} {r : CollRun} {st : Status} {rank : Nat} (h : s.memWf = true) :
    (s.failRun r st rank).memWf = true := by
  unfold State.failRun
  extract_lets _ t1 t2 t3 t4
  have h1 : t1.memWf = true := memWf_ite (memWf_modCtx h) h
  have h2 : t2.memWf = true := memWf_noteSlow h1
  have h3 : t3.memWf = true := memWf_ite h2 (memWf_failHeader (memWf_foldl h2 (fun _ _ ht => memWf_vaScramble ht)))
  have h4 : t4.memWf = true := memWf_ite h3 (memWf_abortAll h3)
  exact memWf_endCmd (memWf_dropRun (memWf_dropFence h4))

theorem memWf_failMine {s : State} {r : CollRun} {st : Status} (h : s.memWf = true) : (s.failMine r st).memWf = true :=
  memWf_failRun h

theorem memWf_sendCounters {s : State} (h : s.memWf = true) : s.sendCounters.memWf = true := by
  refine memWf_foldl (memWf_frame h rfl rfl) fun t e ht => ?_
  dsimp only
  split
  · next hf => exact memWf_form_sent ht hf
  · next hf => exact memWf_form_noRoute ht hf
  · exact memWf_frame ht rfl rfl

theorem memWf_layerCounters {s : State} {r : CollRun} (h : s.memWf = true) : (s.layerCounters r).memWf = true := by
  unfold State.layerCounters
  split
  · exact h
  · exact memWf_ite h (memWf_sendCounters (memWf_frame h rfl rfl))

theorem memWf_settleRun {s : State} {k : CollKey} (h : s.memWf = true) : (s.settleRun k).memWf = true := by
  unfold State.settleRun
  split
  · exact h
  · exact memWf_ite h (memWf_endCmd (memWf_dropRun
      (memWf_noteSlow (memWf_ite (memWf_frame (memWf_ite (memWf_layerCounters h) (memWf_abortAll (memWf_layerCounters h))) rfl rfl)
      (memWf_ite (memWf_layerCounters h) (memWf_abortAll (memWf_layerCounters h)))))))

theorem memWf_endLostRuns {s : State} (h : s.memWf = true) : s.endLostRuns.memWf = true :=
  memWf_foldl h (fun _ _ ht => memWf_ite (memWf_failMine ht) ht)

theorem memWf_onRun {s : State} {k : CollKey} {go : CollRun → State → State} (h : s.memWf = true)
    (hgo : ∀ x t, t.memWf = true → (go x t).memWf = true) : (s.onRun k go).memWf = true := by
  unfold State.onRun
  refine memWf_ite h ?_
  split
  · exact h
  · exact memWf_ite h (hgo _ _ h)

theorem memWf_onOp {s : State} {k : CollKey} {op : Nat} {go : CollRun → State → State} (h : s.memWf = true)
    (hgo : ∀ x t, t.memWf = true → (go x t).memWf = true) : (s.onOp k op go).memWf = true :=
  memWf_onRun h (fun _ _ ht => memWf_ite (hgo _ _ ht) ht)

theorem memWf_dataDone {s : State} {r : CollRun} {ovs : List (List Bool)} {ps : List Bool} {n : Nat} {sends : List SentChunk}
    (h : s.memWf = true) : (s.dataDone r ovs ps n sends).memWf = true :=
  memWf_settleRun (memWf_collProgress (memWf_modRun
    (memWf_foldl (memWf_foldl (memWf_collPoison (memWf_collOverflows h)) (fun _ _ ht => memWf_dieEvent ht))
    (fun _ _ ht => memWf_sendChunk ht))))

/-! ## Responses and their timeouts -/

theorem memWf_endAny {s : State} {t : Trans} {st : Status} {echo : Option Nat} (h : s.memWf = true) :
    (s.endAny t st echo).memWf = true := by
  unfold State.endAny
  extract_lets t1
  have h1 : t1.memWf = true := memWf_sendCounters (memWf_endTrans h)
  split
  · split
    · exact h1
    · exact memWf_ite (memWf_settleRun h1) (memWf_failMine h1)
  · exact h1

theorem memWf_noteTrans {s : State} {t : Trans} {st : Status} (h : s.memWf = true) : (s.noteTrans t st).memWf = true := by
  unfold State.noteTrans
  refine memWf_ite ?_ h
  split
  · exact memWf_modCore h (coreMemWf_ite (coreMemWf_note (coreMemWf_core h)) (coreMemWf_core h))
  · exact memWf_modCore h (coreMemWf_ite (coreMemWf_note (coreMemWf_core h)) (coreMemWf_core h))
  · exact h

theorem memWf_poisonGet {s : State} {t : Trans} (h : s.memWf = true) : (s.poisonGet t).memWf = true := by
  unfold State.poisonGet
  split
  · exact memWf_modCore h (coreMemWf_ite (coreMemWf_poisoned (coreMemWf_poisonRange (coreMemWf_core h))) (coreMemWf_core h))
  · exact h

theorem memWf_fxData {port : Nat} {pk : List Byte} {s : State} (h : s.memWf = true) : (fxData port pk s).memWf = true := by
  unfold fxData
  refine memWf_ingress h (fun _ ht => ?_)
  split
  · exact ht
  · refine memWf_endAny (memWf_noteTrans ?_)
    split
    · exact memWf_ite (memWf_moverBytes (memWf_modCore ht (coreMemWf_store (coreMemWf_core ht)))) ht
    · exact ht

@[simp] theorem keepsForm_execData {port : Nat} {pk : List Byte} {s : State} (h : s.memWf = true) :
    KeepsForm (execData port pk s) := keepsForm_onPortIn (memWf_fxData h)

theorem memWf_fxE2eTimeout {tag : Nat} {s : State} (h : s.memWf = true) : (fxE2eTimeout tag s).memWf = true := by
  unfold fxE2eTimeout
  refine memWf_ite h ?_
  split
  · exact h
  · exact memWf_endAny h

@[simp] theorem keepsForm_execE2eTimeout {tag : Nat} {s : State} (h : s.memWf = true) : KeepsForm (execE2eTimeout tag s) :=
  keepsForm_next (memWf_fxE2eTimeout h)

/-! ## Parameter groups and update programs -/

theorem memWf_needsOk {s : State} {c : Nat} {l : List (Nat × Nat × List Perm)} (h : s.memWf = true) :
    (s.needsOk c l).2.memWf = true := memWf_snd_foldl h (fun _ _ ht => memWf_snd_ite ht (memWf_vaOk ht))

theorem memWf_readEntry {s : State} {k : CmdKey} {group count : Nat} (h : s.memWf = true) :
    (s.readEntry k group count).2.memWf = true := by
  unfold State.readEntry
  extract_lets a
  have ha : a.2.memWf = true := memWf_rdCmd h
  split
  · exact memWf_snd_mk h
  · split
    · exact memWf_snd_mk ha
    · split
      · exact memWf_snd_mk ha
      · extract_lets p
        have hp : p.2.memWf = true := memWf_rdCmd ha
        split
        · exact memWf_snd_mk hp
        · extract_lets prog t r
          split
          · exact memWf_snd_mk hp
          · have ht : t.2.memWf = true := memWf_needsOk hp
            split
            · exact memWf_snd_mk ht
            · have hr : r.2.memWf = true := memWf_snd_ite (memWf_snd_mk ht) (memWf_rdCmd ht)
              split
              · exact memWf_snd_mk hr
              · split <;> exact memWf_snd_mk hr

theorem memWf_sendDeltas {s : State} {k : CollKey} (h : s.memWf = true) : (s.sendDeltas k).memWf = true := by
  unfold State.sendDeltas
  split
  · exact h
  · split
    · exact h
    · extract_lets x go
      refine memWf_modRun (memWf_fst_foldl h fun y p hy => ?_)
      extract_lets holder
      split
      · next hf => exact memWf_fst_mk (memWf_dieEvent (memWf_form_sent hy hf))
      · next hf => exact memWf_fst_mk (memWf_deltaFailed (memWf_form_noRoute hy hf))
      · exact hy

/-! ## Data packets of collectives -/

theorem memWf_withElems {s : State} {r : CollRun} {va t n : Nat} {go : List (Nat × Bool) → State → State} (h : s.memWf = true)
    (hgo : ∀ x t, t.memWf = true → (go x t).memWf = true) : (s.withElems r va t n go).memWf = true := by
  unfold State.withElems
  extract_lets r1
  have h1 : r1.2.memWf = true := memWf_readElems h
  split
  · exact memWf_failMine h1
  · exact hgo _ _ h1

theorem memWf_putElems {s : State} {r : CollRun} {va t : Nat} {xs : List (Nat × Bool)} {go : State → State} (h : s.memWf = true)
    (hgo : ∀ t, t.memWf = true → (go t).memWf = true) : (s.putElems r va t xs go).memWf = true := by
  unfold State.putElems
  extract_lets r1
  have h1 : r1.2.memWf = true := memWf_writeElems h
  split
  · exact memWf_failMine h1
  · exact hgo _ h1

theorem memWf_withBytes {s : State} {r : CollRun} {va n : Nat} {go : List Byte → State → State} (h : s.memWf = true)
    (hgo : ∀ x t, t.memWf = true → (go x t).memWf = true) : (s.withBytes r va n go).memWf = true := by
  unfold State.withBytes
  extract_lets r1
  have h1 : r1.2.memWf = true := memWf_rdColl h
  split
  · exact memWf_failMine h1
  · exact hgo _ _ h1

theorem memWf_gnOwn {s : State} {r : CollRun} {src block : List Nat} (h : s.memWf = true) : (s.gnOwn r src block).memWf = true :=
  memWf_ite h (memWf_modRun (memWf_foldl h (fun _ _ ht => memWf_ite ht (memWf_tellMember ht))))

theorem memWf_readBlocks {s : State} {r : CollRun} {bs : List (Nat × Nat)} (h : s.memWf = true) :
    (s.readBlocks r bs).2.memWf = true := by
  unfold State.readBlocks
  refine memWf_snd_foldl h (fun _ _ ht => ?_)
  split
  · exact ht
  · extract_lets r1
    have h1 : r1.2.memWf = true := memWf_readElems ht
    split <;> exact h1

theorem memWf_writeRow {s : State} {r : CollRun} {origin loc slot token choice : Nat} {row : List (Nat × Bool)}
    (h : s.memWf = true) : (s.writeRow r origin loc slot token choice row).memWf = true := by
  unfold State.writeRow
  extract_lets _ _ t1 r2 _ r3
  have h1 : t1.memWf = true := memWf_collOverflow h
  have h2 : r2.2.memWf = true := memWf_writeElems h1
  have h3 : r3.2.memWf = true := memWf_collPut h2
  split
  · exact memWf_failMine h2
  · exact memWf_ite (memWf_failMine h3) (memWf_modRun (memWf_collPoison h3))

theorem memWf_ownerEnds {s : State} {k : CollKey} (h : s.memWf = true) : (s.ownerEnds k).memWf = true := by
  unfold State.ownerEnds
  split
  · exact h
  · split
    · exact h
    · refine memWf_ite h ?_
      extract_lets mine z hd p _ t
      have hz : z.2.memWf = true := memWf_snd_foldl h fun _ _ hy => memWf_snd_mk (memWf_collPut hy)
      exact memWf_ite (memWf_failMine hz) (memWf_modRun (memWf_withPen hz))

theorem memWf_sendAck {s : State} {r : CollRun} {pk : CollPkt} (h : s.memWf = true) : (s.sendAck r pk).memWf = true :=
  memWf_sendCollTo h

theorem memWf_takeRow {s : State} {r : CollRun} {pk : CollPkt} (h : s.memWf = true) : (s.takeRow r pk).memWf = true :=
  memWf_ite h (memWf_ite (memWf_writeRow (memWf_modRun h)) (memWf_modRun h))

theorem memWf_acceptColl {s : State} {port : Nat} {r : CollRun} {pk : CollPkt} (h : s.memWf = true) :
    (s.acceptColl port r pk).memWf = true :=
  memWf_ite (memWf_ite (memWf_sendAck (memWf_collProgress h)) (memWf_collProgress h))
    (memWf_ite (memWf_modRun (memWf_collProgress h))
    (memWf_ite (memWf_takeRow (memWf_modRun (memWf_collProgress h)))
    (memWf_settleRun (memWf_ownerEnds (memWf_sendAck (memWf_modRun (memWf_takeRow (memWf_modRun (memWf_collProgress h)))))))))

/-! ## The token router -/

theorem memWf_modDisp {s : State} {k : CollKey} {g : DispRun → DispRun} (h : s.memWf = true) : (s.modDisp k g).memWf = true :=
  memWf_modRun h

theorem memWf_dropChoice {s : State} {r : CollRun} {t j : Nat} (h : s.memWf = true) : (s.dropChoice r t j).memWf = true :=
  memWf_ite (memWf_failMine (memWf_collPut (memWf_free h))) (memWf_modDisp (memWf_dieEvent (memWf_collPut (memWf_free h))))

theorem memWf_sendClaims {s : State} {k : CollKey} (h : s.memWf = true) : (s.sendClaims k).memWf = true := by
  unfold State.sendClaims
  split
  · exact h
  · split
    · exact h
    · exact memWf_modDisp (memWf_foldl h (fun _ _ ht => memWf_ite ht (memWf_tellMember ht)))

theorem memWf_sendRow {s : State} {r : CollRun} {x : DispRun} {t j e slot : Nat} (h : s.memWf = true) :
    (s.sendRow r x t j e slot).memWf = true :=
  memWf_ite (memWf_failMine (memWf_collPut h))
    (memWf_withElems (memWf_collPut h) (fun _ _ ht => memWf_ite
    (memWf_writeRow (memWf_dieEvent (memWf_collPoison (memWf_collOverflow ht))))
    (memWf_sendChunk (memWf_dieEvent (memWf_collPoison (memWf_collOverflow ht))))))

theorem memWf_reject {s : State} {r : CollRun} {acc : List (Nat × Nat × Nat)} {tj : Nat × Nat} (h : s.memWf = true) :
    (s.reject r acc tj).2.memWf = true := by
  unfold State.reject
  split
  · exact h
  · refine memWf_snd_ite (memWf_dropChoice h) ?_
    split
    · exact memWf_dropChoice h
    · exact memWf_snd_ite (memWf_dropChoice (memWf_modDisp h)) (memWf_modDisp (memWf_dieEvent (memWf_modDisp h)))

theorem memWf_takeRound {s : State} {r : CollRun} {x : DispRun} (h : s.memWf = true) : (s.takeRound r x).memWf = true :=
  memWf_ite (memWf_sendClaims (memWf_modDisp
    (memWf_snd_foldl (memWf_foldl (memWf_modDisp h) (fun _ _ ht => memWf_ite ht (memWf_sendRow ht)))
    (fun _ _ ht => memWf_reject ht)))) (memWf_dataDone
    (memWf_modDisp (memWf_snd_foldl (memWf_foldl (memWf_modDisp h) (fun _ _ ht => memWf_ite ht (memWf_sendRow ht)))
    (fun _ _ ht => memWf_reject ht))))

theorem memWf_grantRound {s : State} {r : CollRun} {x : DispRun} (h : s.memWf = true) : (s.grantRound r x).memWf = true :=
  memWf_modDisp (memWf_foldl h (fun _ _ ht => memWf_ite ht (memWf_tellMember ht)))

theorem memWf_pump {s : State} {k : CollKey} {fuel : Nat} (h : s.memWf = true) : (s.pump k fuel).memWf = true := by
  induction fuel generalizing s with
  | zero => exact h
  | succ fuel ih =>
    simp only [State.pump]
    split
    · exact h
    · split
      · exact h
      · exact memWf_ite (ih (memWf_grantRound h)) (memWf_ite (ih (memWf_takeRound h)) (memWf_settleRun (memWf_ownerEnds h)))

theorem memWf_fxDispatch {r : CollRun} {s : State} (h : s.memWf = true) : (fxDispatch r s).memWf = true :=
  memWf_ite h (memWf_withBytes h (fun _ _ ht => memWf_withBytes ht
    (fun _ _ ht1 => memWf_ite (memWf_failMine ht1)
    (memWf_pump (memWf_sendClaims (memWf_collProgress
    (memWf_foldl (memWf_modRun (memWf_frame ht1 rfl rfl)) (fun _ _ ht2 => memWf_dropChoice ht2))))))))

@[simp] theorem keepsForm_execDispatch {k : CollKey} {s : State} (h : s.memWf = true) : KeepsForm (execDispatch k s) :=
  keepsForm_onCtx (memWf_onOp h (fun _ _ ht => memWf_fxDispatch ht))

theorem memWf_fxClaimCount {k : CollKey} {m : Nat} {cs : List Claim} {r : CollRun} {s : State} (h : s.memWf = true) :
    (fxClaimCount k m cs r s).memWf = true :=
  memWf_ite (memWf_frame h rfl rfl) (memWf_ite h (memWf_pump (memWf_collProgress (memWf_modDisp h))))

theorem memWf_fxGrant {k : CollKey} {m : Nat} {gs : List Grant} {r : CollRun} {s : State} (h : s.memWf = true) :
    (fxGrant k m gs r s).memWf = true := by
  unfold fxGrant
  split
  · exact h
  · exact memWf_ite h (memWf_pump (memWf_collProgress (memWf_modDisp h)))

theorem memWf_slotsOf {s : State} {r : CollRun} {l : Nat} (h : s.memWf = true) : (s.slotsOf r l).2.memWf = true := by
  unfold State.slotsOf
  extract_lets r1
  have h1 : r1.2.memWf = true := memWf_rdColl h
  split
  · exact h1
  · extract_lets _ r2
    have h2 : r2.2.memWf = true := memWf_rdColl h1
    split <;> exact h2

theorem memWf_filledSlots {s : State} {r : CollRun} (h : s.memWf = true) : (s.filledSlots r).2.memWf = true := by
  unfold State.filledSlots
  extract_lets r1
  have h1 : r1.2.memWf = true := memWf_rdColl h
  split
  · exact h1
  · refine memWf_snd_foldl h1 (fun _ _ ht => ?_)
    split
    · exact ht
    · extract_lets r2
      have h2 : r2.2.memWf = true := memWf_slotsOf ht
      split <;> exact h2

theorem memWf_sendSlots {s : State} {r : CollRun} (h : s.memWf = true) : (s.sendSlots r).memWf = true := by
  unfold State.sendSlots
  extract_lets _ r1
  have h1 : r1.2.memWf = true := memWf_filledSlots h
  split
  · exact memWf_failMine h1
  · exact memWf_foldl h1 (fun _ _ ht => memWf_ite ht
      (memWf_withElems ht (fun _ _ ht1 => memWf_sendChunk (memWf_collPoison (memWf_collOverflow ht1)))))

theorem memWf_combineToken {s : State} {r : CollRun} {ins : List MemberIn} {routes : List Nat} {gates : List (Nat × Bool)} {t : Nat}
    (h : s.memWf = true) : (s.combineToken r ins routes gates t).memWf = true := by
  unfold State.combineToken
  extract_lets _ _ _ _ _ _ _ r1
  have h1 : r1.2.memWf = true := memWf_readBlocks h
  split
  · exact memWf_failMine h1
  · exact memWf_putElems (memWf_collOverflows h1) (fun _ ht => memWf_collPoison ht)

theorem memWf_fxCombine {ins : List MemberIn} {r : CollRun} {s : State} (h : s.memWf = true) :
    (fxCombine ins r s).memWf = true := by
  unfold fxCombine
  exact memWf_withBytes h (fun _ _ ht => memWf_ite ht
    (memWf_withElems ht (fun _ _ ht1 => memWf_ite
    (memWf_foldl (memWf_sendSlots ht1) (fun _ _ ht2 => memWf_ite ht2 (memWf_combineToken ht2)))
    (memWf_dataDone (memWf_foldl (memWf_sendSlots ht1) (fun _ _ ht2 => memWf_ite ht2 (memWf_combineToken ht2)))))))

@[simp] theorem keepsForm_execCombine {k : CollKey} {ins : List MemberIn} {s : State} (h : s.memWf = true) :
    KeepsForm (execCombine k ins s) := keepsForm_onCtx (memWf_onOp h (fun _ _ ht => memWf_fxCombine ht))

/-! ## Collective packets as they arrive -/

theorem memWf_fxGnExchange {k : CollKey} {sums : List (BitVec 64 × BitVec 64)} {r : CollRun} {s : State} (h : s.memWf = true) :
    (fxGnExchange k sums r s).memWf = true := by
  unfold fxGnExchange
  split
  · exact h
  · exact memWf_ite h (memWf_ite (memWf_failMine (memWf_collPut (memWf_foldl h (fun _ _ ht => memWf_dieOverflow ht))))
      (memWf_settleRun (memWf_collProgress (memWf_modRun (memWf_collPut (memWf_foldl h (fun _ _ ht => memWf_dieOverflow ht)))))))

theorem memWf_fxProgressPacket {k : CollKey} {t : Nat} {slow : Bool} {r : CollRun} {s : State} (h : s.memWf = true) :
    (fxProgressPacket k t slow r s).memWf = true :=
  memWf_ite (memWf_progress (memWf_modRun (memWf_ite (memWf_modRun h) h))) (memWf_ite (memWf_modRun h) h)

theorem memWf_beginAnew {s : State} {pk : CollPkt} (h : s.memWf = true) : (s.beginAnew pk).memWf = true :=
  memWf_ite h (memWf_frame h rfl rfl)

theorem memWf_holdEarly {s : State} {port : Nat} {pk : CollPkt} (h : s.memWf = true) : (s.holdEarly port pk).memWf = true :=
  memWf_frame (memWf_beginAnew h) rfl rfl

theorem memWf_answerAbort {s : State} {pk : CollPkt} {st : Status} (h : s.memWf = true) : (s.answerAbort pk st).memWf = true :=
  memWf_sendCollTo h

theorem memWf_dropColl {s : State} {port : Nat} {pk : CollPkt} (h : s.memWf = true) : (s.dropColl port pk).memWf = true :=
  memWf_answerAbort (memWf_dieEvent (memWf_frame h rfl rfl))

theorem memWf_noteAbort {s : State} {pk : CollPkt} (h : s.memWf = true) : (s.noteAbort pk).memWf = true := by
  unfold State.noteAbort
  split
  · exact memWf_ite h (memWf_dieEvent (memWf_frame h rfl rfl))
  · exact h

theorem memWf_collMsg {s : State} {k : CollKey} {r : CollRun} {m : CollMsg} (h : s.memWf = true) :
    (s.collMsg k r m).memWf = true := by
  cases m with
  | ack x => exact memWf_settleRun (memWf_modRun h)
  | progress t slow => exact memWf_fxProgressPacket h
  | abort st rank => exact memWf_ite h (memWf_failRun h)
  | claims m l => exact memWf_fxClaimCount h
  | grants m l => exact memWf_fxGrant h
  | sums l => exact memWf_fxGnExchange h

theorem memWf_afterEnd {s : State} {pk : CollPkt} (h : s.memWf = true) : (s.afterEnd pk).memWf = true := by
  unfold State.afterEnd
  split
  · exact h
  · exact memWf_ite (memWf_sendCollTo h) h

theorem memWf_collGo {s : State} {port : Nat} {pk : CollPkt} (h : s.memWf = true) : (s.collGo port pk).memWf = true := by
  unfold State.collGo
  refine memWf_ite (memWf_dropColl h) ?_
  split
  · exact memWf_afterEnd h
  · refine memWf_ite (memWf_answerAbort (memWf_failMine h)) ?_
    split
    · exact memWf_acceptColl h
    · exact memWf_collMsg h

theorem memWf_collIn {s : State} {port : Nat} {pk : CollPkt} (h : s.memWf = true) : (s.collIn port pk).memWf = true :=
  memWf_ite (memWf_dieEvent (memWf_holdEarly (memWf_noteAbort h))) (memWf_ite (memWf_dropColl h) (memWf_collGo (memWf_noteAbort h)))

theorem memWf_collArrive {s : State} {port : Nat} {pk : CollPkt} (h : s.memWf = true) : (s.collArrive port pk).memWf = true :=
  memWf_ite (memWf_holdUnits (memWf_frame h rfl rfl)) (memWf_collIn (memWf_passUnits h))

theorem memWf_unstick {s : State} (h : s.memWf = true) : s.unstick.memWf = true := by
  refine memWf_fst_foldl (memWf_fst_mk (memWf_frame h rfl rfl)) fun y e hy => ?_
  extract_lets q
  split
  · exact memWf_fst_mk (memWf_frame hy rfl rfl)
  · exact memWf_fst_mk (memWf_collIn (memWf_freeUnits hy))

theorem memWf_takeEarly {s : State} {c : Nat} (h : s.memWf = true) : (s.takeEarly c).memWf = true :=
  memWf_unstick (memWf_foldl (memWf_frame h rfl rfl) (fun _ _ ht => memWf_ite (memWf_holdEarly ht) (memWf_collGo ht)))

theorem memWf_collComes {s : State} {port : Nat} {pk : CollPkt} (h : s.memWf = true) : (s.collComes port pk).memWf = true :=
  memWf_ite h (memWf_ite (memWf_passUnits h) (memWf_ite (memWf_wakeBy h) (memWf_collArrive (memWf_wakeEngine (memWf_wakeBy h)))))

@[simp] theorem keepsForm_execColl {port : Nat} {pk : CollPkt} {s : State} (h : s.memWf = true) : KeepsForm (execColl port pk s) :=
  keepsForm_onPortIn (memWf_collComes h)

@[simp] theorem keepsForm_execChunkAck {t : CollTag} {x : ChunkRef} {s : State} (h : s.memWf = true) :
    KeepsForm (execChunkAck t x s) := keepsForm_onTag (memWf_collComes h)

@[simp] theorem keepsForm_execProgressPacket {t : CollTag} {tReal : Nat} {slow : Bool} {s : State} (h : s.memWf = true) :
    KeepsForm (execProgressPacket t tReal slow s) := keepsForm_onTag (memWf_collComes h)

@[simp] theorem keepsForm_execAbort {t : CollTag} {st : BitVec 16} {rank : Nat} {s : State} (h : s.memWf = true) :
    KeepsForm (execAbort t st rank s) := keepsForm_onTag (memWf_collComes h)

@[simp] theorem keepsForm_execClaimCount {t : CollTag} {origin : Nat} {claims : List Claim} {s : State} (h : s.memWf = true) :
    KeepsForm (execClaimCount t origin claims s) := keepsForm_onTag (memWf_collComes h)

@[simp] theorem keepsForm_execGrant {t : CollTag} {owner : Nat} {grants : List Grant} {s : State} (h : s.memWf = true) :
    KeepsForm (execGrant t owner grants s) := keepsForm_onTag (memWf_collComes h)

@[simp] theorem keepsForm_execGnExchange {t : CollTag} {sums : List (BitVec 64 × BitVec 64)} {s : State} (h : s.memWf = true) :
    KeepsForm (execGnExchange t sums s) := keepsForm_onTag (memWf_collComes h)

/-! ## Collectives -/

theorem memWf_rankList {s : State} {k : CmdKey} {d : CollDesc} (h : s.memWf = true) : (s.rankList k d).2.memWf = true := by
  unfold State.rankList
  extract_lets r1
  have h1 : r1.2.memWf = true := memWf_rdCmd h
  split <;> exact h1

theorem memWf_failStart {s : State} {r : CollRun} {st : Status} (h : s.memWf = true) : (s.failStart r st).memWf = true :=
  memWf_endCmd (memWf_dropRun (memWf_dropFence (memWf_abortAll h)))

theorem memWf_takeEntry {s : State} {k : CollKey} (h : s.memWf = true) : (s.takeEntry k).memWf = true := by
  unfold State.takeEntry
  split
  · exact h
  · refine memWf_ite h (memWf_ite (memWf_modRun h) ?_)
    extract_lets r1
    have h1 : r1.2.memWf = true := memWf_readEntry h
    split
    · exact memWf_failStart h1
    · exact memWf_modRun (memWf_modCtx h1)

theorem memWf_beginRun {s : State} {k : CollKey} (h : s.memWf = true) : (s.beginRun k).memWf = true := by
  unfold State.beginRun
  split
  · exact h
  · exact memWf_ite (memWf_failStart h) (memWf_ite (memWf_failStart h) (memWf_takeEarly (memWf_takeEntry h)))

theorem memWf_epochFails {s : State} {k : CmdKey} (h : s.memWf = true) : (s.epochFails k).memWf = true :=
  memWf_failCmd (memWf_modCtx h)

theorem memWf_wakeEngines {s : State} (h : s.memWf = true) : s.wakeEngines.memWf = true :=
  memWf_foldl h (fun _ _ ht => memWf_wakeEngine ht)

theorem memWf_startRun {s : State} {k : CmdKey} {d : CollDesc} {ranks : List Nat} (h : s.memWf = true) :
    (s.startRun k d ranks).memWf = true :=
  memWf_ite (memWf_failCmd h) (memWf_ite (memWf_ite (memWf_frame h rfl rfl) (memWf_epochFails h))
    (memWf_ite (memWf_ite (memWf_epochFails h) (memWf_beginRun (memWf_modCtx (memWf_frame h rfl rfl))))
    (memWf_ite (memWf_epochFails h) (memWf_beginRun (memWf_frame h rfl rfl)))))

theorem memWf_fxCollective {k : CmdKey} {m : Cmd} {s : State} (h : s.memWf = true) : (fxCollective k m s).memWf = true := by
  unfold fxCollective
  refine memWf_ite (memWf_failCmd h) ?_
  extract_lets r1
  have h1 : r1.2.memWf = true := memWf_rdCmd h
  split
  · exact memWf_failCmd h1
  · refine memWf_ite (memWf_failCmd h1) (memWf_ite (memWf_failCmd h1) (memWf_ite (memWf_failCmd h1) ?_))
    extract_lets r2
    have h2 : r2.2.memWf = true := memWf_rankList h1
    split
    · exact memWf_failCmd h2
    · exact memWf_startRun (memWf_wakeEngines h2)

@[simp] theorem keepsForm_execCollective {k : CmdKey} {s : State} (h : s.memWf = true) : KeepsForm (execCollective k s) :=
  keepsForm_onKey (memWf_ite h (memWf_actCmd h (fun _ _ ht => memWf_fxCollective ht)))

theorem memWf_fxReduceScatter {ins : List MemberIn} {r : CollRun} {s : State} (h : s.memWf = true) :
    (fxReduceScatter ins r s).memWf = true :=
  memWf_ite h (memWf_withElems h (fun _ _ ht => memWf_ite
    (memWf_putElems (memWf_collOverflows ht) (fun _ ht1 => memWf_dataDone (memWf_gnOwn (memWf_ite (memWf_modRun ht1) ht1))))
    (memWf_dataDone (memWf_gnOwn (memWf_ite (memWf_modRun (memWf_collOverflows ht)) (memWf_collOverflows ht))))))

@[simp] theorem keepsForm_execReduceScatter {k : CollKey} {ins : List MemberIn} {s : State} (h : s.memWf = true) :
    KeepsForm (execReduceScatter k ins s) := keepsForm_onCtx (memWf_onOp h (fun _ _ ht => memWf_fxReduceScatter ht))

theorem memWf_fxAllReduce {ins : List MemberIn} {r : CollRun} {s : State} (h : s.memWf = true) :
    (fxAllReduce ins r s).memWf = true :=
  memWf_ite h (memWf_withElems h (fun _ _ ht => memWf_putElems (memWf_collOverflows ht)
    (fun _ ht1 => memWf_dataDone (memWf_gnOwn ht1))))

@[simp] theorem keepsForm_execAllReduce {k : CollKey} {ins : List MemberIn} {s : State} (h : s.memWf = true) :
    KeepsForm (execAllReduce k ins s) := keepsForm_onCtx (memWf_onOp h (fun _ _ ht => memWf_fxAllReduce ht))

theorem memWf_takeShard {s : State} {r : CollRun} {vrec : List Byte} {j : Nat} {sent : Bool} {version : Nat} {xs : List (Nat × Bool)}
    (h : s.memWf = true) : (s.takeShard r vrec j sent version xs).2.memWf = true := by
  unfold State.takeShard
  extract_lets d vmode out w
  have hw : w.2.memWf = true := memWf_writeElems (memWf_collOverflow h)
  split
  · exact memWf_snd_mk (memWf_noteCmd h)
  · split
    · exact memWf_snd_mk hw
    · split
      · exact memWf_snd_mk (memWf_collPut hw)
      · exact memWf_snd_mk hw

theorem memWf_gatherGo {s : State} {r : CollRun} {ins : List MemberIn} {sent : Bool} {version : Nat} (h : s.memWf = true) :
    (s.gatherGo r ins sent version).memWf = true := by
  unfold State.gatherGo
  dsimp only
  refine memWf_withElems h (fun _ _ ht => memWf_ite (memWf_withBytes ht (fun _ _ ht1 => ?_)) ?_)
  · split
    · refine memWf_failMine (memWf_snd_foldl ht1 (fun _ _ ht2 => ?_))
      split
      · exact ht2
      · exact memWf_takeShard ht2
    · refine memWf_dataDone (memWf_snd_foldl ht1 (fun _ _ ht2 => ?_))
      split
      · exact ht2
      · exact memWf_takeShard ht2
  · split
    · refine memWf_failMine (memWf_snd_foldl ht (fun _ _ ht1 => ?_))
      split
      · exact ht1
      · exact memWf_takeShard ht1
    · refine memWf_dataDone (memWf_snd_foldl ht (fun _ _ ht1 => ?_))
      split
      · exact ht1
      · exact memWf_takeShard ht1

theorem memWf_fxAllGather {ins : List MemberIn} {r : CollRun} {s : State} (h : s.memWf = true) :
    (fxAllGather ins r s).memWf = true := by
  unfold fxAllGather
  refine memWf_ite h (memWf_ite (memWf_gatherGo h) (memWf_ite (memWf_failMine h) (memWf_withBytes h (fun _ _ ht => ?_))))
  split
  · exact memWf_modRun ht
  · exact memWf_gatherGo ht
  · exact memWf_gatherGo ht

@[simp] theorem keepsForm_execAllGather {k : CollKey} {ins : List MemberIn} {s : State} (h : s.memWf = true) :
    KeepsForm (execAllGather k ins s) := keepsForm_onCtx (memWf_onOp h (fun _ _ ht => memWf_fxAllGather ht))

theorem memWf_fxShardHeaderRelease {r : CollRun} {s : State} (h : s.memWf = true) : (fxShardHeaderRelease r s).memWf = true :=
  memWf_ite h (memWf_withBytes h (fun _ _ ht => memWf_ite ht (memWf_modRun ht)))

@[simp] theorem keepsForm_execShardHeaderRelease {k : CollKey} {s : State} (h : s.memWf = true) :
    KeepsForm (execShardHeaderRelease k s) := keepsForm_onCtx (memWf_onOp h (fun _ _ ht => memWf_fxShardHeaderRelease ht))

theorem memWf_takeBlock {s : State} {r : CollRun} {va : Nat} {xs : List (Nat × Bool)} (h : s.memWf = true) :
    (s.takeBlock r va xs).2.memWf = true := memWf_writeElems (memWf_collOverflow h)

theorem memWf_takeBlocks {s : State} {r : CollRun} {bs : List (Nat × List (Nat × Bool))} (h : s.memWf = true) :
    (s.takeBlocks r bs).2.memWf = true := by
  unfold State.takeBlocks
  refine memWf_snd_foldl h (fun _ _ ht => ?_)
  split
  · exact ht
  · exact memWf_takeBlock ht

theorem memWf_exchange {s : State} {r : CollRun} {bs : List (Nat × List (Nat × Bool))} {own : List (List (Nat × Bool))}
    {chunks : Nat} {sends : List SentChunk} (h : s.memWf = true) : (s.exchange r bs own chunks sends).memWf = true := by
  unfold State.exchange
  extract_lets r1
  have h1 : r1.2.memWf = true := memWf_takeBlocks h
  split
  · exact memWf_failMine h1
  · exact memWf_dataDone h1

theorem memWf_fxAllToAll {ins : List MemberIn} {r : CollRun} {s : State} (h : s.memWf = true) : (fxAllToAll ins r s).memWf = true :=
  memWf_ite h (memWf_withElems h (fun _ _ ht => memWf_exchange ht))

@[simp] theorem keepsForm_execAllToAll {k : CollKey} {ins : List MemberIn} {s : State} (h : s.memWf = true) :
    KeepsForm (execAllToAll k ins s) := keepsForm_onCtx (memWf_onOp h (fun _ _ ht => memWf_fxAllToAll ht))

theorem memWf_fxAllToAllv {ins : List MemberIn} {r : CollRun} {s : State} (h : s.memWf = true) :
    (fxAllToAllv ins r s).memWf = true := by
  unfold fxAllToAllv
  refine memWf_ite h (memWf_withBytes h (fun _ _ ht => memWf_withBytes ht
    (fun _ _ ht1 => memWf_withBytes ht1 (fun _ _ ht2 => memWf_withBytes ht2 (fun _ _ ht3 => memWf_ite (memWf_failMine ht3) ?_)))))
  extract_lets r1
  have h1 : r1.2.memWf = true := memWf_readBlocks ht3
  split
  · exact memWf_failMine h1
  · exact memWf_exchange h1

@[simp] theorem keepsForm_execAllToAllv {k : CollKey} {ins : List MemberIn} {s : State} (h : s.memWf = true) :
    KeepsForm (execAllToAllv k ins s) := keepsForm_onCtx (memWf_onOp h (fun _ _ ht => memWf_fxAllToAllv ht))

theorem memWf_fxBroadcast {ins : List MemberIn} {r : CollRun} {s : State} (h : s.memWf = true) :
    (fxBroadcast ins r s).memWf = true :=
  memWf_ite h (memWf_ite (memWf_withElems h (fun _ _ ht => memWf_exchange ht)) (memWf_ite h (memWf_exchange h)))

@[simp] theorem keepsForm_execBroadcast {k : CollKey} {ins : List MemberIn} {s : State} (h : s.memWf = true) :
    KeepsForm (execBroadcast k ins s) := keepsForm_onCtx (memWf_onOp h (fun _ _ ht => memWf_fxBroadcast ht))

theorem memWf_addChunk {s : State} {r : CollRun} {i : Nat} {xs : List (Nat × Bool)} (h : s.memWf = true) :
    (s.addChunk r i xs).2.2.2.memWf = true := by
  refine memWf_snd3_foldl h fun y e hy => ?_
  split
  · exact hy
  · split
    · exact memWf_noteCmd hy
    · extract_lets tail
      split
      · next hf => exact memWf_form_sent hy hf
      · next hf => exact memWf_form_noRoute hy hf
      · exact hy

theorem memWf_fxAccumulate {r : CollRun} {s : State} (h : s.memWf = true) : (fxAccumulate r s).memWf = true := by
  unfold fxAccumulate
  refine memWf_ite h (memWf_withElems h (fun _ _ ht => ?_))
  extract_lets r1 t2
  have h1 : r1.2.2.2.memWf = true := memWf_addChunk ht
  have h2 : t2.memWf = true := memWf_collProgress (memWf_modRun h1)
  split
  · exact memWf_failMine h1
  · exact memWf_ite (memWf_dataDone h2) h2

@[simp] theorem keepsForm_execAccumulate {k : CollKey} {s : State} (h : s.memWf = true) : KeepsForm (execAccumulate k s) :=
  keepsForm_onCtx (memWf_onOp h (fun _ _ ht => memWf_fxAccumulate ht))

theorem memWf_sendNotices {s : State} {r : CollRun} {i : Nat} (h : s.memWf = true) : (s.sendNotices r i).memWf = true := by
  unfold State.sendNotices
  refine memWf_foldl h (fun _ _ ht => ?_)
  split
  · exact memWf_mgmt ht
  · exact ht

theorem memWf_raiseEpoch {s : State} {r : CollRun} (h : s.memWf = true) : (s.raiseEpoch r).memWf = true :=
  memWf_settleRun (memWf_modRun (memWf_takeEarly
    (memWf_foldl (memWf_modCtx h) (fun _ _ ht => memWf_ite (memWf_epochFails (memWf_dropRun ht))
    (memWf_beginRun (memWf_modRun ht))))))

theorem memWf_fenceGo {s : State} {k : CollKey} {fuel : Nat} (h : s.memWf = true) : (s.fenceGo k fuel).memWf = true := by
  induction fuel generalizing s with
  | zero => exact h
  | succ fuel ih =>
    simp only [State.fenceGo]
    split
    · exact h
    · exact memWf_ite h (memWf_ite (memWf_raiseEpoch h) (memWf_ite (ih (memWf_modRun (memWf_sendNotices h))) h))

theorem memWf_fxReshard {r : CollRun} {s : State} (h : s.memWf = true) : (fxReshard r s).memWf = true :=
  memWf_ite h (memWf_fenceGo (memWf_collProgress (memWf_modRun (memWf_sendNotices h))))

@[simp] theorem keepsForm_execReshard {k : CollKey} {s : State} (h : s.memWf = true) : KeepsForm (execReshard k s) :=
  keepsForm_onCtx (memWf_onOp h (fun _ _ ht => memWf_fxReshard ht))

theorem memWf_fxFenceNotice {k : CollKey} {m : Nat} {s : State} (h : s.memWf = true) : (fxFenceNotice k m s).memWf = true := by
  unfold fxFenceNotice
  refine memWf_ite h ?_
  split
  · exact memWf_frame h rfl rfl
  · exact memWf_ite (memWf_frame h rfl rfl) (memWf_ite h (memWf_fenceGo (memWf_collProgress (memWf_modRun h))))

@[simp] theorem keepsForm_execFenceNotice {k : CollKey} {member : Nat} {s : State} (h : s.memWf = true) :
    KeepsForm (execFenceNotice k member s) := keepsForm_onCtx (memWf_fxFenceNotice h)

theorem memWf_fxChunkResend {k : CollKey} {x : ChunkRef} {r : CollRun} {s : State} (h : s.memWf = true) :
    (fxChunkResend k x r s).memWf = true := by
  unfold fxChunkResend
  split
  · exact h
  · exact memWf_dieEvent (memWf_sendPackets (memWf_modRun h))

@[simp] theorem keepsForm_execChunkResend {k : CollKey} {x : ChunkRef} {s : State} (h : s.memWf = true) :
    KeepsForm (execChunkResend k x s) := keepsForm_onCtx (memWf_onRun h (fun _ _ ht => memWf_fxChunkResend ht))

@[simp] theorem keepsForm_execChunkTimeout {k : CollKey} {x : ChunkRef} {s : State} (h : s.memWf = true) :
    KeepsForm (execChunkTimeout k x s) := keepsForm_onCtx (memWf_onRun h (fun _ _ ht => memWf_ite (memWf_failMine ht) ht))

theorem memWf_fxProgressSend {k : CollKey} {r : CollRun} {s : State} (h : s.memWf = true) : (fxProgressSend k r s).memWf = true :=
  memWf_ite h (memWf_modRun (memWf_foldl h (fun _ _ ht => memWf_tellMember ht)))

@[simp] theorem keepsForm_execProgressSend {k : CollKey} {s : State} (h : s.memWf = true) : KeepsForm (execProgressSend k s) :=
  keepsForm_onCtx (memWf_onRun h (fun _ _ ht => memWf_fxProgressSend ht))

/-! ## The update engine -/

theorem memWf_noteHeld {s : State} {r : CollRun} (h : s.memWf = true) : (s.noteHeld r).memWf = true := memWf_modCtx h

theorem memWf_tensor {s : State} {r : CollRun} {need : Bool} {va t lo n : Nat} (h : s.memWf = true) :
    (s.tensor r need va t lo n).2.memWf = true := memWf_snd_ite (memWf_readElems h) h

theorem memWf_markBusy {s : State} {r : CollRun} {u : UpdRun} (h : s.memWf = true) : (s.markBusy r u).memWf = true :=
  memWf_ite h (memWf_modRun (memWf_ite h (memWf_collPut h)))

theorem memWf_oldBytes {s : State} {r : CollRun} {d : Dest} {lo n : Nat} (h : s.memWf = true) :
    (s.oldBytes r d lo n).2.memWf = true := memWf_collSlow (memWf_vaRead h)

theorem memWf_writeDest {s : State} {r : CollRun} {u : UpdRun} {d : Dest} {lo : Nat} {xs : List (Nat × Bool)} (h : s.memWf = true) :
    (s.writeDest r u d lo xs).2.memWf = true := memWf_modRun (memWf_writeElems (memWf_snd_ite (memWf_oldBytes h) h))

theorem memWf_runChunk {s : State} {r : CollRun} {u : UpdRun} {i : Nat} {g : List (Nat × Bool)} (h : s.memWf = true) :
    (s.runChunk r u i g).memWf = true := by
  unfold State.runChunk
  extract_lets b sp n outCopy tw ts td
  have hw : tw.2.memWf = true := memWf_tensor h
  have hs : ts.2.memWf = true := memWf_snd_foldl hw fun y k hy => by
    split
    · exact memWf_snd_mk hy
    · extract_lets e
      split <;> exact memWf_snd_mk (memWf_tensor hy)
  have hd : td.2.memWf = true := memWf_tensor hs
  split
  · extract_lets out col z ovs _ _ s2 _ s3 _ s4
    have hz : z.2.memWf = true := memWf_snd_foldl (memWf_snd_mk (memWf_markBusy hd)) fun y d hy => by
      split
      · exact hy
      · exact memWf_writeDest hy
    have h2 : s2.memWf = true := memWf_ite hz (memWf_modCmd (memWf_dieEvent (memWf_frame hz rfl rfl)))
    have h3 : s3.memWf = true := memWf_ite (memWf_noteCmd (memWf_frame h2 rfl rfl)) h2
    have h4 : s4.memWf = true := memWf_dieEvent (memWf_frame h3 rfl rfl)
    split
    · exact memWf_failMine (memWf_sendDeltas h4)
    · exact memWf_collProgress (memWf_sendDeltas (memWf_modRun h4))
  · exact memWf_failMine hd
  · exact memWf_failMine hd
  · exact memWf_failMine hd

theorem memWf_bufferChunk {s : State} {r : CollRun} {u : UpdRun} {i : Nat} {g : List (Nat × Bool)} (h : s.memWf = true) :
    (s.bufferChunk r u i g).memWf = true :=
  memWf_putElems h (fun _ ht => memWf_collProgress (memWf_collPoison (memWf_frame ht rfl rfl)))

theorem memWf_fxUpdateChunk {i : Nat} {r : CollRun} {s : State} (h : s.memWf = true) : (fxUpdateChunk i r s).memWf = true := by
  unfold fxUpdateChunk
  split
  · exact h
  · exact memWf_ite h (memWf_ite (memWf_bufferChunk h) (memWf_ite (memWf_noteHeld h) (memWf_runChunk h)))

@[simp] theorem keepsForm_execUpdateChunk {k : CollKey} {chunk : Nat} {s : State} (h : s.memWf = true) :
    KeepsForm (execUpdateChunk k chunk s) := keepsForm_onCtx (memWf_onRun h (fun _ _ ht => memWf_fxUpdateChunk ht))

@[simp] theorem keepsForm_execUpdateHoldRelease {k : CollKey} {s : State} (h : s.memWf = true) :
    KeepsForm (execUpdateHoldRelease k s) :=
  keepsForm_onCtx (memWf_onRun h (fun _ _ ht => memWf_ite (memWf_takeEarly (memWf_takeEntry ht)) ht))

theorem memWf_modUpd {s : State} {k : CollKey} {g : UpdRun → UpdRun} (h : s.memWf = true) : (s.modUpd k g).memWf = true :=
  memWf_modRun h

theorem memWf_exchangeNorm {s : State} {us : List (CollRun × UpdRun)} {ranks : List Nat} (h : s.memWf = true) :
    (s.exchangeNorm us ranks).memWf = true := by
  unfold State.exchangeNorm
  split
  · exact h
  · refine memWf_ite (memWf_foldl (memWf_foldl (memWf_ite (memWf_foldl h (fun _ _ ht => memWf_ite ht ?_)) h)
      (fun _ _ ht => memWf_modUpd ht)) (fun _ _ ht => memWf_modUpd (memWf_putEntry ht)))
      (memWf_foldl (memWf_ite (memWf_foldl h (fun _ _ ht => memWf_ite ht ?_)) h) (fun _ _ ht => memWf_modUpd ht))
    · split
      · exact memWf_mgmt ht
      · exact ht
    · split
      · exact memWf_mgmt ht
      · exact ht

theorem memWf_normSet {s : State} {r : CollRun} {n : Nat} (h : s.memWf = true) : (s.normSet r n).2.memWf = true := by
  unfold State.normSet
  extract_lets r1
  have h1 : r1.2.memWf = true := memWf_rdCmd h
  split
  · exact h1
  · refine memWf_snd_ite h1 ?_
    extract_lets r2
    have h2 : r2.2.memWf = true := memWf_rdCmd h1
    split <;> exact h2

theorem memWf_normGo {s : State} {k : CollKey} (h : s.memWf = true) : (s.normGo k).memWf = true := by
  unfold State.normGo
  split
  · exact h
  · split
    · exact h
    · refine memWf_ite h (memWf_ite (memWf_exchangeNorm h) ?_)
      extract_lets r1
      have h1 : r1.2.memWf = true := memWf_normSet h
      split
      · exact memWf_failMine h1
      · exact memWf_ite h1 (memWf_exchangeNorm h1)

theorem memWf_fxPhase1Done {r : CollRun} {s : State} (h : s.memWf = true) : (fxPhase1Done r s).memWf = true := by
  unfold fxPhase1Done
  split
  · exact h
  · refine memWf_ite h ?_
    extract_lets t hd p _ t2
    have ht : t.memWf = true := memWf_putEntry h
    exact memWf_normGo (memWf_modUpd (memWf_ite ht (memWf_withPen ht)))

@[simp] theorem keepsForm_execPhase1Done {k : CollKey} {s : State} (h : s.memWf = true) : KeepsForm (execPhase1Done k s) :=
  keepsForm_onCtx (memWf_onRun h (fun _ _ ht => memWf_fxPhase1Done ht))

theorem memWf_fxNormExchange {k : CollKey} {m : Nat} {v : BitVec 64} {r : CollRun} {s : State} (h : s.memWf = true) :
    (fxNormExchange k m v r s).memWf = true := memWf_ite h (memWf_normGo (memWf_collProgress (memWf_modUpd h)))

@[simp] theorem keepsForm_execNormExchange {k : CollKey} {member : Nat} {norm : BitVec 64} {s : State} (h : s.memWf = true) :
    KeepsForm (execNormExchange k member norm s) := keepsForm_onCtx (memWf_onRun h (fun _ _ ht => memWf_fxNormExchange ht))

theorem memWf_engineStrike {s : State} {k : CollKey} {h : Nat} (hs : s.memWf = true) : (s.engineStrike k h).2.memWf = true := by
  unfold State.engineStrike
  extract_lets _ _ r1
  have h1 : r1.2.memWf = true := memWf_penEntry hs
  split
  · exact memWf_stale h1
  · exact memWf_snd_ite (memWf_stale h1) (memWf_snd_ite (memWf_setSlot h1) (memWf_setSlot h1))

theorem memWf_phase2Go {s : State} {r : CollRun} (h : s.memWf = true) : (s.phase2Go r).memWf = true := by
  unfold State.phase2Go
  refine memWf_modUpd (memWf_foldl h (fun _ _ ht => ?_))
  split
  · exact ht
  · exact memWf_withElems ht (fun _ _ ht1 => memWf_runChunk ht1)

theorem memWf_fxPhase2Start {r : CollRun} {s : State} (h : s.memWf = true) : (fxPhase2Start r s).memWf = true := by
  unfold fxPhase2Start
  split
  · exact h
  · refine memWf_ite h (memWf_ite (memWf_noteHeld h) (memWf_ite (memWf_modUpd h) (memWf_ite ?_ (memWf_phase2Go h))))
    split
    · exact h
    · exact memWf_phase2Go h
    · exact memWf_failMine h
    · extract_lets r1
      have h1 : r1.2.memWf = true := memWf_engineStrike h
      split
      · exact memWf_modUpd h1
      · exact memWf_failMine h1
      · exact memWf_phase2Go h1

@[simp] theorem keepsForm_execPhase2Start {k : CollKey} {s : State} (h : s.memWf = true) : KeepsForm (execPhase2Start k s) :=
  keepsForm_onCtx (memWf_onRun h (fun _ _ ht => memWf_fxPhase2Start ht))

theorem memWf_putEnd {s : State} {r : CollRun} {va : Nat} {bs : List Byte} {go : State → State} (h : s.memWf = true)
    (hgo : ∀ t, t.memWf = true → (go t).memWf = true) : (s.putEnd r va bs go).memWf = true :=
  memWf_ite (memWf_failMine (memWf_collSlow (memWf_metCmd (memWf_vaWrite h))))
    (memWf_ite (memWf_failMine (memWf_collSlow (memWf_metCmd (memWf_vaWrite h))))
    (hgo _ (memWf_collSlow (memWf_metCmd (memWf_vaWrite h)))))

theorem memWf_fxUpdateComplete {r : CollRun} {s : State} (h : s.memWf = true) : (fxUpdateComplete r s).memWf = true := by
  unfold fxUpdateComplete
  extract_lets t1
  have h1 : t1.memWf = true := memWf_sendDeltas h
  split
  · exact h1
  · split
    · exact h1
    · exact memWf_ite h1 (memWf_ite (memWf_settleRun (memWf_modRun (memWf_failHeader h1)))
        (memWf_ite (memWf_putEnd h1 (fun _ ht => memWf_settleRun (memWf_modRun ht)))
        (memWf_putEnd h1 (fun _ ht => memWf_putEnd ht (fun _ ht1 => memWf_settleRun (memWf_modRun ht1))))))

@[simp] theorem keepsForm_execUpdateComplete {k : CollKey} {s : State} (h : s.memWf = true) : KeepsForm (execUpdateComplete k s) :=
  keepsForm_onCtx (memWf_onRun h (fun _ _ ht => memWf_fxUpdateComplete ht))

theorem memWf_flushBlock {s : State} {die : Nat} {p : ParBlock} (h : s.memWf = true) : (s.flushBlock die p).memWf = true := by
  unfold State.flushBlock
  extract_lets l _ s1 lo hi va old new w z
  have h1 : s1.memWf = true := memWf_frame h rfl rfl
  have ho : old.2.memWf = true := memWf_vaRead h1
  have hz : z.2.memWf = true := memWf_snd_ite (memWf_snd_mk ho) (memWf_snd_ite (memWf_snd_mk ho) (memWf_snd_mk (memWf_vaWrite ho)))
  exact memWf_foldl hz fun _ _ ht => memWf_answer ht

theorem memWf_combineInto {s : State} {die c block : Nat} {pk : List Byte} {bs : List (Nat × Byte)} (h : s.memWf = true) :
    (s.combineInto die c block pk bs).memWf = true := by
  unfold State.combineInto
  refine memWf_frame (memWf_ite h ?_) rfl rfl
  split
  · exact h
  · exact memWf_flushBlock h

theorem memWf_fxParityDelta {port : Nat} {pk : List Byte} {s : State} (h : s.memWf = true) :
    (fxParityDelta port pk s).memWf = true :=
  memWf_ingress h (fun _ ht => memWf_ite (memWf_discard ht)
    (memWf_foldl (memWf_modCtx (memWf_wakeEngine ht)) (fun _ _ ht1 => memWf_combineInto ht1)))

@[simp] theorem keepsForm_execParityDelta {port : Nat} {pk : List Byte} {s : State} (h : s.memWf = true) :
    KeepsForm (execParityDelta port pk s) := keepsForm_onPortIn (memWf_fxParityDelta h)

theorem memWf_fxParityFlush {die i : Nat} {why : FlushCause} {s : State} (h : s.memWf = true) :
    (fxParityFlush die i why s).memWf = true := by
  unfold fxParityFlush
  split
  · exact h
  · exact memWf_ite h (memWf_flushBlock h)

@[simp] theorem keepsForm_execParityFlush {iod i : Nat} {why : FlushCause} {s : State} (h : s.memWf = true) :
    KeepsForm (execParityFlush iod i why s) := keepsForm_onIod (memWf_fxParityFlush h)

@[simp] theorem keepsForm_execPreconditionerFallback {c group : Nat} {s : State} (h : s.memWf = true) :
    KeepsForm (execPreconditionerFallback c group s) := by
  unfold execPreconditionerFallback
  apply keepsForm_onCtx
  refine memWf_ite h ?_
  extract_lets e t
  have ht : t.memWf = true := memWf_putEntry (memWf_vaRead h)
  exact memWf_dieEvent (memWf_withColl ht)

/-! ## Resets as shared operations -/

theorem memWf_killCore {s : State} {L : Nat} {st : Status} (h : s.memWf = true) : (s.killCore L st).memWf = true :=
  memWf_ite (memWf_rebind (memWf_killTask h)) (memWf_killTask h)

theorem memWf_killTasksOf {s : State} {c : Nat} (h : s.memWf = true) : (s.killTasksOf c).memWf = true :=
  memWf_foldl h (fun _ _ ht => memWf_ite (memWf_killCore (memWf_modCore ht (coreMemWf_frame (coreMemWf_core ht) rfl rfl)))
    (memWf_modCore ht (coreMemWf_frame (coreMemWf_core ht) rfl rfl)))

theorem memWf_emptySlot {s : State} {key : Nat} (h : s.memWf = true) : (s.emptySlot key).memWf = true := by
  unfold State.emptySlot
  refine memWf_setSlot ?_
  split
  · exact memWf_penEntry h
  · exact h

theorem memWf_emptySlots {s : State} {p : Slot → Bool} (h : s.memWf = true) : (s.emptySlots p).memWf = true :=
  memWf_foldl h (fun _ _ ht => memWf_emptySlot ht)

theorem memWf_penReset {s : State} {c : Nat} (h : s.memWf = true) : (s.penReset c).memWf = true :=
  memWf_emptySlots (memWf_frame h rfl rfl)

theorem memWf_dropReqs {s : State} {p : UmPath} (h : s.memWf = true) : (s.dropReqs p).memWf = true := memWf_frame h rfl rfl

theorem memWf_svcReset {s : State} {c : Nat} (h : s.memWf = true) : (s.svcReset c).memWf = true := memWf_dropReqs (memWf_modCtx h)

theorem memWf_mboxReset {s : State} (h : s.memWf = true) : s.mboxReset.memWf = true := memWf_dropReqs (memWf_frame h rfl rfl)

theorem memWf_mcReset {s : State} (h : s.memWf = true) : s.mcReset.memWf = true := memWf_frame h rfl rfl

theorem memWf_dropStuck {s : State} {c : Nat} (h : s.memWf = true) : (s.dropStuck c).memWf = true :=
  memWf_unstick (memWf_foldl (memWf_frame h rfl rfl) (fun _ _ ht => memWf_freeUnits ht))

theorem memWf_closeSessions {s : State} (h : s.memWf = true) : s.closeSessions.memWf = true := memWf_frame h rfl rfl

theorem memWf_ctxReset {s : State} {c : Nat} (h : s.memWf = true) : (s.ctxReset c).memWf = true := by
  unfold State.ctxReset
  exact memWf_closeSessions (memWf_svcReset (memWf_dropStuck
    (memWf_frame (memWf_penReset (memWf_killTasksOf (memWf_modCtx (memWf_foldl h (fun _ _ ht => memWf_failMine ht))))) rfl rfl)))

theorem coreMemWf_afterWarm {cs : CoreState} {L : Nat} (h : cs.memWf = true) : (cs.afterWarm L).memWf = true :=
  coreMemWf_frame h rfl rfl

theorem memWf_spoilCut {s : State} {c : Nat} (h : s.memWf = true) : (s.spoilCut c).memWf = true := by
  unfold State.spoilCut
  split
  · exact memWf_ite h (memWf_vaWrite h)
  · exact h

theorem memWf_warmReset {s : State} (h : s.memWf = true) : s.warmReset.memWf = true := by
  unfold State.warmReset
  extract_lets s1 _ s2 due _ _ _ _ _ _ _ _ s3 s4 s5
  have h1 : s1.memWf = true := memWf_foldl h fun _ _ ht => memWf_spoilCut ht
  have h2 : s2.memWf = true := memWf_emptySlots (memWf_withPen h1)
  clear_value s1 s2
  have h3 : s3.memWf = true := memWf_mapCores (g := fun L cs => cs.afterWarm L) h2 (fun _ _ hcs => coreMemWf_afterWarm hcs) rfl rfl
  have h4 : s4.memWf = true := memWf_foldl h3 fun _ _ ht => memWf_rebind ht
  have h5 : s5.memWf = true := memWf_mcReset h4
  split
  · exact memWf_tellCoord h5
  · exact h5

theorem memWf_coldReset {s : State} {cool : Bool} : (s.coldReset cool).memWf = true := rfl

theorem memWf_auxPower {s : State} {on : Bool} : (s.auxPower on).memWf = true := rfl

/-! ## Resets, pins and bring-up -/

@[simp] theorem keepsForm_execColdReset {cool : Bool} {s : State} (h : s.memWf = true) : KeepsForm (execColdReset cool s) :=
  keepsForm_next (memWf_ite memWf_coldReset h)

@[simp] theorem keepsForm_execWarmReset {s : State} (h : s.memWf = true) : KeepsForm (execWarmReset s) :=
  keepsForm_next (memWf_ite (memWf_warmReset h) h)

@[simp] theorem keepsForm_execContextReset {c : Nat} {s : State} (h : s.memWf = true) : KeepsForm (execContextReset c s) :=
  keepsForm_onCtx (memWf_ite (memWf_ctxReset h) h)

theorem memWf_fxFlr {fn : Nat} {s : State} (h : s.memWf = true) : (fxFlr fn s).memWf = true := by
  unfold fxFlr
  extract_lets s1
  have h1 : s1.memWf = true := memWf_foldl h fun _ _ ht => memWf_ctxReset ht
  exact memWf_ite h (memWf_ite (memWf_mboxReset (memWf_withSys h1)) (memWf_ite (memWf_ctxReset h) h))

@[simp] theorem keepsForm_execFlr {fn : Nat} {s : State} (h : s.memWf = true) : KeepsForm (execFlr fn s) :=
  keepsForm_onCtx (memWf_fxFlr h)

@[simp] theorem keepsForm_execVaux3p3Rise {s : State} (h : s.memWf = true) : KeepsForm (execVaux3p3Rise s) :=
  keepsForm_next (memWf_ite h memWf_auxPower)

@[simp] theorem keepsForm_execVaux3p3Loss {s : State} (_h : s.memWf = true) : KeepsForm (execVaux3p3Loss s) :=
  keepsForm_next memWf_auxPower

@[simp] theorem keepsForm_execVin48Rise {s : State} (h : s.memWf = true) : KeepsForm (execVin48Rise s) :=
  keepsForm_next (memWf_frame h rfl rfl)

@[simp] theorem keepsForm_execVin48Loss {s : State} (h : s.memWf = true) : KeepsForm (execVin48Loss s) :=
  keepsForm_next (memWf_frame (memWf_ite memWf_coldReset h) rfl rfl)

theorem memWf_fxModResetN {high : Bool} {did : BitVec 17} {node : BitVec 4} {test cool : Bool} {s : State} (h : s.memWf = true) :
    (fxModResetN high did node test cool s).memWf = true :=
  memWf_ite h (memWf_ite (memWf_frame (memWf_coldReset (s := s) (cool := cool)) rfl rfl) (memWf_ite h (memWf_frame h rfl rfl)))

@[simp] theorem keepsForm_execModResetN {high : Bool} {did : BitVec 17} {node : BitVec 4} {test cool : Bool} {s : State}
    (h : s.memWf = true) : KeepsForm (execModResetN high did node test cool s) := keepsForm_next (memWf_fxModResetN h)

theorem memWf_fxPerstN {high : Bool} {us : Nat} {s : State} (h : s.memWf = true) : (fxPerstN high us s).memWf = true :=
  memWf_ite (memWf_frame h rfl rfl) (memWf_ite (memWf_frame h rfl rfl)
    (memWf_ite (memWf_warmReset (memWf_frame h rfl rfl)) (memWf_frame h rfl rfl)))

@[simp] theorem keepsForm_execPerstN {high : Bool} {us : Nat} {s : State} (h : s.memWf = true) : KeepsForm (execPerstN high us s) :=
  keepsForm_next (memWf_fxPerstN h)

@[simp] theorem keepsForm_execWakeN {ns : Nat} {s : State} (h : s.memWf = true) : KeepsForm (execWakeN ns s) :=
  keepsForm_next (memWf_ite (memWf_wakeBy h) h)

@[simp] theorem keepsForm_execPcieLinkTraining {s : State} (h : s.memWf = true) : KeepsForm (execPcieLinkTraining s) :=
  keepsForm_next (memWf_ite (memWf_frame h rfl rfl) h)

@[simp] theorem keepsForm_execSriovNumvfs {n : Nat} {s : State} (h : s.memWf = true) : KeepsForm (execSriovNumvfs n s) :=
  keepsForm_next (memWf_ite (memWf_frame h rfl rfl) h)

@[simp] theorem keepsForm_execBar2Resize {pf : Bool} {gib : Nat} {s : State} (h : s.memWf = true) :
    KeepsForm (execBar2Resize pf gib s) :=
  keepsForm_next (memWf_ite h (memWf_ite (memWf_ite (memWf_frame h rfl rfl) h) (memWf_ite (memWf_frame h rfl rfl) h)))

theorem memWf_startSlot {s : State} {n : Nat} (h : s.memWf = true) : (s.startSlot n).memWf = true := memWf_frame h rfl rfl

theorem memWf_rejectSlot {s : State} {n : Nat} (h : s.memWf = true) : (s.rejectSlot n).memWf = true := memWf_frame h rfl rfl

theorem memWf_toRecoveryBoot {s : State} (h : s.memWf = true) : s.toRecoveryBoot.memWf = true := memWf_frame h rfl rfl

theorem memWf_fxSecureBoot {s : State} (h : s.memWf = true) : (fxSecureBoot s).memWf = true :=
  memWf_ite h (memWf_ite (memWf_startSlot h)
    (memWf_ite (memWf_startSlot (memWf_rejectSlot h)) (memWf_toRecoveryBoot (memWf_rejectSlot (memWf_rejectSlot h)))))

@[simp] theorem keepsForm_execSecureBoot {s : State} (h : s.memWf = true) : KeepsForm (execSecureBoot s) :=
  keepsForm_next (memWf_fxSecureBoot h)

theorem memWf_loadConfig {s : State} (h : s.memWf = true) : s.loadConfig.memWf = true := memWf_frame h rfl rfl

theorem memWf_lockPlls {s : State} {ok : Bool} (h : s.memWf = true) : (s.lockPlls ok).memWf = true :=
  memWf_ite (memWf_frame h rfl rfl) (memWf_frame h rfl rfl)

theorem memWf_coreFails {s : State} {n : Nat} (h : s.memWf = true) : (s.coreFails n).memWf = true :=
  memWf_ite h (memWf_ite (memWf_frame h rfl rfl) (memWf_ite (memWf_rebind h) (memWf_enterSafeHold (memWf_rebind h))))

theorem memWf_selfTest {s : State} {fails : List Nat} (h : s.memWf = true) : (s.selfTest fails).memWf = true :=
  memWf_foldl h (fun _ _ ht => memWf_coreFails ht)

theorem memWf_laneRepair {s : State} {d : Nat} (h : s.memWf = true) : (s.laneRepair d).memWf = true :=
  memWf_logRebind (memWf_dieCtrAdd h)

theorem memWf_laneRepairs {s : State} {fails : List Nat} (h : s.memWf = true) : (s.laneRepairs fails).memWf = true :=
  memWf_foldl h (fun _ _ ht => memWf_laneRepair ht)

theorem memWf_trainStacks {s : State} {fails : List Nat} (h : s.memWf = true) : (s.trainStacks fails).memWf = true := by
  unfold State.trainStacks
  dsimp only
  split
  · exact memWf_enterSafeHold (memWf_foldl h (fun _ _ ht => memWf_failStack (memWf_modStk ht)))
  · split
    · exact memWf_ite (memWf_settleBypass (memWf_setStackState
        (memWf_frame (memWf_foldl h (fun _ _ ht => memWf_failStack (memWf_modStk ht))) rfl rfl)))
        (memWf_foldl h (fun _ _ ht => memWf_failStack (memWf_modStk ht)))
    · exact memWf_foldl h (fun _ _ ht => memWf_failStack (memWf_modStk ht))

theorem memWf_resumeStacks {s : State} (h : s.memWf = true) : s.resumeStacks.memWf = true :=
  memWf_restripeWrite (memWf_foldl h (fun _ _ ht => memWf_ite (memWf_settleBypass (memWf_toCatchUp ht)) ht))

theorem memWf_stepTrain {s : State} {fails : List Nat} (h : s.memWf = true) : (s.stepTrain fails).memWf = true :=
  memWf_ite (memWf_trainStacks h) (memWf_frame (memWf_ite (memWf_resumeStacks (memWf_trainStacks h)) (memWf_trainStacks h)) rfl rfl)

theorem memWf_stepFill {s : State} (h : s.memWf = true) : s.stepFill.memWf = true := by
  unfold State.stepFill
  split
  · exact h
  · exact memWf_iff.mpr ⟨rfl, (memWf_iff.mp h).2⟩

theorem memWf_fxBringUpStepEnd {b : BringStep} {fails : List Nat} {s : State} (h : s.memWf = true) :
    (fxBringUpStepEnd b fails s).memWf = true := by
  unfold fxBringUpStepEnd
  extract_lets _ t1 t2
  have h1 : t1.memWf = true := memWf_laneRepairs h
  have h2 : t2.memWf = true := memWf_ite h1 (memWf_selfTest h1)
  refine memWf_ite h ?_
  split
  · exact memWf_ite (memWf_frame h rfl rfl) h
  · exact memWf_ite (memWf_loadConfig (memWf_frame h rfl rfl)) h
  · exact memWf_ite (memWf_lockPlls h) h
  · exact memWf_ite (memWf_ite h2 (memWf_frame h2 rfl rfl)) h
  · exact memWf_ite (memWf_stepTrain h) h
  · exact memWf_ite (memWf_stepFill h) h
  · exact memWf_ite (memWf_frame h rfl rfl) h
  · exact memWf_ite (memWf_frame h rfl rfl) h

@[simp] theorem keepsForm_execBringUpStepEnd {step : BringStep} {fails : List Nat} {s : State} (h : s.memWf = true) :
    KeepsForm (execBringUpStepEnd step fails s) := keepsForm_next (memWf_fxBringUpStepEnd h)

@[simp] theorem keepsForm_execRefclkRetry {ok : Bool} {s : State} (h : s.memWf = true) : KeepsForm (execRefclkRetry ok s) :=
  keepsForm_next (memWf_ite (memWf_lockPlls h) h)

@[simp] theorem keepsForm_execMcClockSwitch {s : State} (h : s.memWf = true) : KeepsForm (execMcClockSwitch s) :=
  keepsForm_next (memWf_ite (memWf_frame h rfl rfl) h)

theorem memWf_fxPllLockLoss {die : Nat} {s : State} (h : s.memWf = true) : (fxPllLockLoss die s).memWf = true :=
  memWf_ite (memWf_ite (memWf_frame h rfl rfl) (memWf_ite (memWf_enterSafeHold (memWf_frame h rfl rfl)) (memWf_frame h rfl rfl))) h

@[simp] theorem keepsForm_execPllLockLoss {die : Nat} {s : State} (h : s.memWf = true) : KeepsForm (execPllLockLoss die s) :=
  keepsForm_ite (keepsForm_next (memWf_fxPllLockLoss h)) (keepsForm_onDie (memWf_fxPllLockLoss h))

theorem memWf_fxDieLinkFailure {cd iod : Nat} {s : State} (h : s.memWf = true) : (fxDieLinkFailure cd iod s).memWf = true :=
  memWf_ite h (memWf_ite (memWf_enterSafeHold (memWf_logRebind (memWf_frame h rfl rfl))) (memWf_logRebind (memWf_frame h rfl rfl)))

@[simp] theorem keepsForm_execDieLinkFailure {cd iod : Nat} {s : State} (h : s.memWf = true) :
    KeepsForm (execDieLinkFailure cd iod s) := keepsForm_onCd (memWf_ite (memWf_fxDieLinkFailure h) h)

@[simp] theorem keepsForm_execControlCheckFailure {unit : Nat} {lost : Bool} {s : State} (h : s.memWf = true) :
    KeepsForm (execControlCheckFailure unit lost s) := keepsForm_onDie (memWf_ite (memWf_enterSafeHold h) h)

/-! ## The hang dump -/

theorem memWf_dumpQueues {s : State} (h : s.memWf = true) : s.dumpQueues.2.memWf = true :=
  memWf_snd_foldl h (fun _ _ ht => memWf_snd_foldl ht (fun _ _ ht1 => memWf_free ht1))

theorem memWf_fxHangDumpComplete {s : State} (h : s.memWf = true) : (fxHangDumpComplete s).memWf = true := by
  unfold fxHangDumpComplete
  extract_lets q body secs all t crc t2
  have h2 : t2.memWf = true := memWf_memWrite (memWf_dumpQueues h)
  exact memWf_ite h (memWf_event (memWf_withObs h2))

@[simp] theorem keepsForm_execHangDumpComplete {s : State} (h : s.memWf = true) : KeepsForm (execHangDumpComplete s) :=
  keepsForm_next (memWf_fxHangDumpComplete h)

@[simp] theorem keepsForm_execHangDumpTrigger {cause : Nat} {s : State} (h : s.memWf = true) :
    KeepsForm (execHangDumpTrigger cause s) := keepsForm_next (memWf_ite (memWf_dump h) h)

/-! ## Timeouts and kills -/

theorem memWf_dropCmdPen {s : State} {k : CmdKey} (h : s.memWf = true) : (s.dropCmdPen k).memWf = true := memWf_frame h rfl rfl

theorem memWf_discardTasks {s : State} {k : CmdKey} (h : s.memWf = true) : (s.discardTasks k).memWf = true :=
  memWf_foldl h (fun _ _ ht => memWf_modCmd (memWf_modCore ht (coreMemWf_frame (coreMemWf_core ht) rfl rfl)))

theorem memWf_killCmd {s : State} {k : CmdKey} {st : Status} (h : s.memWf = true) : (s.killCmd k st).memWf = true := by
  unfold State.killCmd
  split
  · exact h
  · exact memWf_ite h (memWf_modCmd (memWf_foldl
      (memWf_discardTasks (memWf_dropCmdPen (memWf_foldl (memWf_modCmd h) (fun _ _ ht => memWf_failMine ht))))
      (fun _ _ ht => memWf_killCore ht)))

theorem memWf_legacyRecords {s : State} {k : CmdKey} (h : s.memWf = true) : (s.legacyRecords k).memWf = true :=
  memWf_foldl h (fun _ _ ht => memWf_foldl ht (fun _ _ ht1 => memWf_writeRecord ht1))

theorem memWf_legacyReset {s : State} {k : CmdKey} (h : s.memWf = true) : (s.legacyReset k).memWf = true :=
  memWf_foldl (memWf_foldl (memWf_warmReset (memWf_fxHangDumpComplete
    (memWf_dump (memWf_foldl (memWf_legacyRecords h) (fun _ _ ht => memWf_failHeader ht))))) (fun _ _ ht => memWf_modCtx ht))
    (fun _ _ ht => memWf_emit ht)

theorem memWf_spoilCopy {s : State} {m : Cmd} (h : s.memWf = true) : (s.spoilCopy m).memWf = true :=
  memWf_ite h (memWf_vaScramble h)

theorem memWf_drainTasks {s : State} {k : CmdKey} (h : s.memWf = true) : (s.drainTasks k).memWf = true :=
  memWf_foldl h (fun _ _ ht => memWf_settle (memWf_modCore ht (coreMemWf_frame (coreMemWf_stop (coreMemWf_core ht)) rfl rfl)))

theorem memWf_expire {s : State} {m : Cmd} (h : s.memWf = true) : (s.expire m).memWf = true := by
  unfold State.expire
  extract_lets _ t1 t2 t3 t4 t5
  have h1 : t1.memWf = true := memWf_modCmd (memWf_dump h)
  have h2 : t2.memWf = true := memWf_spoilCopy h1
  have h3 : t3.memWf = true := memWf_ite (memWf_dropCmdPen h2) h2
  have h4 : t4.memWf = true := memWf_drainTasks (memWf_discardTasks h3)
  have h5 : t5.memWf = true := memWf_foldl h4 (fun _ _ ht => memWf_failMine ht)
  exact memWf_ite h4 (memWf_progress (memWf_modCmd h5))

@[simp] theorem keepsForm_execCommandTimeout {k : CmdKey} {s : State} (h : s.memWf = true) :
    KeepsForm (execCommandTimeout k s) := by
  unfold execCommandTimeout
  refine keepsForm_onKey ?_
  split
  · exact h
  · exact memWf_ite h (memWf_ite (memWf_legacyReset h) (memWf_expire h))

theorem memWf_notDrained {s : State} {k : CmdKey} (h : s.memWf = true) : (s.notDrained k).memWf = true := memWf_modCmd h

@[simp] theorem keepsForm_execCommandDrainExpiry {k : CmdKey} {s : State} (h : s.memWf = true) :
    KeepsForm (execCommandDrainExpiry k s) := by
  unfold execCommandDrainExpiry
  refine keepsForm_onKey ?_
  split
  · exact h
  · exact memWf_ite (memWf_notDrained (memWf_killCmd h)) h

theorem memWf_fxTaskTimeout {L : Nat} {s : State} (h : s.memWf = true) : (fxTaskTimeout L s).memWf = true := by
  unfold fxTaskTimeout
  extract_lets c1 c2
  have h1 : c1.memWf = true := coreMemWf_core h
  have h2 : c2.memWf = true := coreMemWf_ite (coreMemWf_condition h1) (coreMemWf_stop h1)
  split
  · exact h
  · exact memWf_ite h (memWf_ite (memWf_legacyReset h) (memWf_settle (memWf_setCore (memWf_dump h) (coreMemWf_frame h2 rfl rfl))))

@[simp] theorem keepsForm_execTaskTimeout {core : Nat} {s : State} (h : s.memWf = true) : KeepsForm (execTaskTimeout core s) :=
  keepsForm_onCore (memWf_fxTaskTimeout h)

theorem memWf_fxTaskDrainExpiry {L : Nat} {s : State} (h : s.memWf = true) : (fxTaskDrainExpiry L s).memWf = true := by
  unfold fxTaskDrainExpiry
  split
  · exact h
  · exact memWf_ite (memWf_notDrained (memWf_killCore h)) h

@[simp] theorem keepsForm_execTaskDrainExpiry {core : Nat} {s : State} (h : s.memWf = true) :
    KeepsForm (execTaskDrainExpiry core s) := keepsForm_onCore (memWf_fxTaskDrainExpiry h)

theorem memWf_cancelEnded {s : State} {k : CmdKey} (h : s.memWf = true) : (s.cancelEnded k).memWf = true := memWf_modCmd h

theorem memWf_fxRingDrainExpiry {c n : Nat} {s : State} (h : s.memWf = true) : (fxRingDrainExpiry c n s).memWf = true :=
  memWf_ite h (memWf_drainDone (memWf_modRing (memWf_foldl h (fun _ _ ht => memWf_cancelEnded (memWf_killCmd ht)))))

@[simp] theorem keepsForm_execRingDrainExpiry {c ring : Nat} {s : State} (h : s.memWf = true) :
    KeepsForm (execRingDrainExpiry c ring s) := keepsForm_onRing (memWf_fxRingDrainExpiry h)

/-! ## Access to the objects -/

theorem memWf_doAct {go : State → State} {s : State} (hgo : ∀ t, t.memWf = true → (go t).memWf = true) (h : s.memWf = true) :
    (doAct go s).2.memWf = true := hgo _ h

theorem memWf_answerTo {s : State} {p : UmPath} {detail : Nat} (h : s.memWf = true) : (s.answerTo p detail).memWf = true :=
  memWf_emit h

theorem memWf_umTry {s : State} {rq : Req} {idx sub v : Nat} {act : Act} (h : s.memWf = true)
    (hact : ∀ t : State, t.memWf = true → (act t).2.memWf = true) : (s.umTry rq idx sub v act).memWf = true := by
  unfold State.umTry
  refine memWf_ite h ?_
  split
  · exact memWf_answerTo h
  · exact memWf_answerTo (hact s h)

theorem memWf_umTryReset {s : State} {rq : Req} {idx sub v : Nat} {ok : State → Bool} {answered : Bool} {go : State → State}
    (h : s.memWf = true) (hgo : ∀ t, t.memWf = true → (go t).memWf = true) :
    (s.umTryReset rq idx sub v ok answered go).memWf = true := by
  unfold State.umTryReset
  refine memWf_ite h ?_
  split
  · exact memWf_answerTo h
  · exact memWf_ite (memWf_answerTo h) (memWf_ite (hgo _ (memWf_answerTo h)) (hgo _ h))

/-! ## Functions -/

theorem memWf_fnOn {s : State} {f : FuncId} (h : s.memWf = true) : (s.fnOn f).memWf = true := memWf_frame h rfl rfl

theorem memWf_fnDisable {s : State} {f : FuncId} (h : s.memWf = true) : (s.fnDisable f).memWf = true :=
  memWf_ite (memWf_frame h rfl rfl) (memWf_frame h rfl rfl)

theorem memWf_fnEnable {s : State} {f : FuncId} (h : s.memWf = true) : (s.fnEnable f).memWf = true :=
  memWf_ite (memWf_frame h rfl rfl) (memWf_fnOn h)

theorem memWf_settleDrains {s : State} (h : s.memWf = true) : s.settleDrains.memWf = true :=
  memWf_foldl h (fun _ _ ht => memWf_ite (memWf_ite (memWf_fnOn (memWf_frame ht rfl rfl)) (memWf_frame ht rfl rfl)) ht)

theorem memWf_fnKill {s : State} {f : FuncId} (h : s.memWf = true) : (s.fnKill f).memWf = true := by
  unfold State.fnKill
  split
  · exact memWf_foldl h (fun _ _ ht => memWf_failMine ht)
  · exact memWf_foldl h (fun _ _ ht => memWf_failMine ht)
  · exact memWf_foldl h (fun _ _ ht => memWf_failMine ht)
  · exact memWf_foldl h (fun _ _ ht => memWf_ite (memWf_settleBypass (memWf_toCatchUp ht)) ht)
  · exact memWf_frame h rfl rfl
  · exact memWf_frame h rfl rfl
  · exact h

@[simp] theorem keepsForm_execFunctionDisable {rq : Req} {f : FuncId} {s : State} (h : s.memWf = true) :
    KeepsForm (execFunctionDisable rq f s) :=
  keepsForm_next (memWf_ite (memWf_ite (memWf_answerTo h) h)
    (memWf_umTry h (fun _ ht => memWf_doAct (fun _ ht1 => memWf_fnDisable ht1) ht)))

@[simp] theorem keepsForm_execFunctionEnable {rq : Req} {f : FuncId} {s : State} (h : s.memWf = true) :
    KeepsForm (execFunctionEnable rq f s) :=
  keepsForm_next (memWf_ite (memWf_ite (memWf_answerTo h) h)
    (memWf_umTry h (fun _ ht => memWf_doAct (fun _ ht1 => memWf_fnEnable ht1) ht)))

theorem memWf_fxDisableDrainExpiry {f : FuncId} {s : State} (h : s.memWf = true) : (fxDisableDrainExpiry f s).memWf = true :=
  memWf_ite h (memWf_ite (memWf_fnOn (memWf_frame (memWf_fnKill h) rfl rfl)) (memWf_frame (memWf_fnKill h) rfl rfl))

@[simp] theorem keepsForm_execDisableDrainExpiry {f : FuncId} {s : State} (h : s.memWf = true) :
    KeepsForm (execDisableDrainExpiry f s) := keepsForm_next (memWf_fxDisableDrainExpiry h)

@[simp] theorem keepsForm_execFunctionMode {rq : Req} {f : FuncId} {v : Nat} {s : State} (h : s.memWf = true) :
    KeepsForm (execFunctionMode rq f v s) :=
  keepsForm_next (memWf_umTry h (fun _ ht => memWf_doAct (fun _ ht1 => memWf_setObj ht1) ht))

theorem memWf_gateRequest {s : State} (h : s.memWf = true) : s.gateRequest.memWf = true :=
  memWf_foldl h (fun _ _ ht => memWf_fxFetchIdleEntry ht)

theorem memWf_actRestripe {s : State} (h : s.memWf = true) : (actRestripe s).2.memWf = true := memWf_snd_ite (memWf_tryRestripe h) h

@[simp] theorem keepsForm_execMemRestripeStart {rq : Req} {v : Nat} {s : State} (h : s.memWf = true) :
    KeepsForm (execMemRestripeStart rq v s) := keepsForm_next (memWf_umTry h (fun _ ht => memWf_actRestripe ht))

/-! ## Stopping a job, safe hold and roles -/

theorem memWf_haltCtx {s : State} {c : Nat} (h : s.memWf = true) : (s.haltCtx c).memWf = true :=
  memWf_foldl (memWf_modCtx h) (fun _ _ ht => memWf_killCmd ht)

theorem memWf_halt {s : State} {m : Nat} (h : s.memWf = true) : (s.halt m).memWf = true :=
  memWf_ite h (memWf_foldl (memWf_dump (memWf_foldl (memWf_frame h rfl rfl) (fun _ _ ht => memWf_haltCtx ht)))
    (fun _ _ ht => memWf_mgmt ht))

@[simp] theorem keepsForm_execRbdHalt {rq : Req} {v : Nat} {s : State} (h : s.memWf = true) : KeepsForm (execRbdHalt rq v s) :=
  keepsForm_next (memWf_umTry h (fun _ ht => memWf_doAct (fun _ ht1 => memWf_halt ht1) ht))

@[simp] theorem keepsForm_execEmergencyHalt {mask : BitVec 17} {s : State} (h : s.memWf = true) :
    KeepsForm (execEmergencyHalt mask s) := keepsForm_next (memWf_ite (memWf_halt h) h)

theorem memWf_resume {s : State} {m : Nat} (h : s.memWf = true) : (s.resume m).memWf = true :=
  memWf_foldl h (fun _ _ ht => memWf_modCtx ht)

@[simp] theorem keepsForm_execRbdResume {rq : Req} {v : Nat} {s : State} (h : s.memWf = true) : KeepsForm (execRbdResume rq v s) :=
  keepsForm_next (memWf_umTry h (fun _ ht => memWf_doAct (fun _ ht1 => memWf_resume ht1) ht))

theorem memWf_epochStop {s : State} {v : Nat} (h : s.memWf = true) : (s.epochStop v).memWf = true := memWf_modCtx h

theorem memWf_actEpochStop {v : Nat} {s : State} (h : s.memWf = true) : (actEpochStop v s).2.memWf = true :=
  memWf_snd_ite h (memWf_snd_mk (memWf_tellAll (memWf_epochStop h)))

@[simp] theorem keepsForm_execRbdEpochStop {rq : Req} {v : Nat} {s : State} (h : s.memWf = true) :
    KeepsForm (execRbdEpochStop rq v s) := keepsForm_next (memWf_umTry h (fun _ ht => memWf_actEpochStop ht))

@[simp] theorem keepsForm_execRbdSafeHoldEnter {rq : Req} {v : Nat} {s : State} (h : s.memWf = true) :
    KeepsForm (execRbdSafeHoldEnter rq v s) :=
  keepsForm_next (memWf_umTry h (fun _ ht => memWf_doAct (fun _ ht1 => memWf_enterSafeHold ht1) ht))

@[simp] theorem keepsForm_execRbdSafeHoldExit {rq : Req} {v : Nat} {s : State} (h : s.memWf = true) :
    KeepsForm (execRbdSafeHoldExit rq v s) := keepsForm_next (memWf_umTryReset h (fun _ ht => memWf_warmReset ht))

@[simp] theorem keepsForm_execRbdWarmReset {rq : Req} {v : Nat} {s : State} (h : s.memWf = true) :
    KeepsForm (execRbdWarmReset rq v s) := keepsForm_next (memWf_umTryReset h (fun _ ht => memWf_warmReset ht))

@[simp] theorem keepsForm_execRbdColdReset {rq : Req} {v : Nat} {cool : Bool} {s : State} (h : s.memWf = true) :
    KeepsForm (execRbdColdReset rq v cool s) := keepsForm_next (memWf_umTryReset h (fun _ _ => memWf_coldReset))

theorem memWf_resetCtxs {s : State} {m : Nat} (h : s.memWf = true) : (s.resetCtxs m).memWf = true :=
  memWf_foldl h (fun _ _ ht => memWf_ctxReset ht)

@[simp] theorem keepsForm_execRbdContextReset {rq : Req} {v : Nat} {s : State} (h : s.memWf = true) :
    KeepsForm (execRbdContextReset rq v s) :=
  keepsForm_next (memWf_umTry h (fun _ ht => memWf_doAct (fun _ ht1 => memWf_resetCtxs ht1) ht))

theorem memWf_actRole {v : Nat} {s : State} (h : s.memWf = true) : (actRole v s).2.memWf = true :=
  memWf_snd_ite h (memWf_frame h rfl rfl)

@[simp] theorem keepsForm_execRbdRole {rq : Req} {v : Nat} {s : State} (h : s.memWf = true) : KeepsForm (execRbdRole rq v s) :=
  keepsForm_next (memWf_umTry h (fun _ ht => memWf_actRole ht))

theorem memWf_restartMc {s : State} (h : s.memWf = true) : s.restartMc.memWf = true := memWf_frame h rfl rfl

theorem memWf_fxMgmtWatchdogExpiry {s : State} (h : s.memWf = true) : (fxMgmtWatchdogExpiry s).memWf = true :=
  memWf_ite h (memWf_restartMc (memWf_event (memWf_ite (memWf_enterSafeHold (memWf_frame h rfl rfl)) (memWf_frame h rfl rfl))))

@[simp] theorem keepsForm_execMgmtWatchdogExpiry {s : State} (h : s.memWf = true) : KeepsForm (execMgmtWatchdogExpiry s) :=
  keepsForm_next (memWf_fxMgmtWatchdogExpiry h)

/-! ## Power -/

theorem coreMemWf_logicReset {cs : CoreState} (h : cs.memWf = true) : cs.logicReset.memWf = true := coreMemWf_frame h rfl rfl

theorem coreMemWf_wake {cs : CoreState} (h : cs.memWf = true) : cs.wake.memWf = true := coreMemWf_event (coreMemWf_frame h rfl rfl)

theorem memWf_fxCoreGateEntry {L : Nat} {acc : Option Nat} {s : State} (h : s.memWf = true) :
    (fxCoreGateEntry L acc s).memWf = true := by
  unfold fxCoreGateEntry
  refine memWf_ite h ?_
  split
  · exact memWf_modCore h (coreMemWf_frame (coreMemWf_core h) rfl rfl)
  · exact memWf_ite h (memWf_modCore h (coreMemWf_wake (coreMemWf_core h)))

@[simp] theorem keepsForm_execCoreGateEntry {core : Nat} {acc : Option Nat} {s : State} (h : s.memWf = true) :
    KeepsForm (execCoreGateEntry core acc s) := keepsForm_onCore (memWf_fxCoreGateEntry h)

@[simp] theorem keepsForm_execCoreWake {core : Nat} {s : State} (h : s.memWf = true) : KeepsForm (execCoreWake core s) :=
  keepsForm_onCore (memWf_ite (memWf_modCore h (coreMemWf_wake (coreMemWf_core h))) h)

@[simp] theorem keepsForm_execEngineGateEntry {iod : Nat} {s : State} (h : s.memWf = true) :
    KeepsForm (execEngineGateEntry iod s) := keepsForm_onIod (memWf_ite (memWf_frame h (by rfl) (by rfl)) h)

@[simp] theorem keepsForm_execEngineWake {iod : Nat} {s : State} (h : s.memWf = true) : KeepsForm (execEngineWake iod s) :=
  keepsForm_onIod (memWf_ite (memWf_wakeEngine h) h)

@[simp] theorem keepsForm_execStackSelfRefreshEntry {stack : Nat} {s : State} (h : s.memWf = true) :
    KeepsForm (execStackSelfRefreshEntry stack s) := keepsForm_onStack (memWf_ite (memWf_stkCtr (memWf_modStk h)) h)

@[simp] theorem keepsForm_execStackWake {stack : Nat} {s : State} (h : s.memWf = true) : KeepsForm (execStackWake stack s) :=
  keepsForm_onStack (memWf_ite (memWf_touch h) h)

theorem memWf_standby {s : State} (h : s.memWf = true) : s.standby.memWf = true :=
  memWf_foldl (memWf_foldl (memWf_foldl (memWf_frame h rfl rfl)
    (fun _ _ ht => memWf_modCore ht (coreMemWf_frame (coreMemWf_core ht) rfl rfl)))
    (fun _ _ ht => memWf_ite ht (memWf_stkCtr (memWf_modStk ht))))
    (fun _ _ ht => memWf_ite (memWf_setPortState (memWf_portCtr ht)) ht)

theorem memWf_standbyBegin {s : State} (h : s.memWf = true) : s.standbyBegin.memWf = true := memWf_frame h rfl rfl

theorem memWf_standbyEnd {s : State} (h : s.memWf = true) : s.standbyEnd.memWf = true := memWf_ite (memWf_standby h) h

@[simp] theorem keepsForm_execStandbyEntry {s : State} (h : s.memWf = true) : KeepsForm (execStandbyEntry s) :=
  keepsForm_next (memWf_ite (memWf_standbyBegin h) h)

theorem memWf_actStandby {s : State} (h : s.memWf = true) : (actStandby s).2.memWf = true := memWf_snd_ite (memWf_standbyBegin h) h

@[simp] theorem keepsForm_execPwrStandbyRequest {rq : Req} {v : Nat} {s : State} (h : s.memWf = true) :
    KeepsForm (execPwrStandbyRequest rq v s) := keepsForm_next (memWf_umTry h (fun _ ht => memWf_actStandby ht))

@[simp] theorem keepsForm_execPwrWakeRequest {rq : Req} {v : Nat} {s : State} (h : s.memWf = true) :
    KeepsForm (execPwrWakeRequest rq v s) :=
  keepsForm_next (memWf_umTry h (fun _ ht => memWf_doAct (fun _ ht1 => memWf_wakeBy ht1) ht))

theorem memWf_standbyExit {s : State} (h : s.memWf = true) : s.standbyExit.memWf = true :=
  memWf_startRetrain (memWf_mapCores (g := fun _ cs => cs.logicReset) h (fun _ _ hcs => coreMemWf_logicReset hcs) rfl rfl)

theorem memWf_fxStandbyWake {code : Nat} {s : State} (h : s.memWf = true) : (fxStandbyWake code s).memWf = true :=
  memWf_ite h (memWf_ite (memWf_standbyExit (memWf_wakeBy h)) (memWf_wakeBy h))

@[simp] theorem keepsForm_execStandbyWake {code : Nat} {s : State} (h : s.memWf = true) : KeepsForm (execStandbyWake code s) :=
  keepsForm_next (memWf_fxStandbyWake h)

@[simp] theorem keepsForm_execClkCoreDiv {rq : Req} {v : Nat} {s : State} (h : s.memWf = true) :
    KeepsForm (execClkCoreDiv rq v s) := keepsForm_next (memWf_umTry h (fun _ ht => memWf_doAct (fun _ ht1 => memWf_setObj ht1) ht))

theorem memWf_sample {s : State} {w : Nat} (h : s.memWf = true) : (s.sample w).memWf = true := memWf_frame h rfl rfl

@[simp] theorem keepsForm_execPowerSample {watts : Nat} {s : State} (h : s.memWf = true) : KeepsForm (execPowerSample watts s) :=
  keepsForm_next (memWf_ite (memWf_sample h) h)

theorem memWf_fxLimiterStep {s : State} (h : s.memWf = true) : (fxLimiterStep s).memWf = true := by
  unfold fxLimiterStep
  split
  · exact h
  · split <;> exact memWf_ite (memWf_event (memWf_frame h rfl rfl)) (memWf_frame h rfl rfl)

@[simp] theorem keepsForm_execLimiterStep {s : State} (h : s.memWf = true) : KeepsForm (execLimiterStep s) :=
  keepsForm_next (memWf_fxLimiterStep h)

theorem memWf_fxLimiterRestoreStep {s : State} (h : s.memWf = true) : (fxLimiterRestoreStep s).memWf = true :=
  memWf_ite h (memWf_ite (memWf_frame h rfl rfl) (memWf_frame h rfl rfl))

@[simp] theorem keepsForm_execLimiterRestoreStep {s : State} (h : s.memWf = true) : KeepsForm (execLimiterRestoreStep s) :=
  keepsForm_next (memWf_fxLimiterRestoreStep h)

theorem memWf_setThrottle {s : State} {d : Nat} {on : Bool} (h : s.memWf = true) : (s.setThrottle d on).memWf = true :=
  memWf_ite (memWf_frame h rfl rfl) (memWf_frame h rfl rfl)

theorem memWf_fxDieTempReading {d : Nat} {t : BitVec 32} {s : State} (h : s.memWf = true) : (fxDieTempReading d t s).memWf = true :=
  memWf_ite h (memWf_ite (memWf_thermalTrip (memWf_frame h rfl rfl))
    (memWf_ite (memWf_ite (memWf_frame h rfl rfl) (memWf_event (memWf_setThrottle (memWf_frame h rfl rfl))))
    (memWf_ite (memWf_setThrottle (memWf_frame h rfl rfl)) (memWf_frame h rfl rfl))))

@[simp] theorem keepsForm_execDieTempReading {die : Nat} {t : BitVec 32} {s : State} (h : s.memWf = true) :
    KeepsForm (execDieTempReading die t s) := keepsForm_onDie (memWf_fxDieTempReading h)

@[simp] theorem keepsForm_execDieThrottleStep {die : Nat} {s : State} (h : s.memWf = true) :
    KeepsForm (execDieThrottleStep die s) := keepsForm_onDie (memWf_frame h rfl rfl)

/-! ## Configuration, firmware update and wear -/

theorem memWf_storeConfig {s : State} (h : s.memWf = true) : s.storeConfig.memWf = true := memWf_frame h rfl rfl

@[simp] theorem keepsForm_execMgmtConfigStore {rq : Req} {v : Nat} {s : State} (h : s.memWf = true) :
    KeepsForm (execMgmtConfigStore rq v s) :=
  keepsForm_next (memWf_umTry h (fun _ ht => memWf_doAct (fun _ ht1 => memWf_storeConfig ht1) ht))

theorem memWf_clearConfig {s : State} (h : s.memWf = true) : s.clearConfig.memWf = true := memWf_frame h rfl rfl

@[simp] theorem keepsForm_execMgmtConfigClear {rq : Req} {v : Nat} {s : State} (h : s.memWf = true) :
    KeepsForm (execMgmtConfigClear rq v s) :=
  keepsForm_next (memWf_umTry h (fun _ ht => memWf_doAct (fun _ ht1 => memWf_clearConfig ht1) ht))

theorem memWf_activate {s : State} (h : s.memWf = true) : s.activate.memWf = true := memWf_restartMc (memWf_frame h rfl rfl)

@[simp] theorem keepsForm_execMgmtFwActivate {rq : Req} {v : Nat} {s : State} (h : s.memWf = true) :
    KeepsForm (execMgmtFwActivate rq v s) := keepsForm_next (memWf_umTryReset h (fun _ ht => memWf_activate ht))

theorem memWf_commit {s : State} (h : s.memWf = true) : s.commit.memWf = true := memWf_frame h rfl rfl

@[simp] theorem keepsForm_execMgmtFwCommit {rq : Req} {v : Nat} {s : State} (h : s.memWf = true) :
    KeepsForm (execMgmtFwCommit rq v s) :=
  keepsForm_next (memWf_umTry h (fun _ ht => memWf_doAct (fun _ ht1 => memWf_commit ht1) ht))

theorem memWf_rotate {s : State} {L : Nat} (h : s.memWf = true) : (s.rotate L).memWf = true := memWf_ite (memWf_rebind h) h

theorem memWf_selfTestFails {s : State} {d i : Nat} (h : s.memWf = true) : (s.selfTestFails d i).memWf = true := by
  unfold State.selfTestFails
  split
  · exact memWf_rotate h
  · exact memWf_ite (memWf_frame h rfl rfl) h

theorem memWf_fxWearManagement {aged bad : List (Nat × Nat)} {s : State} (h : s.memWf = true) :
    (fxWearManagement aged bad s).memWf = true :=
  memWf_ite h (memWf_foldl (memWf_foldl h (fun _ _ ht => memWf_selfTestFails ht)) (fun _ _ ht => memWf_rotate ht))

@[simp] theorem keepsForm_execWearManagement {aged bad : List (Nat × Nat)} {s : State} (h : s.memWf = true) :
    KeepsForm (execWearManagement aged bad s) := keepsForm_next (memWf_fxWearManagement h)

/-! ## Step-epoch cuts -/

theorem memWf_putVa {s : State} {c va : Nat} {bs : List Byte} (h : s.memWf = true) : (s.putVa c va bs).memWf = true :=
  memWf_vaWrite h

theorem memWf_tryCopy {s : State} {c src dst n : Nat} (h : s.memWf = true) : (s.tryCopy c src dst n).2.memWf = true := by
  unfold State.tryCopy
  dsimp only
  exact memWf_vaWrite (memWf_vaRead h)

theorem memWf_copyVa {s : State} {c src dst n : Nat} (h : s.memWf = true) : (s.copyVa c src dst n).memWf = true := memWf_tryCopy h

theorem memWf_fxRbdCutCtl {c k : Nat} {s : State} (h : s.memWf = true) : (fxRbdCutCtl c k s).memWf = true :=
  memWf_ite h (memWf_ite (memWf_modCtx (memWf_wakeBy h)) (memWf_modCtx (memWf_putVa (memWf_wakeBy h))))

@[simp] theorem keepsForm_execRbdCutCtl {c : Nat} {v : BitVec 32} {s : State} (h : s.memWf = true) :
    KeepsForm (execRbdCutCtl c v s) := keepsForm_onCtx (memWf_fxRbdCutCtl h)

theorem memWf_renewStale {s : State} {c va step : Nat} (h : s.memWf = true) : (s.renewStale c va step).memWf = true :=
  memWf_foldl h (fun _ _ ht => memWf_putVa (memWf_putVa ht))

theorem memWf_holdCut {s : State} {c : Nat} {k : Cut} (h : s.memWf = true) : (s.holdCut c k).memWf = true := by
  unfold State.holdCut
  refine memWf_ite h (memWf_foldl (memWf_renewStale (memWf_copyVa h)) (fun _ _ ht => ?_))
  extract_lets t1
  have h1 : t1.memWf = true := memWf_putVa ht
  split
  · exact memWf_mgmt h1
  · exact h1

theorem memWf_noteSeal {s : State} {r : SealReport} (h : s.memWf = true) : (s.noteSeal r).memWf = true := memWf_frame h rfl rfl

theorem memWf_reportSeal {s : State} {c step epoch : Nat} (h : s.memWf = true) : (s.reportSeal c step epoch).memWf = true :=
  memWf_ite (memWf_noteSeal h) (memWf_tellCoord h)

theorem memWf_trySeal {s : State} {c : Nat} (h : s.memWf = true) : (s.trySeal c).memWf = true := by
  unfold State.trySeal
  dsimp only
  split
  · exact h
  · exact memWf_ite h (memWf_reportSeal (memWf_modCtx (memWf_putVa (memWf_holdCut h))))

theorem memWf_copyImages {s : State} {c n : Nat} (h : s.memWf = true) : (s.copyImages c n).memWf = true :=
  memWf_foldl h fun _ _ ht => memWf_fst_foldl (memWf_fst_mk ht) fun _ _ hy => memWf_fst_mk (memWf_copyVa hy)

theorem memWf_fxCutCopyComplete {c : Nat} {s : State} (h : s.memWf = true) : (fxCutCopyComplete c s).memWf = true := by
  unfold fxCutCopyComplete
  split
  · exact h
  · refine memWf_ite h (memWf_trySeal (memWf_modCtx (memWf_foldl (memWf_copyImages h) (fun _ _ ht => ?_))))
    split
    · exact memWf_mgmt ht
    · exact ht

@[simp] theorem keepsForm_execCutCopyComplete {c : Nat} {s : State} (h : s.memWf = true) : KeepsForm (execCutCopyComplete c s) :=
  keepsForm_onCtx (memWf_fxCutCopyComplete h)

theorem memWf_fxStepMarker {c sender step : Nat} {record : List Byte} {s : State} (h : s.memWf = true) :
    (fxStepMarker c sender step record s).memWf = true := memWf_ite h (memWf_trySeal (memWf_modCtx h))

@[simp] theorem keepsForm_execStepMarker {c sender : Nat} {step : BitVec 32} {record : List Byte} {s : State} (h : s.memWf = true) :
    KeepsForm (execStepMarker c sender step record s) := keepsForm_onCtx (memWf_fxStepMarker h)

@[simp] theorem keepsForm_execStepMarkerAck {c holder : Nat} {s : State} (h : s.memWf = true) :
    KeepsForm (execStepMarkerAck c holder s) := keepsForm_onCtx (memWf_ite h (memWf_modCtx h))

theorem memWf_takeSeal {s : State} {c : Nat} {step : BitVec 32} {mismatch : Bool} (h : s.memWf = true) :
    (s.takeSeal c step mismatch).memWf = true := memWf_ite (memWf_modCtx h) (memWf_frame h rfl rfl)

theorem memWf_fxCutGlobalSeal {c : Nat} {step : BitVec 32} {mismatch : Bool} {s : State} (h : s.memWf = true) :
    (fxCutGlobalSeal c step mismatch s).memWf = true := by
  unfold fxCutGlobalSeal
  refine memWf_ite h (memWf_ite (memWf_takeSeal h) ?_)
  split
  · exact h
  · exact memWf_takeSeal (memWf_tellAll h)

@[simp] theorem keepsForm_execCutGlobalSeal {c : Nat} {step : BitVec 32} {mismatch : Bool} {s : State} (h : s.memWf = true) :
    KeepsForm (execCutGlobalSeal c step mismatch s) := keepsForm_onCtx (memWf_fxCutGlobalSeal h)

theorem memWf_restoreGroup {s : State} {c : Nat} {g : Seal} {record : List Byte} {e : Nat × List Byte} (h : s.memWf = true) :
    (s.restoreGroup c g record e).2.memWf = true := by
  unfold State.restoreGroup
  extract_lets p b st ver r t
  have hr : r.1.2.memWf = true := memWf_fst_snd_foldl h fun y q hy => by
    extract_lets z
    have hz : z.2.memWf = true := memWf_tryCopy hy
    exact hz
  have ht : t.memWf = true := memWf_putVa hr
  exact memWf_snd_mk (memWf_ite ht (memWf_putVa ht))

theorem memWf_tryRestore {s : State} {c : Nat} {g : Seal} (h : s.memWf = true) : (s.tryRestore c g).2.memWf = true := by
  unfold State.tryRestore
  extract_lets r b t s1 y
  have hr : r.2.memWf = true := memWf_vaRead h
  have ht : t.2.memWf = true := memWf_snd_foldl hr fun _ _ hy => memWf_snd_mk (memWf_restoreGroup hy)
  have h1 : s1.memWf = true := memWf_modCtx ht
  exact memWf_snd_ite (memWf_snd_mk hr) (memWf_snd_ite (memWf_snd_mk h1) (memWf_snd_mk (memWf_tryCopy h1)))

/-! ## Dump requests and timestamps -/

@[simp] theorem keepsForm_execObsDumpRequest {rq : Req} {v : Nat} {s : State} (h : s.memWf = true) :
    KeepsForm (execObsDumpRequest rq v s) :=
  keepsForm_next (memWf_umTry h (fun _ ht => memWf_doAct (fun _ ht1 => memWf_dump ht1) ht))

theorem memWf_actDumpRelease {s : State} (h : s.memWf = true) : (actDumpRelease s).2.memWf = true :=
  memWf_snd_ite h (memWf_frame h rfl rfl)

@[simp] theorem keepsForm_execObsDumpRelease {rq : Req} {v : Nat} {s : State} (h : s.memWf = true) :
    KeepsForm (execObsDumpRelease rq v s) := keepsForm_next (memWf_umTry h (fun _ ht => memWf_actDumpRelease ht))

theorem memWf_composeTs {s : State} (h : s.memWf = true) : s.composeTs.memWf = true := by
  unfold State.composeTs
  refine memWf_ite h (memWf_ite (memWf_frame h rfl rfl) ?_)
  split
  · exact h
  · exact memWf_frame h rfl rfl

theorem memWf_startMeasure {s : State} (h : s.memWf = true) : s.startMeasure.memWf = true := memWf_frame h rfl rfl

theorem memWf_measureTs {s : State} (h : s.memWf = true) : s.measureTs.memWf = true := memWf_tellAll (memWf_startMeasure h)

theorem memWf_actTsMeasure {s : State} (h : s.memWf = true) : (actTsMeasure s).2.memWf = true :=
  memWf_snd_ite h (memWf_snd_mk (memWf_measureTs h))

@[simp] theorem keepsForm_execObsTsMeasure {rq : Req} {v : Nat} {s : State} (h : s.memWf = true) :
    KeepsForm (execObsTsMeasure rq v s) := keepsForm_next (memWf_umTry h (fun _ ht => memWf_actTsMeasure ht))

theorem memWf_fxTsExchange {p t1 t2 t3 t4 : Nat} {s : State} (h : s.memWf = true) :
    (fxTsExchange p t1 t2 t3 t4 s).memWf = true := by
  unfold fxTsExchange
  extract_lets _ _ _ _ t5 _ t6
  have h5 : t5.memWf = true := memWf_frame h rfl rfl
  have h6 : t6.memWf = true := memWf_composeTs (memWf_frame h5 rfl rfl)
  exact memWf_ite h (memWf_ite h5 (memWf_ite (memWf_frame h6 rfl rfl) h6))

@[simp] theorem keepsForm_execTsExchange {port t1 t2 t3 t4 : Nat} {s : State} (h : s.memWf = true) :
    KeepsForm (execTsExchange port t1 t2 t3 t4 s) := keepsForm_onPort (memWf_fxTsExchange h)

/-! ## The rank map, losses and recovery -/

theorem memWf_takeParity {s : State} {rank : Nat} (h : s.memWf = true) : (s.takeParity rank).memWf = true :=
  memWf_foldl h (fun _ _ ht => memWf_modCtx ht)

theorem memWf_takeRank {s : State} (h : s.memWf = true) : s.takeRank.memWf = true := by
  unfold State.takeRank
  refine memWf_ite (memWf_enterSafeHold (memWf_ite (memWf_wakeBy (memWf_ite (memWf_frame h rfl rfl) ?_))
    (memWf_ite (memWf_frame h rfl rfl) ?_)))
    (memWf_ite (memWf_wakeBy (memWf_ite (memWf_frame h rfl rfl) ?_)) (memWf_ite (memWf_frame h rfl rfl) ?_))
  · split
    · exact memWf_takeParity (memWf_frame h rfl rfl)
    · exact memWf_frame h rfl rfl
  · split
    · exact memWf_takeParity (memWf_frame h rfl rfl)
    · exact memWf_frame h rfl rfl
  · split
    · exact memWf_takeParity (memWf_frame h rfl rfl)
    · exact memWf_frame h rfl rfl
  · split
    · exact memWf_takeParity (memWf_frame h rfl rfl)
    · exact memWf_frame h rfl rfl

theorem memWf_publishPorts {s : State} (h : s.memWf = true) : s.publishPorts.memWf = true :=
  memWf_foldl h (fun _ _ ht => memWf_foldl ht (fun _ _ ht1 => memWf_mgmt ht1))

theorem memWf_followMap {s : State} (h : s.memWf = true) : s.followMap.memWf = true :=
  memWf_publishPorts (memWf_rerouteAll (memWf_takeRank h))

theorem memWf_installMap {s : State} {m : List (BitVec 32)} (h : s.memWf = true) : (s.installMap m).memWf = true :=
  memWf_ite (memWf_followMap (memWf_endLostRuns (memWf_frame h rfl rfl)))
    (memWf_composeTs (memWf_followMap (memWf_endLostRuns (memWf_frame h rfl rfl))))

theorem memWf_loadMap {s : State} {rq : UmReq} {m : List (BitVec 32)} (h : s.memWf = true) : (s.loadMap rq m).memWf = true :=
  memWf_installMap (memWf_tellAll (memWf_frame h rfl rfl))

theorem memWf_recMark {s : State} {i : Nat} (h : s.memWf = true) : (s.recMark i).memWf = true := memWf_frame h rfl rfl

theorem memWf_stepTwoDone {s : State} {rank : Nat} (h : s.memWf = true) : (s.stepTwoDone rank).memWf = true :=
  memWf_withRbd (memWf_event2 (memWf_recMark h))

theorem memWf_endLoad {s : State} (h : s.memWf = true) : s.endLoad.2.memWf = true := by
  unfold State.endLoad
  split
  · exact memWf_stepTwoDone (memWf_frame h rfl rfl)
  · exact memWf_frame h rfl rfl

theorem memWf_settleLoad {s : State} (h : s.memWf = true) : s.settleLoad.memWf = true := by
  unfold State.settleLoad
  refine memWf_ite h ?_
  split
  · exact memWf_ite (memWf_answerTo (memWf_endLoad h)) h
  · exact h

theorem memWf_fxRbdRankMap {rq : Req} {m : List (BitVec 32)} {s : State} (h : s.memWf = true) :
    (fxRbdRankMap rq m s).memWf = true := by
  unfold fxRbdRankMap
  refine memWf_ite h ?_
  split
  · exact memWf_answerTo h
  · exact memWf_ite (memWf_answerTo h) (memWf_settleLoad (memWf_loadMap h))

@[simp] theorem keepsForm_execRbdRankMap {rq : Req} {m : List (BitVec 32)} {s : State} (h : s.memWf = true) :
    KeepsForm (execRbdRankMap rq m s) := keepsForm_next (memWf_fxRbdRankMap h)

theorem memWf_takeMap {s : State} {m : List (BitVec 32)} (h : s.memWf = true) : (s.takeMap m).memWf = true :=
  memWf_ite (memWf_stepTwoDone (memWf_installMap h)) (memWf_installMap h)

@[simp] theorem keepsForm_execRankMapInstall {m : RankMapMsg} {s : State} (h : s.memWf = true) :
    KeepsForm (execRankMapInstall m s) := keepsForm_next (memWf_ite h (memWf_mgmt (memWf_takeMap h)))

theorem memWf_fxRankMapRequest {p : Nat} {m : Option (List (BitVec 32))} {s : State} (h : s.memWf = true) :
    (fxRankMapRequest p m s).memWf = true := by
  unfold fxRankMapRequest
  refine memWf_ite h ?_
  split
  · exact memWf_installMap (memWf_mgmt h)
  · exact memWf_mgmt h

@[simp] theorem keepsForm_execRankMapRequest {port : Nat} {m : Option (List (BitVec 32))} {s : State} (h : s.memWf = true) :
    KeepsForm (execRankMapRequest port m s) := keepsForm_onPort (memWf_fxRankMapRequest h)

@[simp] theorem keepsForm_execHeartbeatSend {s : State} (h : s.memWf = true) : KeepsForm (execHeartbeatSend s) :=
  keepsForm_next (memWf_ite (memWf_foldl h (fun _ _ ht => memWf_mgmt ht)) h)

@[simp] theorem keepsForm_execHeartbeat {did : Nat} {s : State} (h : s.memWf = true) : KeepsForm (execHeartbeat did s) :=
  keepsForm_next (memWf_ite (memWf_frame h rfl rfl) h)

@[simp] theorem keepsForm_execHeartbeatTimeout {did : Nat} {s : State} (h : s.memWf = true) :
    KeepsForm (execHeartbeatTimeout did s) := keepsForm_next (memWf_ite (memWf_tellCoordBut h) h)

theorem memWf_declareLost {s : State} {did : Nat} (h : s.memWf = true) : (s.declareLost did).memWf = true :=
  memWf_event2 (memWf_frame h rfl rfl)

theorem memWf_probe {s : State} {did : Nat} (h : s.memWf = true) : (s.probe did).memWf = true := by
  unfold State.probe
  refine memWf_mgmt ?_
  split
  · exact memWf_foldl h (fun _ _ ht => memWf_send_getD ht)
  · exact h

theorem memWf_fxSuspicion {watcher did : Nat} {s : State} (h : s.memWf = true) : (fxSuspicion watcher did s).memWf = true := by
  unfold fxSuspicion
  extract_lets _ t1 _ t2
  have h1 : t1.memWf = true := memWf_ite h (memWf_frame h rfl rfl)
  have h2 : t2.memWf = true := memWf_ite (memWf_frame h1 rfl rfl) h1
  exact memWf_ite h (memWf_ite (memWf_declareLost h2) (memWf_ite h2 (memWf_probe (memWf_frame h2 rfl rfl))))

@[simp] theorem keepsForm_execSuspicion {watcher did : Nat} {s : State} (h : s.memWf = true) :
    KeepsForm (execSuspicion watcher did s) := keepsForm_next (memWf_fxSuspicion h)

theorem memWf_probeAnswered {s : State} {did : Nat} (h : s.memWf = true) : (s.probeAnswered did).memWf = true :=
  memWf_frame h rfl rfl

@[simp] theorem keepsForm_execProbeTimeout {did : Nat} {s : State} (h : s.memWf = true) : KeepsForm (execProbeTimeout did s) :=
  keepsForm_next (memWf_ite (memWf_declareLost h) h)

theorem memWf_markParity {s : State} {c : Nat} {stale : Bool} (h : s.memWf = true) : (s.markParity c stale).memWf = true :=
  memWf_ite (memWf_modCtx (memWf_foldl h (fun _ _ ht => memWf_putEntry ht))) (memWf_foldl h (fun _ _ ht => memWf_putEntry ht))

theorem memWf_bindRank {s : State} {rank did : Nat} (h : s.memWf = true) : (s.bindRank rank did).memWf = true :=
  memWf_followMap (memWf_logRebind (memWf_frame h rfl rfl))

theorem memWf_endStepTwo {s : State} {lead : Bool} {rank : Nat} (h : s.memWf = true) : (s.endStepTwo lead rank).memWf = true := by
  unfold State.endStepTwo
  split
  · extract_lets s1 _ _ s2
    have h1 : s1.memWf = true := memWf_tellAll h
    have h2 : s2.memWf = true := memWf_withXlRbd h1
    exact memWf_ite (memWf_endLoad h2) h2
  · exact h

theorem memWf_markLost {s : State} {c rank : Nat} (h : s.memWf = true) : (s.markLost c rank).memWf = true :=
  memWf_ite (memWf_markParity (memWf_endLostRuns (memWf_frame h rfl rfl))) (memWf_endLostRuns (memWf_frame h rfl rfl))

theorem memWf_haltRebind {s : State} {c rank : Nat} {spare : Option Nat} {short : Bool} (h : s.memWf = true) :
    (s.haltRebind c rank spare short).memWf = true := by
  unfold State.haltRebind
  extract_lets lead again s1 _ _ s2 _ s3
  have h1 : s1.memWf = true := memWf_modCtx (memWf_halt h)
  have h2 : s2.memWf = true := memWf_frame h1 rfl rfl
  have h3 : s3.memWf = true := memWf_markLost h2
  refine memWf_ite (memWf_endStepTwo (memWf_withRbd h2)) (memWf_ite (memWf_endStepTwo (memWf_withRbd (memWf_followMap h3))) ?_)
  split
  · exact memWf_endStepTwo (memWf_withRbd (memWf_bindRank h3))
  · exact memWf_endStepTwo (memWf_withRbd (memWf_followMap h3))

theorem memWf_fxRecoveryHaltRebind {c rank : Nat} {spare : Option Nat} {short : Bool} {s : State} (h : s.memWf = true) :
    (fxRecoveryHaltRebind c rank spare short s).memWf = true :=
  memWf_ite h (memWf_ite (memWf_frame h rfl rfl) (memWf_ite (memWf_frame h rfl rfl) (memWf_haltRebind (memWf_frame h rfl rfl))))

@[simp] theorem keepsForm_execRecoveryHaltRebind {c rank : Nat} {spare : Option Nat} {short : Bool} {s : State}
    (h : s.memWf = true) : KeepsForm (execRecoveryHaltRebind c rank spare short s) := keepsForm_onCtx (memWf_fxRecoveryHaltRebind h)

theorem memWf_actConfirm {s : State} (h : s.memWf = true) : (actConfirm s).2.memWf = true := memWf_snd_ite (memWf_frame h rfl rfl) h

@[simp] theorem keepsForm_execRbdRecoveryConfirm {rq : Req} {v : Nat} {s : State} (h : s.memWf = true) :
    KeepsForm (execRbdRecoveryConfirm rq v s) := keepsForm_next (memWf_umTry h (fun _ ht => memWf_actConfirm ht))

theorem memWf_stepThreeDone {s : State} (h : s.memWf = true) : s.stepThreeDone.memWf = true :=
  memWf_withRbd (memWf_event2 (memWf_recMark h))

theorem memWf_restoreCut {s : State} {c : Nat} {g : Seal} (h : s.memWf = true) : (s.restoreCut c g).memWf = true :=
  memWf_ite (memWf_stepThreeDone (memWf_tryRestore h)) (memWf_tellCoordBut (memWf_tryRestore h))

theorem memWf_sendPart {s : State} {c : Nat} {g : Seal} {l : Loss} (h : s.memWf = true) : (s.sendPart c g l).memWf = true :=
  memWf_ite (memWf_ite (memWf_mgmt (memWf_vaRead (memWf_vaRead h))) (memWf_vaRead h))
    (memWf_mgmt (memWf_vaRead (memWf_vaRead (memWf_ite (memWf_mgmt (memWf_vaRead (memWf_vaRead h))) (memWf_vaRead h)))))

theorem memWf_sendParts {s : State} {c : Nat} {g : Seal} (h : s.memWf = true) : (s.sendParts c g).memWf = true :=
  memWf_foldl h (fun _ _ ht => memWf_sendPart ht)

theorem memWf_takeImage {s : State} {c : Nat} {p : RebuildIn} (h : s.memWf = true) : (s.takeImage c p).memWf = true :=
  memWf_memWrite (memWf_memWrite h)

theorem memWf_fxRecoveryStateRebuild {c : Nat} {p : RebuildIn} {s : State} (h : s.memWf = true) :
    (fxRecoveryStateRebuild c p s).memWf = true := by
  unfold fxRecoveryStateRebuild
  refine memWf_ite h ?_
  split
  · exact memWf_restoreCut (memWf_sendParts h)
  · exact memWf_stepThreeDone (memWf_ite h (memWf_takeImage h))

@[simp] theorem keepsForm_execRecoveryStateRebuild {c : Nat} {p : RebuildIn} {s : State} (h : s.memWf = true) :
    KeepsForm (execRecoveryStateRebuild c p s) := keepsForm_onCtx (memWf_fxRecoveryStateRebuild h)

theorem memWf_fxRecoveryResume {c : Nat} {s : State} (h : s.memWf = true) : (fxRecoveryResume c s).memWf = true := by
  unfold fxRecoveryResume
  extract_lets s1
  have h1 : s1.memWf = true := memWf_recMark (memWf_ctxReset h)
  exact memWf_ite h (memWf_event2 (memWf_withRbd h1))

@[simp] theorem keepsForm_execRecoveryResume {c : Nat} {s : State} (h : s.memWf = true) : KeepsForm (execRecoveryResume c s) :=
  keepsForm_onCtx (memWf_fxRecoveryResume h)

theorem memWf_fxTransientLoss {c : Nat} {s : State} (h : s.memWf = true) : (fxTransientLoss c s).memWf = true := by
  unfold fxTransientLoss
  refine memWf_ite h ?_
  extract_lets t1 _ _ t2
  have h1 : t1.memWf = true := memWf_modCtx (memWf_halt h)
  have h2 : t2.memWf = true := memWf_frame h1 rfl rfl
  split
  · exact memWf_restoreCut h2
  · exact memWf_stepThreeDone h2

@[simp] theorem keepsForm_execTransientLoss {c rank : Nat} {s : State} (h : s.memWf = true) :
    KeepsForm (execTransientLoss c rank s) := keepsForm_onCtx (memWf_ite (memWf_fxTransientLoss h) h)

theorem memWf_fxHeldParityRebuild {c : Nat} {image : List (Nat × List Byte)} {s : State} (h : s.memWf = true) :
    (fxHeldParityRebuild c image s).memWf = true := memWf_ite h (memWf_markParity (memWf_foldl h (fun _ _ ht => memWf_putVa ht)))

@[simp] theorem keepsForm_execHeldParityRebuild {c : Nat} {image : List (Nat × List Byte)} {s : State} (h : s.memWf = true) :
    KeepsForm (execHeldParityRebuild c image s) := keepsForm_onCtx (memWf_fxHeldParityRebuild h)

theorem memWf_sendImage {s : State} {c did : Nat} (h : s.memWf = true) : (s.sendImage c did).memWf = true := by
  unfold State.sendImage
  dsimp only
  split
  · exact h
  · exact memWf_mgmt h

theorem memWf_moveRank {s : State} {rank spare : Nat} (h : s.memWf = true) : (s.moveRank rank spare).memWf = true :=
  memWf_endStepTwo (memWf_bindRank (memWf_ite (memWf_foldl (memWf_frame (memWf_halt h) rfl rfl) (fun _ _ ht => memWf_sendImage ht))
    (memWf_frame (memWf_halt h) rfl rfl)))

theorem memWf_fxPlannedRankMove {rank spare : Nat} {s : State} (h : s.memWf = true) : (fxPlannedRankMove rank spare s).memWf = true := by
  unfold fxPlannedRankMove
  refine memWf_ite h (memWf_ite (memWf_moveRank h) (memWf_ite h (memWf_ite (memWf_frame h rfl rfl) ?_)))
  split
  · exact memWf_moveRank h
  · exact h

@[simp] theorem keepsForm_execPlannedRankMove {rank spare : Nat} {s : State} (h : s.memWf = true) :
    KeepsForm (execPlannedRankMove rank spare s) := keepsForm_next (memWf_fxPlannedRankMove h)

/-! ## Umasel frames -/

theorem memWf_mboxIrq {s : State} {fn : Nat} {m : Mbox} (h : s.memWf = true) : (s.mboxIrq fn m).memWf = true :=
  memWf_ite (memWf_emit h) h

theorem memWf_sendBack {s : State} {p : UmPath} {bs : List Byte} (h : s.memWf = true) : (s.sendBack p bs).memWf = true := by
  unfold State.sendBack
  split
  · exact memWf_emit h
  · exact memWf_mboxIrq (memWf_frame h rfl rfl)
  · exact memWf_mboxIrq (memWf_modCtx h)
  · exact memWf_mgmt h

theorem memWf_dropped {s : State} {p : UmPath} (h : s.memWf = true) : (s.dropped p).memWf = true := by
  unfold State.dropped
  split
  · exact memWf_frame h rfl rfl
  · exact memWf_modCtx h
  · exact h

theorem memWf_bulkOut {s : State} {r : Rsp} (h : s.memWf = true) : (s.bulkOut r).memWf = true := memWf_ite (memWf_frame h rfl rfl) h

theorem memWf_reply {s : State} {rq : UmReq} {r : Rsp} (h : s.memWf = true) : (s.reply rq r).memWf = true := by
  unfold State.reply
  extract_lets t1
  have h1 : t1.memWf = true := memWf_bulkOut h
  split
  · exact memWf_sendBack (memWf_frame h1 rfl rfl)
  · exact memWf_sendBack h1

theorem memWf_countFrame {s : State} {rq : UmReq} (h : s.memWf = true) : (s.countFrame rq).memWf = true := by
  unfold State.countFrame
  refine memWf_ite h ?_
  split
  · exact memWf_frame h rfl rfl
  · exact h

theorem memWf_serve {s : State} {p : UmPath} {mine : List Byte → Bool} {go : UmReq → State → Option Rsp × State}
    (h : s.memWf = true) (hgo : ∀ rq t, t.memWf = true → (go rq t).2.memWf = true) : (s.serve p mine go).memWf = true := by
  unfold State.serve
  refine memWf_ite h ?_
  split
  · exact h
  · refine memWf_ite h ?_
    extract_lets _ t r
    have ht : t.memWf = true := memWf_settleDrains (memWf_frame h rfl rfl)
    split
    · exact memWf_dropped ht
    · exact memWf_reply (memWf_countFrame ht)
    · have hr : r.2.memWf = true := hgo _ _ (memWf_countFrame ht)
      split
      · exact memWf_reply hr
      · exact hr

theorem memWf_request {s : State} {p : UmPath} {bs : List Byte} (h : s.memWf = true) : (s.request p bs).memWf = true :=
  memWf_ite (memWf_frame h rfl rfl) (memWf_frame h rfl rfl)

theorem memWf_fxMgmtMboxGo {v : BitVec 32} {s : State} (h : s.memWf = true) : (fxMgmtMboxGo v s).memWf = true :=
  memWf_ite h (memWf_ite (memWf_frame h rfl rfl) (memWf_ite (memWf_request (memWf_frame h rfl rfl)) (memWf_frame h rfl rfl)))

@[simp] theorem keepsForm_execMgmtMboxGo {v : BitVec 32} {s : State} (h : s.memWf = true) : KeepsForm (execMgmtMboxGo v s) :=
  keepsForm_next (memWf_fxMgmtMboxGo h)

theorem memWf_svcControl {s : State} {c : Nat} {v : BitVec 32} (h : s.memWf = true) : (s.svcControl c v).memWf = true :=
  memWf_ite h (memWf_ite (memWf_frame (memWf_wakeBy h) rfl rfl)
    (memWf_ite (memWf_request (memWf_modCtx (memWf_wakeBy h))) (memWf_modCtx (memWf_wakeBy h))))

theorem memWf_fxMgmtSvcGo {c : Nat} {v : BitVec 32} {s : State} (h : s.memWf = true) : (fxMgmtSvcGo c v s).memWf = true :=
  memWf_ite (memWf_svcControl h) h

@[simp] theorem keepsForm_execMgmtSvcGo {c : Nat} {v : BitVec 32} {s : State} (h : s.memWf = true) :
    KeepsForm (execMgmtSvcGo c v s) := keepsForm_onCtx (memWf_fxMgmtSvcGo h)

theorem memWf_fxT1sFrame {bs : List Byte} {bcast : Bool} {s : State} (h : s.memWf = true) : (fxT1sFrame bs bcast s).memWf = true :=
  memWf_ite h (memWf_ite (memWf_frame h rfl rfl) (memWf_ite h (memWf_request h)))

@[simp] theorem keepsForm_execT1sFrame {bs : List Byte} {bcast : Bool} {s : State} (h : s.memWf = true) :
    KeepsForm (execT1sFrame bs bcast s) := keepsForm_next (memWf_fxT1sFrame h)

theorem memWf_refuseForward {s : State} {rq : UmReq} (h : s.memWf = true) : (s.refuseForward rq).memWf = true := memWf_sendBack h

theorem memWf_sendForward {s : State} {d : Nat} {bs : List Byte} (h : s.memWf = true) : (s.sendForward d bs).memWf = true :=
  memWf_send_getD (memWf_emit (memWf_frame h rfl rfl))

theorem memWf_doForward {rq : UmReq} {s : State} (h : s.memWf = true) : (doForward rq s).2.memWf = true := by
  unfold doForward
  exact memWf_snd_ite (memWf_refuseForward h) (memWf_sendForward (memWf_frame h rfl rfl))

@[simp] theorem keepsForm_execForward {path : UmPath} {s : State} (h : s.memWf = true) : KeepsForm (execForward path s) :=
  keepsForm_onPath (memWf_serve h (fun _ _ ht => memWf_doForward ht))

theorem memWf_endForward {s : State} {i : Nat} {go : UmReq → State → State} (h : s.memWf = true)
    (hgo : ∀ x t, t.memWf = true → (go x t).memWf = true) : (s.endForward i go).memWf = true := by
  unfold State.endForward
  refine memWf_ite h ?_
  split
  · exact h
  · exact hgo _ _ (memWf_frame h rfl rfl)

@[simp] theorem keepsForm_execForwardTimeout {i : Nat} {s : State} (h : s.memWf = true) : KeepsForm (execForwardTimeout i s) :=
  keepsForm_next (memWf_endForward h (fun _ _ ht => memWf_refuseForward ht))

@[simp] theorem keepsForm_execForwardResponse {i : Nat} {bs : List Byte} {s : State} (h : s.memWf = true) :
    KeepsForm (execForwardResponse i bs s) :=
  keepsForm_next (memWf_ite (memWf_frame h rfl rfl) (memWf_endForward h (fun _ _ ht => memWf_sendBack ht)))

theorem memWf_finishLoad {s : State} {d : Nat} (h : s.memWf = true) : (s.finishLoad d).memWf = true := by
  unfold State.finishLoad
  split
  · exact memWf_endLoad h
  · exact memWf_ite (memWf_answerTo (memWf_endLoad h)) (memWf_reply (memWf_endLoad h))

theorem memWf_loadSettled {s : State} (h : s.memWf = true) : s.loadSettled.memWf = true := memWf_ite (memWf_finishLoad h) h

theorem memWf_fxRankMapAck {did : Nat} {s : State} (h : s.memWf = true) : (fxRankMapAck did s).memWf = true := by
  unfold fxRankMapAck
  refine memWf_ite h ?_
  split
  · exact h
  · exact memWf_loadSettled (memWf_frame h rfl rfl)

@[simp] theorem keepsForm_execRankMapAck {did : Nat} {s : State} (h : s.memWf = true) : KeepsForm (execRankMapAck did s) :=
  keepsForm_next (memWf_fxRankMapAck h)

@[simp] theorem keepsForm_execRankMapAckTimeout {s : State} (h : s.memWf = true) : KeepsForm (execRankMapAckTimeout s) :=
  keepsForm_next (memWf_ite (memWf_finishLoad h) h)

theorem memWf_newSession {s : State} (h : s.memWf = true) : s.newSession.2.memWf = true :=
  memWf_snd_ite (memWf_free h) (memWf_free h)

theorem memWf_doSessionOpen {rq : UmReq} {s : State} (h : s.memWf = true) : (doSessionOpen rq s).2.memWf = true := by
  unfold doSessionOpen
  extract_lets _ _ r1 r2 _ t3
  have h1 : r1.2.memWf = true := memWf_newSession h
  have h2 : r2.2.memWf = true := memWf_freeBytes h1
  have h3 : t3.memWf = true := h2
  exact memWf_snd_ite h (memWf_snd_ite h (memWf_snd_ite h (memWf_snd_ite h (memWf_frame h3 rfl rfl))))

@[simp] theorem keepsForm_execSessionOpen {path : UmPath} {s : State} (h : s.memWf = true) : KeepsForm (execSessionOpen path s) :=
  keepsForm_onPath (memWf_serve h (fun _ _ ht => memWf_doSessionOpen ht))

theorem memWf_authFail {s : State} {p : UmPath} (h : s.memWf = true) : (s.authFail p).memWf = true := by
  unfold State.authFail
  exact memWf_event (memWf_frame h rfl rfl)

theorem memWf_doSessionAuth {rq : UmReq} {s : State} (h : s.memWf = true) : (doSessionAuth rq s).2.memWf = true := by
  unfold doSessionAuth
  extract_lets pl n
  refine memWf_snd_ite (memWf_snd_mk h) ?_
  split
  · exact memWf_snd_mk (memWf_authFail h)
  · exact memWf_snd_ite (memWf_snd_mk (memWf_authFail h)) (memWf_snd_ite (memWf_snd_mk (memWf_authFail (memWf_withUm h)))
      (memWf_snd_mk (memWf_sendBack (memWf_withUm h))))

@[simp] theorem keepsForm_execSessionAuth {path : UmPath} {s : State} (h : s.memWf = true) : KeepsForm (execSessionAuth path s) :=
  keepsForm_onPath (memWf_serve h (fun _ _ ht => memWf_doSessionAuth ht))

theorem memWf_closeSession {s : State} {n : Nat} (h : s.memWf = true) : (s.closeSession n).memWf = true := by
  unfold State.closeSession
  split
  · exact h
  · exact memWf_frame h rfl rfl

theorem memWf_doSessionClose {rq : UmReq} {s : State} (h : s.memWf = true) : (doSessionClose rq s).2.memWf = true :=
  memWf_snd_ite h (memWf_closeSession (memWf_reply h))

@[simp] theorem keepsForm_execSessionClose {path : UmPath} {s : State} (h : s.memWf = true) : KeepsForm (execSessionClose path s) :=
  keepsForm_onPath (memWf_serve h (fun _ _ ht => memWf_doSessionClose ht))

@[simp] theorem keepsForm_execSessionIdleTimeout {n : Nat} {s : State} (h : s.memWf = true) :
    KeepsForm (execSessionIdleTimeout n s) := keepsForm_next (memWf_closeSession h)

@[simp] theorem keepsForm_execAuthBlockExpiry {path : UmPath} {s : State} (h : s.memWf = true) :
    KeepsForm (execAuthBlockExpiry path s) := keepsForm_onPath (memWf_frame h rfl rfl)

theorem memWf_fxEvent {d : Nat} {s : State} (h : s.memWf = true) : (fxEvent d s).memWf = true := by
  unfold fxEvent
  dsimp only
  split
  · exact h
  · exact memWf_ite h (memWf_ite (memWf_frame h rfl rfl)
      (memWf_ite (memWf_emit (memWf_frame h rfl rfl))
      (memWf_ite (memWf_ite h (memWf_ite (memWf_frame h rfl rfl) (memWf_emit (memWf_frame h rfl rfl))))
      (memWf_mgmt (memWf_frame h rfl rfl)))))

@[simp] theorem keepsForm_execEvent {dest : Nat} {s : State} (h : s.memWf = true) : KeepsForm (execEvent dest s) :=
  keepsForm_next (memWf_fxEvent h)

/-! ## Packets for this module -/

theorem memWf_mgAct {s : State} {did kind : Nat} {pl : List Byte} (h : s.memWf = true) : (s.mgAct did kind pl).memWf = true := by
  unfold State.mgAct
  refine memWf_ite (memWf_mgmt h) (memWf_ite (memWf_probeAnswered h)
    (memWf_ite (memWf_ite h (memWf_mgmt h)) (memWf_ite ?_
    (memWf_ite (memWf_ite (memWf_declareLost h) h)
    (memWf_ite (memWf_epochStop h) (memWf_ite (memWf_ite h (memWf_startMeasure h)) h))))))
  split
  · exact memWf_noteSeal h
  · exact h

theorem memWf_mgHear {s : State} {did op : Nat} {pl : List Byte} (h : s.memWf = true) : (s.mgHear did op pl).memWf = true := by
  unfold State.mgHear
  split
  · exact memWf_mgAct h
  · exact h

theorem memWf_mgmtIn {s : State} {did : Nat} {bs : List Byte} (h : s.memWf = true) : (s.mgmtIn did bs).memWf = true :=
  memWf_ite (memWf_frame h rfl rfl) (memWf_ite (memWf_mgHear h)
    (memWf_ite h (memWf_ite (memWf_frame h rfl rfl) (memWf_frame h rfl rfl))))

theorem memWf_fxPacketForward {p : Nat} {pk : List Byte} {s : State} (h : s.memWf = true) : (fxPacketForward p pk s).memWf = true := by
  unfold fxPacketForward
  have hp : (s.passOn p pk).memWf = true := memWf_passOn h
  refine memWf_ite h (memWf_ite (memWf_ite (memWf_ite h (memWf_discard hp)) (memWf_ite h (memWf_ite hp
    (memWf_ite (memWf_mgmtIn hp) (memWf_discard hp))))) (memWf_ite hp (memWf_ite (memWf_ite (memWf_respond (memWf_discard hp))
    (memWf_discard hp)) ?_)))
  extract_lets vc
  split
  · next hf => exact memWf_routeOn (memWf_occupy h) hf
  · exact memWf_noWay hp

@[simp] theorem keepsForm_execPacketForward {port : Nat} {pk : List Byte} {s : State} (h : s.memWf = true) :
    KeepsForm (execPacketForward port pk s) := keepsForm_onPortIn (memWf_fxPacketForward h)

theorem memWf_fxAck {port : Nat} {pk : List Byte} {s : State} (h : s.memWf = true) : (fxAck port pk s).memWf = true := by
  unfold fxAck
  refine memWf_ingress h (fun _ ht => ?_)
  split
  · split
    · exact memWf_ite ht (memWf_endForward ht (fun _ _ ht1 => memWf_refuseForward ht1))
    · exact ht
  · exact memWf_endAny (memWf_noteTrans (memWf_ite (memWf_poisonGet ht) ht))

@[simp] theorem keepsForm_execAck {port : Nat} {pk : List Byte} {s : State} (h : s.memWf = true) : KeepsForm (execAck port pk s) :=
  keepsForm_onPortIn (memWf_fxAck h)

/-! ## Completion of tile instructions -/

theorem coreMemWf_completes {cs : CoreState} {i : InFlight} (h : cs.memWf = true) : (cs.completes i).memWf = true := by
  unfold CoreState.completes
  split
  · exact coreMemWf_ite (coreMemWf_spillIfDue h) h
  · exact h

theorem memWf_fxUnitInstructionComplete {L seq : Nat} {s : State} (h : s.memWf = true) :
    (fxUnitInstructionComplete L seq s).memWf = true := by
  unfold fxUnitInstructionComplete
  extract_lets c1
  have h1 : c1.memWf = true := coreMemWf_core h
  split
  · exact h
  · exact memWf_ite h (memWf_settle (memWf_setCore h (coreMemWf_retire (coreMemWf_completes h1))))

@[simp] theorem keepsForm_execUnitInstructionComplete {core seq : Nat} {s : State} (h : s.memWf = true) :
    KeepsForm (execUnitInstructionComplete core seq s) := keepsForm_onCore (memWf_fxUnitInstructionComplete h)

/-! ## The operations on objects -/

theorem memWf_doRead {rq : UmReq} {s : State} (h : s.memWf = true) : (doRead rq s).2.memWf = true := by
  unfold doRead
  refine memWf_snd_ite h ?_
  split
  · exact h
  · split <;> exact h

@[simp] theorem keepsForm_execRead {path : UmPath} {s : State} (h : s.memWf = true) : KeepsForm (execRead path s) :=
  keepsForm_onPath (g := fun s => s.serve path _ doRead) (memWf_serve h fun _ _ ht => memWf_doRead ht)

theorem memWf_doReadSeg {rq : UmReq} {s : State} (h : s.memWf = true) : (doReadSeg rq s).2.memWf = true := by
  unfold doReadSeg
  split <;> exact h

@[simp] theorem keepsForm_execReadSeg {path : UmPath} {s : State} (h : s.memWf = true) : KeepsForm (execReadSeg path s) :=
  keepsForm_onPath (memWf_serve h (fun _ _ ht => memWf_doReadSeg ht))

theorem memWf_actFlags {idx sub v : Nat} {s : State} (h : s.memWf = true) : (actFlags idx sub v s).2.memWf = true :=
  memWf_snd_ite (memWf_frame h rfl rfl) (memWf_snd_ite (memWf_modPort h) (memWf_modStk h))

theorem memWf_actRetrainPort {v : Nat} {s : State} (h : s.memWf = true) : (actRetrainPort v s).2.memWf = true :=
  memWf_snd_ite (memWf_frame h rfl rfl) h

theorem memWf_actGate {s : State} (h : s.memWf = true) : (actGate s).2.memWf = true := memWf_snd_ite (memWf_gateRequest h) h

theorem memWf_actTsRef {v : Nat} {s : State} (h : s.memWf = true) : (actTsRef v s).2.memWf = true :=
  memWf_composeTs (memWf_setObj h)

theorem memWf_objAct {idx sub v : Nat} {s : State} (h : s.memWf = true) : (objAct idx sub v s).2.memWf = true := by
  unfold objAct
  generalize fnAll.find? _ = f
  cases f with
  | some f => exact memWf_doAct (fun _ ht => memWf_ite (memWf_fnDisable ht) (memWf_fnEnable ht)) h
  | none =>
    dsimp only
    split
    · exact memWf_frame h rfl rfl
    · split
      · exact memWf_storeConfig h
      · exact memWf_clearConfig h
      · exact memWf_commit h
      · exact memWf_actGate h
      · exact memWf_actFlags h
      · exact memWf_actStandby h
      · exact memWf_wakeBy h
      · exact memWf_actRole h
      · exact memWf_actConfirm h
      · exact memWf_halt h
      · exact memWf_actEpochStop h
      · exact memWf_resume h
      · exact memWf_enterSafeHold h
      · exact memWf_actTsRef h
      · exact memWf_actTsMeasure h
      · exact memWf_dump h
      · exact memWf_actDumpRelease h
      · exact memWf_actFlags h
      · exact memWf_actRetrainPort h
      · exact memWf_actFlags h
      · exact memWf_actRestripe h
      · exact memWf_setObj h

theorem memWf_resetAct {idx sub v : Nat} {a : (State → Bool) × Bool × (State → State)} {s : State} (h : s.memWf = true)
    (ha : resetAct idx sub v = some a) : (a.2.2 s).memWf = true := by
  unfold resetAct at ha
  split at ha <;> cases ha
  · exact memWf_activate h
  · exact memWf_warmReset h
  · exact memWf_warmReset h
  · exact memWf_coldReset
  · exact memWf_resetCtxs h

theorem memWf_doWrite {rq : UmReq} {s : State} (h : s.memWf = true) : (doWrite rq s).2.memWf = true := by
  unfold doWrite
  extract_lets idx sub pl ok
  split
  · exact memWf_snd_mk h
  · refine memWf_snd_ite (memWf_snd_mk h) ?_
    split
    · exact memWf_snd_mk h
    · refine memWf_snd_ite (memWf_snd_mk h) (memWf_snd_ite (memWf_snd_mk h) ?_)
      split
      · next ha => exact memWf_snd_ite (memWf_snd_mk h) (memWf_snd_mk (memWf_resetAct (memWf_ite (memWf_reply h) h) ha))
      · exact memWf_snd_ite (memWf_snd_mk (memWf_objAct h)) (memWf_snd_mk h)

@[simp] theorem keepsForm_execWrite {path : UmPath} {s : State} (h : s.memWf = true) : KeepsForm (execWrite path s) :=
  keepsForm_onPath (memWf_serve h (fun _ _ ht => memWf_doWrite ht))

theorem memWf_domainCommit {rq : UmReq} {idx sub : Nat} {bs : List Byte} {s : State} (h : s.memWf = true) :
    (domainCommit rq idx sub bs s).2.memWf = true :=
  memWf_snd_ite (memWf_frame h rfl rfl) (memWf_snd_ite (memWf_snd_ite h (memWf_frame h rfl rfl))
    (memWf_snd_ite (memWf_snd_ite h (memWf_loadSettled (memWf_loadMap h)))
    (memWf_ite (memWf_frame h rfl rfl) (memWf_frame h rfl rfl))))

theorem memWf_takeSegment {rq : UmReq} {idx sub : Nat} {sofar : List Byte} {s : State} (h : s.memWf = true) :
    (takeSegment rq idx sub sofar s).2.memWf = true :=
  memWf_snd_ite (memWf_frame h rfl rfl) (memWf_snd_ite
    (memWf_domainCommit (memWf_ite (memWf_frame h rfl rfl) (memWf_frame h rfl rfl)))
    (memWf_ite (memWf_frame h rfl rfl) (memWf_frame h rfl rfl)))

theorem memWf_doWriteSeg {rq : UmReq} {s : State} (h : s.memWf = true) : (doWriteSeg rq s).2.memWf = true := by
  unfold doWriteSeg
  dsimp only
  split
  · exact h
  · refine memWf_snd_ite h ?_
    split
    · exact h
    · refine memWf_snd_ite h ?_
      split <;> exact memWf_takeSegment h

@[simp] theorem keepsForm_execWriteSeg {path : UmPath} {s : State} (h : s.memWf = true) : KeepsForm (execWriteSeg path s) :=
  keepsForm_onPath (memWf_serve h (fun _ _ ht => memWf_doWriteSeg ht))

@[simp] theorem keepsForm_execSegmentTimeout {obj : Nat} {s : State} (h : s.memWf = true) : KeepsForm (execSegmentTimeout obj s) :=
  keepsForm_next (memWf_frame h rfl rfl)

theorem memWf_doDescribe {rq : UmReq} {s : State} (h : s.memWf = true) : (doDescribe rq s).2.memWf = true := by
  unfold doDescribe
  split <;> exact h

@[simp] theorem keepsForm_execDescribe {path : UmPath} {s : State} (h : s.memWf = true) : KeepsForm (execDescribe path s) :=
  keepsForm_onPath (memWf_serve h (fun _ _ ht => memWf_doDescribe ht))

theorem memWf_doNext {rq : UmReq} {s : State} (h : s.memWf = true) : (doNext rq s).2.memWf = true := h

@[simp] theorem keepsForm_execNext {path : UmPath} {s : State} (h : s.memWf = true) : KeepsForm (execNext path s) :=
  keepsForm_onPath (memWf_serve h (fun _ _ ht => memWf_doNext ht))

/-! ## The service operations -/

theorem memWf_svcGo {rq : UmReq} {s : State} {go : Nat → List Byte → State → Option Rsp × State} (h : s.memWf = true)
    (hgo : ∀ x y t, t.memWf = true → (go x y t).2.memWf = true) : (svcGo rq s go).2.memWf = true :=
  memWf_snd_ite h (memWf_snd_ite h (memWf_snd_ite h (hgo _ _ _ h)))

theorem memWf_putEntry8 {s : State} {pa v : Nat} (h : s.memWf = true) : (s.putEntry8 pa v).memWf = true :=
  memWf_ite h (memWf_memWrite h)

theorem memWf_getEntry8 {s : State} {pa : Nat} (h : s.memWf = true) : (s.getEntry8 pa).2.memWf = true :=
  memWf_snd_ite (memWf_snd_mk h) (memWf_snd_mk (memWf_tableRead h))

theorem memWf_withRoot {s : State} {c : Nat} (h : s.memWf = true) : (s.withRoot c).memWf = true :=
  memWf_ite h (memWf_frame h rfl rfl)

theorem memWf_level2 {s : State} {c va : Nat} (h : s.memWf = true) : (s.level2 c va).2.memWf = true := by
  unfold State.level2
  have h1 : (s.getEntry8 (s.pte1 c va)).2.memWf = true := memWf_getEntry8 h
  generalize s.getEntry8 (s.pte1 c va) = e at h1
  exact memWf_snd_ite (memWf_snd_mk h1) (memWf_snd_mk (memWf_putEntry8 (memWf_memWrite (memWf_withUm h1))))

theorem memWf_mapPage {s : State} {c sz perm va pa : Nat} {chosen : Bool} (h : s.memWf = true) :
    (s.mapPage c sz perm va pa chosen).memWf = true :=
  memWf_modCtx (memWf_ite (memWf_putEntry8 h) (memWf_putEntry8 (memWf_level2 h)))

theorem memWf_unmapPage {s : State} {c sz va : Nat} (h : s.memWf = true) : (s.unmapPage c sz va).memWf = true :=
  memWf_modCtx (memWf_ite (memWf_putEntry8 h) (memWf_putEntry8 (memWf_level2 h)))

theorem memWf_invalidate {s : State} {c va n : Nat} (h : s.memWf = true) : (s.invalidate c va n).memWf = true :=
  memWf_frame h rfl rfl

theorem memWf_svcMap {p : UmPath} {c : Nat} {pl : List Byte} {s : State} (h : s.memWf = true) :
    (svcMap p c pl s).2.memWf = true := by
  unfold svcMap
  dsimp only
  refine memWf_snd_ite h (memWf_snd_ite h (memWf_snd_ite h (memWf_snd_ite h (memWf_snd_ite h ?_))))
  split
  · exact h
  · exact memWf_invalidate (memWf_foldl (memWf_withRoot h) (fun _ _ ht => memWf_mapPage ht))

/-- A service operation on a context. -/
theorem memWf_serveSvc {s : State} {p : UmPath} {mine : List Byte → Bool} {go : UmReq → Nat → List Byte → State → Option Rsp × State}
    (h : s.memWf = true) (hgo : ∀ rq c pl t, t.memWf = true → (go rq c pl t).2.memWf = true) :
    (s.serve p mine (fun rq s => svcGo rq s (go rq))).memWf = true :=
  memWf_serve h fun _ _ ht => memWf_svcGo ht (hgo _)

@[simp] theorem keepsForm_execMap {path : UmPath} {s : State} (h : s.memWf = true) : KeepsForm (execMap path s) :=
  keepsForm_onPath (memWf_serveSvc (go := fun rq => svcMap rq.path) h fun _ _ _ _ ht => memWf_svcMap ht)

theorem memWf_svcUnmap {c : Nat} {pl : List Byte} {s : State} (h : s.memWf = true) : (svcUnmap c pl s).2.memWf = true :=
  memWf_snd_ite h (memWf_snd_ite h (memWf_invalidate (memWf_foldl h (fun _ _ ht => memWf_unmapPage ht))))

@[simp] theorem keepsForm_execUnmap {path : UmPath} {s : State} (h : s.memWf = true) : KeepsForm (execUnmap path s) :=
  keepsForm_onPath (memWf_serveSvc (go := fun _ => svcUnmap) h fun _ _ _ _ ht => memWf_svcUnmap ht)

theorem memWf_withPenRoot {s : State} {c : Nat} (h : s.memWf = true) : (s.withPenRoot c).memWf = true :=
  memWf_ite h (memWf_frame h rfl rfl)

theorem memWf_svcPenAlloc {c : Nat} {pl : List Byte} {s : State} (h : s.memWf = true) : (svcPenAlloc c pl s).2.memWf = true := by
  unfold svcPenAlloc
  dsimp only
  refine memWf_snd_ite h (memWf_snd_ite h (memWf_snd_ite h ?_))
  split
  · exact memWf_setSlot (memWf_putEntry8 (memWf_penEntry (memWf_withPenRoot h)))
  · exact h

@[simp] theorem keepsForm_execPenAlloc {path : UmPath} {s : State} (h : s.memWf = true) : KeepsForm (execPenAlloc path s) :=
  keepsForm_onPath (memWf_serveSvc (go := fun _ => svcPenAlloc) h fun _ _ _ _ ht => memWf_svcPenAlloc ht)

theorem memWf_svcPenRelease {c : Nat} {pl : List Byte} {s : State} (h : s.memWf = true) : (svcPenRelease c pl s).2.memWf = true := by
  unfold svcPenRelease
  have h1 : ∀ id, (s.penEntry c id).2.memWf = true := fun _ => memWf_penEntry h
  generalize State.penEntry s c = f at h1
  refine memWf_snd_ite (memWf_snd_mk h) ?_
  dsimp only
  split
  · exact h1 _
  · exact memWf_snd_ite (memWf_snd_mk (h1 _)) (memWf_snd_mk (memWf_withPen (memWf_foldl (memWf_setSlot (memWf_putEntry8 (h1 _)))
      fun _ _ ht => memWf_endWait ht)))

@[simp] theorem keepsForm_execPenRelease {path : UmPath} {s : State} (h : s.memWf = true) : KeepsForm (execPenRelease path s) :=
  keepsForm_onPath (memWf_serveSvc (go := fun _ => svcPenRelease) h fun _ _ _ _ ht => memWf_svcPenRelease ht)

theorem coreMemWf_joined {cs : CoreState} : cs.joined.memWf = true := rfl

theorem memWf_svcCoreSet {c : Nat} {pl : List Byte} {s : State} (h : s.memWf = true) : (svcCoreSet c pl s).2.memWf = true :=
  memWf_snd_ite h (memWf_snd_ite h (memWf_modCtx (memWf_foldl h fun _ _ ht => memWf_modCore ht coreMemWf_joined)))

@[simp] theorem keepsForm_execCoreSet {path : UmPath} {s : State} (h : s.memWf = true) : KeepsForm (execCoreSet path s) :=
  keepsForm_onPath (memWf_serveSvc (go := fun _ => svcCoreSet) h fun _ _ _ _ ht => memWf_svcCoreSet ht)

/-! ## Registers, invalidation and BAR2 -/

theorem memWf_discards {s : State} (h : s.memWf = true) : s.discards.memWf = true := memWf_frame h rfl rfl

theorem memWf_invalGo {s : State} (h : s.memWf = true) : s.invalGo.memWf = true :=
  memWf_ite (memWf_frame h rfl rfl) (memWf_discards h)

theorem memWf_xlWrite {s : State} {d : DW} (h : s.memWf = true) : (s.xlWrite d).memWf = true :=
  memWf_ite (memWf_frame h rfl rfl) (memWf_ite (memWf_frame h rfl rfl)
    (memWf_ite (memWf_ite (memWf_frame h rfl rfl) (memWf_ite (memWf_discards h) h))
    (memWf_ite (memWf_ite (memWf_discards h) (memWf_frame h rfl rfl))
    (memWf_ite (memWf_ite (memWf_invalGo h) h) (memWf_ite (memWf_frame h rfl rfl) (memWf_ite (memWf_frame h rfl rfl) h))))))

theorem memWf_hostXlWrite {s : State} {d : DW} (h : s.memWf = true) : (s.hostXlWrite d).memWf = true :=
  memWf_ite (memWf_xlWrite h) (memWf_ite (memWf_discards h) h)

theorem memWf_ringReg {s : State} {c n r : Nat} {d : DW} (h : s.memWf = true) : (s.ringReg c n r d).memWf = true :=
  memWf_ite (memWf_ite h (memWf_modRing h)) (memWf_ite (memWf_ite (memWf_modRing h) (memWf_fxRingDisable h))
    (memWf_ite (memWf_modRing h) (memWf_ite (memWf_ite h (memWf_modRing h)) h)))

theorem memWf_windowWrite {s : State} {c : Nat} {d : DW} (h : s.memWf = true) : (s.windowWrite c d).memWf = true :=
  memWf_ite (memWf_svcControl h) (memWf_ite (memWf_modCtx (memWf_wakeBy h))
    (memWf_ite h (memWf_ite (memWf_fxDoorbell h)
    (memWf_ite (memWf_ringWrite h) (memWf_ite (memWf_ringReg (memWf_wakeBy h))
    (memWf_ite (memWf_fxRbdCutCtl (memWf_wakeBy h)) (memWf_modCtx (memWf_wakeBy h))))))))

theorem memWf_svcBytes {s : State} {c o : Nat} {bs : List Byte} (h : s.memWf = true) : (s.svcBytes c o bs).memWf = true :=
  memWf_ite (memWf_frame h rfl rfl) (memWf_modCtx h)

theorem memWf_hostWindow {s : State} {c off width val : Nat} (h : s.memWf = true) : (s.hostWindow c off width val).memWf = true :=
  memWf_ite h (memWf_ite (memWf_svcBytes (memWf_wakeBy h)) (memWf_foldl h (fun _ _ ht => memWf_windowWrite ht)))

theorem memWf_mboxWrite {s : State} {off width val : Nat} (h : s.memWf = true) : (s.mboxWrite off width val).memWf = true :=
  memWf_ite h (memWf_ite (memWf_ite (memWf_frame h rfl rfl) (memWf_frame h rfl rfl))
    (memWf_ite (memWf_frame h rfl rfl) (memWf_foldl h
    (fun _ _ ht => memWf_ite (memWf_fxMgmtMboxGo ht) (memWf_ite (memWf_frame ht rfl rfl) ht)))))

theorem coreMemWf_putStatus {cs : CoreState} {o : Nat} {d : DW} (h : cs.memWf = true) : (cs.putStatus o d).memWf = true :=
  coreMemWf_ite (coreMemWf_frame h rfl rfl) (coreMemWf_ite (coreMemWf_frame h rfl rfl) h)

theorem memWf_fwWrite {s : State} {d : DW} (h : s.memWf = true) : (s.fwWrite d).memWf = true :=
  memWf_ite (memWf_xlWrite h) (memWf_ite (memWf_modCore h (coreMemWf_putStatus (coreMemWf_core h)))
    (memWf_ite (memWf_actFlags h) (memWf_ite (memWf_actFlags h)
    (memWf_ite (memWf_frame h rfl rfl) (memWf_ite (memWf_frame h rfl rfl)
    (memWf_ite (memWf_actFlags h) (memWf_ite (memWf_modCtx h) h)))))))

theorem memWf_fxRegisterWrite {ag : Agent} {off width val : Nat} {s : State} (h : s.memWf = true) :
    (fxRegisterWrite ag off width val s).memWf = true := by
  unfold fxRegisterWrite
  split
  · exact memWf_ite h (memWf_foldl h (fun _ _ ht => memWf_fwWrite ht))
  · exact memWf_ite h (memWf_ite (memWf_foldl h (fun _ _ ht => memWf_hostXlWrite ht))
      (memWf_ite (memWf_mboxWrite h) (memWf_ite (memWf_hostWindow h) h)))
  · exact memWf_ite (memWf_hostWindow h) h

@[simp] theorem keepsForm_execRegisterWrite {ag : Agent} {off width val : Nat} {s : State} (h : s.memWf = true) :
    KeepsForm (execRegisterWrite ag off width val s) := keepsForm_next (memWf_fxRegisterWrite h)

theorem memWf_fxMemPtInvalGo {ag : Agent} {v : BitVec 32} {s : State} (h : s.memWf = true) :
    (fxMemPtInvalGo ag v s).memWf = true := by
  unfold fxMemPtInvalGo
  split
  · exact memWf_ite (memWf_invalGo h) h
  · exact memWf_ite (memWf_discards h) h
  · exact h

@[simp] theorem keepsForm_execMemPtInvalGo {ag : Agent} {val : BitVec 32} {s : State} (h : s.memWf = true) :
    KeepsForm (execMemPtInvalGo ag val s) := keepsForm_next (memWf_fxMemPtInvalGo h)

@[simp] theorem keepsForm_execPtInvalDone {s : State} (h : s.memWf = true) : KeepsForm (execPtInvalDone s) :=
  keepsForm_next (memWf_ite h (memWf_frame h rfl rfl))

theorem memWf_bar2Refuse {s : State} {wr : Bool} (h : s.memWf = true) : (s.bar2Refuse wr).memWf = true :=
  memWf_ite (memWf_frame h rfl rfl) (memWf_emit (memWf_frame h rfl rfl))

theorem memWf_bar2Pf {s : State} {off len : Nat} {wr : Option (List Byte)} (h : s.memWf = true) :
    (s.bar2Pf off len wr).memWf = true := by
  unfold State.bar2Pf
  refine memWf_ite (memWf_bar2Refuse h) ?_
  split
  · exact memWf_memWrite h
  · exact memWf_emit (memWf_memRead h)

theorem memWf_bar2Vf {s : State} {c off len : Nat} {wr : Option (List Byte)} (h : s.memWf = true) :
    (s.bar2Vf c off len wr).memWf = true := by
  unfold State.bar2Vf
  split
  · exact memWf_ite (memWf_bar2Refuse (memWf_vaWrite h)) (memWf_vaWrite h)
  · exact memWf_ite (memWf_bar2Refuse (memWf_vaRead h)) (memWf_emit (memWf_vaRead h))

theorem memWf_fxBar2Access {fn off len : Nat} {wr : Option (List Byte)} {s : State} (h : s.memWf = true) :
    (fxBar2Access fn off len wr s).memWf = true :=
  memWf_ite h (memWf_ite (memWf_bar2Refuse (memWf_wakeBy h))
    (memWf_ite (memWf_bar2Refuse (memWf_wakeBy h)) (memWf_ite (memWf_bar2Pf (memWf_wakeBy h)) (memWf_bar2Vf (memWf_wakeBy h)))))

@[simp] theorem keepsForm_execBar2Access {fn off len : Nat} {wr : Option (List Byte)} {s : State} (h : s.memWf = true) :
    KeepsForm (execBar2Access fn off len wr s) := keepsForm_next (memWf_fxBar2Access h)

/-! ## Accesses by module physical address -/

theorem coreMemWf_behind {new old : CoreState} (h : new.memWf = true) (_hc : old.memWf = true) : (new.behind old).memWf = true :=
  coreMemWf_frame h rfl rfl

theorem memWf_wakeFor {s : State} {L : Nat} (h : s.memWf = true) : (s.wakeFor L).memWf = true :=
  memWf_ite (memWf_modCore h (coreMemWf_wake (coreMemWf_core h))) h

theorem memWf_fwRead {s : State} {w : Window17} {n : Nat} (h : s.memWf = true) : (s.fwRead w n).memWf = true := by
  unfold State.fwRead
  split
  · exact memWf_emit (memWf_setCore (memWf_wakeFor h)
      (coreMemWf_behind (coreMemWf_load (coreMemWf_core (memWf_wakeFor h))) (coreMemWf_core (memWf_wakeFor h))))
  · exact memWf_emit h

theorem memWf_fwWriteAt {s : State} {w : Window17} {bs : List Byte} {poison : Bool} (h : s.memWf = true) :
    (s.fwWriteAt w bs poison).memWf = true := by
  unfold State.fwWriteAt
  split
  · exact memWf_modCore (memWf_wakeFor h) (coreMemWf_behind (coreMemWf_store (coreMemWf_core (memWf_wakeFor h)))
      (coreMemWf_core (memWf_wakeFor h)))
  · exact memWf_foldl h (fun _ _ ht => memWf_fwWrite ht)

theorem memWf_fxMemRead {src pa len : Nat} {e : ReadErrs} {s : State} (h : s.memWf = true) :
    (fxMemRead src pa len e s).memWf = true := by
  unfold fxMemRead
  split
  · exact memWf_ite (memWf_fwRead h) h
  · exact memWf_readStriped h

@[simp] theorem keepsForm_execMemRead {src pa len : Nat} {erasures : ReadErrs} {s : State} (h : s.memWf = true) :
    KeepsForm (execMemRead src pa len erasures s) := keepsForm_next (memWf_fxMemRead h)

theorem memWf_fxMemWrite {src pa : Nat} {bs : List Byte} {poison : Bool} {s : State} (h : s.memWf = true) :
    (fxMemWrite src pa bs poison s).memWf = true := by
  unfold fxMemWrite
  split
  · exact memWf_ite (memWf_fwWriteAt h) h
  · exact memWf_writeStriped h

@[simp] theorem keepsForm_execMemWrite {src pa : Nat} {bs : List Byte} {poison : Bool} {s : State} (h : s.memWf = true) :
    KeepsForm (execMemWrite src pa bs poison s) := keepsForm_next (memWf_fxMemWrite h)

/-! ## What passes without a command -/

theorem memWf_creditCycles {s : State} (h : s.memWf = true) : s.creditCycles.memWf = true := by
  unfold State.creditCycles
  refine memWf_ite h (memWf_foldl h (fun _ _ ht => ?_))
  split
  · exact ht
  · exact memWf_foldl (memWf_dieEvent ht) (fun _ _ ht1 => memWf_forCtx ht1)

theorem memWf_tick {s : State} (h : s.memWf = true) : (tick s).memWf = true :=
  memWf_standbyEnd (memWf_settleDrains (memWf_count (memWf_creditCycles h)))

/-! ## Every command, and every step -/

theorem keepsForm_exec {i : Instr} {s : State} (h : s.memWf = true) : KeepsForm (exec i s) := by
  cases i <;> simp [exec, h]

theorem keepsForm_step {s : State} (h : s.memWf = true) : KeepsForm (step s) := by
  unfold step
  split
  · exact keepsForm_next (memWf_tick h)
  · exact keepsForm_exec (memWf_frame h rfl rfl)

/-- Settles O59: the clock and every command keep the form, by the lemma of each. -/
theorem everyStepKeepsTheMemoriesForm : Obligations.EveryStepKeepsTheMemoriesForm := by
  unfold Obligations.EveryStepKeepsTheMemoriesForm
  exact fun _ t h ht => keepsForm_step h t ht

end Sys2Proof.Laws
end

section
/-! # What a reset leaves (O60), and which commands complete (O58) -/

namespace Sys2Proof.Laws
open Sys2Proof Sys2Proof.Machine

/-- A die's temperature that no reading has set shows the quiet NaN (R325). -/
theorem reset_dieTemp {d : Nat} (h1 : 1 ≤ d) (h13 : d ≤ 13) : State.reset.objVal 0x3200 d = 0x7FC00000 := by
  interval_cases d <;> rfl

/-- Settles O60: each field is read off the reset state. -/
theorem resetLeavesTheModuleEmpty : Obligations.ResetLeavesTheModuleEmpty := by
  unfold Obligations.ResetLeavesTheModuleEmpty
  exact ⟨reset_memWf, rfl, fun _ => ⟨rfl, rfl, fun _ => ⟨rfl, rfl⟩⟩, rfl, fun _ => ⟨rfl, rfl, rfl⟩,
    fun _ => ⟨rfl, rfl, fun _ => rfl⟩, fun _ => reset_dieTemp, rfl, rfl, rfl⟩

/-- A control check of a unit that is no die of the module stops the step. -/
theorem exec_controlCheckFailure_of_no_die {unit : Nat} {lost : Bool} {s : State} (h : dieOk unit = false) :
    exec (.controlCheckFailure unit lost) s = .fault (.noSuchDie unit) := by
  simp [exec, execControlCheckFailure, onDie, h]

/-- Refutes O58: a control check of unit 12 counts as well formed, but the module's dies are 0 to 11, and the step stops with a fault. -/
theorem not_stepTakesTheFrontCommand : ¬ Obligations.StepTakesTheFrontCommand := by
  unfold Obligations.StepTakesTheFrontCommand
  intro h
  obtain ⟨-, -, -, hwf⟩ := h State.reset
  obtain ⟨t, ht⟩ := hwf (.controlCheckFailure 12 false) rfl
  rw [exec_controlCheckFailure_of_no_die (by decide)] at ht
  cases ht

end Sys2Proof.Laws
end

section
/-! # Translation invalidation, register writes and BAR2 (O16) -/

namespace Sys2Proof.Laws
open Sys2Proof Sys2Proof.Machine Sys2Proof.Claim

variable {s : State}

/-! ## MEM_PT_INVAL -/

theorem fxMemPtInvalGo_firmware (h : s.mcOn = true) : fxMemPtInvalGo .firmware 1 s = s.invalGo := by simp [fxMemPtInvalGo, h]

theorem fxMemPtInvalGo_pf {v : BitVec 32} (h : s.mcOn = true) (hl : s.sys.linkUp = true) : fxMemPtInvalGo (.host 0) v s = s.discards := by
  simp [fxMemPtInvalGo, h, hl]

theorem invalGo_of_done (h : s.xl.ptInvalDone = true) : s.invalGo = { s with xl.ptInvalDone := false } := by simp [State.invalGo, h]

theorem invalGo_of_running (h : s.xl.ptInvalDone = false) : s.invalGo = s.discards := by simp [State.invalGo, h]

theorem exec_ptInvalDone_of_running (h : s.xl.ptInvalDone = false) :
    exec .ptInvalDone s = .next { s with xl.tlb := s.xl.tlb.filter (fun t => !s.xl.named t), xl.ptInvalDone := true } := by
  simp [exec, execPtInvalDone, h]

theorem translationInvalidation_holds : translationInvalidation := by
  refine fun s h => ⟨fun hd => ?_, fun hd => ?_, fun hl v => congrArg _ (fxMemPtInvalGo_pf h hl),
    fun hd => ⟨_, exec_ptInvalDone_of_running hd, rfl, fun e he => ?_, fun e he hn => ?_⟩⟩
  · exact congrArg _ ((fxMemPtInvalGo_firmware h).trans (invalGo_of_done hd))
  · exact congrArg _ ((fxMemPtInvalGo_firmware h).trans (invalGo_of_running hd))
  · simpa using (List.mem_filter.mp he).2
  · exact List.mem_filter.mpr ⟨he, by simpa using hn⟩

/-! ## Register writes -/

variable {off w v : Nat}

theorem fxRegisterWrite_firmware (h : s.mcOn = true) :
    fxRegisterWrite .firmware off w v s = (dwords off w v).foldl State.fwWrite s := by simp [fxRegisterWrite, h]

theorem fxRegisterWrite_moduleRegisters (h : s.mcOn = true) (hl : s.sys.linkUp = true) (ho : off < 0x100000) :
    fxRegisterWrite (.host 0) off w v s = (dwords off w v).foldl State.hostXlWrite s := by simp [fxRegisterWrite, h, hl, ho]

theorem fxRegisterWrite_window (h : s.mcOn = true) (hl : s.sys.linkUp = true) (hlo : 0x1000000 ≤ off) (hhi : off < 0x2000000) :
    fxRegisterWrite (.host 0) off w v s = s.hostWindow ((off - 0x1000000) / 0x100000) (off % 0x100000) w v := by
  have h1 : ¬ off < 0x100000 := by omega
  have h2 : ¬ off < 0x200000 := by omega
  simp [fxRegisterWrite, h, hl, h1, h2, hlo, hhi]

theorem fxRegisterWrite_vf {n : Nat} (h0 : 0 < n) (hn : n < 16) (ho : off < 0x100000) :
    fxRegisterWrite (.host n) off w v s = if s.vfOn n then s.hostWindow n off w v else s := by
  obtain ⟨n, rfl⟩ := Nat.exists_eq_succ_of_ne_zero h0.ne'
  simp [fxRegisterWrite, ho, hn]

/-! ## The PF's BAR2 -/

theorem mcOn_of_works (h : s.works = true) : s.mcOn = true ∧ s.pwr.state = 0 := by
  simp only [State.works, State.alive, Bool.and_eq_true, beq_iff_eq] at h
  obtain ⟨⟨⟨⟨⟨⟨hv, hr⟩, -⟩, -⟩, -⟩, -⟩, hp⟩ := h
  exact ⟨by simp [State.mcOn, hv, hr], hp⟩

theorem fxBar2Access_pf {n : Nat} {wr : Option (List Byte)} (hl : s.sys.linkUp = true) (hf : s.vfOn 0 = true)
    (ho : off < 2 ^ 30 * s.sys.bar2Pf) (hw : s.works = true) : fxBar2Access 0 off n wr s = s.bar2Pf off n wr := by
  obtain ⟨hm, hp⟩ := mcOn_of_works hw
  have ho' : decide (2 ^ 30 * s.sys.bar2Pf ≤ off) = false := decide_eq_false (Nat.not_le.mpr ho)
  simp only [fxBar2Access, if_true, ho', hm, hl, hf]
  simp [hp, hw]

theorem bar2Pf_read {n : Nat} (hlo : 2 ^ 32 ≤ s.xl.bar2Base.toNat + off) (hhi : s.xl.bar2Base.toNat + off + n ≤ s.stripedEnd) :
    s.bar2Pf off n none = (s.memRead (s.xl.bar2Base.toNat + off) n).2.emit
      (.bar2Data (s.memRead (s.xl.bar2Base.toNat + off) n).1.bytes) :=
  if_neg (not_or.mpr ⟨Nat.not_lt.mpr hlo, Nat.not_lt.mpr hhi⟩)

theorem bar2Pf_write {n : Nat} {bs : List Byte} (hlo : 2 ^ 32 ≤ s.xl.bar2Base.toNat + off)
    (hhi : s.xl.bar2Base.toNat + off + bs.length ≤ s.stripedEnd) :
    s.bar2Pf off n (some bs) = (s.memWrite (s.xl.bar2Base.toNat + off) bs).2 :=
  if_neg (not_or.mpr ⟨Nat.not_lt.mpr hlo, Nat.not_lt.mpr hhi⟩)

theorem bar2Pf_refused {n : Nat} (h : s.xl.bar2Base.toNat + off < 2 ^ 32) :
    s.bar2Pf off n none = ({ s with xl.bar2Refused := s.xl.bar2Refused + 1 } : State).emit .unsupported :=
  if_pos (Or.inl h)

theorem registerAndBarAccessesAct_holds : registerAndBarAccessesAct := by
  refine fun s off w v h => ⟨congrArg _ (fxRegisterWrite_firmware h), fun hl ho => congrArg _ (fxRegisterWrite_moduleRegisters h hl ho),
    fun hl hlo hhi => congrArg _ (fxRegisterWrite_window h hl hlo hhi), fun n h0 hn ho => congrArg _ (fxRegisterWrite_vf h0 hn ho),
    fun n hl hf ho hw => ⟨fun hlo hhi => ?_, fun bs hlo hhi => ?_, fun hr => ?_⟩⟩
  · exact congrArg _ ((fxBar2Access_pf hl hf ho hw).trans (bar2Pf_read hlo hhi))
  · exact congrArg _ ((fxBar2Access_pf hl hf ho hw).trans (bar2Pf_write hlo hhi))
  · exact congrArg _ ((fxBar2Access_pf hl hf ho hw).trans (bar2Pf_refused hr))

end Sys2Proof.Laws

namespace Sys2Proof.Laws

/-- Settles O16: each access is the effect of its row once its conditions hold. -/
theorem translationAndRegisterAccessesAct : Obligations.TranslationAndRegisterAccessesAct := by
  unfold Obligations.TranslationAndRegisterAccessesAct
  exact ⟨translationInvalidation_holds, registerAndBarAccessesAct_holds⟩

end Sys2Proof.Laws
end


section
/-! # The rank map and the detection of losses (O47) -/

namespace Sys2Proof.Laws
open Sys2Proof Sys2Proof.Machine Sys2Proof.Claim

variable {s : State}

/-! ## The load of the rank map -/

theorem fxRbdRankMap_loads {rq : Req} {m : List (BitVec 32)} (h : s.mcOn = true) (hw : s.writeRefusal rq 0x4006 0 = none)
    (hm : s.mapRefusal m = 0) : fxRbdRankMap rq m s = (s.loadMap ⟨rq.path, []⟩ m).settleLoad := by
  simp [fxRbdRankMap, h, hw, hm]

theorem exec_rankMapInstall_eq {m : RankMapMsg} (h : s.alive = true) (hl : s.didLost m.src = false) :
    exec (.rankMapInstall m) s = .next ((s.takeMap m.map).mgmt m.src Mg.rankMapAck (natLe 4 s.myDid)) := by
  simp [exec, execRankMapInstall, h, hl]

theorem fxRankMapAck_counts {d : Nat} {m : List (BitVec 32)} {acked : NSet} (h : s.mcOn = true) (hr : s.xl.rankLoad = some (m, acked)) :
    fxRankMapAck d s = ({ s with xl.rankLoad := some (m, NSet.insert acked d) } : State).loadSettled := by
  simp [fxRankMapAck, h, hr]

theorem finishLoad_operand {rq : UmReq} {d : Nat} (hq : s.xl.rankLoadReq = some rq) (hb : rq.bs = []) (hr : s.rbd.recRank = none) :
    s.finishLoad d = ({ s with xl.rankLoad := none, xl.rankLoadReq := none } : State).answerTo rq.path d := by
  simp [State.finishLoad, State.endLoad, hq, hb, hr]

theorem exec_rankMapAckTimeout_eq {x : List (BitVec 32) × NSet} (h : s.mcOn = true) (hx : s.xl.rankLoad = some x) :
    exec .rankMapAckTimeout s = .next (s.finishLoad 0x0C) := by
  simp [exec, execRankMapAckTimeout, h, hx]

theorem fxRankMapRequest_asks {p : Nat} {m : List (BitVec 32)} (h : s.alive = true) (hp : s.askPort = some p) (hm : s.xl.rankMap = []) :
    fxRankMapRequest p (some m) s = (s.mgmt (s.port p).peerDid.toNat Mg.rankMapAsk (natLe 4 s.myDid)).installMap m := by
  simp [fxRankMapRequest, h, hp, hm]

theorem rankMapLoads_holds : rankMapLoads := by
  refine fun s => ⟨fun rq m h hw hm => congrArg Host.Outcome.next (fxRbdRankMap_loads h hw hm), fun m h hl => exec_rankMapInstall_eq h hl,
    fun d m acked h hr => congrArg Host.Outcome.next (fxRankMapAck_counts h hr), fun x rq h hx hq hb hr => ?_, fun p m hp h ha hm => ?_⟩
  · rw [exec_rankMapAckTimeout_eq h hx, finishLoad_operand hq hb hr]
  · exact (onPort_eq hp s (fxRankMapRequest p (some m))).trans (congrArg Host.Outcome.next (fxRankMapRequest_asks h ha hm))

/-! ## Heartbeats, suspicions and probes -/

theorem exec_heartbeatSend_eq (h : s.alive = true) (hr : s.sys.regulators = true) : exec .heartbeatSend s =
    .next (s.watchers.foldl (fun (x : State) d => x.mgmt d Mg.heartbeat (natLe 4 x.myDid)) s) := by
  simp [exec, execHeartbeatSend, h, hr]

theorem exec_heartbeat_eq {d : Nat} (h : s.alive = true) (hw : s.watchers.contains d = true) (hl : s.didLost d = false) :
    exec (.heartbeat d) s = .next { s with rbd.beats := Tab.put s.rbd.beats d s.sys.ts } := by
  simp only [exec, execHeartbeat, h, hw, hl]
  rfl

theorem exec_heartbeatTimeout_eq {d : Nat} (h : s.alive = true) (hw : s.watchers.contains d = true) (hl : s.didLost d = false) :
    exec (.heartbeatTimeout d) s = .next (s.tellCoordBut (some d) Mg.suspicion (natLe 4 d)) := by
  simp only [exec, execHeartbeatTimeout, h, hw, hl]
  rfl

theorem exec_probeTimeout_eq {d : Nat} (h : s.alive = true) (hp : s.rbd.probes.contains d = true) :
    exec (.probeTimeout d) s = .next (s.declareLost d) := by
  simp only [exec, execProbeTimeout, h, hp]
  rfl

section
variable {w d : Nat} (h : s.alive = true) (hc : s.isCoordBut d = true) (hd : s.didLost d = false) (hw : s.didLost w = false)
include h hc hd hw

theorem fxSuspicion_first (hr : s.rbd.recState = 0) (hs : s.rbd.suspicions = []) (hp : s.rbd.probes = []) :
    fxSuspicion w d s =
      ({ s with rbd.recState := 1, rbd.recTs := s.sys.ts, rbd.suspicions := [(d, w)], rbd.probes := [d] } : State).probe d := by
  simp [fxSuspicion, h, hc, hd, hw, hr, hs, hp]

theorem fxSuspicion_second {x : Nat} (hr : s.rbd.recState = 1) (hs : s.rbd.suspicions = [(d, x)]) (hx : x ≠ w) :
    fxSuspicion w d s = ({ s with rbd.suspicions := [(d, x), (d, w)] } : State).declareLost d := by
  simp [fxSuspicion, h, hc, hd, hw, hr, hs, hx.symm]

end

theorem event_rbd (c n : Nat) : (s.event c n).rbd = s.rbd := by
  unfold State.event
  refine List.foldlRecOn (motive := fun t : State => t.rbd = s.rbd) _ _ rfl fun t ht i _ => ?_
  dsimp only
  split_ifs <;> exact ht

theorem declareLost_probes (d : Nat) : (s.declareLost d).rbd.probes = s.rbd.probes.filter (· != d) := by
  rw [State.declareLost, State.event2, event_rbd]
  rfl

theorem declareLost_suspicions (d : Nat) : (s.declareLost d).rbd.suspicions = s.rbd.suspicions.filter (fun e => e.1 != d) := by
  rw [State.declareLost, State.event2, event_rbd]
  rfl

theorem lossesAreDetected_holds : lossesAreDetected := by
  refine fun s h => ⟨exec_heartbeatSend_eq h, fun d hw hl => exec_heartbeat_eq h hw hl, fun d hw hl => exec_heartbeatTimeout_eq h hw hl,
    fun w d hc hd hw hr hs hp => congrArg Host.Outcome.next (fxSuspicion_first h hc hd hw hr hs hp),
    fun w x d hc hd hw hr hs hx => ⟨_, congrArg Host.Outcome.next (fxSuspicion_second h hc hd hw hr hs hx), ?_, ?_⟩, fun d hp => exec_probeTimeout_eq h hp⟩
  · simp [declareLost_suspicions]
  · simp [declareLost_probes]

/-- Settles O47: each command is the effect of its row once its conditions hold. -/
theorem rankMapAndLossesAct : Obligations.RankMapAndLossesAct := by
  unfold Obligations.RankMapAndLossesAct
  exact ⟨rankMapLoads_holds, lossesAreDetected_holds⟩

end Sys2Proof.Laws
end

section
/-! # What the units of a core write -/

namespace Sys2Proof.Laws
open Sys2Proof Sys2Proof.Machine

/-! ## A core without what its units write -/

/-- A core without its memories and their marks, its flags, conditions and counts: what no access to tile or accumulator memory changes. -/
def sansMem (cs : CoreState) : CoreState :=
  { cs with
    tm := [], am := [], tmPoison := [], amPoison := [], tmErr := [], amErr := []
    sticky := 0, firm := 0, conds := [], firmConds := [], evCtr := [], ctr := [] }

/-- A core without anything that its vector, reduction, matrix and mover units write: what the sequencer keeps. -/
def sansUnits (cs : CoreState) : CoreState :=
  { sansMem cs with
    a := [], aPoison := [], seed := 0, mode := 0, parts := [], v := [], vPoison := [], vErr := [], m := [], mPoison := [], vl := 0
    lastOpc := 0, lastRed := false }

/-- The same without the queues of the units. -/
def sansQueues (cs : CoreState) : CoreState := { sansUnits cs with inflight := [] }

variable {cs ds : CoreState}

theorem sansUnits_congr (h : sansMem cs = sansMem ds) : sansUnits cs = sansUnits ds :=
  show sansUnits (sansMem cs) = sansUnits (sansMem ds) by rw [h]

theorem sansQueues_congr (h : sansUnits cs = sansUnits ds) : sansQueues cs = sansQueues ds :=
  show sansQueues (sansUnits cs) = sansQueues (sansUnits ds) by rw [h]

/-- What no access to memory changes is read off the rest of the core. -/
theorem field_of_sansMem {γ : Type} (π : CoreState → γ) (h : sansMem cs = sansMem ds) : π (sansMem cs) = π (sansMem ds) :=
  congrArg π h

/-- What no unit writes is read off the rest of the core. -/
theorem field_of_sansUnits {γ : Type} (π : CoreState → γ) (h : sansUnits cs = sansUnits ds) : π (sansUnits cs) = π (sansUnits ds) :=
  congrArg π h

/-- What neither the units nor their queues write is read off the rest of the core. -/
theorem field_of_sansQueues {γ : Type} (π : CoreState → γ) (h : sansQueues cs = sansQueues ds) : π (sansQueues cs) = π (sansQueues ds) :=
  congrArg π h

/-- What every step of a fold keeps, the fold keeps. -/
theorem foldl_kept {α β γ : Type} (π : α → γ) {f : α → β → α} (h : ∀ x b, π (f x b) = π x) (l : List β) (x : α) :
    π (l.foldl f x) = π x :=
  List.foldlRecOn (motive := fun y => π y = π x) l f rfl fun y hy b _ => (h y b).trans hy

/-! ## Flags, conditions and counts -/

@[simp] theorem sansMem_ite {c : Prop} [Decidable c] : sansMem (if c then cs else ds) = if c then sansMem cs else sansMem ds :=
  apply_ite sansMem c cs ds

@[simp] theorem sansMem_setSticky (i : Nat) : sansMem (cs.setSticky i) = sansMem cs := rfl

@[simp] theorem sansMem_note (st : Status) : sansMem (cs.note st) = sansMem cs := by
  unfold CoreState.note
  split <;> rfl

@[simp] theorem sansMem_poisoned : sansMem cs.poisoned = sansMem cs := by simp [CoreState.poisoned]

@[simp] theorem sansMem_poisonRead (n : Nat) : sansMem (cs.poisonRead n) = sansMem cs := by
  unfold CoreState.poisonRead
  split
  · rfl
  · exact sansMem_poisoned

@[simp] theorem sansMem_overflowed (n : Nat) : sansMem (cs.overflowed n) = sansMem cs := by
  unfold CoreState.overflowed
  split <;> rfl

@[simp] theorem sansMem_indexRange (n : Nat) : sansMem (cs.indexRange n) = sansMem cs := by
  unfold CoreState.indexRange
  split <;> rfl

/-! ## Tile and accumulator memory -/

@[simp] theorem sansMem_setLoc (am : Bool) (m : Memory) : sansMem (cs.setLoc am m) = sansMem cs := by cases am <;> rfl
@[simp] theorem sansMem_setLocPoison (am : Bool) (p : NSet) : sansMem (cs.setLocPoison am p) = sansMem cs := by cases am <;> rfl
@[simp] theorem sansMem_setLocErr (am : Bool) (e : Tab Nat) : sansMem (cs.setLocErr am e) = sansMem cs := by cases am <;> rfl

@[simp] theorem sansMem_eccWord (am : Bool) (w : Nat) : sansMem (cs.eccWord am w) = sansMem cs := by
  unfold CoreState.eccWord
  split
  · rfl
  · dsimp only
    split
    · exact sansMem_setLocErr am _
    · simp

@[simp] theorem sansMem_load (am : Bool) (a n : Nat) : sansMem (cs.load am a n).2 = sansMem cs := by
  unfold CoreState.load
  extract_lets ws cs1 p bs
  have hecc : sansMem cs1 = sansMem cs :=
    sansMem_ite.trans (ite_eq_left_iff.mpr fun _ => foldl_kept sansMem (fun _ _ => sansMem_eccWord am _) _ _)
  split
  · exact hecc
  · exact (sansMem_poisonRead _).trans hecc

@[simp] theorem sansMem_store (am : Bool) (a : Nat) (bs : List (Byte × Bool)) : sansMem (cs.store am a bs) = sansMem cs := by
  unfold CoreState.store
  extract_lets n whole ws cs1 any cs2 badAt p cs3
  have h1 : sansMem cs1 = sansMem cs := by
    refine (sansMem_ite).trans (ite_eq_left_iff.mpr fun _ => foldl_kept sansMem (fun x w => ?_) _ _)
    simp
  have h2 : sansMem cs2 = sansMem cs := (sansMem_setLoc am _).trans h1
  have h3 : sansMem cs3 = sansMem cs := (sansMem_setLocPoison am _).trans h2
  simp [h2, h3]

/-! ## The vector unit -/

section
variable (am : Bool) (a n : Nat) (bs : List (Byte × Bool))

@[simp] theorem sansUnits_event : sansUnits (cs.event a n) = sansUnits cs := rfl
@[simp] theorem sansUnits_note (st : Status) : sansUnits (cs.note st) = sansUnits cs := sansUnits_congr (sansMem_note st)
@[simp] theorem sansUnits_overflowed : sansUnits (cs.overflowed n) = sansUnits cs := sansUnits_congr (sansMem_overflowed n)
@[simp] theorem sansUnits_indexRange : sansUnits (cs.indexRange n) = sansUnits cs := sansUnits_congr (sansMem_indexRange n)
@[simp] theorem sansUnits_poisoned : sansUnits cs.poisoned = sansUnits cs := sansUnits_congr sansMem_poisoned
@[simp] theorem sansUnits_poisonRead : sansUnits (cs.poisonRead n) = sansUnits cs := sansUnits_congr (sansMem_poisonRead n)
@[simp] theorem sansUnits_load : sansUnits (cs.load am a n).2 = sansUnits cs := sansUnits_congr (sansMem_load am a n)
@[simp] theorem sansUnits_store : sansUnits (cs.store am a bs) = sansUnits cs := sansUnits_congr (sansMem_store am a bs)

end

@[simp] theorem sansUnits_setA (r v : Nat) (p : Bool) : sansUnits (cs.setA r v p) = sansUnits cs := rfl
@[simp] theorem sansUnits_setPart (p : Nat) (x : Part) : sansUnits (cs.setPart p x) = sansUnits cs := rfl

@[simp] theorem sansUnits_vecPair (r k : Nat) : sansUnits (cs.vecPair r k) = sansUnits cs := by
  unfold CoreState.vecPair
  split
  · rfl
  · dsimp only
    split
    · exact sansUnits_note St.okCorr
    · exact (sansUnits_poisonRead 2).trans (sansUnits_note St.uncorrectable)

@[simp] theorem sansUnits_vecWritten (r w : Nat) (out : List EOut) : sansUnits (cs.vecWritten r w out) = sansUnits cs := by
  unfold CoreState.vecWritten
  split
  · rfl
  · refine foldl_kept sansUnits (fun x k => ?_) _ _
    dsimp only
    split_ifs
    · rfl
    · rfl
    · exact sansUnits_vecPair r k

@[simp] theorem sansUnits_putV (r w : Nat) (out : List EOut) : sansUnits (cs.putV r w out) = sansUnits cs :=
  sansUnits_vecWritten r w out

@[simp] theorem sansUnits_vecMap (f : TileFields) (g : CoreState → Nat → Nat × Bool) : sansUnits (vecMap f g cs) = sansUnits cs :=
  sansUnits_putV _ _ _

@[simp] theorem sansUnits_vecGather (f : TileFields) (size : Nat) (ix tb : Nat → Nat × Bool) :
    sansUnits (vecGather f size ix tb cs) = sansUnits cs := by simp [vecGather]

@[simp] theorem sansUnits_spread (f : TileFields) (g : Nat → Nat × Bool) : sansUnits (cs.spread f g) = sansUnits cs := sansUnits_putV _ _ _

@[simp] theorem sansUnits_bumpA (f : TileFields) (c : Nat) (bad : Bool) : sansUnits (cs.bumpA f c bad) = sansUnits cs := rfl

@[simp] theorem sansUnits_loadElems (am : Bool) (off b : Nat) (is : List Nat) : sansUnits (cs.loadElems am off b is).2 = sansUnits cs := by
  refine sansUnits_congr ((sansMem_poisonRead _).trans ?_)
  exact foldl_kept sansMem (fun _ _ => sansMem_eccWord am _) _ _

@[simp] theorem sansUnits_storeElems (am : Bool) (off b : Nat) (es : List (Nat × Nat × Bool)) :
    sansUnits (cs.storeElems am off b es) = sansUnits cs :=
  foldl_kept sansUnits (fun _ _ => sansUnits_store am _ _) _ _

/-! ## Conversions -/

@[simp] theorem sansUnits_convert (f : Fp.Fmt) (sat sr : Bool) (v : Fp.Val) : sansUnits (cs.convert f sat sr v).2 = sansUnits cs := by
  refine (sansUnits_overflowed _).trans ?_
  cases sr <;> rfl

@[simp] theorem sansUnits_convertInt (n : Nat) (sr : Bool) (v : Fp.Val) : sansUnits (cs.convertInt n sr v).2 = sansUnits cs := by
  refine (sansUnits_overflowed _).trans ?_
  cases sr <;> rfl

@[simp] theorem sansUnits_convertTo (t : Nat) (sat sr : Bool) (v : Fp.Val) : sansUnits (cs.convertTo t sat sr v).2 = sansUnits cs := by
  unfold CoreState.convertTo
  split
  · exact sansUnits_convert _ sat sr v
  · exact sansUnits_convertInt _ sr v

/-! ## The matrix unit -/

@[simp] theorem sansMem_spillOne (w : Window) (i : Nat) : sansMem (cs.spillOne w i) = sansMem cs := by
  refine (sansMem_store _ _ _).trans ((sansMem_store _ _ _).trans ?_)
  split
  · exact sansMem_load _ _ _
  · exact (sansMem_load _ _ _).trans (sansMem_load _ _ _)

@[simp] theorem sansUnits_spill (p : Nat) : sansUnits (cs.spill p) = sansUnits cs := by
  unfold CoreState.spill
  split
  · rfl
  · exact (sansUnits_setPart p _).trans (sansUnits_congr (foldl_kept sansMem (fun _ _ => sansMem_spillOne _ _) _ _))

@[simp] theorem sansUnits_resumeOne (w : Window) (i : Nat) : sansUnits (cs.resumeOne w i) = sansUnits cs := by
  unfold CoreState.resumeOne
  extract_lets n at' acc old sums cs1 r
  have hold : sansUnits old.2 = sansUnits cs := by
    unfold old
    split
    · exact sansUnits_load _ _ _
    · exact (sansUnits_load _ _ _).trans (sansUnits_load _ _ _)
  have h1 : sansUnits cs1 = sansUnits cs := by
    unfold cs1
    split
    · exact hold
    · exact (sansUnits_store _ _ _).trans hold
  have hr : sansUnits r.2 = sansUnits cs :=
    (foldl_kept (fun y : List (Byte × Bool) × CoreState => sansUnits y.2) (fun _ _ => sansUnits_convert _ _ _ _) _ _).trans h1
  exact (sansUnits_store _ _ _).trans hr

@[simp] theorem sansUnits_resume (p : Nat) : sansUnits (cs.resume p) = sansUnits cs := by
  unfold CoreState.resume
  split
  · rfl
  · exact (sansUnits_setPart p _).trans (foldl_kept sansUnits (fun _ _ => sansUnits_resumeOne _ _) _ _)

theorem sansQueues_apart {act : CoreState → CoreState} (h : ∀ ds, sansQueues (act ds) = sansQueues ds) :
    sansQueues (cs.apart act).1 = sansQueues cs := h _

@[simp] theorem sansQueues_spillIfDue (p : Nat) : sansQueues (cs.spillIfDue p) = sansQueues cs := by
  unfold CoreState.spillIfDue
  split
  · rfl
  · split
    · exact sansQueues_congr (sansUnits_spill p)
    · exact sansQueues_apart (fun _ => sansQueues_congr (sansUnits_spill p))

theorem sansQueues_remember (r : CoreState × BitVec 6 × List Status) (old : CoreState) (p : Nat) :
    sansQueues (CoreState.remember r old p) = sansQueues r.1 := rfl

theorem sansQueues_mxuAct (p : Nat) {act : CoreState → CoreState} (h : ∀ ds, sansQueues (act ds) = sansQueues ds) :
    sansQueues (cs.mxuAct p act) = sansQueues cs :=
  (sansQueues_remember _ _ p).trans ((sansQueues_apart h).trans (sansQueues_spillIfDue p))

end Sys2Proof.Laws
end

section
/-! # Vector instructions (O1, O2) -/

namespace Sys2Proof.Laws
open Sys2Proof Sys2Proof.Machine Sys2Proof.Claim

theorem keeps_of_sansQueues {g : CoreState → CoreState} (h : ∀ cs, sansQueues (g cs) = sansQueues cs) : keeps g := fun cs =>
  ⟨field_of_sansQueues CoreState.task (h cs), field_of_sansQueues CoreState.ended (h cs), field_of_sansQueues CoreState.pc (h cs)⟩

theorem keeps_of_sansUnits {g : CoreState → CoreState} (h : ∀ cs, sansUnits (g cs) = sansUnits cs) : keeps g :=
  keeps_of_sansQueues fun cs => sansQueues_congr (h cs)

/-! ## What each shape of vector instruction keeps -/

theorem keeps_vecMap (f : TileFields) (g : CoreState → Nat → Nat × Bool) : keeps (vecMap f g) :=
  keeps_of_sansUnits fun _ => sansUnits_vecMap f g

theorem keeps_vecBin (f : TileFields) (op : Nat → Nat → Nat) : keeps (vecBin f op) := keeps_vecMap f _

theorem keeps_vecUn (f : TileFields) (op : Nat → Nat) : keeps (vecUn f op) := keeps_vecMap f _

theorem keeps_maskOp (f : TileFields) (op : BitVec 256 → BitVec 256 → BitVec 256) (two : Bool) : keeps (maskOp f op two) :=
  fun _ => ⟨rfl, rfl, rfl⟩

theorem keeps_fxMaskA (f : TileFields) (g : List Nat → Nat → Nat) : keeps (fxMaskA f g) := fun _ => ⟨rfl, rfl, rfl⟩

theorem keeps_fxVecCmp (f : TileFields) : keeps (fxVecCmp f) := fun _ => ⟨rfl, rfl, rfl⟩

theorem keeps_vecGather (f : TileFields) (size : CoreState → Nat) (ix tb : CoreState → Nat → Nat × Bool) :
    keeps (fun cs => vecGather f (size cs) (ix cs) (tb cs) cs) :=
  keeps_of_sansUnits fun _ => sansUnits_vecGather f _ _ _

theorem keeps_fxVecPack (f : TileFields) : keeps (fxVecPack f) := keeps_of_sansUnits fun _ => sansUnits_putV _ _ _

theorem keeps_fxVecUnpack (f : TileFields) : keeps (fxVecUnpack f) := keeps_vecMap f _

theorem keeps_fxVecCompress (f : TileFields) : keeps (fxVecCompress f) := keeps_of_sansUnits fun _ => sansUnits_putV _ _ _

theorem keeps_spread (f : TileFields) (g : CoreState → Nat → Nat × Bool) : keeps (fun cs => cs.spread f (g cs)) :=
  keeps_of_sansUnits fun _ => sansUnits_spread f _

theorem keeps_fxVecCvt (f : TileFields) : keeps (fxVecCvt f) := by
  refine keeps_of_sansUnits fun cs => (sansUnits_putV _ _ _).trans ?_
  refine foldl_kept (fun x : List EOut × CoreState => sansUnits x.2) (fun x i => ?_) _ _
  dsimp only
  split
  · exact sansUnits_convertTo _ _ _ _
  · rfl

theorem keeps_newVl (f : TileFields) : keeps (fun cs => { cs with vl := newVl f cs }) := fun _ => ⟨rfl, rfl, rfl⟩

theorem keeps_fxVecLd (f : TileFields) : keeps (fxVecLd f) := keeps_of_sansUnits fun _ => by simp [fxVecLd]

theorem keeps_fxVecLdr (f : TileFields) : keeps (fxVecLdr f) := keeps_of_sansUnits fun _ => by simp [fxVecLdr]

theorem keeps_fxVecSt (f : TileFields) : keeps (fxVecSt f) := keeps_of_sansUnits fun _ => sansUnits_storeElems _ _ _ _

theorem keeps_fxVecCst (f : TileFields) : keeps (fxVecCst f) := keeps_of_sansUnits fun _ => by simp [fxVecCst]

theorem keeps_fxVecXld (f : TileFields) : keeps (fxVecXld f) := keeps_of_sansUnits fun _ => by simp [fxVecXld]

/-! ## The rows -/

theorem vecArithmeticCompletes_holds : vecArithmeticCompletes :=
  ⟨vecRow_of (fun _ _ _ => rfl) fun f => keeps_vecBin f _,
    vecRow_of (fun _ _ _ => rfl) fun f => keeps_vecBin f _,
    vecRow_of (fun _ _ _ => rfl) fun f => keeps_vecBin f _,
    vecRow_of (fun _ _ _ => rfl) fun f => keeps_vecMap f _,
    vecRow_of (fun _ _ _ => rfl) fun f => keeps_vecBin f _,
    vecRow_of (fun _ _ _ => rfl) fun f => keeps_vecBin f _,
    vecRow_of (fun _ _ _ => rfl) fun f => keeps_vecUn f _,
    vecRow_of (fun _ _ _ => rfl) fun f => keeps_vecUn f _,
    vecRow_of (fun _ _ _ => rfl) fun f => keeps_vecBin f _,
    vecRow_of (fun _ _ _ => rfl) fun f => keeps_vecUn f _⟩

theorem vecTranscendentalCompletes_holds : vecTranscendentalCompletes :=
  ⟨vecRow_of (fun _ _ _ => rfl) fun f => keeps_vecUn f _,
    vecRow_of (fun _ _ _ => rfl) fun f => keeps_vecUn f _,
    vecRow_of (fun _ _ _ => rfl) fun f => keeps_vecUn f _,
    vecRow_of (fun _ _ _ => rfl) fun f => keeps_vecUn f _,
    vecRow_of (fun _ _ _ => rfl) fun f => keeps_vecUn f _⟩

theorem vecBitwiseCompletes_holds : vecBitwiseCompletes :=
  ⟨vecRow_of (fun _ _ _ => rfl) fun f => keeps_vecBin f _,
    vecRow_of (fun _ _ _ => rfl) fun f => keeps_vecBin f _,
    vecRow_of (fun _ _ _ => rfl) fun f => keeps_vecBin f _,
    vecRow_of (fun _ _ _ => rfl) fun f => keeps_vecBin f _,
    vecRow_of (fun _ _ _ => rfl) fun f => keeps_vecBin f _,
    vecRow_of (fun _ _ _ => rfl) fun f => keeps_vecBin f _,
    vecRow_of (fun _ _ _ => rfl) fun f => keeps_vecMap f _,
    vecRow_of (fun _ _ _ => rfl) fun f => keeps_vecMap f _,
    vecRow_of (fun _ _ _ => rfl) fun f => keeps_vecMap f _⟩

theorem vecMaskCompletes_holds : vecMaskCompletes :=
  ⟨vecRow_of (fun _ _ _ => rfl) keeps_fxVecCmp,
    vecRow_of (fun _ _ _ => rfl) fun f => keeps_maskOp f _ _,
    vecRow_of (fun _ _ _ => rfl) fun f => keeps_maskOp f _ _,
    vecRow_of (fun _ _ _ => rfl) fun f => keeps_maskOp f _ _,
    vecRow_of (fun _ _ _ => rfl) fun f => keeps_maskOp f _ _,
    vecRow_of (fun _ _ _ => rfl) fun f => keeps_fxMaskA f _,
    vecRow_of (fun _ _ _ => rfl) fun f => keeps_fxMaskA f _⟩

theorem vecPermuteCompletes_holds : vecPermuteCompletes :=
  ⟨vecRow_of (fun _ _ _ => rfl) fun f => keeps_vecGather f _ _ _,
    vecRow_of (fun _ _ _ => rfl) fun f => keeps_vecGather f _ _ _,
    vecRow_of (fun _ _ _ => rfl) fun f => keeps_vecGather f _ _ _,
    vecRow_of (fun _ _ _ => rfl) keeps_fxVecPack,
    vecRow_of (fun _ _ _ => rfl) keeps_fxVecUnpack,
    vecRow_of (fun _ _ _ => rfl) keeps_fxVecCompress,
    vecRow_of (fun _ _ _ => rfl) fun f => keeps_spread f _,
    vecRow_of (fun _ _ _ => rfl) keeps_fxVecCvt⟩

theorem vecMemoryCompletes_holds : vecMemoryCompletes :=
  ⟨vecRow_of (fun _ _ _ => rfl) keeps_newVl,
    vecRow_of (fun _ _ _ => rfl) keeps_fxVecLd,
    vecRow_of (fun _ _ _ => rfl) keeps_fxVecLdr,
    vecRow_of (fun _ _ _ => rfl) keeps_fxVecSt,
    vecRow_of (fun _ _ _ => rfl) keeps_fxVecCst,
    vecRow_of (fun _ _ _ => rfl) keeps_fxVecXld⟩

/-- Settles O1: each row is its issue to the vector unit, whose effect keeps the sequencer's registers. -/
theorem vectorElementsComplete : Obligations.VectorElementsComplete := by
  unfold Obligations.VectorElementsComplete
  exact ⟨vecArithmeticCompletes_holds, vecTranscendentalCompletes_holds, vecBitwiseCompletes_holds, vecMaskCompletes_holds⟩

/-- Settles O2: as O1, for the rows that permute, convert and access memory. -/
theorem vectorMovesComplete : Obligations.VectorMovesComplete := by
  unfold Obligations.VectorMovesComplete
  exact ⟨vecPermuteCompletes_holds, vecMemoryCompletes_holds⟩

end Sys2Proof.Laws
end

section
/-! # Matrix instructions (O8) -/

namespace Sys2Proof.Laws
open Sys2Proof Sys2Proof.Machine Sys2Proof.Claim

variable {cs : CoreState}

/-! ## What the effects of the matrix unit keep -/

theorem sansUnits_expandElem (f : TileFields) (mode k c : Nat) (q : Nat × Bool) (aux : List (Byte × Bool)) :
    sansUnits (expandElem f mode k c q aux cs).2 = sansUnits cs := by
  unfold expandElem
  split
  · rfl
  · rfl
  · dsimp only
    split
    · exact sansUnits_convert _ _ _ _
    · exact sansUnits_convert _ _ _ _

theorem sansUnits_ldbRow (f : TileFields) (mode k : Nat) (aux : List (Byte × Bool)) (x : Tab Nat × NSet × CoreState) :
    sansUnits (ldbRow f mode k aux x).2.2 = sansUnits x.2.2 := by
  unfold ldbRow
  extract_lets n w r num
  refine (foldl_kept (fun y : Tab Nat × NSet × CoreState => sansUnits y.2.2) (fun y c => ?_) _ _).trans (sansUnits_load _ _ _)
  exact sansUnits_expandElem f mode k c _ aux

theorem sansUnits_fxMxuLdb (f : TileFields) : sansUnits (fxMxuLdb f cs) = sansUnits cs := by
  unfold fxMxuLdb
  extract_lets mode k n aux r sc tsBad pois set cs1
  have hr : sansUnits r.2.2 = sansUnits cs :=
    (foldl_kept (fun y : Tab Nat × NSet × CoreState => sansUnits y.2.2) (fun y i => sansUnits_ldbRow f mode i aux.1 y) _ _).trans
      (sansUnits_load _ _ _)
  have h1 : sansUnits cs1 = sansUnits cs := by
    unfold cs1
    split
    · exact sansUnits_poisoned.trans hr
    · exact hr
  exact (sansUnits_event _ _).trans ((sansUnits_setPart _ _).trans h1)

theorem sansUnits_passRow (f : TileFields) (t : Option StatSet) (i : Nat) : sansUnits (passRow f t i cs) = sansUnits cs := by
  unfold passRow
  extract_lets mode fmt k w row sc num rowPois aval T at' acc r
  have hsc : sansUnits sc.2 = sansUnits cs := by
    unfold sc
    split
    · exact (sansUnits_load _ _ _).trans (sansUnits_load _ _ _)
    · exact sansUnits_load _ _ _
  have hacc : sansUnits acc.2 = sansUnits cs := by
    unfold acc
    split
    · exact hsc
    · exact (sansUnits_load _ _ _).trans hsc
  have hr : sansUnits r.2 = sansUnits acc.2 :=
    foldl_kept (fun y : List (Byte × Bool) × CoreState => sansUnits y.2) (fun _ _ => sansUnits_convert _ _ _ _) _ _
  exact (sansUnits_store _ _ _).trans (hr.trans hacc)

theorem sansUnits_fxMxuPass (f : TileFields) : sansUnits (fxMxuPass f cs) = sansUnits cs := by
  unfold fxMxuPass
  extract_lets p x cs1 t cs2 cs3
  have h1 : sansUnits cs1 = sansUnits cs := by
    unfold cs1
    split <;> rfl
  have h2 : sansUnits cs2 = sansUnits cs := (foldl_kept sansUnits (fun _ _ => sansUnits_passRow f t _) _ _).trans h1
  have h3 : sansUnits cs3 = sansUnits cs := h2
  split
  · exact h3
  · exact (sansUnits_setPart _ _).trans h3

theorem sansUnits_epilogue (f : TileFields) (a s b : Nat) : sansUnits (epilogue f a s b cs).2 = sansUnits cs := by
  unfold epilogue
  dsimp only
  split_ifs
  · exact sansUnits_convert _ _ _ _
  · exact sansUnits_convert _ _ _ _
  · exact sansUnits_convert _ _ _ _
  · rfl
  · rfl

theorem sansUnits_fp4Block (f : TileFields) (us : List Nat) : sansUnits (fp4Block f us cs).2 = sansUnits cs := by
  refine (foldl_kept (fun y : List Nat × CoreState => sansUnits y.2) (fun x u => ?_) _ _).trans (sansUnits_overflowed _)
  dsimp only
  split <;> rfl

theorem sansUnits_outRow (f : TileFields) (sv bv : List (Byte × Bool)) (i : Nat) : sansUnits (outRow f sv bv i cs) = sansUnits cs := by
  unfold outRow
  extract_lets n at' d acc w pois us b bad r cs1
  have hus : sansUnits us.2 = sansUnits cs :=
    (foldl_kept (fun y : List Nat × CoreState => sansUnits y.2) (fun _ _ => sansUnits_epilogue f _ _ _) _ _).trans (sansUnits_load _ _ _)
  have h1 : sansUnits cs1 = sansUnits cs := by
    unfold cs1
    split
    · exact (sansUnits_store _ _ _).trans ((sansUnits_store _ _ _).trans ((sansUnits_fp4Block f _).trans hus))
    · exact (sansUnits_store _ _ _).trans
        ((foldl_kept (fun y : List Nat × CoreState => sansUnits y.2) (fun _ _ => sansUnits_convertTo _ _ _ _) _ _).trans hus)
  split
  · exact (sansUnits_store _ _ _).trans h1
  · exact h1

theorem sansUnits_fxMxuOut (f : TileFields) : sansUnits (fxMxuOut f cs) = sansUnits cs := by
  unfold fxMxuOut
  extract_lets n sv bv
  have hsv : sansUnits sv.2 = sansUnits cs := by
    unfold sv
    split
    · exact sansUnits_load _ _ _
    · rfl
  have hbv : sansUnits bv.2 = sansUnits cs := by
    unfold bv
    split
    · exact (sansUnits_load _ _ _).trans hsv
    · exact hsv
  exact (foldl_kept sansUnits (fun _ _ => sansUnits_outRow f _ _ _) _ _).trans hbv

theorem sansQueues_setMode (m : Nat) (ps : Tab Part) : sansQueues { cs with mode := m, parts := ps } = sansQueues cs := rfl

theorem sansQueues_spills : sansQueues ((List.range 4).foldl (fun (cs : CoreState) p => cs.spillIfDue p) cs) = sansQueues cs :=
  foldl_kept sansQueues (fun _ p => sansQueues_spillIfDue p) _ _

/-! ## The rows -/

/-- A row of MXU, from its meaning. -/
theorem mxuRow_of {mk opc ok plan act} (he : ∀ L f s, exec (mk L f) s = onCore L s (fun s => s.issueMxu L opc f (ok f) (plan f) (act f)))
    (hk : ∀ f cs, sansQueues (act f cs) = sansQueues cs) : mxuRow mk opc ok plan act := by
  intro s L f hcf hok h
  rw [he, onCore_eq h.1.1]
  exact congrArg _ (issue_after s L 1 opc f (cfOk f && ok f) .mxu (fun s => plan f (s.core L)) _ (by simp [hcf, hok]) h
    (keeps_of_sansQueues fun _ => sansQueues_mxuAct _ (hk f)))

/-- Settles O8: each row is its issue to the matrix unit, whose effect keeps the sequencer's registers, the spill before it included. -/
theorem matrixInstructionsComplete : Obligations.MatrixInstructionsComplete := by
  unfold Obligations.MatrixInstructionsComplete
  exact ⟨mxuRow_of (fun _ _ _ => rfl) fun _ _ => (sansQueues_setMode _ _).trans sansQueues_spills,
    mxuRow_of (fun _ _ _ => rfl) fun f _ => sansQueues_congr (sansUnits_fxMxuLdb f),
    mxuRow_of (fun _ _ _ => rfl) fun f _ => sansQueues_congr (sansUnits_fxMxuPass f),
    mxuRow_of (fun _ _ _ => rfl) fun _ _ => sansQueues_congr (sansUnits_setPart _ _),
    mxuRow_of (fun _ _ _ => rfl) fun _ _ => sansQueues_congr (sansUnits_spill _),
    mxuRow_of (fun _ _ _ => rfl) fun _ _ => sansQueues_congr (sansUnits_resume _),
    mxuRow_of (fun _ _ _ => rfl) fun f _ => sansQueues_congr (sansUnits_fxMxuOut f)⟩

end Sys2Proof.Laws
end

section
/-! # Control instructions (O3, O4, O5, O6, O7) -/

namespace Sys2Proof.Laws
open Sys2Proof Sys2Proof.Machine Sys2Proof.Claim

/-! ## Writes of registers -/

/-- Settles O3: each row is its issue to the sequencer, whose effect writes the register that it names. -/
theorem ctlRegisterWritesComplete : Obligations.CtlRegisterWritesComplete := by
  unfold Obligations.CtlRegisterWritesComplete
  exact ⟨ctlRow_of (fun _ _ => id) (fun _ _ _ => rfl) (fun _ _ _ => rfl) fun _ _ => rfl,
    ctlRow_of (fun _ f cs => cs.setL (ctlDA f) (ctlImm f)) (fun _ _ _ => rfl) (fun _ _ _ => rfl) fun _ _ => rfl,
    ctlRow_of (fun _ f cs => cs.setA (ctlDA f) (ctlImm f) false) (fun _ _ _ => rfl) (fun _ _ _ => rfl) fun _ _ => rfl,
    ctlRow_of (fun _ f cs => { cs with seed := BitVec.ofNat 32 (ctlImm f) }) (fun _ _ _ => rfl) (fun _ _ _ => rfl) fun _ _ => rfl,
    ctlRow_of (fun _ f cs => cs.setL (ctlDA f) (cs.A (ctlSA f))) (fun _ _ _ => rfl) (fun _ _ _ => rfl) fun _ _ => rfl,
    ctlRow_of (fun _ f cs => { cs with
      p := condHolds (ctlCond f) (cs.A (ctlSA f)) (if ctlCond f < 8 then cs.A (ctlSB f) else ctlImm f) })
      (fun _ _ _ => rfl) (fun _ _ _ => rfl) fun _ _ => rfl⟩

/-! ## Arithmetic on registers -/

variable {s : State} {L opc : Nat} {f : TileFields}

section
variable {mk : Nat → TileFields → Instr} {ok : Bool} {plan : State → Plan}

/-- A control instruction that issues acts. -/
theorem exec_issueCtl {act : State → State} (he : exec (mk L f) s = onCore L s (fun s => s.issueCtl L opc f ok plan act))
    (hok : ok = true) (h : readyCtl s L opc f (plan s)) : exec (mk L f) s = .next (act (s.modCore L CoreState.issued)) := by
  rw [he, onCore_eq h.1.1, issueCtl_go s L opc f ok plan act hok h]

/-- A control instruction that changes its core by `g` and moves on: its core after it. -/
theorem exec_seqOp {g : CoreState → CoreState} (he : exec (mk L f) s = onCore L s (fun s => s.issueCtl L opc f ok plan (State.seqOp L g)))
    (hok : ok = true) (h : readyCtl s L opc f (plan s)) (hk : ∀ cs, seqKey (g cs) = seqKey cs) :
    exec (mk L f) s = .next (s.setCore L { g (s.core L).issued with pc := (s.core L).pc + 1 }) := by
  rw [he, onCore_eq h.1.1, ctl_seq s L opc f ok plan g hok h hk]

end

theorem ofNat_toNat_add (w : Nat) (x : BitVec w) (n : Nat) : BitVec.ofNat w (x.toNat + n) = x + BitVec.ofNat w n := by
  rw [BitVec.ofNat_add, BitVec.ofNat_toNat, BitVec.setWidth_eq]

/-- ctl.loop from 1: the counter is 0, and PC moves on. -/
theorem fxCtlLoop_of_one {k : TaskInfo} (hl : (s.core L).L (ctlDA f) = 1) (ht : (s.core L).task = some k) (he : (s.core L).ended = none)
    (hpc : (s.core L).pc + 1 < k.codeLen) :
    fxCtlLoop L f s = s.setCore L { (s.core L).setL (ctlDA f) 0 with pc := (s.core L).pc + 1 } := by
  have hgo : fxCtlLoop L f s = State.seqOp L (fun cs => cs.setL (ctlDA f) 0) s := by simp [fxCtlLoop, State.seqOp, hl]
  rw [hgo, seqOp_eq s L _ k rfl ht he hpc]

/-- Settles O4: the registers hold the sums as their widths wrap them. -/
theorem registerArithmeticWraps : Obligations.RegisterArithmeticWraps := by
  unfold Obligations.RegisterArithmeticWraps
  refine fun s L f => ⟨fun hok h => ⟨_, exec_seqOp rfl hok h (fun _ => rfl), ?_⟩,
    fun hok h => ⟨_, exec_seqOp rfl hok h (fun _ => rfl), ?_⟩, fun hok h hl => ?_⟩
  · rw [core_setCore]
    exact ⟨(get_put _ _ _ _).trans (ofNat_toNat_add 48 _ _), rfl, rfl⟩
  · rw [core_setCore]
    refine ⟨(get_put _ _ _ _).trans ((ofNat_toNat_add 48 _ _).trans ?_), rfl, rfl⟩
    rw [CoreState.A, BitVec.ofNat_toNat, BitVec.setWidth_eq]
    rfl
  · obtain ⟨k, ht, hpc⟩ := h.2.2.1
    refine ⟨_, exec_issueCtl (opc := 0x03) (act := fxCtlLoop L f) (plan := fun _ => {}) rfl hok h, ?_⟩
    have hone : ((s.modCore L CoreState.issued).core L).L (ctlDA f) = 1 := by
      rw [core_modCore]
      exact congrArg BitVec.toNat hl
    rw [fxCtlLoop_of_one hone (k := k), core_modCore, core_setCore]
    · exact ⟨get_put _ _ _ _, rfl, rfl, rfl⟩
    all_goals rw [core_modCore]
    · exact ht
    · exact ready_ended h
    · exact hpc

/-! ## Branches -/

section
variable {k : TaskInfo} {t : Int} (ht : (s.core L).task = some k) (he : (s.core L).ended = none)
include ht he

theorem goto_inside (h0 : 0 ≤ t) (hlen : t < k.codeLen) : s.goto L t = s.setCore L { s.core L with pc := t.toNat } := by
  simp [State.goto, State.modCore, ht, he, h0, hlen]

theorem goto_outside (h : t < 0 ∨ (k.codeLen : Int) ≤ t) : s.goto L t = s.endTask L St.invalid := by
  simp only [State.goto, ht, he, if_pos h]
  rfl

end

/-- ctl.loop while its counter has not run out: the counter is one less, and the branch is taken. -/
theorem fxCtlLoop_of_two_le (h : 2 ≤ (s.core L).L (ctlDA f)) : fxCtlLoop L f s =
    (s.modCore L (fun cs => cs.setL (ctlDA f) ((s.core L).L (ctlDA f) - 1))).goto L ((s.core L).pc + branchOff f) := by
  have h0 : (s.core L).L (ctlDA f) ≠ 0 := by omega
  simp only [fxCtlLoop, if_neg h0, if_pos h, core_modCore]
  rfl

theorem branchesMovePc_holds : branchesMovePc := by
  refine fun s L f k ht => ⟨fun hok h => ⟨fun h0 hlen => ?_, fun hout => ?_⟩, fun hok h hl h0 hlen => ?_⟩
  · rw [exec_issueCtl (opc := 0x02) (plan := fun _ => {}) (act := fun s => s.goto L ((s.core L).pc + branchOff f)) rfl hok h, core_modCore]
    exact congrArg _ ((goto_inside (by rwa [core_modCore]) (by rw [core_modCore]; exact ready_ended h) h0 hlen).trans
      (by simp only [State.modCore, core_setCore, setCore_setCore]))
  · rw [exec_issueCtl (opc := 0x02) (plan := fun _ => {}) (act := fun s => s.goto L ((s.core L).pc + branchOff f)) rfl hok h, core_modCore]
    exact congrArg _ (goto_outside (by rwa [core_modCore]) (by rw [core_modCore]; exact ready_ended h) hout)
  · rw [exec_issueCtl (opc := 0x03) (plan := fun _ => {}) (act := fxCtlLoop L f) rfl hok h,
      fxCtlLoop_of_two_le (by rw [core_modCore]; exact hl), core_modCore]
    exact congrArg _ ((goto_inside (by simp only [core_modCore]; exact ht) (by simp only [core_modCore]; exact ready_ended h) h0 hlen).trans
      (by simp only [State.modCore, core_setCore, setCore_setCore]; rfl))

/-! ## Tile memory and fences -/

section
variable {cs : CoreState} {am : Bool} (he : cs.locErr am = []) (hp : cs.locPoison am = [])
include he hp

/-- A read where no mark stands. -/
theorem load_clean (a n : Nat) : cs.load am a n = (((cs.loc am).readN a n).map (fun b => (b, false)), cs) := by
  simp [CoreState.load, he, hp]

/-- A write of clean bytes where no mark stands. -/
theorem store_clean (a : Nat) {bs : List (Byte × Bool)} (hb : bs.any (·.2) = false) :
    cs.store am a bs = cs.setLoc am ((cs.loc am).writeN a (bs.map (·.1))) := by
  have hp' : ∀ m, (cs.setLoc am m).locPoison am = [] := by
    intro m
    rw [← hp]
    cases am <;> rfl
  simp [CoreState.store, he, hb, hp']

end

theorem map_fst_clean (bs : List Byte) : (bs.map (fun b => (b, false))).map (·.1) = bs := by
  simp [Function.comp_def]

theorem bytesP_any (n v : Nat) : (bytesP n v false).any (·.2) = false := by simp [bytesP]

theorem bytesP_bytes (n v : Nat) (p : Bool) : (bytesP n v p).map (·.1) = natLe n v := by
  simp [bytesP, Function.comp_def]

theorem leP_clean (bs : List Byte) : leP (bs.map (fun b => (b, false))) = (leNat bs, false) := by
  simp [leP, Function.comp_def]

theorem tileWordCheck_none {off : Nat} (h : off % 8 = 0 ∧ off < 0x600000) : tileWordCheck off = none := if_pos h

/-- What ctl.lda does to its core. -/
def ldaEffect (f : TileFields) (cs : CoreState) : CoreState :=
  let r := cs.load false (ctlOff cs f) 8
  let v := leP r.1
  r.2.setA (ctlDA f) v.1 v.2

/-- What ctl.sta does to its core. -/
def staEffect (f : TileFields) (cs : CoreState) : CoreState :=
  cs.store false (ctlOff cs f) (bytesP 8 (cs.A (ctlDA f)) (cs.Ap (ctlDA f)))

theorem seqKey_ldaEffect (cs : CoreState) : seqKey (ldaEffect f cs) = seqKey cs :=
  field_of_sansQueues seqKey (sansQueues_congr (sansUnits_load (cs := cs) _ _ _))

theorem seqKey_staEffect (cs : CoreState) : seqKey (staEffect f cs) = seqKey cs :=
  field_of_sansQueues seqKey (sansQueues_congr (sansUnits_store (cs := cs) _ _ _))

section
variable {cs : CoreState} (he : cs.tmErr = []) (hp : cs.tmPoison = [])
include he hp

theorem ldaEffect_clean : ldaEffect f cs = cs.setA (ctlDA f) (leNat (cs.tm.readN (ctlOff cs f) 8)) false := by
  unfold ldaEffect
  rw [load_clean (am := false) he hp]
  simp only [leP_clean]
  rfl

theorem staEffect_clean (hA : cs.Ap (ctlDA f) = false) :
    staEffect f cs = { cs with tm := cs.tm.writeN (ctlOff cs f) (natLe 8 (cs.A (ctlDA f))) } := by
  unfold staEffect
  rw [hA, store_clean (am := false) he hp _ (bytesP_any 8 _), bytesP_bytes]
  rfl

end

/-- ctl.fence where nothing holds it: it looks at its units. -/
theorem fxCtlFence_go (hok : (ctlOk f && bits f 47 6 == 0) = true) (h : readyCtl s L 0x0B f {}) : fxCtlFence L f s =
    if s.fenceDone L (ctlImm f) then State.seqOp L CoreState.issued s else s.stall L (fun cs => { cs with stallFence := true }) :=
  front_go s L 5 0x0B f _ .seq {} _ hok h

theorem ctlMemoryAndFenceComplete_holds : ctlMemoryAndFenceComplete := by
  refine ⟨fun s L f hok hte htp hoff => ⟨fun h => ?_, fun hA h => ?_⟩, fun s L f hok h => ⟨fun hd => ?_, fun hd => ?_⟩⟩
  · rw [← tileWordCheck_none hoff] at h
    refine ⟨_, exec_seqOp (opc := 0x09) (g := ldaEffect f) rfl hok h seqKey_ldaEffect, ?_⟩
    rw [core_setCore, ldaEffect_clean (cs := (s.core L).issued) hte htp]
    exact ⟨get_put _ _ _ _, rfl, rfl⟩
  · rw [← tileWordCheck_none hoff] at h
    refine ⟨_, exec_seqOp (opc := 0x0A) (g := staEffect f) rfl hok h seqKey_staEffect, ?_⟩
    rw [core_setCore, staEffect_clean (cs := (s.core L).issued) hte htp hA]
    exact ⟨rfl, rfl, rfl⟩
  · obtain ⟨k, ht, hpc⟩ := h.2.2.1
    refine (onCore_eq h.1.1 s _).trans (congrArg _ ?_)
    rw [fxCtlFence_go hok h, if_pos hd]
    exact seqOp_eq s L CoreState.issued k rfl ht (ready_ended h) hpc
  · refine ⟨_, onCore_eq h.1.1 s _, ?_⟩
    rw [fxCtlFence_go hok h, hd, if_neg Bool.false_ne_true, State.stall, core_modCore]
    exact ⟨rfl, rfl⟩

/-- Settles O5: each row is its issue to the sequencer, and its effect on PC, on its register or on tile memory. -/
theorem controlFlowAndMemoryComplete : Obligations.ControlFlowAndMemoryComplete := by
  unfold Obligations.ControlFlowAndMemoryComplete
  exact ⟨branchesMovePc_holds, ctlMemoryAndFenceComplete_holds⟩

/-! ## The end of a task -/

theorem findCmd_modCmd {k : CmdKey} {g : Cmd → Cmd} (hg : ∀ m, (g m).key = m.key) : (s.modCmd k g).findCmd k = (s.findCmd k).map g := by
  have hkey : (fun m : Cmd => m.key == k) ∘ (fun m => if m.key == k then g m else m) = fun m => m.key == k := by
    funext m
    simp only [Function.comp_apply]
    split <;> simp [hg]
  simp only [State.findCmd, State.modCmd, ctx_modCtx, List.find?_map, hkey]
  refine Option.map_congr fun m hm => ?_
  rw [if_pos (List.find?_some hm)]

@[simp] theorem findCmd_setCore (x : CoreState) (k : CmdKey) : (s.setCore L x).findCmd k = s.findCmd k := rfl

@[simp] theorem modCore_modCore (g h : CoreState → CoreState) : (s.modCore L g).modCore L h = s.modCore L (h ∘ g) := by
  simp [State.modCore]

theorem settle_of_drained (he : (s.core L).ended.isSome = true) (hd : s.drained L = true) : s.settle L = s.finishTask L := by
  simp [State.settle, he, hd]

theorem settle_of_not_drained (hd : s.drained L = false) : s.settle L = s := by simp [State.settle, hd]

/-- What a task that has reported leaves: the core is free, and its command waits for one task fewer. -/
theorem finishTask_frees {k : TaskInfo} (ht : (s.core L).task = some k) : ((s.finishTask L).core L).task = none ∧
    ∀ m, s.findCmd k.key = some m → ∃ m', (s.finishTask L).findCmd k.key = some m' ∧ m'.tasksLeft = m.tasksLeft - 1 := by
  simp only [State.finishTask, ht, core_setCore, true_and]
  intro m hm
  rw [findCmd_setCore, findCmd_modCmd (g := fun m => m.report _ _ _) fun _ => rfl, hm]
  exact ⟨_, rfl, rfl⟩

theorem issuing_of_no_task (h : (s.core L).task = none) : s.issuing L = false := by simp [State.issuing, h]

theorem issuing_of_ended (h : (s.core L).ended.isSome = true) : s.issuing L = false := by
  simp [State.issuing, Option.isNone_eq_false_iff.mpr h]

/-- A change of a core that leaves what is outstanding leaves whether it is drained. -/
theorem drained_modCore {g : CoreState → CoreState} (hi : (g (s.core L)).inflight = (s.core L).inflight)
    (hh : (g (s.core L)).hoistsOut = (s.core L).hoistsOut) (hp : (g (s.core L)).putsOut = (s.core L).putsOut)
    (hr : (g (s.core L)).rebindDue = (s.core L).rebindDue) : (s.modCore L g).drained L = s.drained L := by
  simp only [State.drained, core_modCore, hi, hh, hp, hr]
  rfl

theorem stop_ok {cs : CoreState} (he : cs.ended = none) : cs.stop St.ok = { cs with
    ended := some St.ok, enqHold := false, stallQueue := false, stallScore := false, stallEnq := false, stallFence := false } := by
  simp [CoreState.stop, he]

/-- A task that ctl.end ends reports if it is drained, and otherwise stays, stopped. -/
theorem endTask_ok {k : TaskInfo} (ht : (s.core L).task = some k) (he : (s.core L).ended = none) :
    (s.endTask L St.ok).issuing L = false ∧
    (s.drained L = true → ((s.endTask L St.ok).core L).task = none ∧
      ∀ m, s.findCmd k.key = some m → ∃ m', (s.endTask L St.ok).findCmd k.key = some m' ∧ m'.tasksLeft = m.tasksLeft - 1) ∧
    (s.drained L = false → ((s.endTask L St.ok).core L).task = some k ∧ ((s.endTask L St.ok).core L).ended = some St.ok) := by
  have hcore := core_modCore s L (fun cs => cs.stop St.ok)
  have hdr : (s.modCore L (fun cs => cs.stop St.ok)).drained L = s.drained L := by
    apply drained_modCore <;> rw [stop_ok he]
  rw [stop_ok he] at hcore
  unfold State.endTask
  by_cases hd : s.drained L = true
  · rw [settle_of_drained (by rw [hcore]; rfl) (hdr.trans hd)]
    obtain ⟨hfree, hcmd⟩ := finishTask_frees (L := L) (k := k) (by rw [hcore]; exact ht)
    exact ⟨issuing_of_no_task hfree, fun _ => ⟨hfree, hcmd⟩, fun hn => absurd hd (by simp [hn])⟩
  · rw [settle_of_not_drained (hdr.trans ((Bool.not_eq_true _).mp hd))]
    refine ⟨issuing_of_ended (by rw [hcore]; rfl), fun hn => absurd hn hd, fun _ => ?_⟩
    rw [hcore]
    exact ⟨ht, rfl⟩

theorem ctlEndEndsTheTask_holds : ctlEndEndsTheTask := by
  intro s L f k hok h ht
  refine ⟨_, exec_issueCtl (opc := 0x01) (plan := fun _ => {}) (act := fun s => s.endTask L St.ok) rfl hok h, ?_⟩
  rw [← drained_modCore (s := s) (L := L) (g := CoreState.issued) rfl rfl rfl rfl]
  exact endTask_ok (by rw [core_modCore]; exact ht) (by rw [core_modCore]; exact ready_ended h)

/-- An ill-formed word at PC ends its task. -/
theorem front_invalid {w : TileWord} {go : State → State} (hi : s.issuing L = true) (ha : (s.core L).acqHold = false)
    (hw : Tab.get 0 (s.core L).code (s.core L).pc = w) (he : Tab.get 0 (s.core L).imemErr (s.core L).pc = 0) :
    s.front L w f false go = s.endTask L St.invalid := by
  subst hw
  simp [State.front, hi, ha, he]

theorem undefinedInstructionEndsTheTask_holds : undefinedInstructionEndsTheTask := by
  refine fun s L w hc hi ha hw he hd => (onCore_eq hc s _).trans (congrArg _ ?_)
  rw [fxUndefined, hd, if_neg Bool.false_ne_true, front_invalid hi ha hw he]

/-- Settles O6: ctl.end stops its core, which reports once drained; an undefined word is refused at decode. -/
theorem tasksEnd : Obligations.TasksEnd := by
  unfold Obligations.TasksEnd
  exact ⟨ctlEndEndsTheTask_holds, undefinedInstructionEndsTheTask_holds⟩

/-! ## The device queue -/

theorem tileWord_fields (cls opc : Nat) (f : TileFields) : (tileWord cls opc f).setWidth 116 = f := by
  apply BitVec.eq_of_toNat_eq
  have hf := f.isLt
  simp only [tileWord, BitVec.toNat_setWidth, BitVec.toNat_ofNat]
  omega

/-- ctl.enq where nothing holds it. -/
theorem fxCtlEnq_go (hok : ctlOk f = true) (ha : (s.core L).A (ctlSA f) % 64 = 0) (hs : (s.core L).A (ctlSA f) + 64 ≤ 0x600000)
    (h : readyCtl s L 0x10 f { aUse := [ctlSA f], ctl := [ctlSA f], rd := blocksOf false ((s.core L).A (ctlSA f)) 64 }) :
    fxCtlEnq L f s = s.enq L ((s.core L).A (ctlSA f)) := by
  have hc : (if (s.core L).A (ctlSA f) % 64 = 0 ∧ (s.core L).A (ctlSA f) + 64 ≤ 0x600000 then none else some St.address) = none :=
    if_pos ⟨ha, hs⟩
  unfold fxCtlEnq
  rw [front_go s L 5 0x10 f _ .seq _ _ hok h]
  simp only [hc]
  exact operands_go s L .seq _ _ h.2.2.2

@[simp] theorem core_dbSeen (c : Nat) : (s.dbSeen c).core L = s.core L := rfl
@[simp] theorem ctx_dbSeen (c d : Nat) : (s.dbSeen c).ctx d = s.ctx d := rfl
@[simp] theorem core_modCtx (c : Nat) (g : CtxState → CtxState) : (s.modCtx c g).core L = s.core L := rfl
@[simp] theorem ctx_setCore (c : Nat) (x : CoreState) : (s.setCore L x).ctx c = s.ctx c := rfl

/-- The state in which a descriptor of the task `k` on core L has joined its context's device queue. -/
def withDescriptor (s : State) (L : Nat) (k : TaskInfo) (d : List Byte) : State :=
  ((s.setCore L { (s.core L).issued with enqHold := false }).modCtx k.key.c (fun x => x.enqueue (k.depth + 1) d)).dbSeen k.key.c

section
variable {k : TaskInfo} {off : Nat} (ht : (s.core L).task = some k)
include ht

/-- A descriptor without poison joins a queue that has a place, and PC moves on. -/
theorem enq_joins (he : (s.core L).tmErr = []) (hp : (s.core L).tmPoison = []) (hd : k.depth + 1 ≤ 16)
    (hq : (s.ctx k.key.c).dq.length < 4096) :
    s.enq L off = (withDescriptor s L k ((s.core L).tm.readN off 64)).advance L := by
  have hclean : (((((s.core L).loc false).readN off 64).map (fun b => (b, false))).any (·.2)) = false := by simp
  simp only [State.enq, ht, load_clean (am := false) he hp, hclean, map_fst_clean, if_neg (show ¬ 16 < k.depth + 1 by omega),
    if_neg (show ¬ 4096 ≤ (s.ctx k.key.c).dq.length by omega)]
  rfl

theorem advance_withDescriptor {d : List Byte} (hn : (s.core L).ended = none) (hpc : (s.core L).pc + 1 < k.codeLen) :
    (withDescriptor s L k d).advance L =
      (withDescriptor s L k d).setCore L { (s.core L).issued with enqHold := false, pc := (s.core L).pc + 1 } := by
  have hcore : (withDescriptor s L k d).core L = { (s.core L).issued with enqHold := false } := by
    rw [withDescriptor, core_dbSeen, core_modCtx, core_setCore]
  rw [advance_eq _ L k (by rw [hcore]; exact ht) (by rw [hcore]; exact hn) (by rw [hcore]; exact hpc), hcore]
  rfl

end

/-- A held ctl.enq that tries again is ctl.enq once more. -/
theorem fxEnqQueueAccept_eq (hh : (s.core L).enqHold = true) (hw : Tab.get 0 (s.core L).code (s.core L).pc = tileWord 5 0x10 f) :
    fxEnqQueueAccept L s = fxCtlEnq L f s := by
  simp only [fxEnqQueueAccept, hh, hw, tileWord_fields]
  rfl

/-- Settles O7: ctl.enq appends its descriptor, and a held one runs the same row again. -/
theorem ctlEnqAppendsToTheDeviceQueue : Obligations.CtlEnqAppendsToTheDeviceQueue := by
  unfold Obligations.CtlEnqAppendsToTheDeviceQueue
  intro s L f k hok ht he hp hd hq ha hs h
  obtain ⟨k', ht', hpc⟩ := h.2.2.1
  obtain rfl : k' = k := Option.some.inj (ht'.symm.trans ht)
  have hgo := (fxCtlEnq_go hok ha hs h).trans ((enq_joins ht he hp hd hq).trans (advance_withDescriptor ht (ready_ended h) hpc))
  refine ⟨_, (onCore_eq h.1.1 s _).trans (congrArg _ hgo), ?_, ?_, ?_, fun hh => ?_⟩
  · rw [core_setCore]
  · rw [core_setCore]
  · simp [withDescriptor, CtxState.enqueue]
  · exact (onCore_eq h.1.1 s _).trans (congrArg _ ((fxEnqQueueAccept_eq hh h.1.2.2.1).trans hgo))

end Sys2Proof.Laws
end

section
/-! # Data mover instructions (O10, O11) -/

namespace Sys2Proof.Laws
open Sys2Proof Sys2Proof.Machine Sys2Proof.Claim

/-! ## The rows -/

/-- A row of a unit, from its meaning. -/
theorem unitRow_of {mk cls opc u ok plan act}
    (he : ∀ L f s, exec (mk L f) s = onCore L s (fun s => s.issue L cls opc f (ok f) u (plan L f) (act L f))) :
    unitRow mk cls opc u ok plan act := by
  intro s L f hok h
  rw [he, onCore_eq h.1.1, issue_go s L cls opc f (ok f) u (plan L f) (act L f) hok h]

/-- A remote instruction issues where the flow table takes its flow. -/
theorem issueRemote_go {s : State} {L opc : Nat} {f : TileFields} {plan : State → Plan} (act : State → State) (hok : remoteOk f = true)
    (hf : s.flowReady (s.ctxOf L) L (s.rankOf L f) = true) (h : ready s L 3 opc f .mov (plan s)) :
    s.issueRemote L opc f plan act = (act (entered s L .mov (plan s))).advance L := by
  unfold State.issueRemote
  rw [front_go s L 3 opc f _ .mov _ _ hok h]
  refine (operands_go s L .mov (plan s) _ h.2.2.2).trans ?_
  rw [if_pos hf]
  rfl

/-- Settles O10: each row is its issue to the mover. -/
theorem moverInstructionsComplete : Obligations.MoverInstructionsComplete := by
  unfold Obligations.MoverInstructionsComplete
  refine ⟨unitRow_of fun _ _ _ => rfl, unitRow_of fun _ _ _ => rfl, fun s L f hok hf => ⟨fun h => ?_, fun h => ?_⟩⟩
  · exact (onCore_eq h.1.1 s (fun s => s.issueRemote L 0x04 f (putPlan L f) (fxMovPut L f))).trans
      (congrArg _ (issueRemote_go _ hok hf h))
  · exact (onCore_eq h.1.1 s (fun s => s.issueRemote L 0x05 f (getPlan L f) (fxMovGet L f))).trans
      (congrArg _ (issueRemote_go _ hok hf h))

/-! ## mov.fill of one row -/

theorem natLe_getElem (n v i : Nat) (h : i < (natLe n v).length) : (natLe n v)[i] = BitVec.ofNat 8 (v / 2 ^ (8 * i)) := by
  induction n generalizing v i with
  | zero => simp [natLe] at h
  | succ n ih =>
    cases i with
    | zero => simp [natLe]
    | succ i =>
      simp only [natLe, List.getElem_cons_succ]
      rw [ih, Nat.div_div_eq_div_mul]
      congr 2
      rw [show 8 * (i + 1) = 8 + 8 * i by omega, Nat.pow_add]

@[simp] theorem natLe_length (n v : Nat) : (natLe n v).length = n := by
  induction n generalizing v with
  | zero => rfl
  | succ n ih => simp [natLe, ih]

/-- The bytes of a row of `m` copies of the pattern `v`. -/
def fillRow (m v : Nat) : List Byte := (List.replicate m (natLe 4 v)).flatten

@[simp] theorem fillRow_length (m v : Nat) : (fillRow m v).length = m * 4 := by simp [fillRow]

theorem fillRow_getElem (m v i : Nat) (h : i < (fillRow m v).length) : (fillRow m v)[i] = BitVec.ofNat 8 (v / 2 ^ (8 * (i % 4))) := by
  induction m generalizing i with
  | zero => simp [fillRow] at h
  | succ m ih =>
    have hcons : fillRow (m + 1) v = natLe 4 v ++ fillRow m v := by simp [fillRow, List.replicate_succ]
    simp only [hcons, List.getElem_append, natLe_length]
    split
    · rename_i hi
      rw [natLe_getElem, Nat.mod_eq_of_lt hi]
    · rename_i hi
      rw [ih, show (i - 4) % 4 = i % 4 by omega]

theorem fillRow_bytes (m v : Nat) : ((List.replicate m (bytesP 4 v false)).flatten).map (·.1) = fillRow m v := by
  rw [List.map_flatten, List.map_replicate, bytesP_bytes, fillRow]

theorem fillRow_clean (m v : Nat) : ((List.replicate m (bytesP 4 v false)).flatten).any (·.2) = false := by
  rw [List.any_flatten, List.any_eq_false]
  intro l hl
  rw [List.eq_of_mem_replicate hl, bytesP_any]
  exact Bool.false_ne_true

/-- What mov.fill of one row does to a core with clean tile memory. -/
def fillOne (f : TileFields) (cs : CoreState) : CoreState :=
  { cs with
    tm := cs.tm.writeN (cs.A (movDst f)) (fillRow (movRowBytes f / 4) (cs.A (movSrc f)))
    ctr := addCtr (addCtr cs.ctr 4 0) 5 (movRowBytes f) }

theorem fillOne_push_am (f : TileFields) (cs : CoreState) (u : TUnit) (p : Plan) : (fillOne f (cs.issued.push u p)).am = cs.am := rfl
theorem fillOne_push_a (f : TileFields) (cs : CoreState) (u : TUnit) (p : Plan) : (fillOne f (cs.issued.push u p)).a = cs.a := rfl

theorem keeps_fillOne (f : TileFields) : keeps (fillOne f) := fun _ => ⟨rfl, rfl, rfl⟩

variable {s : State} {L : Nat} {f : TileFields}

theorem fxMovFill_one (hd : movDir f = 0) (hr : movRows f = 1) (he : (s.core L).tmErr = []) (hp : (s.core L).tmPoison = [])
    (hA : (s.core L).Ap (movSrc f) = false) : fxMovFill L f s = s.modCore L (fillOne f) := by
  have hsp : fillSpace f = .tm := if_pos hd
  have haddr : (rowAddr ((s.core L).A (movDst f)) (movDS f) 0).toNat = (s.core L).A (movDst f) := by simp [rowAddr]
  have hrow : (s.core L).store false ((s.core L).A (movDst f))
      (List.replicate (movRowBytes f / 4) (bytesP 4 ((s.core L).A (movSrc f)) false)).flatten =
      { s.core L with tm := (s.core L).tm.writeN ((s.core L).A (movDst f)) (fillRow (movRowBytes f / 4) ((s.core L).A (movSrc f))) } := by
    rw [store_clean (am := false) he hp _ (fillRow_clean _ _), fillRow_bytes]
    rfl
  simp only [fxMovFill, hr, hsp, hA, List.range_one, List.foldl_cons, List.foldl_nil, State.moverWrite, haddr, State.moverBytes,
    State.modCore, hrow, Nat.one_mul, core_setCore, setCore_setCore]
  rfl

/-- An instruction that has entered its queue and acts on its core alone moves on. -/
theorem advance_entered {cls opc : Nat} {u : TUnit} {p : Plan} {g : CoreState → CoreState} (h : ready s L cls opc f u p) (hk : keeps g) :
    ((entered s L u p).modCore L g).advance L = after s L u p g := by
  obtain ⟨k, ht, hpc⟩ := h.2.2.1
  obtain ⟨htask, hended, hpc'⟩ := hk ((s.core L).issued.push u p)
  rw [entered, modCore_modCore, advance_eq _ L k (by rw [core_modCore]; exact htask.trans ht)
    (by rw [core_modCore]; exact hended.trans (ready_ended h)) (by rw [core_modCore]; exact hpc' ▸ hpc), core_modCore]
  simp only [State.modCore, setCore_setCore, after, Function.comp_apply, hpc']
  rfl

/-- Settles O11: the one row of the fill is `movRowBytes f` bytes of the pattern from A[DST] on. -/
theorem fillWritesItsRows : Obligations.FillWritesItsRows := by
  unfold Obligations.FillWritesItsRows
  intro s L f hok hd hrk hr he hp hA h
  have hok' : (movOk f && decide (movDir f < 2) && movRank f == 0) = true := by simp [hok, hd, hrk]
  have hrb : movRowBytes f / 4 * 4 = movRowBytes f := by
    simp only [movOk, Bool.and_eq_true, beq_iff_eq] at hok
    omega
  obtain ⟨-, hfill, -⟩ := moverInstructionsComplete
  have hcore : (entered s L .mov (fillPlan L f s)).core L = (s.core L).issued.push .mov (fillPlan L f s) := core_modCore _ _ _
  have hfx := fxMovFill_one (s := entered s L .mov (fillPlan L f s)) (L := L) hd hr (by rw [hcore]; exact he) (by rw [hcore]; exact hp)
    (by rw [hcore]; exact hA)
  refine ⟨_, hfill s L f hok' h, ?_⟩
  rw [hfx, advance_entered h (keeps_fillOne f), after, core_setCore]
  have hlen : (fillRow (movRowBytes f / 4) ((s.core L).A (movSrc f))).length = movRowBytes f := by rw [fillRow_length, hrb]
  refine ⟨rfl, fun n hn => ?_, fun a ha => ?_, fillOne_push_am f (s.core L) .mov (fillPlan L f s),
    fillOne_push_a f (s.core L) .mov (fillPlan L f s), rfl⟩
  · rw [← hlen] at hn
    exact (read_writeN_inside _ _ _ n hn).trans (fillRow_getElem _ _ n hn)
  · rw [← hlen] at ha
    exact read_writeN_outside _ _ _ a ha

end Sys2Proof.Laws
end

section
/-! # Task start, completion and spills (O22) -/

namespace Sys2Proof.Laws
open Sys2Proof Sys2Proof.Machine Sys2Proof.Claim

/-! ## The start of a task -/

theorem taskStartLoadsTheTask_holds : taskStartLoadsTheTask := by
  intro s L k rest hc ha ht hf hr hg hq c r
  have hstart : fxTaskStart L s = if c.1 then c.2.2.endTask L St.address
      else if r.1.fault then r.2.endTask L St.address
      else if r.1.uncorr then r.2.endTask L St.uncorrectable
      else if r.1.pois.any id then r.2.endTask L St.poison
      else (r.2.taskNote k r.1.corr r.1.slow).modCore L (fun cs => cs.begin k (codeWords c.2.1 k.codeLen) (argRegs r.1.bytes)) := by
    simp only [fxTaskStart, ha, ht, hf, hr, hg, hq]
    rfl
  have hexec : exec (.taskStart L) s = .next (fxTaskStart L s) := onCore_eq hc s _
  rw [hstart] at hexec
  refine ⟨fun hcode hfault huncorr hpois => ?_, fun hcode => ?_, fun hcode hfault => ?_, ?_, rfl, rfl⟩
  · have hany : r.1.pois.any id = false := by simpa using hpois
    rw [hcode, hfault, huncorr, hany] at hexec
    refine ⟨hexec, _, hexec, ?_⟩
    simp only [Bool.false_eq_true, if_false, core_modCore]
    exact ⟨rfl, rfl, rfl, rfl, rfl, rfl, rfl, rfl, rfl, rfl, rfl⟩
  · rw [hexec, if_pos hcode]
  · rw [hexec, hcode, if_neg Bool.false_ne_true, if_pos hfault]
  · simp [CoreState.take, hq]

/-! ## Reports -/

variable {s : State} {L : Nat} {cs ds : CoreState}

/-- A core without what the report of its task clears, and without its counts. -/
def sansTask (cs : CoreState) : CoreState :=
  { cs with
    task := none, ended := none, conds := [], firmConds := [], drain := false, enqHold := false
    stallQueue := false, stallScore := false, stallEnq := false, stallFence := false, ctr := [] }

theorem field_of_sansTask {γ : Type} (π : CoreState → γ) (h : sansTask cs = sansTask ds) : π (sansTask cs) = π (sansTask ds) :=
  congrArg π h

theorem sansTask_finishTask : sansTask ((s.finishTask L).core L) = sansTask (s.core L) := by
  unfold State.finishTask
  dsimp only
  split
  · rfl
  · rw [core_setCore]
    rfl

theorem sansTask_settle : sansTask ((s.settle L).core L) = sansTask (s.core L) := by
  unfold State.settle
  split
  · exact sansTask_finishTask
  · rfl

theorem mem_settle : (s.settle L).mem = s.mem := by
  unfold State.settle
  split
  · unfold State.finishTask
    dsimp only
    split <;> rfl
  · rfl

/-! ## Completion -/

/-- A core without the flags and conditions that stand for good. -/
def sansFirm (cs : CoreState) : CoreState := { cs with firm := 0, firmConds := [] }

theorem field_of_sansFirm {γ : Type} (π : CoreState → γ) (h : sansFirm cs = sansFirm ds) : π (sansFirm cs) = π (sansFirm ds) :=
  congrArg π h

theorem sansFirm_confirm (i : InFlight) : sansFirm (cs.confirm i) = sansFirm cs := by
  unfold CoreState.confirm
  split <;> rfl

/-- An instruction that retires leaves its queue, and else only its flags and conditions stand for good. -/
theorem sansFirm_retire (n : Nat) :
    sansFirm (cs.retire n) = sansFirm { cs with inflight := cs.inflight.filter (fun i => i.seq != n) } := by
  have h := foldl_kept sansFirm (f := CoreState.confirm) (fun _ i => sansFirm_confirm i) (cs.inflight.filter (fun i => i.seq == n)) cs
  exact congrArg (fun x : CoreState => { x with inflight := x.inflight.filter (fun i => i.seq != n) }) h

theorem retire_inflight (n : Nat) : (cs.retire n).inflight = cs.inflight.filter (fun i => i.seq != n) :=
  field_of_sansFirm CoreState.inflight (sansFirm_retire n)

theorem fxUnitInstructionComplete_eq {n : Nat} {x : InFlight} (ha : s.alive = true)
    (hx : (s.core L).inflight.find? (fun i => i.seq == n) = some x) (hw : x.waiting = false) (ho : (s.core L).oldest x = true) :
    fxUnitInstructionComplete L n s = (s.setCore L (((s.core L).completes x).retire n)).settle L := by
  simp [fxUnitInstructionComplete, hx, ha, hw, ho]

theorem completes_of_no_part {x : InFlight} (hp : x.part = none) : cs.completes x = cs := by simp [CoreState.completes, hp]

/-! ## Spills -/

/-- A spilled window is no longer fresh, and its count is 0. -/
theorem spill_part {p : Nat} {w : Window} (hw : (cs.part p).win = some w) :
    (cs.spill p).part p = { cs.part p with win := some { w with fresh := false }, passCount := 0, spillDue := false } := by
  have hparts : sansMem ((List.range w.rows).foldl (fun cs i => cs.spillOne w i) cs) = sansMem cs :=
    foldl_kept sansMem (fun _ _ => sansMem_spillOne w _) _ _
  have hpart : ((List.range w.rows).foldl (fun cs i => cs.spillOne w i) cs).part p = cs.part p :=
    field_of_sansMem (fun x : CoreState => x.part p) hparts
  simp only [CoreState.spill, hw, hpart]
  exact get_put _ _ _ _

theorem spillIfDue_part {p : Nat} {w : Window} (hd : (cs.part p).spillDue = true) (hw : (cs.part p).win = some w) :
    (cs.spillIfDue p).part p = { cs.part p with win := some { w with fresh := false }, passCount := 0, spillDue := false } := by
  unfold CoreState.spillIfDue
  rw [hd]
  cases cs.spiller p with
  | none => exact spill_part hw
  | some j => exact spill_part (cs := { cs with sticky := 0, conds := [] }) hw

theorem spillIfDue_of_no_spiller {p : Nat} (hd : (cs.part p).spillDue = true) (hs : cs.spiller p = none) : cs.spillIfDue p = cs.spill p := by
  simp [CoreState.spillIfDue, hd, hs]

theorem instructionCompletionRetires_holds : instructionCompletionRetires := by
  intro s L hc ha
  have hspill : ∀ p, exec (.autoSpill L p) s = .next (s.modCore L (fun cs => cs.spillIfDue p)) := fun p =>
    (onCore_eq hc s _).trans (congrArg _ (if_pos ha))
  refine ⟨fun n x hx hw ho => ?_, hspill, fun p w hd hwin => ⟨_, hspill p, ?_, fun hs => ?_⟩⟩
  · have hexec : exec (.unitInstructionComplete L n) s = .next ((s.setCore L (((s.core L).completes x).retire n)).settle L) :=
      (onCore_eq hc s _).trans (congrArg _ (fxUnitInstructionComplete_eq ha hx hw ho))
    refine ⟨hexec, fun hp => ⟨_, hexec, ?_⟩⟩
    have hset := sansTask_settle (s := s.setCore L (((s.core L).completes x).retire n)) (L := L)
    rw [core_setCore, completes_of_no_part hp] at hset
    have hret := sansFirm_retire (cs := s.core L) n
    have htm := field_of_sansFirm CoreState.tm hret
    have ham := field_of_sansFirm CoreState.am hret
    have hA := field_of_sansFirm CoreState.a hret
    rw [completes_of_no_part hp]
    refine ⟨fun j hj => ?_, (field_of_sansTask CoreState.tm hset).trans htm, (field_of_sansTask CoreState.am hset).trans ham,
      (field_of_sansTask CoreState.a hset).trans hA, mem_settle⟩
    have hin : (((s.setCore L ((s.core L).retire n)).settle L).core L).inflight = _ :=
      (field_of_sansTask CoreState.inflight hset).trans (retire_inflight n)
    rw [hin] at hj
    simpa using (List.mem_filter.mp hj).2
  · rw [core_modCore]
    exact spillIfDue_part hd hwin
  · rw [core_modCore]
    exact spillIfDue_of_no_spiller hd hs

/-- Settles O22: a start goes through the steps of R52; completion, report and spill are the effects of their rows. -/
theorem tasksStartAndInstructionsRetire : Obligations.TasksStartAndInstructionsRetire := by
  unfold Obligations.TasksStartAndInstructionsRetire
  exact ⟨taskStartLoadsTheTask_holds, instructionCompletionRetires_holds⟩

end Sys2Proof.Laws
end

section
/-! # Task timeouts, partition faults and rebinding (O23) -/

namespace Sys2Proof.Laws
open Sys2Proof Sys2Proof.Machine Sys2Proof.Claim

variable {s : State} {L : Nat} {cs : CoreState}

/-! ## Timeouts -/

section
variable {k : TaskInfo} (ht : (s.core L).task = some k)
include ht

theorem fxTaskTimeout_drains (ha : s.alive = true) (hd : (s.core L).drain = false) (ho : s.obj 0x2100 1 = 0) (he : (s.core L).ended = none) :
    fxTaskTimeout L s = ((s.dump 0).setCore L { (s.core L).stop St.drained with drain := true }).settle L := by
  simp [fxTaskTimeout, ht, ha, hd, ho, he]

theorem fxTaskTimeout_legacy (ha : s.alive = true) (hd : (s.core L).drain = false) (ho : s.obj 0x2100 1 = 1) :
    fxTaskTimeout L s = s.legacyReset k.key := by simp [fxTaskTimeout, ht, ha, hd, ho]

theorem fxTaskDrainExpiry_kills (hd : (s.core L).drain = true) : fxTaskDrainExpiry L s = (s.killCore L St.killed).notDrained k.key := by
  simp [fxTaskDrainExpiry, ht, hd]

end

theorem taskTimeoutDrains_holds : taskTimeoutDrains := fun s _ _ hc ht =>
  ⟨fun ha hd ho he => (onCore_eq hc s _).trans (congrArg _ (fxTaskTimeout_drains ht ha hd ho he)),
    fun ha hd ho => (onCore_eq hc s _).trans (congrArg _ (fxTaskTimeout_legacy ht ha hd ho)),
    fun hd => (onCore_eq hc s _).trans (congrArg _ (fxTaskDrainExpiry_kills ht hd))⟩

/-! ## Partition faults -/

theorem sansMem_restore (am : Bool) (a : Nat) (bs : List (Byte × Bool)) : sansMem (cs.restore am a bs) = sansMem cs :=
  (sansMem_setLocPoison am _).trans (sansMem_setLoc am _)

theorem sansMem_poisonRange (d : Space × Nat × Nat) : sansMem (cs.poisonRange d) = sansMem cs := by
  unfold CoreState.poisonRange
  dsimp only
  split
  · exact sansMem_setLocPoison false _
  · exact sansMem_setLocPoison true _
  · rfl

/-- A discarded instruction leaves its queue, and the rest of what it takes back is its units' own. -/
theorem sansUnits_discard (p : Nat) (i : InFlight) :
    sansUnits (cs.discard p i) = sansUnits { cs with inflight := cs.inflight.filter (fun j => !(j.part == i.part && j.seq == i.seq)) } := by
  unfold CoreState.discard
  dsimp only
  split
  · rfl
  · exact foldl_kept sansUnits (f := fun (cs : CoreState) (d : Bool × Nat × List (Byte × Bool)) => cs.restore d.1 d.2.1 d.2.2)
      (fun _ _ => sansUnits_congr (sansMem_restore _ _ _)) _ _

theorem sansQueues_discard (p : Nat) (i : InFlight) : sansQueues (cs.discard p i) = sansQueues cs :=
  (sansQueues_congr (sansUnits_discard p i)).trans rfl

theorem discard_inflight (p : Nat) (i : InFlight) :
    (cs.discard p i).inflight = cs.inflight.filter (fun j => !(j.part == i.part && j.seq == i.seq)) :=
  field_of_sansUnits CoreState.inflight (sansUnits_discard p i)


/-- Of the instructions that a fault leaves in flight, none is among the discarded ones. -/
theorem discards_inflight (p n : Nat) (l : List InFlight) (hl : ∀ i ∈ l, (i.part == some p && decide (n ≤ i.seq)) = true) :
    (l.foldl (fun (cs : CoreState) j => cs.discard p j) cs).inflight.filter (fun j => !(j.part == some p && decide (n ≤ j.seq))) =
      cs.inflight.filter (fun j => !(j.part == some p && decide (n ≤ j.seq))) := by
  refine List.foldlRecOn (motive := fun x : CoreState => x.inflight.filter _ = cs.inflight.filter _) l _ rfl fun x hx i hi => ?_
  have hi' := hl i hi
  rw [discard_inflight, List.filter_filter, ← hx]
  refine List.filter_congr fun j _ => ?_
  have hsub : (j.part == i.part && j.seq == i.seq) = true → (j.part == some p && decide (n ≤ j.seq)) = true := by
    intro h
    simp only [Bool.and_eq_true, beq_iff_eq] at h
    obtain ⟨hp, hs⟩ := h
    rw [hp, hs]
    exact hi'
  cases hQ : (j.part == some p && decide (n ≤ j.seq)) with
  | true => rfl
  | false => simp [Bool.eq_false_iff.mpr (fun h => Bool.false_ne_true (hQ ▸ hsub h))]

section
variable (part n chk : Nat) (x : InFlight)

/-- The core of a failing instruction once the younger ones of its partition are discarded and what it writes is poisoned. -/
def faultCore (cs : CoreState) : CoreState :=
  x.dst.foldl (fun (cs : CoreState) d => cs.poisonRange d)
    ((cs.inflight.filter (fun j => j.part == some part && decide (n < j.seq))).reverse.foldl
      (fun (cs : CoreState) j => cs.discard part j) cs)

/-- The same core, suspect and to be rebound, without the instruction and the younger ones. -/
def faultedCore (cs : CoreState) : CoreState :=
  let ds := (faultCore part n x cs).setPart part
    { (faultCore part n x cs).part part with faulted := true, faultSrc := chk, spillDue := false }
  ({ ds.confirm x with
    suspect := true
    rebindDue := true
    inflight := ds.inflight.filter (fun j => !(j.part == some part && decide (n ≤ j.seq))) } : CoreState).event 0x12 1

theorem sansMem_poisonRanges (l : List (Space × Nat × Nat)) :
    sansMem (l.foldl (fun (cs : CoreState) d => cs.poisonRange d) cs) = sansMem cs :=
  foldl_kept sansMem (fun _ _ => sansMem_poisonRange _) _ _

theorem faultCore_ended : (faultCore part n x cs).ended = cs.ended :=
  field_of_sansQueues CoreState.ended ((sansQueues_congr (sansUnits_congr (sansMem_poisonRanges _))).trans
    (foldl_kept sansQueues (fun _ _ => sansQueues_discard part _) _ _))

theorem faultCore_inflight : (faultCore part n x cs).inflight.filter (fun j => !(j.part == some part && decide (n ≤ j.seq))) =
    cs.inflight.filter (fun j => !(j.part == some part && decide (n ≤ j.seq))) := by
  have hpois := field_of_sansMem CoreState.inflight (sansMem_poisonRanges (cs := (cs.inflight.filter
    (fun j => j.part == some part && decide (n < j.seq))).reverse.foldl (fun (cs : CoreState) j => cs.discard part j) cs) x.dst)
  refine (congrArg (List.filter _) hpois).trans (discards_inflight part n _ fun i hi => ?_)
  have hmem := (List.mem_filter.mp (List.mem_reverse.mp hi)).2
  simp only [Bool.and_eq_true, decide_eq_true_eq] at hmem ⊢
  exact ⟨hmem.1, hmem.2.le⟩

theorem faultedCore_ended : (faultedCore part n chk x cs).ended = cs.ended :=
  (field_of_sansFirm CoreState.ended (sansFirm_confirm x)).trans (faultCore_ended part n x)

theorem faultedCore_inflight : (faultedCore part n chk x cs).inflight =
    cs.inflight.filter (fun j => !(j.part == some part && decide (n ≤ j.seq))) := faultCore_inflight part n x

theorem faultedCore_part : (faultedCore part n chk x cs).part part =
    { (faultCore part n x cs).part part with faulted := true, faultSrc := chk, spillDue := false } :=
  (field_of_sansFirm (fun cs => cs.part part) (sansFirm_confirm x)).trans (get_put _ _ _ _)

/-- A core whose task ends at instruction `c` with its rebinding. -/
def reboundAt (c : Nat) (cs : CoreState) : CoreState := { cs with ended := some St.rebound, pc := c }

theorem reboundAt_part (c p : Nat) : (reboundAt c cs).part p = cs.part p := rfl
theorem reboundAt_inflight (c : Nat) : (reboundAt c cs).inflight = cs.inflight := rfl

theorem fxPartitionFault_eq (hx : (s.core L).inflight.find? (fun i => i.part == some part && i.seq == n) = some x) (ha : s.alive = true)
    (h1 : 1 ≤ chk) (h4 : chk ≤ 4) (he : (s.core L).ended = none) :
    fxPartitionFault L part n chk s = s.setCore L (reboundAt x.pc (faultedCore part n chk x (s.core L))) := by
  have hgo : ¬ ((!s.alive) = true ∨ chk < 1 ∨ 4 < chk) := by
    simp only [ha, Bool.not_true, Bool.false_eq_true, false_or]
    omega
  simp only [fxPartitionFault, hx, if_neg hgo]
  have hend : (faultedCore part n chk x (s.core L)).ended = none := (faultedCore_ended part n chk x).trans he
  exact congrArg (s.setCore L) (if_neg fun h => Bool.false_ne_true ((congrArg Option.isSome hend).symm.trans h))

end

/-! ## Rebinding -/

theorem core_of_cores {t : State} (h : t.cores = s.cores) : t.core L = s.core L := by rw [State.core, State.core, h]

theorem core_event (c d : Nat) : (s.event c d).core L = s.core L := by
  unfold State.event
  refine foldl_kept (fun t : State => t.core L) (fun t i => ?_) _ _
  dsimp only
  split_ifs <;> rfl

theorem core_logRebind (kind logical physical : Nat) : (s.logRebind kind logical physical).core L = s.core L := by
  rw [State.logRebind, core_event]
  exact core_of_cores rfl

/-- The core as it stands on its spare `i`. -/
def onSpare (i : Nat) (cs : CoreState) : CoreState :=
  { cs.carry with physIdx := i, rebindCount := Nat.min (cs.rebindCount + 1) 255, suspect := false, rebindDue := false }

theorem rebind_to_spare {i : Nat} (hi : s.spareOf (L / 40) = some i) :
    (s.rebind L).1 = true ∧ (s.rebind L).2.core L = onSpare i (s.core L) := by
  unfold State.rebind
  rw [hi]
  refine ⟨rfl, ?_⟩
  dsimp only
  rw [core_logRebind, core_modCore]
  exact congrArg (onSpare i) (core_of_cores rfl)

theorem rebind_without_spare (hi : s.spareOf (L / 40) = none) :
    s.rebind L = (false, s.modCore L (fun cs => { cs with failed := true, rebindDue := false })) := by
  unfold State.rebind
  rw [hi]

/-- The tasks queued on a failed core have left it; its task alone is not touched. -/
theorem core_failQueue : (s.failQueue L).core L = { s.core L with queue := [] } := by
  have hcore : ∀ q : List TaskInfo,
      (q.foldl (fun (s : State) t => s.modCmd t.key (fun m => m.report St.partFault 0 (taskDetail L 0))) s).core L = s.core L := by
    intro q
    refine foldl_kept (fun t : State => t.core L) (fun _ _ => ?_) q s
    rfl
  unfold State.failQueue
  dsimp only
  rw [core_modCore, hcore]

/-- Where the siblings have completed, the rebinding takes place, and the task is told how it went. -/
theorem fxCoreRebind_eq (hd : (s.core L).rebindDue = true) (hi : (s.core L).inflight = []) : fxCoreRebind L s =
    (let t := ((s.rebind L).2.modCore L (fun cs => cs.condition (if (s.rebind L).1 then St.rebound else St.partFault))).settle L
     if (s.rebind L).1 then t else t.failQueue L) := by
  simp [fxCoreRebind, hd, hi]

section
variable (hd : (s.core L).rebindDue = true) (hi : (s.core L).inflight = [])
include hd hi

theorem fxCoreRebind_moves {i : Nat} (hs : s.spareOf (L / 40) = some i) :
    sansTask ((fxCoreRebind L s).core L) = sansTask ((onSpare i (s.core L)).condition St.rebound) := by
  obtain ⟨hok, hcore⟩ := rebind_to_spare hs
  simp only [fxCoreRebind_eq hd hi, hok, if_true]
  rw [sansTask_settle, core_modCore, hcore]

theorem fxCoreRebind_fails (hs : s.spareOf (L / 40) = none) : ∃ ds, (fxCoreRebind L s).core L = { ds with queue := [] } ∧
    sansTask ds = sansTask ({ s.core L with failed := true, rebindDue := false }.condition St.partFault) := by
  simp only [fxCoreRebind_eq hd hi, rebind_without_spare hs, Bool.false_eq_true, if_false]
  refine ⟨_, core_failQueue, ?_⟩
  rw [sansTask_settle, core_modCore, core_modCore]

end

theorem fields_onSpare {i : Nat} {st : Status} {ds : CoreState} (h : sansTask ds = sansTask ((onSpare i cs).condition st)) :
    ds.physIdx = i ∧ ds.rebindCount = Nat.min (cs.rebindCount + 1) 255 ∧ ds.suspect = false ∧ ds.rebindDue = false :=
  ⟨field_of_sansTask CoreState.physIdx h, field_of_sansTask CoreState.rebindCount h, field_of_sansTask CoreState.suspect h,
    field_of_sansTask CoreState.rebindDue h⟩

theorem partitionFaultRebinds_holds : partitionFaultRebinds := by
  refine fun s L hc => ⟨fun part n chk x hx ha h1 h4 he => ?_, fun hd hi => ⟨fun i hs => ?_, fun hs => ?_⟩⟩
  · refine ⟨_, (onCore_eq hc s _).trans (congrArg _ (fxPartitionFault_eq part n chk x hx ha h1 h4 he)), ?_⟩
    rw [core_setCore]
    have hpart := (reboundAt_part x.pc part).trans (faultedCore_part part n chk x (cs := s.core L))
    exact ⟨rfl, rfl, rfl, rfl, congrArg Part.faulted hpart, congrArg Part.faultSrc hpart,
      (reboundAt_inflight x.pc).trans (faultedCore_inflight part n chk x)⟩
  · exact ⟨_, onCore_eq hc s _, fields_onSpare (fxCoreRebind_moves hd hi hs)⟩
  · obtain ⟨ds, hcore, hds⟩ := fxCoreRebind_fails hd hi hs
    refine ⟨_, onCore_eq hc s _, ?_⟩
    rw [hcore]
    exact ⟨field_of_sansTask CoreState.failed hds, rfl⟩

/-- Settles O23: each timeout is the effect of its row, and a fault goes through the steps of R75 and R76. -/
theorem taskTimeoutsAndPartitionFaults : Obligations.TaskTimeoutsAndPartitionFaults := by
  unfold Obligations.TaskTimeoutsAndPartitionFaults
  exact ⟨taskTimeoutDrains_holds, partitionFaultRebinds_holds⟩

end Sys2Proof.Laws
end

section
/-! # Comparison, maximum and minimum (O56) -/

namespace Sys2Proof.Laws
open Sys2Proof Sys2Proof.Machine Sys2Proof.Claim

/-! ## Comparison is the order of the places -/

/-- The number of a finite value. -/
def finVal (n : Bool) (m : Nat) (e : Int) : ℚ := (if n then -1 else 1) * (m : ℚ) * (2 : ℚ) ^ e

theorem place_fin (n : Bool) (m : Nat) (e : Int) : place (.fin n m e) = some (0, finVal n m e) := rfl

theorem place_eq_some_of_ne_nan {a : Fp.Val} (h : a ≠ .nan) : ∃ x, place a = some x := by
  cases a with
  | nan => exact absurd rfl h
  | inf n => exact ⟨_, rfl⟩
  | fin n m e => exact ⟨_, rfl⟩

/-- The significand at a lower exponent stands for the same number. -/
theorem sig_mul_zpow (n : Bool) (m : Nat) {e q : Int} (h : q ≤ e) : (Fp.sig n m e q : ℚ) * 2 ^ q = finVal n m e := by
  obtain ⟨d, rfl⟩ := Int.le.dest h
  have hpow : (2 : ℚ) ^ (q + (d : Int)) = 2 ^ q * 2 ^ d := by rw [zpow_add₀ two_ne_zero, zpow_natCast]
  cases n <;> simp [Fp.sig, finVal, hpow, Nat.shiftLeft_eq] <;> ring

/-- Significands at one common exponent are in the order of their numbers. -/
theorem compare_sig (x y : Bool) (m n : Nat) (e k : Int) :
    compare (Fp.sig x m e (min e k)) (Fp.sig y n k (min e k)) = compare (finVal x m e) (finVal y n k) := by
  have hpos : (0 : ℚ) < 2 ^ min e k := zpow_pos two_pos _
  have hmono : StrictMono (fun i : Int => (i : ℚ) * 2 ^ min e k) :=
    fun _ _ h => mul_lt_mul_of_pos_right (Int.cast_lt.mpr h) hpos
  rw [← sig_mul_zpow x m (min_le_left e k), ← sig_mul_zpow y n (min_le_right e k)]
  simpa only [cmp_eq_compare] using (hmono.cmp_map_eq _ _).symm

theorem below_iff_toLex_lt (x y : Int × ℚ) : below x y ↔ toLex x < toLex y := Prod.Lex.toLex_lt_toLex.symm

theorem compare_toLex (x y : Int × ℚ) : compare (toLex x) (toLex y) = (compare x.1 y.1).then (compare x.2 y.2) := rfl

/-- R88: comparison is the lexicographic order of the places. -/
theorem cmp_eq_compare_place {a b : Fp.Val} {x y : Int × ℚ} (ha : place a = some x) (hb : place b = some y) :
    Fp.cmp a b = some (compare (toLex x) (toLex y)) := by
  rw [compare_toLex]
  cases a with
  | nan => cases ha
  | inf s =>
    cases ha
    cases b with
    | nan => cases hb
    | inf t => cases hb; cases s <;> cases t <;> rfl
    | fin t n k => cases hb; cases s <;> rfl
  | fin s m e =>
    cases ha
    cases b with
    | nan => cases hb
    | inf t => cases hb; cases t <;> rfl
    | fin t n k => cases hb; exact congrArg some (compare_sig s t m n e k)

theorem cmp_eq_none_iff (a b : Fp.Val) : Fp.cmp a b = none ↔ a = .nan ∨ b = .nan := by
  cases a <;> cases b <;> simp [Fp.cmp]

theorem cmp_iff_places {a b : Fp.Val} {x y : Int × ℚ} (ha : place a = some x) (hb : place b = some y) :
    (Fp.cmp a b = some .lt ↔ below x y) ∧ (Fp.cmp a b = some .gt ↔ below y x) ∧ (Fp.cmp a b = some .eq ↔ x = y) := by
  simp only [cmp_eq_compare_place ha hb, Option.some_inj, below_iff_toLex_lt]
  exact ⟨compare_lt_iff_lt, compare_gt_iff_gt, compare_eq_iff_eq.trans toLex_inj⟩

theorem cmp_self {a : Fp.Val} (h : a ≠ .nan) : Fp.cmp a a = some .eq := by
  obtain ⟨x, hx⟩ := place_eq_some_of_ne_nan h
  exact (cmp_iff_places hx hx).2.2.mpr rfl

theorem cmp_swap (a b : Fp.Val) : Fp.cmp b a = (Fp.cmp a b).map Ordering.swap := by
  by_cases hn : a = .nan ∨ b = .nan
  · rw [(cmp_eq_none_iff a b).mpr hn, (cmp_eq_none_iff b a).mpr hn.symm]; rfl
  · obtain ⟨ha, hb⟩ := not_or.mp hn
    obtain ⟨x, hx⟩ := place_eq_some_of_ne_nan ha
    obtain ⟨y, hy⟩ := place_eq_some_of_ne_nan hb
    rw [cmp_eq_compare_place hx hy, cmp_eq_compare_place hy hx, Option.map_some, Std.OrientedOrd.eq_swap]

theorem cmp_eq_lt_iff (a b : Fp.Val) : Fp.cmp a b = some .lt ↔ Fp.cmp b a = some .gt := by
  rw [cmp_swap a b]; simp [Ordering.swap_eq_gt]

/-! ## Zeros -/

theorem cmp_zeros (x y : Bool) (e k : Int) : Fp.cmp (.fin x 0 e) (.fin y 0 k) = some .eq :=
  (cmp_iff_places (place_fin x 0 e) (place_fin y 0 k)).2.2.mpr (by simp [finVal])

theorem max_zeros (x y : Bool) (e k : Int) : Fp.max (.fin x 0 e) (.fin y 0 k) = if x then .fin y 0 k else .fin x 0 e := by
  rw [Fp.max, cmp_zeros]; rfl

theorem min_zeros (x y : Bool) (e k : Int) : Fp.min (.fin x 0 e) (.fin y 0 k) = if x then .fin x 0 e else .fin y 0 k := by
  rw [Fp.min, cmp_zeros]; rfl

/-! ## Maximum and minimum -/

theorem max_of_nan {a b : Fp.Val} (h : a = .nan ∨ b = .nan) : Fp.max a b = .nan := by
  rw [Fp.max, (cmp_eq_none_iff a b).mpr h]

theorem min_of_nan {a b : Fp.Val} (h : a = .nan ∨ b = .nan) : Fp.min a b = .nan := by
  rw [Fp.min, (cmp_eq_none_iff a b).mpr h]

section
variable {a b : Fp.Val} (ha : a ≠ .nan) (hb : b ≠ .nan)
include ha hb

theorem max_cases : (Fp.max a b = a ∧ Fp.cmp a b ≠ some .lt) ∨ (Fp.max a b = b ∧ Fp.cmp a b ≠ some .gt) := by
  unfold Fp.max
  split
  next h => exact absurd ((cmp_eq_none_iff a b).mp h) (not_or.mpr ⟨ha, hb⟩)
  next h => simp [h]
  next h => simp [h]
  next h => cases a.isNeg <;> simp [h]

theorem min_cases : (Fp.min a b = a ∧ Fp.cmp a b ≠ some .gt) ∨ (Fp.min a b = b ∧ Fp.cmp a b ≠ some .lt) := by
  unfold Fp.min
  split
  next h => exact absurd ((cmp_eq_none_iff a b).mp h) (not_or.mpr ⟨ha, hb⟩)
  next h => simp [h]
  next h => simp [h]
  next h => cases a.isNeg <;> simp [h]

theorem max_eq_or : Fp.max a b = a ∨ Fp.max a b = b := (max_cases ha hb).imp And.left And.left

theorem min_eq_or : Fp.min a b = a ∨ Fp.min a b = b := (min_cases ha hb).imp And.left And.left

theorem cmp_max_ne_lt : Fp.cmp (Fp.max a b) a ≠ some .lt ∧ Fp.cmp (Fp.max a b) b ≠ some .lt := by
  obtain ⟨h, hc⟩ | ⟨h, hc⟩ := max_cases ha hb
  · rw [h, cmp_self ha]; exact ⟨by decide, hc⟩
  · rw [h, cmp_self hb]; exact ⟨mt (cmp_eq_lt_iff b a).mp hc, by decide⟩

theorem cmp_min_ne_gt : Fp.cmp (Fp.min a b) a ≠ some .gt ∧ Fp.cmp (Fp.min a b) b ≠ some .gt := by
  obtain ⟨h, hc⟩ | ⟨h, hc⟩ := min_cases ha hb
  · rw [h, cmp_self ha]; exact ⟨by decide, hc⟩
  · rw [h, cmp_self hb]; exact ⟨mt (cmp_eq_lt_iff a b).mpr hc, by decide⟩

end

/-- A result that is NaN beside NaN and otherwise one of the operands is NaN only beside NaN. -/
theorem eq_nan_iff_of_eq_or {a b r : Fp.Val} (hnan : a = .nan ∨ b = .nan → r = .nan)
    (hor : a ≠ .nan → b ≠ .nan → r = a ∨ r = b) : r = .nan ↔ a = .nan ∨ b = .nan := by
  refine ⟨fun hr => ?_, hnan⟩
  by_contra hn
  obtain ⟨ha, hb⟩ := not_or.mp hn
  obtain h | h := hor ha hb
  · exact ha (h ▸ hr)
  · exact hb (h ▸ hr)

theorem max_eq_nan_iff (a b : Fp.Val) : Fp.max a b = .nan ↔ a = .nan ∨ b = .nan := eq_nan_iff_of_eq_or max_of_nan max_eq_or

theorem min_eq_nan_iff (a b : Fp.Val) : Fp.min a b = .nan ↔ a = .nan ∨ b = .nan := eq_nan_iff_of_eq_or min_of_nan min_eq_or

/-! ## Conditions of vec.cmp -/

/-- Of the conditions only NE and UN hold of an unordered pair. -/
theorem vCond_none {c : Nat} (h : c < 7) : vCond c none = true ↔ c = 1 ∨ c = 6 := by
  interval_cases c <;> simp [vCond]

/-- Settles O56: comparison is the lexicographic order of the places, and max and min pick an operand by it. -/
theorem comparisonFollowsTheExactOrder : Obligations.ComparisonFollowsTheExactOrder := by
  unfold Obligations.ComparisonFollowsTheExactOrder
  refine ⟨fun a b => ⟨cmp_eq_none_iff a b, fun _ _ => cmp_iff_places⟩, fun e k => ⟨cmp_zeros _ _ e k, max_zeros _ _ e k,
    max_zeros _ _ k e, min_zeros _ _ e k, min_zeros _ _ k e⟩, fun a b => ⟨max_eq_nan_iff a b, min_eq_nan_iff a b, fun ha hb => ?_⟩,
    fun _ => vCond_none, by decide⟩
  obtain ⟨hmaxa, hmaxb⟩ := cmp_max_ne_lt ha hb
  exact ⟨max_eq_or ha hb, min_eq_or ha hb, hmaxa, hmaxb, cmp_min_ne_gt ha hb⟩

end Sys2Proof.Laws
end

section
/-! # Reductions (O9) -/

namespace Sys2Proof.Laws
open Sys2Proof Sys2Proof.Machine Sys2Proof.Claim

variable {cs : CoreState}

/-! ## What a reduction keeps -/

theorem sansUnits_landRows (outs : List RowOut) : sansUnits (landRows outs cs) = sansUnits cs :=
  foldl_kept sansUnits (fun _ _ => foldl_kept sansUnits (fun _ _ => sansUnits_store _ _ _) _ _) _ _

theorem sansUnits_redSweep {row : Nat → CoreState → RowOut × CoreState} (hrow : ∀ r ds, sansUnits (row r ds).2 = sansUnits ds)
    (k r n : Nat) (outs : List RowOut) : sansUnits (redSweep row k r n outs cs) = sansUnits cs := by
  induction k generalizing r n outs cs with
  | zero => exact sansUnits_landRows outs
  | succ k ih => exact (ih _ _ _).trans ((hrow _ _).trans (sansUnits_landRows _))

theorem sansUnits_redRow (f : TileFields) (r : Nat) : sansUnits (redRow f r cs).2 = sansUnits cs := sansUnits_load _ _ _

theorem sansUnits_redRows (f : TileFields) (n order : Nat) {g : List Nat → CoreState → Nat × CoreState}
    (hg : ∀ row ds, sansUnits (g row ds).2 = sansUnits ds) : sansUnits (redRows f n g order cs) = sansUnits cs :=
  sansUnits_redSweep (fun r _ => (hg _ _).trans (sansUnits_redRow f r)) _ _ _ _

theorem sansUnits_redSumOf (f : TileFields) (sq : Bool) (row : List Nat) : sansUnits (redSumOf f sq row cs).2 = sansUnits cs := by
  unfold redSumOf
  split_ifs
  · rfl
  · rfl
  · exact sansUnits_convert _ _ _ _
  · rfl

/-- An extremum leaves the core as it is. -/
theorem redExt_snd (f : TileFields) (fo : Fp.Val → Fp.Val → Fp.Val) (io : Int → Int → Int) (row : List Nat) :
    (redExt f fo io row cs).2 = cs := by
  cases row <;> rfl

theorem sansUnits_redIndexed (f : TileFields) (r : Nat) : sansUnits (redIndexed f r cs).2 = sansUnits cs := by
  unfold redIndexed
  dsimp only
  split
  · exact (sansUnits_load _ _ _).trans (sansUnits_redRow f r)
  · exact sansUnits_redRow f r

/-! ## The rows -/

/-- A row of RED, from its meaning. -/
theorem redOp_of {mk opc ok plan act} (he : ∀ L f s, exec (mk L f) s = onCore L s (fun s => s.issueRed L opc f (ok f) (plan f) (act f)))
    (hk : ∀ f order cs, sansUnits (act f order cs) = sansUnits cs) : redOp mk opc ok plan act := by
  intro s L f hok h
  rw [he, onCore_eq h.1.1]
  exact congrArg _ (issue_after s L 6 opc f (ok f) .vec (fun s => plan f (s.core L)) _ hok h
    (keeps_of_sansUnits fun cs => hk f (redOrder f (plan f cs) cs) (cs.vxuStart opc true)))

/-- Settles O9: each row is its issue to the reduction unit, whose effect keeps the sequencer's registers. -/
theorem reductionsComplete : Obligations.ReductionsComplete := by
  unfold Obligations.ReductionsComplete
  exact ⟨redOp_of (fun _ _ _ => rfl) fun f _ _ => sansUnits_redRows f _ _ fun _ _ => sansUnits_redSumOf f _ _,
    redOp_of (fun _ _ _ => rfl) fun f _ _ => sansUnits_redRows f _ _ fun _ _ => congrArg _ (redExt_snd f _ _ _),
    redOp_of (fun _ _ _ => rfl) fun f _ _ => sansUnits_redRows f _ _ fun _ _ => congrArg _ (redExt_snd f _ _ _),
    redOp_of (fun _ _ _ => rfl) fun f _ _ => sansUnits_redSweep (fun r _ => sansUnits_redIndexed f r) _ _ _ _,
    redOp_of (fun _ _ _ => rfl) fun f _ _ => sansUnits_redRows f _ _ fun _ _ => sansUnits_redSumOf f _ _,
    redOp_of (fun _ _ _ => rfl) fun f _ _ => sansUnits_redSweep (fun r _ => sansUnits_redIndexed f r) _ _ _ _⟩

end Sys2Proof.Laws
end

section
/-! # The frame of the vector instructions (O54) -/

namespace Sys2Proof.Laws
open Sys2Proof Sys2Proof.Machine Sys2Proof.Claim

/-! ## A core without its marks -/

/-- A core without what the issue of an instruction and the reading of its operands change: poison and error marks, flags, conditions,
counts, the queues of the units, PC and the stalls. -/
def sansMarks (cs : CoreState) : CoreState :=
  { cs with
    aPoison := [], tmPoison := [], amPoison := [], tmErr := [], amErr := [], vPoison := [], vErr := [], mPoison := []
    sticky := 0, firm := 0, conds := [], firmConds := [], evCtr := [], ctr := [], lastOpc := 0, lastRed := false
    inflight := [], seqNo := 0, pc := 0, stallQueue := false, stallScore := false, stallEnq := false, stallFence := false }

variable {cs ds : CoreState}

@[simp] theorem sansMarks_note (st : Status) : sansMarks (cs.note st) = sansMarks cs := by
  unfold CoreState.note
  split <;> rfl

@[simp] theorem sansMarks_poisoned : sansMarks cs.poisoned = sansMarks cs := sansMarks_note St.poison

@[simp] theorem sansMarks_poisonRead (n : Nat) : sansMarks (cs.poisonRead n) = sansMarks cs := by
  unfold CoreState.poisonRead
  split
  · rfl
  · exact sansMarks_poisoned

@[simp] theorem sansMarks_overflowed (n : Nat) : sansMarks (cs.overflowed n) = sansMarks cs := by
  unfold CoreState.overflowed
  split <;> rfl

@[simp] theorem sansMarks_indexRange (n : Nat) : sansMarks (cs.indexRange n) = sansMarks cs := by
  unfold CoreState.indexRange
  split <;> rfl

@[simp] theorem sansMarks_setLocPoison (am : Bool) (p : NSet) : sansMarks (cs.setLocPoison am p) = sansMarks cs := by cases am <;> rfl
@[simp] theorem sansMarks_setLocErr (am : Bool) (e : Tab Nat) : sansMarks (cs.setLocErr am e) = sansMarks cs := by cases am <;> rfl

@[simp] theorem sansMarks_eccWord (am : Bool) (w : Nat) : sansMarks (cs.eccWord am w) = sansMarks cs := by
  unfold CoreState.eccWord
  split
  · rfl
  · dsimp only
    split
    · exact sansMarks_setLocErr am _
    · simp

@[simp] theorem sansMarks_loadElems (am : Bool) (off b : Nat) (is : List Nat) : sansMarks (cs.loadElems am off b is).2 = sansMarks cs := by
  refine (sansMarks_poisonRead _).trans ?_
  exact foldl_kept sansMarks (fun _ _ => sansMarks_eccWord am _) _ _

@[simp] theorem sansMarks_vecPair (r k : Nat) : sansMarks (cs.vecPair r k) = sansMarks cs := by
  unfold CoreState.vecPair
  split
  · rfl
  · dsimp only
    split
    · exact sansMarks_note St.okCorr
    · exact (sansMarks_poisonRead 2).trans (sansMarks_note St.uncorrectable)

@[simp] theorem sansMarks_vecWritten (r w : Nat) (out : List EOut) : sansMarks (cs.vecWritten r w out) = sansMarks cs := by
  unfold CoreState.vecWritten
  split
  · rfl
  · refine foldl_kept sansMarks (fun x k => ?_) _ _
    dsimp only
    split_ifs
    · rfl
    · rfl
    · exact sansMarks_vecPair r k

@[simp] theorem sansMarks_vecEcc (opc : Nat) (f : TileFields) : sansMarks (cs.vecEcc opc f) = sansMarks cs := by
  unfold CoreState.vecEcc
  split
  · rfl
  · refine foldl_kept sansMarks (fun _ e => ?_) _ _
    exact sansMarks_vecPair e.1 e.2

@[simp] theorem sansMarks_vxuStart (opc : Nat) (red : Bool) : sansMarks (cs.vxuStart opc red) = sansMarks cs := rfl

@[simp] theorem sansMarks_push_issued (u : TUnit) (p : Plan) : sansMarks (cs.issued.push u p) = sansMarks cs := rfl

/-! ## From what a row executes to its frame -/

/-- An effect in a core alone leaves the rest of the module. -/
theorem onlyCore_after (s : State) (L : Nat) (u : TUnit) (p : Plan) (act : CoreState → CoreState) : onlyCore L s (after s L u p act) :=
  ⟨fun j hj => core_setCore_ne s L j _ hj, rfl⟩

/-- What `coreKept` names of a core. -/
def keptFields (cs : CoreState) :=
  (cs.l, cs.p, cs.code, cs.task, cs.queue, cs.ended, cs.physIdx, cs.gate, cs.failed, cs.evSel, cs.hoistsOut)

theorem coreKept_of_keptFields (h : keptFields ds = keptFields cs) : coreKept cs ds := by
  simpa only [keptFields, coreKept, Prod.mk.injEq] using h

/-- The frame of an instruction that leaves `after`. Its effect finds the core as `ds`, marked by the reading of the operands, and a claim
about registers and memories does not see the marks. -/
theorem frame_after {s : State} {L : Nat} {u : TUnit} {p : Plan} {act : CoreState → CoreState} {own : CoreState → CoreState → Prop}
    (hown : ∀ a b, own (sansMarks a) (sansMarks b) = own a b) {ds : CoreState} (hds : sansMarks ds = sansMarks (s.core L))
    (hact : coreKept ds (act ((s.core L).issued.push u p)) ∧ own ds (act ((s.core L).issued.push u p))) :
    onlyCore L s (after s L u p act) ∧ coreKept (s.core L) ((after s L u p act).core L) ∧
      ((after s L u p act).core L).pc = (s.core L).pc + 1 ∧ own (s.core L) ((after s L u p act).core L) := by
  obtain ⟨hkept, ho⟩ := hact
  rw [after, core_setCore]
  refine ⟨onlyCore_after s L u p act, ?_, rfl, ?_⟩
  · have h : coreKept (sansMarks ds) (act ((s.core L).issued.push u p)) := hkept
    rw [hds] at h
    exact h
  · rw [← hown] at ho ⊢
    rw [hds] at ho
    exact ho

/-- The frame of a row of VEC, from its meaning. -/
theorem frameRow_of_vecRow {mk opc ok plan act own} (h : vecRow mk opc ok plan act)
    (hown : ∀ f a b, own f (sansMarks a) (sansMarks b) = own f a b)
    (hact : ∀ f cs, coreKept cs (act f cs) ∧ own f cs (act f cs)) : frameRow mk 2 opc .vec ok plan own := fun s L f hok hr =>
  ⟨_, h s L f hok hr, frame_after (hown f)
    (by simp : sansMarks ((((s.core L).issued.push .vec (plan f (s.core L))).vxuStart opc false).vecEcc opc f) = sansMarks (s.core L))
    (hact f _)⟩

/-! ## Instructions that write a vector register -/

/-- What does not see the marks is read off the rest of the core. -/
theorem field_of_sansMarks {γ : Type} (π : CoreState → γ) (h : sansMarks cs = sansMarks ds) : π (sansMarks cs) = π (sansMarks ds) :=
  congrArg π h

/-- A core without its marks and its seed. -/
def sansSeed (cs : CoreState) : CoreState := sansMarks { cs with seed := 0 }

theorem sansSeed_congr (h : sansMarks cs = sansMarks ds) : sansSeed cs = sansSeed ds :=
  show sansSeed (sansMarks cs) = sansSeed (sansMarks ds) by rw [h]

/-- Vector register r takes x. -/
def setV (cs : CoreState) (r : Nat) (x : BitVec 2048) : CoreState := { cs with v := Tab.put cs.v r x }

/-- But for the marks, `ds` is `cs` with V[VD] written. -/
def writesVd (f : TileFields) (cs ds : CoreState) : Prop := ∃ x, sansMarks ds = sansMarks (setV cs (vVD f) x)

/-- But for the marks and the seed, `ds` is `cs` with V[VD] written. -/
def writesVdSeed (f : TileFields) (cs ds : CoreState) : Prop := ∃ x, sansSeed ds = sansSeed (setV cs (vVD f) x)

theorem onlyVdSeed_of_writes {f : TileFields} (h : writesVdSeed f cs ds) : coreKept cs ds ∧ onlyVdSeed f cs ds := by
  obtain ⟨x, hx⟩ := h
  have field {γ : Type} (π : CoreState → γ) : π (sansSeed ds) = π (sansSeed (setV cs (vVD f) x)) := congrArg π hx
  refine ⟨coreKept_of_keptFields (field keptFields), ⟨field (·.tm), field (·.am), field (·.mode), field (·.parts)⟩,
    fun r hr => ?_, field (·.m), field (·.a), field (·.vl)⟩
  exact (field fun c => c.vreg r).trans (get_put_ne 0 cs.v (vVD f) r x (Ne.symm hr))

theorem onlyVd_of_writes {f : TileFields} (h : writesVd f cs ds) : coreKept cs ds ∧ onlyVd f cs ds := by
  obtain ⟨x, hx⟩ := h
  obtain ⟨hkept, honly⟩ := onlyVdSeed_of_writes ⟨x, sansSeed_congr hx⟩
  have hseed := field_of_sansMarks CoreState.seed hx
  exact ⟨hkept, honly, hseed⟩

/-- The register that a write of elements leaves. -/
theorem exists_putV_eq (r w : Nat) (out : List EOut) : ∃ x, sansMarks (cs.putV r w out) = sansMarks (setV cs r x) :=
  ⟨_, congrArg (fun c : CoreState => setV c r _) (sansMarks_vecWritten r w out)⟩

/-- The elements of V[VD] are written into a core that differs from the first in its marks alone. -/
theorem writesVd_putV {f : TileFields} (h : sansMarks ds = sansMarks cs) (w : Nat) (out : List EOut) :
    writesVd f cs (ds.putV (vVD f) w out) := by
  obtain ⟨x, hx⟩ := exists_putV_eq (cs := ds) (vVD f) w out
  exact ⟨x, hx.trans (congrArg (fun c : CoreState => setV c (vVD f) x) h)⟩

theorem writesVdSeed_putV {f : TileFields} (h : sansSeed ds = sansSeed cs) (w : Nat) (out : List EOut) :
    writesVdSeed f cs (ds.putV (vVD f) w out) := by
  obtain ⟨x, hx⟩ := exists_putV_eq (cs := ds) (vVD f) w out
  exact ⟨x, (sansSeed_congr hx).trans (congrArg (fun c : CoreState => setV c (vVD f) x) h)⟩

theorem writesVd_vecMap (f : TileFields) (g : CoreState → Nat → Nat × Bool) : writesVd f cs (vecMap f g cs) := writesVd_putV rfl _ _

theorem writesVd_vecBin (f : TileFields) (op : Nat → Nat → Nat) : writesVd f cs (vecBin f op cs) := writesVd_vecMap f _

theorem writesVd_vecUn (f : TileFields) (op : Nat → Nat) : writesVd f cs (vecUn f op cs) := writesVd_vecMap f _

theorem writesVd_vecGather (f : TileFields) (size : Nat) (ix tb : Nat → Nat × Bool) : writesVd f cs (vecGather f size ix tb cs) :=
  writesVd_putV (sansMarks_indexRange _) _ _

theorem writesVd_fxVecPack (f : TileFields) : writesVd f cs (fxVecPack f cs) := writesVd_putV rfl _ _

theorem writesVd_fxVecUnpack (f : TileFields) : writesVd f cs (fxVecUnpack f cs) := by
  unfold fxVecUnpack
  exact writesVd_vecMap f _

theorem writesVd_fxVecCompress (f : TileFields) : writesVd f cs (fxVecCompress f cs) := writesVd_putV rfl _ _

theorem writesVd_spread (f : TileFields) (g : Nat → Nat × Bool) : writesVd f cs (cs.spread f g) := writesVd_putV rfl _ _

theorem writesVd_fxVecLd (f : TileFields) : writesVd f cs (fxVecLd f cs) := writesVd_putV (sansMarks_loadElems _ _ _ _) _ _

theorem writesVd_fxVecLdr (f : TileFields) : writesVd f cs (fxVecLdr f cs) := writesVd_putV (sansMarks_loadElems _ _ _ _) _ _

@[simp] theorem sansSeed_overflowed (n : Nat) : sansSeed (cs.overflowed n) = sansSeed cs := sansSeed_congr (sansMarks_overflowed n)

@[simp] theorem sansSeed_convertTo (t : Nat) (sat sr : Bool) (v : Fp.Val) : sansSeed (cs.convertTo t sat sr v).2 = sansSeed cs := by
  unfold CoreState.convertTo
  split
  · refine (sansSeed_overflowed _).trans ?_
    cases sr <;> rfl
  · refine (sansSeed_overflowed _).trans ?_
    cases sr <;> rfl

theorem writesVdSeed_fxVecCvt (f : TileFields) : writesVdSeed f cs (fxVecCvt f cs) := by
  unfold fxVecCvt
  extract_lets w ws n si di r
  have hr : sansSeed r.2 = sansSeed cs := by
    refine foldl_kept (fun x : List EOut × CoreState => sansSeed x.2) (fun x i => ?_) _ _
    dsimp only
    split
    · exact sansSeed_convertTo _ _ _ _
    · rfl
  exact writesVdSeed_putV hr w r.1

/-! ## Instructions that write a mask or an address register -/

theorem onlyMd_of_sansMarks {f : TileFields} {x : BitVec 256} (h : sansMarks ds = sansMarks { cs with m := Tab.put cs.m (vVD f % 8) x }) :
    coreKept cs ds ∧ onlyMd f cs ds := by
  have field {γ : Type} (π : CoreState → γ) := field_of_sansMarks π h
  refine ⟨coreKept_of_keptFields (field keptFields), ⟨field (·.tm), field (·.am), field (·.mode), field (·.parts)⟩,
    field (·.v), fun r hr => ?_, field (·.a), field (·.vl), field (·.seed)⟩
  exact (field fun c => c.mreg r).trans (get_put_ne 0 cs.m (vVD f % 8) r x (Ne.symm hr))

theorem onlyAr_setA (f : TileFields) (v : Nat) (pois : Bool) :
    coreKept cs (cs.setA (vAR f) v pois) ∧ onlyAr f cs (cs.setA (vAR f) v pois) :=
  ⟨⟨rfl, rfl, rfl, rfl, rfl, rfl, rfl, rfl, rfl, rfl, rfl⟩, ⟨rfl, rfl, rfl, rfl⟩, rfl, rfl,
    fun r hr => congrArg BitVec.toNat (get_put_ne 0 cs.a (vAR f) r _ (Ne.symm hr)), rfl, rfl⟩

/-! ## The rows -/

section
variable {mk : Nat → TileFields → Instr} {opc : Nat} {ok : TileFields → Bool} {plan : TileFields → CoreState → Plan}
  {act : TileFields → CoreState → CoreState} (h : vecRow mk opc ok plan act)
include h

theorem frameRow_onlyVd (hw : ∀ f cs, writesVd f cs (act f cs)) : frameRow mk 2 opc .vec ok plan onlyVd :=
  frameRow_of_vecRow h (fun _ _ _ => rfl) fun f cs => onlyVd_of_writes (hw f cs)

theorem frameRow_onlyVdSeed (hw : ∀ f cs, writesVdSeed f cs (act f cs)) : frameRow mk 2 opc .vec ok plan onlyVdSeed :=
  frameRow_of_vecRow h (fun _ _ _ => rfl) fun f cs => onlyVdSeed_of_writes (hw f cs)

end

theorem frameRow_maskOp {mk opc ok plan} {op : BitVec 256 → BitVec 256 → BitVec 256} {two : Bool}
    (h : vecRow mk opc ok plan fun f => maskOp f op two) : frameRow mk 2 opc .vec ok plan onlyMd :=
  frameRow_of_vecRow h (fun _ _ _ => rfl) fun _ _ => onlyMd_of_sansMarks rfl

theorem frameRow_fxVecCmp {mk opc ok plan} (h : vecRow mk opc ok plan fxVecCmp) : frameRow mk 2 opc .vec ok plan onlyMd :=
  frameRow_of_vecRow h (fun _ _ _ => rfl) fun _ _ => onlyMd_of_sansMarks rfl

theorem frameRow_fxMaskA {mk opc ok plan} {g : List Nat → Nat → Nat}
    (h : vecRow mk opc ok plan fun f => fxMaskA f g) : frameRow mk 2 opc .vec ok plan onlyAr :=
  frameRow_of_vecRow h (fun _ _ _ => rfl) fun f _ => onlyAr_setA f _ _

/-- Settles O54: each row leaves its core as its effect does, which writes one register beside the marks. -/
theorem vectorInstructionsKeepTheRest : Obligations.VectorInstructionsKeepTheRest := by
  unfold Obligations.VectorInstructionsKeepTheRest
  obtain ⟨hAdd, hSub, hMul, hFma, hMax, hMin, hAbs, hNeg, hDiv, hSqrt⟩ := vecArithmeticCompletes_holds
  obtain ⟨hExp2, hLog2, hRsqrt, hRecip, hTanh⟩ := vecTranscendentalCompletes_holds
  obtain ⟨hAnd, hOr, hXor, hShl, hShr, hSra, hSel, -, hIota⟩ := vecBitwiseCompletes_holds
  obtain ⟨hCmp, hMand, hMor, hMxor, hMnot, hMpop, hMfirst⟩ := vecMaskCompletes_holds
  obtain ⟨hPerm, hPerm2, -, hPack, hUnpack, hCompress, hExpand, hCvt⟩ := vecPermuteCompletes_holds
  obtain ⟨-, hLd, hLdr, -⟩ := vecMemoryCompletes_holds
  exact ⟨frameRow_onlyVd hAdd fun f _ => writesVd_vecBin f _, frameRow_onlyVd hSub fun f _ => writesVd_vecBin f _,
    frameRow_onlyVd hMul fun f _ => writesVd_vecBin f _, frameRow_onlyVd hFma fun f _ => writesVd_vecMap f _,
    frameRow_onlyVd hMax fun f _ => writesVd_vecBin f _, frameRow_onlyVd hMin fun f _ => writesVd_vecBin f _,
    frameRow_onlyVd hAbs fun f _ => writesVd_vecUn f _, frameRow_onlyVd hNeg fun f _ => writesVd_vecUn f _,
    frameRow_onlyVd hDiv fun f _ => writesVd_vecBin f _, frameRow_onlyVd hSqrt fun f _ => writesVd_vecUn f _,
    frameRow_onlyVd hExp2 fun f _ => writesVd_vecUn f _, frameRow_onlyVd hLog2 fun f _ => writesVd_vecUn f _,
    frameRow_onlyVd hRsqrt fun f _ => writesVd_vecUn f _, frameRow_onlyVd hRecip fun f _ => writesVd_vecUn f _,
    frameRow_onlyVd hTanh fun f _ => writesVd_vecUn f _, frameRow_onlyVd hAnd fun f _ => writesVd_vecBin f _,
    frameRow_onlyVd hOr fun f _ => writesVd_vecBin f _, frameRow_onlyVd hXor fun f _ => writesVd_vecBin f _,
    frameRow_onlyVd hShl fun f _ => writesVd_vecBin f _, frameRow_onlyVd hShr fun f _ => writesVd_vecBin f _,
    frameRow_onlyVd hSra fun f _ => writesVd_vecBin f _, frameRow_onlyVd hSel fun f _ => writesVd_vecMap f _,
    frameRow_onlyVd hIota fun f _ => writesVd_vecMap f _, frameRow_onlyVd hPerm fun f _ => writesVd_vecGather f _ _ _,
    frameRow_onlyVd hPerm2 fun f _ => writesVd_vecGather f _ _ _, frameRow_onlyVd hPack fun f _ => writesVd_fxVecPack f,
    frameRow_onlyVd hUnpack fun f _ => writesVd_fxVecUnpack f, frameRow_onlyVd hCompress fun f _ => writesVd_fxVecCompress f,
    frameRow_onlyVd hExpand fun f _ => writesVd_spread f _, frameRow_onlyVdSeed hCvt fun f _ => writesVdSeed_fxVecCvt f,
    frameRow_onlyVd hLd fun f _ => writesVd_fxVecLd f, frameRow_onlyVd hLdr fun f _ => writesVd_fxVecLdr f,
    frameRow_fxVecCmp hCmp, frameRow_maskOp hMand, frameRow_maskOp hMor, frameRow_maskOp hMxor, frameRow_maskOp hMnot,
    frameRow_fxMaskA hMpop, frameRow_fxMaskA hMfirst⟩

end Sys2Proof.Laws
end

section
/-! # Integer lanes (O53) -/

namespace Sys2Proof.Laws
open Sys2Proof Sys2Proof.Machine Sys2Proof.Claim

variable {cs : CoreState} {f : TileFields}

/-! ## One lane of a register -/

/-- The bits of a field lie below the end of the field. -/
theorem ones_shiftLeft_lt {w a n : Nat} (h : w + a ≤ n) : (2 ^ w - 1) <<< a < 2 ^ n :=
  calc (2 ^ w - 1) <<< a = (2 ^ w - 1) * 2 ^ a := Nat.shiftLeft_eq _ _
    _ < 2 ^ w * 2 ^ a := Nat.mul_lt_mul_of_pos_right (Nat.sub_lt (by positivity) one_pos) (by positivity)
    _ = 2 ^ (w + a) := (pow_add _ _ _).symm
    _ ≤ 2 ^ n := Nat.pow_le_pow_right two_pos h

/-- A bit of a number in n bits whose field of w bits at a has been set to c. -/
theorem testBit_setField (x c : Nat) {w a n k : Nat} (h : w + a ≤ n) (hk : k < n) :
    ((x &&& (2 ^ n - 1 - (2 ^ w - 1) <<< a)) ||| ((c % 2 ^ w) <<< a)).testBit k =
      if a ≤ k ∧ k < a + w then c.testBit (k - a) else x.testBit k := by
  have hmask : 2 ^ n - 1 - (2 ^ w - 1) <<< a = 2 ^ n - ((2 ^ w - 1) <<< a + 1) := by rw [Nat.sub_sub, Nat.add_comm]
  simp only [hmask, Nat.testBit_or, Nat.testBit_and, Nat.testBit_two_pow_sub_succ (ones_shiftLeft_lt h), Nat.testBit_shiftLeft,
    Nat.testBit_two_pow_sub_one, Nat.testBit_mod_two_pow, hk, decide_true, Bool.true_and]
  by_cases hlo : a ≤ k
  · by_cases hhi : k < a + w
    · simp [hlo, hhi, show k - a < w by omega]
    · simp [hlo, hhi, show ¬ k - a < w by omega]
  · simp [hlo]

theorem getLsbD_setElem (v : BitVec 2048) (c : Nat) {i k : Nat} (hi : i < 64) (hk : k < 2048) :
    (setElem 32 v i c).getLsbD k = if 32 * i ≤ k ∧ k < 32 * i + 32 then c.testBit (k - 32 * i) else v.getLsbD k := by
  rw [setElem, BitVec.getLsbD_ofNat, testBit_setField v.toNat c (by omega) hk, BitVec.testBit_toNat]
  simp [hk]

/-- A lane after the write of an element of 32 bits. -/
theorem lane_setElem (v : BitVec 2048) (c : Nat) {i j : Nat} (hi : i < 64) (hj : j < 64) :
    lane (setElem 32 v i c) j = if i = j then BitVec.ofNat 32 c else lane v j := by
  ext k hk
  have hbit (w : BitVec 2048) : (lane w j)[k] = w.getLsbD (32 * j + k) := by simp [lane, BitVec.getElem_extractLsb']
  rw [hbit, getLsbD_setElem v c hi (by omega)]
  by_cases hij : i = j
  · subst hij
    simp [hk, ← BitVec.getLsbD_eq_getElem, BitVec.getLsbD_ofNat]
  · rw [if_neg (by omega), if_neg hij, hbit]

/-- What one outcome does to a register. -/
def setOut (w : Nat) (v : BitVec 2048) (e : EOut) : BitVec 2048 := (e.2.1.map (setElem w v e.1)).getD v

theorem vreg_putV (r w : Nat) (out : List EOut) : (cs.putV r w out).vreg r = out.foldl (setOut w) (cs.vreg r) := by
  have hv : (cs.vecWritten r w out).vreg r = cs.vreg r := field_of_sansMarks (CoreState.vreg · r) (sansMarks_vecWritten r w out)
  refine (get_put 0 _ r _).trans ?_
  rw [hv]
  congr 1
  funext v e
  rw [setOut]
  cases e.2.1 <;> rfl

/-- A lane after outcomes of the first n elements. -/
theorem lane_foldl_setOut (v : BitVec 2048) (oc : Nat → Option Nat) (p : Nat → Bool) {n j : Nat} (hn : n ≤ 64) (hj : j < 64) :
    lane (((List.range n).map fun i => (i, oc i, p i)).foldl (setOut 32) v) j =
      if j < n then ((oc j).map (BitVec.ofNat 32)).getD (lane v j) else lane v j := by
  induction n with
  | zero => simp
  | succ n ih =>
    rw [List.range_succ, List.map_append, List.foldl_append]
    simp only [List.map_cons, List.map_nil, List.foldl_cons, List.foldl_nil, setOut]
    cases hoc : oc n with
    | none =>
      rw [Option.map_none, Option.getD_none, ih (by omega)]
      obtain hlt | rfl | hgt := Nat.lt_trichotomy j n
      · simp [hlt, Nat.lt_succ_of_lt hlt]
      · simp [hoc]
      · simp [Nat.not_lt_of_gt hgt, show ¬ j < n + 1 by omega]
    | some c =>
      rw [Option.map_some, Option.getD_some, lane_setElem _ _ (by omega) hj, ih (by omega)]
      obtain hlt | rfl | hgt := Nat.lt_trichotomy j n
      · simp [hlt, Nat.lt_succ_of_lt hlt, Nat.ne_of_gt hlt]
      · simp [hoc]
      · simp [Nat.not_lt_of_gt hgt, Nat.ne_of_lt hgt, show ¬ j < n + 1 by omega]

/-! ## The lanes of a vector instruction -/

/-- The lanes of V[VD] that O53 asks for: `intRow` between the cores before and after. -/
def lanesTake (f : TileFields) (op : BitVec 32 → BitVec 32 → BitVec 32) (a b : CoreState) : Prop :=
  ∀ i, i < 64 → lane (b.vreg (vVD f)) i =
    if i < a.vl then
      (if vMU f = false ∨ (a.mreg (vMS f)).getLsbD i = true then
        op (lane (a.vreg (vVA f)) i) (if vSB f then BitVec.ofNat 32 (vIMM f) else lane (a.vreg (vVB f)) i)
      else if vZ f then 0 else lane (a.vreg (vVD f)) i)
    else lane (a.vreg (vVD f)) i

theorem intRow_iff {mk opc op} : intRow mk opc op ↔ ∀ (s : State) (L : Nat) (f : TileFields), vecOk (useBin etArith) f = true →
    (vET f = 7 ∨ vET f = 9) → ready s L 2 opc f .vec {} →
    ∃ t, exec (mk L f) s = .next t ∧ lanesTake f op (s.core L) (t.core L) := Iff.rfl

theorem opA_eq_lane (h : etBits (vET f) = 32) (i : Nat) : (cs.opA f i).1 = (lane (cs.vreg (vVA f)) i).toNat := by
  simp [CoreState.opA, CoreState.el, elemOf, lane, h]

theorem opB_eq_lane (h : etBits (vET f) = 32) (i : Nat) :
    (cs.opB f i).1 = (if vSB f then BitVec.ofNat 32 (vIMM f) else lane (cs.vreg (vVB f)) i).toNat := by
  unfold CoreState.opB
  split <;> simp [CoreState.el, elemOf, lane, h]

/-- R107 on the elements of an instruction: their new codes. -/
theorem elements_eq (n : Nat) (g : Nat → Nat × Bool) :
    cs.elements f n g = (List.range n).map fun i =>
      (i, (if cs.active f i then some (g i).1 else if vZ f then some 0 else none), (cs.active f i && (g i).2) || cs.govPois f i) := by
  refine List.map_congr_left fun i _ => ?_
  dsimp only
  split <;> simp [*]

/-- An element-wise operation on elements of 32 bits, where VL keeps to the lanes of a register. -/
theorem lanesTake_vecBin {op : BitVec 32 → BitVec 32 → BitVec 32} {nop : Nat → Nat → Nat} (het : etBits (vET f) = 32)
    (hvl : cs.vl ≤ 64) (hop : ∀ a b : BitVec 32, BitVec.ofNat 32 (nop a.toNat b.toNat) = op a b) : lanesTake f op cs (vecBin f nop cs) := by
  intro i hi
  have hn : cs.nEl f = cs.vl := by simp [CoreState.nEl, perLane, het]
  rw [vecBin, vecMap, vreg_putV, het, hn, elements_eq, lane_foldl_setOut _ _ _ hvl hi]
  refine if_congr Iff.rfl ?_ rfl
  have hact : cs.active f i = true ↔ vMU f = false ∨ (cs.mreg (vMS f)).getLsbD i = true := by simp [CoreState.active]
  by_cases ha : cs.active f i = true
  · rw [if_pos ha, if_pos (hact.mp ha), Option.map_some, Option.getD_some, ← hop, ← opA_eq_lane het, ← opB_eq_lane het]
  · rw [if_neg ha, if_neg (mt hact.mpr ha)]
    cases vZ f <;> rfl

/-! ## The rows where VL is at most 64 -/

/-- `intRow` in the states that the spec has: VL is at most 64 (Table 5.1). -/
def intRowInVl (mk : Nat → TileFields → Instr) (opc : Nat) (op : BitVec 32 → BitVec 32 → BitVec 32) : Prop :=
  ∀ (s : State) (L : Nat) (f : TileFields), (s.core L).vl ≤ 64 → vecOk (useBin etArith) f = true → (vET f = 7 ∨ vET f = 9) →
    ready s L 2 opc f .vec {} → ∃ t, exec (mk L f) s = .next t ∧ lanesTake f op (s.core L) (t.core L)

theorem etBits_int (h : vET f = 7 ∨ vET f = 9) : etBits (vET f) = 32 := by
  obtain h | h := h <;> rw [h] <;> rfl

theorem intRowInVl_of_vecRow {mk opc ok} {op : BitVec 32 → BitVec 32 → BitVec 32} {nop : TileFields → Nat → Nat → Nat}
    (h : vecRow mk opc ok (fun _ => noPlan) fun f => vecBin f (nop f))
    (hok : ∀ f, vecOk (useBin etArith) f = true → ok f = true)
    (hop : ∀ f, (vET f = 7 ∨ vET f = 9) → ∀ a b : BitVec 32, BitVec.ofNat 32 (nop f a.toNat b.toNat) = op a b) :
    intRowInVl mk opc op := by
  intro s L f hvl hf het hr
  refine ⟨_, h s L f (hok f hf) hr, ?_⟩
  rw [after, core_setCore]
  generalize hds : (((s.core L).issued.push .vec (noPlan (s.core L))).vxuStart opc false).vecEcc opc f = ds
  have hmarks : sansMarks ds = sansMarks (s.core L) := by rw [← hds]; simp
  have hlanes : lanesTake f op (sansMarks ds) (vecBin f (nop f) ds) := lanesTake_vecBin (cs := ds) (etBits_int het)
    ((congrArg CoreState.vl hmarks).trans_le hvl) (hop f het)
  rw [hmarks] at hlanes
  exact hlanes

/-- Integer arithmetic on elements of 32 bits is arithmetic modulo 2^32. -/
theorem ofNat_arith2 {t : Nat} (ht : t = 7 ∨ t = 9) (fo : Fp.Val → Fp.Val → Fp.Val) {io : Int → Int → Int}
    {op : BitVec 32 → BitVec 32 → BitVec 32} (hop : ∀ x y, BitVec.ofInt 32 (io x y) = op (BitVec.ofInt 32 x) (BitVec.ofInt 32 y))
    (a b : BitVec 32) : BitVec.ofNat 32 (arith2 t fo io a.toNat b.toNat) = op a b := by
  have hmod (i : Int) : BitVec.ofNat 32 (i % 2 ^ 32).toNat = BitVec.ofInt 32 i := by
    apply BitVec.eq_of_toNat_eq
    simp only [BitVec.toNat_ofNat, BitVec.toNat_ofInt]
    omega
  have hsext (c : BitVec 32) : BitVec.ofInt 32 (sext 32 c.toNat) = c := by
    rw [sext, Nat.mod_eq_of_lt c.isLt]
    refine (congrArg (BitVec.ofInt 32) ?_).trans (BitVec.ofInt_toInt (x := c))
    rw [BitVec.toInt_eq_toNat_cond]
    split_ifs <;> omega
  have hcast (c : BitVec 32) : BitVec.ofInt 32 c.toNat = c := by simp
  rw [arith2, if_neg (by omega)]
  refine (hmod _).trans ((hop _ _).trans ?_)
  obtain rfl | rfl := ht
  · exact congrArg₂ op (hsext a) (hsext b)
  · exact congrArg₂ op (hcast a) (hcast b)

theorem vecOk_etAny (h : vecOk (useBin etArith) f = true) : vecOk (useBin etAny) f = true := by
  have het : etArith.contains (vET f) = true → etAny.contains (vET f) = true := by simp [etArith, etAny]; omega
  simp only [vecOk, Bool.and_eq_true] at h ⊢
  obtain ⟨⟨⟨hregs, hets⟩, hzero⟩, himm⟩ := h
  exact ⟨⟨⟨hregs, het hets⟩, hzero⟩, himm⟩

/-- What O53 says holds where VL is at most 64. -/
theorem intRows_of_vl_le : intRowInVl .vecAdd 0x08 (· + ·) ∧ intRowInVl .vecSub 0x09 (· - ·) ∧ intRowInVl .vecMul 0x0A (· * ·) ∧
    intRowInVl .vecAnd 0x10 (· &&& ·) ∧ intRowInVl .vecOr 0x11 (· ||| ·) ∧ intRowInVl .vecXor 0x12 (· ^^^ ·) := by
  obtain ⟨hAdd, hSub, hMul, -⟩ := vecArithmeticCompletes_holds
  obtain ⟨hAnd, hOr, hXor, -⟩ := vecBitwiseCompletes_holds
  exact ⟨intRowInVl_of_vecRow hAdd (fun _ => id) fun _ het => ofNat_arith2 het _ BitVec.ofInt_add,
    intRowInVl_of_vecRow hSub (fun _ => id) fun _ het => ofNat_arith2 het _ fun x y => by
      rw [Int.sub_eq_add_neg, BitVec.ofInt_add, BitVec.ofInt_neg, BitVec.sub_eq_add_neg],
    intRowInVl_of_vecRow hMul (fun _ => id) fun _ het => ofNat_arith2 het _ BitVec.ofInt_mul,
    intRowInVl_of_vecRow hAnd (fun _ => vecOk_etAny) fun _ _ a b => BitVec.ofNat_toNat 32 (a &&& b),
    intRowInVl_of_vecRow hOr (fun _ => vecOk_etAny) fun _ _ a b => BitVec.ofNat_toNat 32 (a ||| b),
    intRowInVl_of_vecRow hXor (fun _ => vecOk_etAny) fun _ _ a b => BitVec.ofNat_toNat 32 (a ^^^ b)⟩

/-! ## VL beyond the register -/

/-- vec.add of INT32 elements: V0 takes V0 and the broadcast immediate 1. -/
def addOne : TileFields := BitVec.ofNat 116 (2 ^ 113 + 7 * 2 ^ 84 + 1)

/-- A core whose task stands before `addOne`, with VL one beyond the 64 lanes of a register. -/
def wideCore : CoreState :=
  { CoreState.init 0 with
    task := some ⟨⟨0, 0, 0⟩, 0, 0, 0, 0, 8, 0, 0, 0, 0, 1⟩
    code := [(0, tileWord 2 0x08 addOne)]
    vl := 65 }

/-- The module in power and out of reset, its core 0 as `wideCore`. -/
def wideState : State := { State.reset.setCore 0 wideCore with sys.vaux := true, sys.modResetN := true, sys.recoveryBoot := false }

theorem meets_wideState : meets wideState 0 2 0x08 addOne :=
  ⟨by decide, by decide, by decide +kernel, by decide, by decide⟩

theorem ready_wideState : ready wideState 0 2 0x08 addOne .vec {} :=
  ⟨meets_wideState, .inl (by decide +kernel), ⟨_, rfl, by decide⟩,
    by decide, by decide, rfl, by decide, by decide, rfl⟩

/-- Refutes O53: VL is a plain number in the model, and the statement does not bound it. With VL = 65, which no instruction sets,
vec.add writes an element 64 beside the register, which clears every lane. Where VL is at most 64 the rows hold
(`intRows_of_vl_le`). -/
theorem not_vecActiveLanesTakeTheResult : ¬ Obligations.VecActiveLanesTakeTheResult := by
  unfold Obligations.VecActiveLanesTakeTheResult
  rintro ⟨hadd, -⟩
  obtain ⟨t, ht, hlanes⟩ := intRow_iff.mp hadd wideState 0 addOne (by decide +kernel) (.inl (by decide +kernel)) ready_wideState
  have h0 := hlanes 0 (by decide)
  obtain ⟨hrow, -⟩ := vecArithmeticCompletes_holds
  rw [hrow wideState 0 addOne (by decide +kernel) ready_wideState] at ht
  cases ht
  revert h0
  decide +kernel

end Sys2Proof.Laws
end

section
/-! # The frame of stores, reductions and matrix instructions (O55) -/

namespace Sys2Proof.Laws
open Sys2Proof Sys2Proof.Machine Sys2Proof.Claim

variable {cs ds es : CoreState} {am : Bool} {D : Nat → Prop}

/-! ## Stores in declared bytes -/

@[simp] theorem sansMarks_load (a n : Nat) : sansMarks (cs.load am a n).2 = sansMarks cs := by
  unfold CoreState.load
  extract_lets ws cs1 p bs
  have hecc : sansMarks cs1 = sansMarks cs := by
    unfold cs1
    split
    · rfl
    · exact foldl_kept sansMarks (fun _ _ => sansMarks_eccWord am _) _ _
  split
  · exact hecc
  · exact (sansMarks_poisonRead _).trans hecc

theorem sansMarks_setLoc_congr (h : sansMarks cs = sansMarks ds) (m : Memory) :
    sansMarks (cs.setLoc am m) = sansMarks (ds.setLoc am m) := by
  cases am
  · exact congrArg (fun c : CoreState => c.setLoc false m) h
  · exact congrArg (fun c : CoreState => c.setLoc true m) h

/-- The memories of a core are read off what its marks leave. -/
theorem loc_congr (h : sansMarks cs = sansMarks ds) : cs.loc am = ds.loc am := by
  cases am
  · exact field_of_sansMarks CoreState.tm h
  · exact field_of_sansMarks CoreState.am h

/-- But for the marks, a store writes its bytes. -/
theorem sansMarks_store (a : Nat) (bs : List (Byte × Bool)) :
    sansMarks (cs.store am a bs) = sansMarks (cs.setLoc am ((cs.loc am).writeN a (bs.map (·.1)))) := by
  unfold CoreState.store
  extract_lets n whole ws cs1 any cs2 badAt p cs3
  have h1 : sansMarks cs1 = sansMarks cs := by
    unfold cs1
    split
    · rfl
    · refine foldl_kept sansMarks (fun x w => ?_) _ _
      split
      · exact sansMarks_setLocErr am _
      · exact (sansMarks_poisonRead _).trans (sansMarks_eccWord am w)
  have h2 : sansMarks cs2 = sansMarks (cs.setLoc am ((cs.loc am).writeN a (bs.map (·.1)))) := by
    unfold cs2
    rw [loc_congr h1]
    exact sansMarks_setLoc_congr h1 _
  have h3 : sansMarks cs3 = sansMarks cs2 := sansMarks_setLocPoison am _
  split
  · exact h2
  · split
    · exact sansMarks_poisoned.trans (h3.trans h2)
    · exact h3.trans h2

/-- But for the marks, `ds` is `cs` with bytes of one memory written, all of them at addresses of D. -/
def storesIn (am : Bool) (D : Nat → Prop) (cs ds : CoreState) : Prop :=
  ∃ m, sansMarks ds = sansMarks (cs.setLoc am m) ∧ ∀ x, ¬ D x → m.read x = (cs.loc am).read x

theorem setLoc_loc (cs : CoreState) (am : Bool) : cs.setLoc am (cs.loc am) = cs := by cases am <;> rfl
theorem loc_setLoc (cs : CoreState) (am : Bool) (m : Memory) : (cs.setLoc am m).loc am = m := by cases am <;> rfl
theorem setLoc_setLoc (cs : CoreState) (am : Bool) (m n : Memory) : (cs.setLoc am m).setLoc am n = cs.setLoc am n := by cases am <;> rfl

theorem storesIn_of_sansMarks (h : sansMarks ds = sansMarks cs) : storesIn am D cs ds :=
  ⟨cs.loc am, h.trans (by rw [setLoc_loc]), fun _ _ => rfl⟩

theorem storesIn_trans (h : storesIn am D cs ds) (h' : storesIn am D ds es) : storesIn am D cs es := by
  obtain ⟨m, hm, hread⟩ := h
  obtain ⟨n, hn, hread'⟩ := h'
  refine ⟨n, ?_, fun x hx => ?_⟩
  · rw [hn, sansMarks_setLoc_congr hm, setLoc_setLoc]
  · rw [hread' x hx, loc_congr hm, loc_setLoc, hread x hx]

theorem storesIn_store {a : Nat} {bs : List (Byte × Bool)} (h : ∀ j < bs.length, D (a + j)) : storesIn am D cs (cs.store am a bs) := by
  refine ⟨_, sansMarks_store a bs, fun x hx => read_writeN_outside _ _ _ _ ?_⟩
  by_contra hin
  have hx' : D (a + (x - a)) := h (x - a) (by simp at hin; omega)
  exact hx (by rwa [show a + (x - a) = x by simp at hin; omega] at hx')

/-- What every step of a fold stores in D, the fold stores in D. -/
theorem storesIn_foldl {β : Type} {g : CoreState → β → CoreState} {l : List β} (h : ∀ ds, ∀ b ∈ l, storesIn am D ds (g ds b)) :
    storesIn am D cs (l.foldl g cs) :=
  List.foldlRecOn (motive := storesIn am D cs) l g (storesIn_of_sansMarks rfl) fun ds hd b hb => storesIn_trans hd (h ds b hb)

/-! ## What such a store leaves -/

theorem coreKept_of_storesIn (h : storesIn am D cs ds) : coreKept cs ds ∧ storeKept cs ds ∧ ds.a = cs.a := by
  obtain ⟨m, hm, -⟩ := h
  have field {γ : Type} (π : CoreState → γ) : π (sansMarks ds) = π (sansMarks (cs.setLoc am m)) := congrArg π hm
  cases am <;>
  exact ⟨coreKept_of_keptFields (field keptFields), ⟨field (·.mode), field (·.parts), field (·.v), field (·.m), field (·.vl)⟩,
    field (·.a)⟩

/-- The memory that a space of a core names. -/
def spaceOf (am : Bool) : Space := if am then .am else .tm

theorem outside_of_storesIn {p : Plan} (h : storesIn am D cs ds)
    (hD : ∀ x, D x → ∃ e ∈ p.dst, e.1 = spaceOf am ∧ e.2.1 ≤ x ∧ x < e.2.1 + e.2.2) : outside p cs ds := by
  obtain ⟨m, hm, hread⟩ := h
  have hout {x : Nat} (hx : ∀ e ∈ p.dst, e.1 = spaceOf am → x < e.2.1 ∨ e.2.1 + e.2.2 ≤ x) : ¬ D x := fun hd => by
    obtain ⟨e, he, hs, hlo, hhi⟩ := hD x hd
    obtain hlt | hge := hx e he hs <;> omega
  have field {γ : Type} (π : CoreState → γ) : π (sansMarks ds) = π (sansMarks (cs.setLoc am m)) := congrArg π hm
  cases am
  · have htm : ds.tm = m := field (·.tm)
    have ham : ds.am = cs.am := field (·.am)
    exact ⟨fun x hx => htm ▸ hread x (hout hx), fun x _ => by rw [ham]⟩
  · have htm : ds.tm = cs.tm := field (·.tm)
    have ham : ds.am = m := field (·.am)
    exact ⟨fun x _ => by rw [htm], fun x hx => ham ▸ hread x (hout hx)⟩

/-! ## vec.st and vec.cst -/

@[simp] theorem bytesP_length (n v : Nat) (p : Bool) : (bytesP n v p).length = n := by simp [bytesP]

theorem storesIn_storeElems {off b : Nat} {l : List (Nat × Nat × Bool)} (h : ∀ e ∈ l, ∀ j < b, D (off + e.1 * b + j)) :
    storesIn am D cs (cs.storeElems am off b l) := by
  unfold CoreState.storeElems
  extract_lets runs
  have hruns : ∀ r ∈ runs, ∀ j < r.2.length, D (r.1 + j) := by
    refine List.foldlRecOn (motive := fun acc : List (Nat × List (Byte × Bool)) => ∀ r ∈ acc, ∀ j < r.2.length, D (r.1 + j)) l _
      (by simp) ?_
    intro acc hacc e he
    have hnew : ∀ j < (bytesP b e.2.1 e.2.2).length, D (off + e.1 * b + j) := by simpa using h e he
    dsimp only
    split
    · next a bs rest =>
      obtain ⟨hhead, hrest⟩ := List.forall_mem_cons.mp hacc
      split
      · next hjoin =>
        refine List.forall_mem_cons.mpr ⟨fun j hj => ?_, hrest⟩
        by_cases hin : j < bs.length
        · exact hhead j hin
        · have := hnew (j - bs.length) (by simp at hj ⊢; omega)
          rwa [← hjoin, show a + bs.length + (j - bs.length) = a + j by omega] at this
      · exact List.forall_mem_cons.mpr ⟨hnew, hacc⟩
    · exact List.forall_mem_cons.mpr ⟨hnew, by simp⟩
  exact storesIn_foldl fun _ r hr => storesIn_store (hruns r (List.mem_reverse.mp hr))

/-- The bytes of the elements `is` of a memory operand. -/
def elemBytes (f : TileFields) (off : Nat) (is : List Nat) (x : Nat) : Prop :=
  ∃ i ∈ is, off + i * (etBits (vET f) / 8) ≤ x ∧ x < off + i * (etBits (vET f) / 8) + etBits (vET f) / 8

theorem storesIn_fxVecSt (f : TileFields) : storesIn (vAS f) (elemBytes f (vOff f cs) (cs.actives f)) cs (fxVecSt f cs) := by
  refine storesIn_storeElems fun e he j hj => ?_
  obtain ⟨i, hi, rfl⟩ := List.mem_map.mp he
  exact ⟨i, hi, Nat.le_add_right _ _, Nat.add_lt_add_left hj _⟩

/-- The elements that vec.cst stores, side by side. -/
theorem storesIn_cstElems (f : TileFields) (g : Nat → Nat × Bool) :
    storesIn (vAS f) (elemBytes f (vOff f cs) (List.range (cs.actives f).length)) cs
      (cs.storeElems (vAS f) (vOff f cs) (etBits (vET f) / 8) ((cs.actives f).zipIdx.map fun x => (x.2, g x.1))) := by
  refine storesIn_storeElems fun e he j hj => ?_
  obtain ⟨x, hx, rfl⟩ := List.mem_map.mp he
  have hlt : x.2 < (cs.actives f).length := by simpa using (List.mem_zipIdx hx).2.1
  exact ⟨x.2, List.mem_range.mpr hlt, Nat.le_add_right _ _, Nat.add_lt_add_left hj _⟩

theorem outside_vMemPlan {f : TileFields} {late : Bool}
    (h : storesIn (vAS f) (elemBytes f (vOff f cs) (if late then List.range (cs.actives f).length else cs.actives f)) cs ds) :
    outside (vMemPlan true false late f cs) cs ds := by
  refine outside_of_storesIn h fun x hx => ?_
  obtain ⟨i, hi, hlo, hhi⟩ := hx
  exact ⟨_, List.mem_map.mpr ⟨i, hi, rfl⟩, rfl, hlo, hhi⟩

/-- What vec.st leaves in its core. -/
theorem fxVecSt_frame (f : TileFields) :
    coreKept cs (fxVecSt f cs) ∧ storeKept cs (fxVecSt f cs) ∧ (fxVecSt f cs).a = cs.a ∧
      outside (vMemPlan true false false f cs) cs (fxVecSt f cs) := by
  have h := storesIn_fxVecSt (cs := cs) f
  obtain ⟨hcore, hstore, ha⟩ := coreKept_of_storesIn h
  exact ⟨hcore, hstore, ha, outside_vMemPlan h⟩

/-- What vec.cst leaves in its core: A[AR] moves past the elements. -/
theorem fxVecCst_frame (f : TileFields) :
    coreKept cs (fxVecCst f cs) ∧ storeKept cs (fxVecCst f cs) ∧ (∀ r, r ≠ vAR f → (fxVecCst f cs).A r = cs.A r) ∧
      outside (vMemPlan true false true f cs) cs (fxVecCst f cs) := by
  have h := storesIn_cstElems (cs := cs) f fun i => ((cs.opA f i).1, (cs.opA f i).2 || cs.anyGovPois f)
  obtain ⟨hcore, hstore, ha⟩ := coreKept_of_storesIn h
  have hout := outside_vMemPlan (late := true) h
  refine ⟨hcore, hstore, fun r hr => ?_, hout⟩
  exact congrArg BitVec.toNat ((get_put_ne 0 _ (vAR f) r _ (Ne.symm hr)).trans (congrArg (Tab.get 0 · r) ha))

/-! ## Reductions -/

/-- Every byte of a row's results lies in D. -/
def landsIn (D : Nat → Prop) (o : RowOut) : Prop := ∀ e ∈ o, ∀ j < e.2.length, D (e.1 + j)

theorem storesIn_landRows {outs : List RowOut} (h : ∀ o ∈ outs, landsIn D o) : storesIn false D cs (landRows outs cs) :=
  storesIn_foldl fun _ o ho => storesIn_foldl fun _ e he => storesIn_store (h o ho e he)

/-- A sweep stores where its rows' results land: each row is read from the core with some of the earlier results. -/
theorem storesIn_redSweep {row : Nat → CoreState → RowOut × CoreState} {rows : Nat}
    (hrow : ∀ r < rows, ∀ ds, storesIn false D cs ds → sansMarks (row r ds).2 = sansMarks ds ∧ landsIn D (row r ds).1) :
    ∀ (k r n : Nat) (outs : List RowOut) (ds : CoreState), r + k ≤ rows → (∀ o ∈ outs, landsIn D o) → storesIn false D cs ds →
      storesIn false D cs (redSweep row k r n outs ds)
  | 0, _, _, _, _, _, hout, hds => storesIn_trans hds (storesIn_landRows hout)
  | k + 1, r, n, outs, ds, hk, hout, hds => by
    have hland : storesIn false D cs (landRows (outs.take (n % (outs.length + 1))) ds) :=
      storesIn_trans hds (storesIn_landRows fun o ho => hout o (List.mem_of_mem_take ho))
    obtain ⟨hmarks, hnew⟩ := hrow r (by omega) _ hland
    refine storesIn_redSweep hrow k (r + 1) _ _ _ (by omega) (fun o ho => ?_) (storesIn_trans hland (storesIn_of_sansMarks hmarks))
    obtain hold | hlast := List.mem_append.mp ho
    · exact hout o (List.mem_of_mem_drop hold)
    · rw [List.mem_singleton.mp hlast]; exact hnew

/-- The bytes of the results of a reduction, n bytes per row from A[DST]. -/
def resultBytes (f : TileFields) (n : Nat) (cs : CoreState) (x : Nat) : Prop :=
  cs.A (rDST f) ≤ x ∧ x < cs.A (rDST f) + n * rROWS f

theorem storesIn_redRows (f : TileFields) (n order : Nat) {g : List Nat → CoreState → Nat × CoreState}
    (hg : ∀ row ds, sansMarks (g row ds).2 = sansMarks ds) :
    storesIn false (resultBytes f n cs) cs (redRows f n g order cs) := by
  refine storesIn_redSweep (rows := rROWS f) (fun r hr ds hds => ?_) _ 0 order [] cs (Nat.zero_add _).le (by simp)
    (storesIn_of_sansMarks rfl)
  have hmarks : sansMarks (g (redRow f r ds).1.1 (redRow f r ds).2).2 = sansMarks ds :=
    (hg _ _).trans (sansMarks_load _ _)
  refine ⟨hmarks, fun e he j hj => ?_⟩
  obtain ⟨-, -, ha⟩ := coreKept_of_storesIn (storesIn_trans hds (storesIn_of_sansMarks hmarks))
  obtain rfl := List.mem_singleton.mp he
  have hdst : (g (redRow f r ds).1.1 (redRow f r ds).2).2.A (rDST f) = cs.A (rDST f) := by rw [CoreState.A, ha, CoreState.A]
  have hlast : r * n + n ≤ n * rROWS f :=
    calc r * n + n = (r + 1) * n := (Nat.succ_mul r n).symm
      _ ≤ rROWS f * n := Nat.mul_le_mul_right n hr
      _ = n * rROWS f := Nat.mul_comm _ _
  simp only [bytesP_length] at hj
  simp only [resultBytes, hdst]
  omega

theorem redPlan_dst (ranks : Bool) (al n : Nat) (f : TileFields) : (redPlan ranks al n f cs).dst = [(.tm, cs.A (rDST f), n)] := rfl

/-- What a reduction of every row leaves beside its results. -/
def ownRed (f : TileFields) (al n : Nat) (a b : CoreState) : Prop :=
  storeKept a b ∧ b.a = a.a ∧ outside (redPlan false al n f a) a b

theorem ownRed_sansMarks (f : TileFields) (al n : Nat) (a b : CoreState) :
    ownRed f al n (sansMarks a) (sansMarks b) = ownRed f al n a b := by
  unfold ownRed outside
  rw [redPlan_dst, redPlan_dst]
  rfl

theorem ownRed_of_storesIn {f : TileFields} {al n : Nat} (h : storesIn false (resultBytes f n cs) cs ds) :
    coreKept cs ds ∧ ownRed f al (n * rROWS f) cs ds := by
  obtain ⟨hcore, hstore, ha⟩ := coreKept_of_storesIn h
  refine ⟨hcore, hstore, ha, outside_of_storesIn h fun x hx => ?_⟩
  obtain ⟨hlo, hhi⟩ := hx
  exact ⟨_, by rw [redPlan_dst]; exact List.mem_singleton.mpr rfl, rfl, hlo, hhi⟩

/-- A conversion that rounds to nearest even draws no number. -/
theorem sansMarks_convert_rne (f : Fp.Fmt) (sat : Bool) (v : Fp.Val) : sansMarks (cs.convert f sat false v).2 = sansMarks cs := by
  refine (sansMarks_overflowed _).trans ?_
  rfl

theorem sansMarks_redSumOf (f : TileFields) (sq : Bool) (row : List Nat) : sansMarks (redSumOf f sq row cs).2 = sansMarks cs := by
  unfold redSumOf
  split_ifs
  · rfl
  · rfl
  · exact sansMarks_convert_rne _ _ _
  · rfl

/-- The frame of a row of RED, from its meaning. -/
theorem frameRow_of_redOp {mk opc ok plan act own} (h : redOp mk opc ok plan act)
    (hown : ∀ f a b, own f (sansMarks a) (sansMarks b) = own f a b)
    (hact : ∀ f order cs, coreKept cs (act f order cs) ∧ own f cs (act f order cs)) : frameRow mk 6 opc .vec ok plan own :=
  fun s L f hok hr => ⟨_, h s L f hok hr, frame_after (hown f)
    (sansMarks_vxuStart (cs := (s.core L).issued.push .vec (plan f (s.core L))) opc true) (hact f _ _)⟩

/-- The frame of a row of RED that reduces every row to one number. -/
theorem frameRow_redRows {mk opc ok} {al n : TileFields → Nat} {g : TileFields → List Nat → CoreState → Nat × CoreState}
    (h : redOp mk opc ok (fun f => redPlan false (al f) (n f * rROWS f) f) fun f => redRows f (n f) (g f))
    (hg : ∀ f row ds, sansMarks (g f row ds).2 = sansMarks ds) :
    frameRow mk 6 opc .vec ok (fun f => redPlan false (al f) (n f * rROWS f) f) (fun f => ownRed f (al f) (n f * rROWS f)) :=
  frameRow_of_redOp h (fun f => ownRed_sansMarks f _ _) fun f order _ => ownRed_of_storesIn (storesIn_redRows f (n f) order (hg f))

/-! ## The matrix unit -/

/-- A core without what its matrix unit writes: memories, flags and counts, the seed, the partitions and the queues. -/
def sansMatrix (cs : CoreState) : CoreState := sansMem { cs with seed := 0, mode := 0, parts := [], inflight := [] }

theorem sansMatrix_congr (h : sansMem cs = sansMem ds) : sansMatrix cs = sansMatrix ds :=
  show sansMatrix (sansMem cs) = sansMatrix (sansMem ds) by rw [h]

section
variable (a n p : Nat) (bs : List (Byte × Bool))

@[simp] theorem sansMatrix_load : sansMatrix (cs.load am a n).2 = sansMatrix cs := sansMatrix_congr (sansMem_load am a n)
@[simp] theorem sansMatrix_store : sansMatrix (cs.store am a bs) = sansMatrix cs := sansMatrix_congr (sansMem_store am a bs)
@[simp] theorem sansMatrix_poisoned : sansMatrix cs.poisoned = sansMatrix cs := sansMatrix_congr sansMem_poisoned
@[simp] theorem sansMatrix_overflowed : sansMatrix (cs.overflowed n) = sansMatrix cs := sansMatrix_congr (sansMem_overflowed n)
@[simp] theorem sansMatrix_event : sansMatrix (cs.event a n) = sansMatrix cs := rfl
@[simp] theorem sansMatrix_setPart (x : Part) : sansMatrix (cs.setPart p x) = sansMatrix cs := rfl

end

@[simp] theorem sansMatrix_convert (f : Fp.Fmt) (sat sr : Bool) (v : Fp.Val) : sansMatrix (cs.convert f sat sr v).2 = sansMatrix cs := by
  refine (sansMatrix_overflowed _).trans ?_
  cases sr <;> rfl

@[simp] theorem sansMatrix_convertTo (t : Nat) (sat sr : Bool) (v : Fp.Val) : sansMatrix (cs.convertTo t sat sr v).2 = sansMatrix cs := by
  unfold CoreState.convertTo
  split
  · exact sansMatrix_convert _ sat sr v
  · refine (sansMatrix_overflowed _).trans ?_
    cases sr <;> rfl

theorem sansMatrix_spill (p : Nat) : sansMatrix (cs.spill p) = sansMatrix cs := by
  unfold CoreState.spill
  split
  · rfl
  · exact (sansMatrix_setPart p _).trans (sansMatrix_congr (foldl_kept sansMem (fun _ _ => sansMem_spillOne _ _) _ _))

theorem sansMatrix_apart {act : CoreState → CoreState} (h : ∀ ds, sansMatrix (act ds) = sansMatrix ds) :
    sansMatrix (cs.apart act).1 = sansMatrix cs := h _

theorem sansMatrix_spillIfDue (p : Nat) : sansMatrix (cs.spillIfDue p) = sansMatrix cs := by
  unfold CoreState.spillIfDue
  split
  · rfl
  · split
    · exact sansMatrix_spill p
    · exact sansMatrix_apart fun _ => sansMatrix_spill p

theorem sansMatrix_remember (r : CoreState × BitVec 6 × List Status) (old : CoreState) (p : Nat) :
    sansMatrix (CoreState.remember r old p) = sansMatrix r.1 := rfl

theorem sansMatrix_mxuAct (p : Nat) {act : CoreState → CoreState} (h : ∀ ds, sansMatrix (act ds) = sansMatrix ds) :
    sansMatrix (cs.mxuAct p act) = sansMatrix cs :=
  (sansMatrix_remember _ _ p).trans ((sansMatrix_apart h).trans (sansMatrix_spillIfDue p))

theorem sansMatrix_expandElem (f : TileFields) (mode k c : Nat) (q : Nat × Bool) (aux : List (Byte × Bool)) :
    sansMatrix (expandElem f mode k c q aux cs).2 = sansMatrix cs := by
  unfold expandElem
  split
  · rfl
  · rfl
  · dsimp only
    split
    · exact sansMatrix_convert _ _ _ _
    · exact sansMatrix_convert _ _ _ _

theorem sansMatrix_ldbRow (f : TileFields) (mode k : Nat) (aux : List (Byte × Bool)) (x : Tab Nat × NSet × CoreState) :
    sansMatrix (ldbRow f mode k aux x).2.2 = sansMatrix x.2.2 := by
  unfold ldbRow
  extract_lets n w r num
  refine (foldl_kept (fun y : Tab Nat × NSet × CoreState => sansMatrix y.2.2) (fun y c => ?_) _ _).trans (sansMatrix_load _ _)
  exact sansMatrix_expandElem f mode k c _ aux

theorem sansMatrix_fxMxuLdb (f : TileFields) : sansMatrix (fxMxuLdb f cs) = sansMatrix cs := by
  unfold fxMxuLdb
  extract_lets mode k n aux r sc tsBad pois set cs1
  have hr : sansMatrix r.2.2 = sansMatrix cs :=
    (foldl_kept (fun y : Tab Nat × NSet × CoreState => sansMatrix y.2.2) (fun y i => sansMatrix_ldbRow f mode i aux.1 y) _ _).trans
      (sansMatrix_load _ _)
  have h1 : sansMatrix cs1 = sansMatrix cs := by
    unfold cs1
    split
    · exact sansMatrix_poisoned.trans hr
    · exact hr
  exact (sansMatrix_event _ _).trans ((sansMatrix_setPart _ _).trans h1)

theorem sansMatrix_passRow (f : TileFields) (t : Option StatSet) (i : Nat) : sansMatrix (passRow f t i cs) = sansMatrix cs := by
  unfold passRow
  extract_lets mode fmt k w row sc num rowPois aval T at' acc r
  have hrow : sansMatrix row.2 = sansMatrix cs := sansMatrix_load _ _
  have hsc : sansMatrix sc.2 = sansMatrix cs := by
    unfold sc
    split
    · exact (sansMatrix_load _ _).trans hrow
    · exact hrow
  have hacc : sansMatrix acc.2 = sansMatrix cs := by
    unfold acc
    split
    · exact hsc
    · exact (sansMatrix_load _ _).trans hsc
  have hr : sansMatrix r.2 = sansMatrix acc.2 :=
    foldl_kept (fun y : List (Byte × Bool) × CoreState => sansMatrix y.2) (fun _ _ => sansMatrix_convert _ _ _ _) _ _
  exact (sansMatrix_store _ _).trans (hr.trans hacc)

theorem sansMatrix_fxMxuPass (f : TileFields) : sansMatrix (fxMxuPass f cs) = sansMatrix cs := by
  unfold fxMxuPass
  extract_lets p x cs1 t cs2 cs3
  have h1 : sansMatrix cs1 = sansMatrix cs := by
    unfold cs1
    split <;> rfl
  have h3 : sansMatrix cs3 = sansMatrix cs := (foldl_kept sansMatrix (fun _ _ => sansMatrix_passRow f t _) _ _).trans h1
  split
  · exact h3
  · exact (sansMatrix_setPart _ _).trans h3

theorem sansMatrix_epilogue (f : TileFields) (a s b : Nat) : sansMatrix (epilogue f a s b cs).2 = sansMatrix cs := by
  unfold epilogue
  dsimp only
  split_ifs
  · exact sansMatrix_convert _ _ _ _
  · exact sansMatrix_convert _ _ _ _
  · exact sansMatrix_convert _ _ _ _
  · rfl
  · rfl

theorem sansMatrix_fp4Block (f : TileFields) (us : List Nat) : sansMatrix (fp4Block f us cs).2 = sansMatrix cs := by
  refine (foldl_kept (fun y : List Nat × CoreState => sansMatrix y.2) (fun x u => ?_) _ _).trans (sansMatrix_overflowed _)
  dsimp only
  split <;> rfl

theorem sansMatrix_outRow (f : TileFields) (sv bv : List (Byte × Bool)) (i : Nat) : sansMatrix (outRow f sv bv i cs) = sansMatrix cs := by
  unfold outRow
  extract_lets n at' d acc w pois us b bad r cs1
  have hus : sansMatrix us.2 = sansMatrix cs :=
    (foldl_kept (fun y : List Nat × CoreState => sansMatrix y.2) (fun _ _ => sansMatrix_epilogue f _ _ _) _ _).trans (sansMatrix_load _ _)
  have h1 : sansMatrix cs1 = sansMatrix cs := by
    unfold cs1
    split
    · exact (sansMatrix_store _ _).trans ((sansMatrix_store _ _).trans ((sansMatrix_fp4Block f _).trans hus))
    · exact (sansMatrix_store _ _).trans
        ((foldl_kept (fun y : List Nat × CoreState => sansMatrix y.2) (fun _ _ => sansMatrix_convertTo _ _ _ _) _ _).trans hus)
  split
  · exact (sansMatrix_store _ _).trans h1
  · exact h1

theorem sansMatrix_fxMxuOut (f : TileFields) : sansMatrix (fxMxuOut f cs) = sansMatrix cs := by
  unfold fxMxuOut
  extract_lets n sv bv
  have hsv : sansMatrix sv.2 = sansMatrix cs := by
    unfold sv
    split
    · exact sansMatrix_load _ _
    · rfl
  have hbv : sansMatrix bv.2 = sansMatrix cs := by
    unfold bv
    split
    · exact (sansMatrix_load _ _).trans hsv
    · exact hsv
  exact (foldl_kept sansMatrix (fun _ _ => sansMatrix_outRow f _ _ _) _ _).trans hbv

/-- What the matrix unit leaves in its core. -/
theorem coreKept_of_sansMatrix (h : sansMatrix ds = sansMatrix cs) :
    coreKept cs ds ∧ ds.v = cs.v ∧ ds.m = cs.m ∧ ds.a = cs.a ∧ ds.vl = cs.vl := by
  have field {γ : Type} (π : CoreState → γ) : π (sansMatrix ds) = π (sansMatrix cs) := congrArg π h
  exact ⟨coreKept_of_keptFields (field keptFields), field (·.v), field (·.m), field (·.a), field (·.vl)⟩

/-- The frame of a row of MXU, from its meaning. -/
theorem frameRow_of_mxuRow {mk opc ok plan act} (h : mxuRow mk opc ok plan act)
    (hk : ∀ f cs, sansMatrix (act f cs) = sansMatrix cs) :
    frameRow mk 1 opc .mxu (fun f => cfOk f && ok f) plan (fun _ a b => b.v = a.v ∧ b.m = a.m ∧ b.a = a.a ∧ b.vl = a.vl) := by
  intro s L f hok hr
  obtain ⟨hcf, hf⟩ := Bool.and_eq_true_iff.mp hok
  exact ⟨_, h s L f hcf hf hr, frame_after (own := fun a b => b.v = a.v ∧ b.m = a.m ∧ b.a = a.a ∧ b.vl = a.vl)
    (ds := (s.core L).issued.push .mxu (plan f (s.core L))) (fun _ _ => rfl) rfl
    (coreKept_of_sansMatrix (sansMatrix_mxuAct (mxuPart f) (hk f)))⟩

/-- Settles O55: the stores of vec.st, vec.cst and the reductions write bytes of their plans' destinations and marks, and the matrix unit
leaves the registers of the vector unit. -/
theorem storesStayInTheirBytes : Obligations.StoresStayInTheirBytes := by
  unfold Obligations.StoresStayInTheirBytes
  obtain ⟨-, -, -, hSt, hCst, -⟩ := vecMemoryCompletes_holds
  obtain ⟨hSum, hMax, hMin, -, hSqnorm, -⟩ := reductionsComplete
  obtain ⟨-, hLdb, hPass, -, -, -, hOut⟩ := matrixInstructionsComplete
  exact ⟨frameRow_of_vecRow hSt (fun _ _ _ => rfl) fun f _ => fxVecSt_frame f,
    frameRow_of_vecRow hCst (fun _ _ _ => rfl) fun f _ => fxVecCst_frame f,
    frameRow_redRows hSum fun f _ _ => sansMarks_redSumOf f _ _,
    frameRow_redRows hMax fun f _ _ => congrArg _ (redExt_snd f _ _ _),
    frameRow_redRows hMin fun f _ _ => congrArg _ (redExt_snd f _ _ _),
    frameRow_redRows hSqnorm fun f _ _ => sansMarks_redSumOf f _ _,
    frameRow_of_mxuRow hLdb fun f _ => sansMatrix_fxMxuLdb f,
    frameRow_of_mxuRow hPass fun f _ => sansMatrix_fxMxuPass f,
    frameRow_of_mxuRow hOut fun f _ => sansMatrix_fxMxuOut f⟩

end Sys2Proof.Laws
end

section
/-! # One missing unit of a stripe (O28)

The two check units and the data units of a stripe sum to the zero unit, so all but one of them sum to that one (R124). -/

namespace Sys2Proof.Laws
open Sys2Proof Sys2Proof.Machine

/-! ## Sums of units -/

theorem xorU_comm (a b : List Byte) : xorU a b = xorU b a := List.zipWith_comm_of_comm BitVec.xor_comm

theorem xorU_assoc (a b c : List Byte) : xorU (xorU a b) c = xorU a (xorU b c) :=
  List.ext_getElem (by simp only [xorU, List.length_zipWith, Nat.min_assoc]) fun _ _ _ => by
    simp only [xorU, List.getElem_zipWith, BitVec.xor_assoc]

theorem xorU_xorU_cancel {a b : List Byte} (h : a.length = b.length) : xorU (xorU a b) b = a :=
  List.ext_getElem (by simp [xorU, h]) fun _ _ _ => by simp [xorU]

theorem length_zeroU : zeroU.length = 256 := List.length_replicate

theorem zeroU_xorU {a : List Byte} (h : a.length = 256) : xorU zeroU a = a :=
  List.ext_getElem (by rw [xorU, List.length_zipWith, length_zeroU, h, Nat.min_self]) fun _ _ _ => by
    simp only [xorU, zeroU, List.getElem_zipWith, List.getElem_replicate]
    exact BitVec.zero_xor

theorem length_xorU {a b : List Byte} (ha : a.length = 256) (hb : b.length = 256) : (xorU a b).length = 256 := by
  rw [xorU, List.length_zipWith, ha, hb, Nat.min_self]

theorem length_mulU (c : Byte) (a : List Byte) : (mulU c a).length = a.length := List.length_map _

/-- The sum of a unit and the units given by index. -/
def sumFrom (x : List Byte) (us : List (Nat × List Byte)) : List Byte := us.foldl (fun p e => xorU p e.2) x

theorem sumFrom_append (x : List Byte) (us vs : List (Nat × List Byte)) : sumFrom x (us ++ vs) = sumFrom (sumFrom x us) vs :=
  List.foldl_append

theorem sumFrom_xorU (x y : List Byte) (us : List (Nat × List Byte)) : sumFrom (xorU x y) us = xorU x (sumFrom y us) := by
  induction us generalizing y with
  | nil => rfl
  | cons e us ih => exact (congrArg (sumFrom · us) (xorU_assoc x y e.2)).trans (ih _)

theorem sumFrom_eq {x : List Byte} (hx : x.length = 256) (us : List (Nat × List Byte)) :
    sumFrom x us = xorU x (sumFrom zeroU us) := by
  rw [← sumFrom_xorU, xorU_comm, zeroU_xorU hx]

theorem length_sumFrom {us : List (Nat × List Byte)} (hus : ∀ e ∈ us, e.2.length = 256) : (sumFrom zeroU us).length = 256 :=
  List.foldlRecOn (motive := fun y : List Byte => y.length = 256) us _ length_zeroU fun _ hy e he => length_xorU hy (hus e he)

/-- A unit among others comes out in front of their sum. -/
theorem sumFrom_extract (x : List Byte) (a b : List (Nat × List Byte)) (e : Nat × List Byte) :
    sumFrom x (a ++ e :: b) = xorU e.2 (sumFrom x (a ++ b)) := by
  rw [sumFrom_append, sumFrom_append, ← sumFrom_xorU, xorU_comm]
  rfl

/-! ## Syndromes and check units -/

theorem syndromes_fst (m : Nat) (us : List (Nat × List Byte)) : (syndromes m us).1 = sumFrom zeroU us :=
  (List.foldl_hom (g₂ := fun p (e : Nat × List Byte) => xorU p e.2) Prod.fst fun _ _ => rfl).symm

theorem length_syndromes_snd (m : Nat) {us : List (Nat × List Byte)} (hus : ∀ e ∈ us, e.2.length = 256) :
    (syndromes m us).2.length = 256 :=
  List.foldlRecOn (motive := fun p : List Byte × List Byte => p.2.length = 256) us _ length_zeroU fun _ hp e he =>
    length_xorU hp ((length_mulU _ _).trans (hus e he))

/-- The second check unit is some unit, and the first is its sum with the data units. -/
theorem parityOf_eq (m : Nat) {us : List (Nat × List Byte)} (hus : ∀ e ∈ us, e.2.length = 256) :
    ∃ v : List Byte, v.length = 256 ∧ parityOf m us = [(0, xorU (sumFrom zeroU us) v), (1, v)] := by
  rw [← syndromes_fst m]
  refine ⟨_, ?_, rfl⟩
  rw [length_mulU, length_xorU (length_syndromes_snd m hus)]
  rw [length_mulU, syndromes_fst, length_sumFrom hus]

/-- The check units of a stripe sum to what its data units sum to. -/
theorem sumFrom_parityOf (m : Nat) {us : List (Nat × List Byte)} (hus : ∀ e ∈ us, e.2.length = 256) :
    sumFrom zeroU (parityOf m us) = sumFrom zeroU us := by
  obtain ⟨v, hv, hp⟩ := parityOf_eq m hus
  have hs := length_sumFrom hus
  rw [hp]
  calc xorU (xorU zeroU (xorU (sumFrom zeroU us) v)) v = xorU (xorU (sumFrom zeroU us) v) v := by rw [zeroU_xorU (length_xorU hs hv)]
    _ = sumFrom zeroU us := xorU_xorU_cancel (hs.trans hv.symm)

/-- Settles O28: with the check units in place of the sum of all data units, the units left sum to the missing one. -/
theorem oneErasureIsDecoded : Obligations.OneErasureIsDecoded := by
  unfold Obligations.OneErasureIsDecoded
  intro m a b e h
  have he : e.2.length = 256 := h e (by simp)
  have hR := length_sumFrom (us := a ++ b) fun x hx => h x (by simp only [List.mem_append, List.mem_cons] at hx ⊢; tauto)
  have hsum : sumFrom zeroU (parityOf m (a ++ e :: b) ++ (a ++ b)) = e.2 := by
    rw [sumFrom_append, sumFrom_parityOf m h, sumFrom_extract, sumFrom_eq (length_xorU he hR), xorU_xorU_cancel (he.trans hR.symm)]
  exact congrArg (fun v => [(e.1, v)]) ((syndromes_fst m _).trans hsum)

end Sys2Proof.Laws
end

section
/-! # Striped memory with every stack in use (O26, O27) -/

namespace Sys2Proof.Laws
open Sys2Proof Sys2Proof.Machine Sys2Proof.Claim

/-! ## Stacks -/

theorem stk_modStk (s : State) (n j : Nat) (g : Stack → Stack) : (s.modStk n g).stk j = if n = j then g (s.stk n) else s.stk j := by
  simp only [State.modStk, State.setStk, State.stk, Tab.get, find_put]
  split <;> rfl

/-- What decides how a stack serves an access: its state, its stale map and its write throttle. -/
def stkService (x : Stack) : Nat × NSet × Bool := (x.st, x.stale, x.throttled)

/-- `t` serves accesses of striped memory as `s` does: it differs in counters, in stacks asleep and in free draws at most. -/
structure Serves (s t : State) : Prop where
  out : t.out = s.out
  sys : t.sys = s.sys
  pwr : t.pwr = s.pwr
  rbd : t.rbd = s.rbd
  mem : { t.mem with stack := [] } = { s.mem with stack := [] }
  stk : ∀ n, stkService (t.stk n) = stkService (s.stk n)

namespace Serves

variable {s t u : State}

theorem refl (s : State) : Serves s s := ⟨rfl, rfl, rfl, rfl, rfl, fun _ => rfl⟩

theorem trans (h : Serves s t) (k : Serves t u) : Serves s u :=
  ⟨k.out.trans h.out, k.sys.trans h.sys, k.pwr.trans h.pwr, k.rbd.trans h.rbd, k.mem.trans h.mem, fun n => (k.stk n).trans (h.stk n)⟩

/-- Steps that each leave the service leave it. -/
theorem foldl {β : Type} {f : State → β → State} (h : ∀ t b, Serves t (f t b)) (l : List β) (s : State) : Serves s (l.foldl f s) :=
  List.foldlRecOn (motive := fun t => Serves s t) l f (refl s) fun t ht b _ => ht.trans (h t b)

theorem ite {c : Prop} [Decidable c] (h : Serves s t) (k : Serves s u) : Serves s (if c then t else u) := by
  split
  · exact h
  · exact k

theorem dieEvent (s : State) (d ev n : Nat) (c : Option Nat) : Serves s (s.dieEvent d ev n c) := ⟨rfl, rfl, rfl, rfl, rfl, fun _ => rfl⟩

theorem modStk {g : Stack → Stack} (h : ∀ x, stkService (g x) = stkService x) (s : State) (n : Nat) : Serves s (s.modStk n g) :=
  ⟨rfl, rfl, rfl, rfl, rfl, fun j => by
    rw [stk_modStk]
    split
    · next hj => exact hj ▸ h _
    · rfl⟩

theorem stkCtr (s : State) (n i k : Nat) : Serves s (s.stkCtr n i k) :=
  modStk (g := fun x => { x with ctr := addCtr x.ctr i k }) (fun _ => rfl) s n

theorem touch (s : State) (n : Nat) : Serves s (s.touch n) := 
  ite (refl s) (modStk (g := fun x => { x with selfRef := false, wakes := x.wakes + 1 }) (fun _ => rfl) s n)

theorem readUnits (s : State) (l21 : Bool) (stripe : Nat) (is : List Nat) : Serves s (s.readUnits l21 stripe is) :=
  foldl (fun t j => (stkCtr t (s.stackOf l21 stripe j) 1 1).trans (touch _ _)) is s

theorem forCtx (s : State) (c : Option Nat) (was : State) : Serves s (s.forCtx c was) := by
  cases c with
  | none => exact refl s
  | some c => exact ite (refl s) ⟨rfl, rfl, rfl, rfl, rfl, fun _ => rfl⟩

/-! ### What is read of a state that serves as another -/

theorem field {α : Type} (h : Serves s t) (π : Mem → α) (hπ : ∀ m, π { m with stack := [] } = π m := by intro; rfl) :
    π t.mem = π s.mem :=
  (hπ _).symm.trans ((congrArg π h.mem).trans (hπ _))

theorem units (h : Serves s t) : t.mem.units = s.mem.units := h.field (·.units)

theorem stackOf (h : Serves s t) (l21 : Bool) (stripe i : Nat) : t.stackOf l21 stripe i = s.stackOf l21 stripe i := by
  simp only [State.stackOf, h.field (·.removed)]

theorem locate (h : Serves s t) (pa : Nat) : t.locate pa = s.locate pa := by
  simp only [State.locate, State.in21, h.field (·.layout21), h.field (·.restripe), h.field (·.watermark)]

theorem stripedEnd (h : Serves s t) : t.stripedEnd = s.stripedEnd := by
  simp only [State.stripedEnd, h.field (·.layout21), h.field (·.restripe)]

theorem rawUnit (h : Serves s t) (l21 : Bool) (stripe i : Nat) : t.rawUnit l21 stripe i = s.rawUnit l21 stripe i := by
  simp only [State.rawUnit, h.stackOf, h.units]

theorem poisonMask (h : Serves s t) (l21 : Bool) (stripe v : Nat) : t.poisonMask l21 stripe v = s.poisonMask l21 stripe v := by
  simp only [State.poisonMask, h.stackOf, h.field (·.poisonTab)]

theorem holdsRead (h : Serves s t) (src pa len : Nat) : t.holdsRead src pa len = s.holdsRead src pa len := by
  simp only [State.holdsRead, State.owes, State.heldAhead, h.locate, h.field (·.acks), h.field (·.gather), h.field (·.portWait),
    h.field (·.readWait)]

theorem dieOn (h : Serves s t) : t.dieOn = s.dieOn := by
  simp only [State.dieOn, State.alive, h.sys, h.rbd, h.pwr]

theorem errsAt (h : Serves s t) (k : Nat) : t.errsAt k = s.errsAt k := by
  simp only [State.errsAt, h.field (·.errFree)]

theorem online (h : Serves s t) (ha : allOnline s) : allOnline t := by
  intro n
  have hn := h.stk n
  simp only [stkService, Prod.mk.injEq] at hn
  obtain ⟨h1, h2, h3⟩ := hn
  rw [h1, h2, h3]
  exact ha n

/-- The same units put into both. -/
theorem withUnits (h : Serves s t) (m : Memory) : Serves { s with mem.units := m } { t with mem.units := m } :=
  ⟨h.out, h.sys, h.pwr, h.rbd, congrArg (fun x : Mem => { x with units := m }) h.mem, h.stk⟩

/-- The same poison tables put into both. -/
theorem withPoison (h : Serves s t) (p : Tab (Tab (BitVec 8))) : Serves { s with mem.poisonTab := p } { t with mem.poisonTab := p } :=
  ⟨h.out, h.sys, h.pwr, h.rbd, congrArg (fun x : Mem => { x with poisonTab := p }) h.mem, h.stk⟩

end Serves

/-! ## Reads -/

section
variable {s : State} (ha : allOnline s)
include ha

theorem unavailable_of_online (n stripe : Nat) : s.unavailable n stripe = false := by
  obtain ⟨hst, hstale, -⟩ := ha n
  simp [State.unavailable, hst, hstale, NSet.mem]

theorem erasures_of_online (l21 : Bool) (stripe : Nat) : s.erasures l21 stripe [] = [] := by
  simp [State.erasures, unavailable_of_online ha]

theorem unitVal_of_online (l21 : Bool) (stripe i : Nat) : s.unitVal l21 stripe [] i = some (s.rawUnit l21 stripe i) := by
  simp [State.unitVal, erasures_of_online ha]

theorem pieceVal_of_online (l : Loc) (n : Nat) : s.pieceVal l n [] = some (((s.rawUnit l.l21 l.stripe (2 + l.u)).drop l.b).take n,
    (List.range n).map (fun j => (s.poisonMask l.l21 l.stripe l.u).getLsbD ((l.b + j) / 32))) := by
  simp only [State.pieceVal, unitVal_of_online ha, Option.map_some]

end

theorem severity_noErrs (s : State) (n : Nat) : s.severity noErrs n = s := rfl

theorem readMeeting_noErrs (s : State) (l21 : Bool) (stripe : Nat) (is : List Nat) :
    s.readMeeting l21 stripe is noErrs = s.readUnits l21 stripe is :=
  List.foldlRecOn (motive := fun t : State => t = s.readUnits l21 stripe is) is _ rfl fun _ ht _ _ => (severity_noErrs _ _).trans ht

/-- The state that a read of one available unit leaves. -/
def oneUnitRead (s : State) (pa : Nat) : State :=
  (s.readUnits (s.locate pa).l21 (s.locate pa).stripe [2 + (s.locate pa).u]).dieEvent
    (s.homeDie (s.locate pa).l21 (s.locate pa).stripe) 0x40 1 none

theorem serves_oneUnitRead (s : State) (pa : Nat) : Serves s (oneUnitRead s pa) :=
  (Serves.readUnits s _ _ _).trans (Serves.dieEvent _ _ _ _ _)

theorem readPiece_of_online {s : State} (ha : allOnline s) (pa n : Nat) :
    s.readPiece pa n noErrs = (⟨((s.rawUnit (s.locate pa).l21 (s.locate pa).stripe (2 + (s.locate pa).u)).drop (s.locate pa).b).take n,
      (List.range n).map (fun j => (s.poisonMask (s.locate pa).l21 (s.locate pa).stripe (s.locate pa).u).getLsbD (((s.locate pa).b + j) / 32)),
      false, false, s.slowAt false (s.stackOf (s.locate pa).l21 (s.locate pa).stripe (2 + (s.locate pa).u))⟩, oneUnitRead s pa) := by
  have he : erasedBy noErrs = [] := rfl
  simp only [State.readPiece, he, erasures_of_online ha, pieceVal_of_online ha]
  rfl

theorem stripeAt_of_le {s : State} {pa n : Nat} (h : n ≤ 256) : s.stripeAt pa n = false := by
  have hb : ¬ stripeBytes (s.locate pa).l21 ≤ n := by
    cases (s.locate pa).l21 <;> simp [stripeBytes, dataUnits] <;> omega
  simp [State.stripeAt, hb]

/-- A read within one unit reads that unit's stack (R127). -/
theorem memReadE_of_online {s : State} (ha : allOnline s) {pa n : Nat} (h0 : 0 < n) (hn : pa % 256 + n ≤ 256) :
    s.memReadE pa n noErrs = s.readPiece pa n noErrs := by
  have hk : Nat.min n (256 - pa % 256) = n := Nat.min_eq_left (by omega)
  have hw : s.stripeAt pa n = false := stripeAt_of_le (by omega)
  have hdone : ∀ (t : State) (fuel a : Nat) (acc : MemRes), t.readGo noErrs fuel a 0 acc = (acc, t) := fun t fuel a acc => by
    cases fuel <;> rfl
  rw [State.memReadE, State.readGo, if_neg h0.ne']
  simp only [hw, hk, Nat.sub_self, hdone, readPiece_of_online ha, Bool.false_eq_true, if_false]
  rfl

/-! ## Places of units -/

theorem getElem?_getD_inj {l : List Nat} (h : l.Nodup) {i j : Nat} (hi : i < l.length) (hj : j < l.length)
    (e : (l[i]?).getD 0 = (l[j]?).getD 0) : i = j := by
  rw [List.getElem?_eq_getElem hi, List.getElem?_eq_getElem hj] at e
  exact h.getElem_inj_iff.mp e

/-- The stacks that may be in use in the 21+2 layout: all, or all but the one removed (R141). -/
theorem length_remaining (r : Option Nat) : 23 ≤ ((List.range 24).filter (fun n => some n != r)).length := by
  cases r with
  | none => decide
  | some k =>
    by_cases hk : k < 24
    · interval_cases k <;> decide
    · rw [List.filter_eq_self.mpr fun n hn => by simp only [List.mem_range] at hn; simp; omega]
      decide

/-- Each unit of a stripe lies on a stack of its own (R124, R141). -/
theorem stackOf_inj {s : State} {l21 : Bool} {stripe i j : Nat} (hi : i < allUnits l21) (hj : j < allUnits l21)
    (h : s.stackOf l21 stripe i = s.stackOf l21 stripe j) : i = j := by
  cases l21 with
  | false =>
    simp only [State.stackOf, allUnits, dataUnits, Bool.false_eq_true, if_false] at hi hj h
    omega
  | true =>
    simp only [State.stackOf, allUnits, dataUnits, if_true] at hi hj h
    have hlen := length_remaining s.mem.removed
    have := getElem?_getD_inj (List.nodup_range.filter _) (by omega) (by omega) h
    omega

/-- Units on different stacks or of different stripes have no byte in common. -/
theorem unitKey_apart {n k x y : Nat} (hx : x < 2 ^ 29) (hy : y < 2 ^ 29) (h : n ≠ k ∨ x ≠ y) :
    unitKey n x + 256 ≤ unitKey k y ∨ unitKey k y + 256 ≤ unitKey n x := by
  unfold unitKey
  omega

theorem readN_congr {m m' : Memory} {a : Nat} : ∀ {n : Nat}, (∀ x, x < n → m.read (a + x) = m'.read (a + x)) → m.readN a n = m'.readN a n
  | 0, _ => rfl
  | n + 1, h => by
    rw [Memory.readN, Memory.readN, readN_congr fun x hx => by simpa [Nat.add_assoc, Nat.add_comm 1] using h (x + 1) (by omega)]
    exact congrArg (· :: _) (h 0 (by omega))

theorem length_readN (m : Memory) (a n : Nat) : (m.readN a n).length = n := by
  induction n generalizing a with
  | zero => rfl
  | succ n ih => exact congrArg (· + 1) (ih _)

/-- Bytes outside those written read as before. -/
theorem readN_writeN_apart {m : Memory} {a b n : Nat} {bs : List Byte} (h : b + bs.length ≤ a ∨ a + n ≤ b) :
    (m.writeN b bs).readN a n = m.readN a n :=
  readN_congr fun x hx => read_writeN_outside _ _ _ _ (by omega)

/-- What is written is read back. -/
theorem readN_writeN_same (bs : List Byte) : ∀ (m : Memory) (a : Nat), (m.writeN a bs).readN a bs.length = bs := by
  induction bs with
  | nil => intro m a; rfl
  | cons b bs ih =>
    intro m a
    rw [Memory.writeN, List.length_cons, Memory.readN, ih, read_writeN_outside _ _ _ _ (by omega), read_write, if_pos rfl]

/-! ## The bytes of one unit -/

/-- Bytes that follow one another from an offset of a stripe on. -/
def runAt (o : Nat) : List (Byte × Bool) → StripeWrite
  | [] => []
  | e :: bs => (o, e) :: runAt (o + 1) bs

theorem map_range_eq_runAt (bs : List (Byte × Bool)) (o : Nat) :
    (List.range bs.length).map (fun j => (o + j, (bs[j]?).getD (0, false))) = runAt o bs := by
  induction bs generalizing o with
  | nil => rfl
  | cons e bs ih =>
    rw [List.length_cons, List.range_succ_eq_map, List.map_cons, List.map_map, runAt, ← ih]
    simp [Function.comp_def, Nat.add_assoc, Nat.add_comm 1]

theorem mem_runAt {bs : List (Byte × Bool)} {o : Nat} {e : Nat × Byte × Bool} (h : e ∈ runAt o bs) :
    o ≤ e.1 ∧ e.1 < o + bs.length ∧ e.2 ∈ bs := by
  induction bs generalizing o with
  | nil => cases h
  | cons b bs ih =>
    rw [runAt, List.mem_cons] at h
    rw [List.length_cons, List.mem_cons]
    rcases h with rfl | h
    · exact ⟨le_rfl, by omega, .inl rfl⟩
    · obtain ⟨h1, h2, h3⟩ := ih h
      exact ⟨by omega, by omega, .inr h3⟩

/-- Bytes laid over a unit one after the other stand there in a row. -/
theorem overlay_runAt (bs : List (Byte × Bool)) : ∀ (o : Nat) (old : List Byte), o % 256 + bs.length ≤ 256 → old.length = 256 →
    overlay old (runAt o bs) = old.take (o % 256) ++ bs.map (·.1) ++ old.drop (o % 256 + bs.length) := by
  induction bs with
  | nil => intro o old _ _; simp [overlay, runAt]
  | cons e bs ih =>
    intro o old hn hlen
    rw [List.length_cons] at hn
    have hlen' : (patchAt old (o % 256) [e.1]).length = 256 := by simp [patchAt]; omega
    have hk : (old.take (o % 256) ++ [e.1]).length = o % 256 + 1 := by simp; omega
    change overlay (patchAt old (o % 256) [e.1]) (runAt (o + 1) bs) = _
    cases bs with
    | nil => simp [overlay, runAt, patchAt]
    | cons f fs =>
      rw [List.length_cons] at hn
      have ho : (o + 1) % 256 = o % 256 + 1 := by omega
      have htake : (patchAt old (o % 256) [e.1]).take (o % 256 + 1) = old.take (o % 256) ++ [e.1] := List.take_left' hk
      have hdrop (m : Nat) : (patchAt old (o % 256) [e.1]).drop (o % 256 + 1 + m) = old.drop (o % 256 + 1 + m) := by
        rw [← List.drop_drop, patchAt, List.drop_left' hk, List.drop_drop]
        rfl
      rw [ih (o + 1) _ (by rw [ho, List.length_cons]; omega) hlen', ho, htake, hdrop]
      simp [Nat.add_assoc, Nat.add_comm 1]

theorem length_overlay {w : StripeWrite} {old : List Byte} (h : old.length = 256) : (overlay old w).length = 256 :=
  List.foldlRecOn (motive := fun bs : List Byte => bs.length = 256) w _ h fun bs hb e _ => by
    have := Nat.mod_lt e.1 (show 0 < 256 by decide)
    simp [patchAt]
    omega

/-- A write without poison marks no sector (R132). -/
theorem sectorMask_unpoisoned {w : StripeWrite} (h : ∀ e ∈ w, e.2.2 = false) : sectorMask 0 w = 0 := by
  have hany : ∀ k, (w.filter (fun e => e.1 % 256 / 32 == k)).any (fun e => e.2.2) = false := fun k => by
    simp only [List.any_eq_false, List.mem_filter]
    exact fun e he => by simp [h e he.1]
  refine List.foldlRecOn (motive := fun m : BitVec 8 => m = 0) _ _ rfl fun m hm k _ => ?_
  subst hm
  simp [hany]

/-! ## Writes -/

theorem skips_of_online {s : State} (ha : allOnline s) (n stripe : Nat) : s.skips n stripe = false := by
  obtain ⟨hst, hstale, hthr⟩ := ha n
  simp [State.skips, hst, hstale, hthr, NSet.mem]

/-- Striped memory with the unit at index i of a stripe written. -/
def putUnit (s : State) (l21 : Bool) (stripe i : Nat) (bs : List Byte) : State :=
  { s with mem.units := s.mem.units.writeN (unitKey (s.stackOf l21 stripe i) stripe) bs }

/-- Striped memory with the given poison tables. -/
def putPoison (s : State) (p : Tab (Tab (BitVec 8))) : State := { s with mem.poisonTab := p }

theorem Serves.writeUnit {s t : State} (h : Serves s t) (ha : allOnline s) (l21 : Bool) (stripe i : Nat) (bs : List Byte) :
    Serves (putUnit s l21 stripe i bs) (t.writeUnit l21 stripe i bs) := by
  unfold State.writeUnit putUnit
  extract_lets _ n now x
  rw [if_neg (by simp [skips_of_online (h.online ha)]), ← h.stackOf, ← h.units]
  exact ((h.trans (Serves.stkCtr t n 2 1)).trans (Serves.modStk (by intro; rfl) _ n)).withUnits _

/-- The mask of a data unit changes without safe hold where its entry is cleared, or is listed already. -/
theorem Serves.setPoison {s t : State} (h : Serves s t) {l21 : Bool} {stripe u : Nat} {m : BitVec 8}
    (hm : m = 0 ∨ t.poisonMask l21 stripe u ≠ 0) :
    ∃ p, (putPoison s p).poisonMask l21 stripe u = m ∧ Serves (putPoison s p) (t.setPoison l21 stripe u m) := by
  have hmask : ∀ (p : Tab (Tab (BitVec 8))) (q : Tab (BitVec 8)), Tab.get 0 q (poisonKey l21 stripe u) = m →
      (putPoison s (Tab.put p (t.stackOf l21 stripe 0) q)).poisonMask l21 stripe u = m := fun p q hq => by
    rw [h.stackOf]
    exact (congrArg (Tab.get 0 · (poisonKey l21 stripe u)) (get_put [] p (s.stackOf l21 stripe 0) q)).trans hq
  unfold State.setPoison
  dsimp only
  split
  · next h0 =>
    refine ⟨_, hmask _ _ ?_, h.withPoison _⟩
    simp [Tab.get, find_del, h0]
  · next h0 =>
    have hhas : Tab.has (Tab.get [] t.mem.poisonTab (t.stackOf l21 stripe 0)) (poisonKey l21 stripe u) = true := by
      rw [Tab.has, Option.isSome_iff_ne_none]
      intro hnone
      exact hm.resolve_left h0 (by rw [State.poisonMask, Tab.get, hnone]; rfl)
    simp only [hhas, Bool.not_true, Bool.false_and, Bool.false_eq_true, if_false, if_true]
    exact ⟨_, hmask _ _ (get_put _ _ _ _), h.withPoison _⟩

theorem range_filter_eq {u n : Nat} (hu : u < n) : (List.range n).filter (· == u) = [u] := by
  rw [List.filter_beq, List.count_eq_one_of_mem List.nodup_range (List.mem_range.mpr hu)]
  rfl

/-- Of the units of a stripe only the one at hand is taken. -/
theorem filter_map_oneUnit {u nd : Nat} (hu : u < nd) (g : Nat → List Byte) :
    ((List.range nd).map (fun v => (2 + v, g v))).filter (fun p => [u].contains (p.1 - 2)) = [(2 + u, g u)] := by
  have hf : (fun v => (fun p : Nat × List Byte => [u].contains (p.1 - 2)) (2 + v, g v)) = (· == u) := by
    funext v
    exact Bool.eq_iff_iff.mpr (by simp)
  rw [List.filter_map, Function.comp_def, hf, range_filter_eq hu]
  rfl

theorem length_rawUnit (s : State) (l21 : Bool) (stripe i : Nat) : (s.rawUnit l21 stripe i).length = 256 := length_readN _ _ _

theorem length_xorU_rawUnit (s : State) (l21 : Bool) (stripe i : Nat) (v : List Byte) :
    (xorU v (s.rawUnit l21 stripe i)).length ≤ 256 := by
  rw [xorU, List.length_zipWith, length_rawUnit]
  exact Nat.min_le_right _ _

section
variable {w : StripeWrite} {u : Nat} (hin : ∀ e ∈ w, e.1 / 256 = u)
include hin

theorem inUnit_same : inUnit w u = w := List.filter_eq_self.mpr fun e he => by simp [hin e he]

theorem inUnit_other {v : Nat} (h : v ≠ u) : inUnit w v = [] := List.filter_eq_nil_iff.mpr fun e he => by simp [hin e he, h.symm]

theorem unitsOf_oneUnit (hw : w ≠ []) {nd : Nat} (hu : u < nd) : (List.range nd).filter (fun v => !(inUnit w v).isEmpty) = [u] := by
  have hf : (fun v => !(inUnit w v).isEmpty) = (· == u) := by
    funext v
    by_cases h : v = u
    · subst h; simp [inUnit_same hin, hw]
    · simp [inUnit_other hin h, h]
  rw [hf, range_filter_eq hu]

/-- A write within one unit, with every stack in use, is a delta write: the unit and the two check units are written (R129). -/
theorem writeStripe_oneUnit {s : State} (ha : allOnline s) {l21 : Bool} {stripe : Nat} (hw : w ≠ []) (hu : u < dataUnits l21) :
    ∃ p0 p1 : List Byte, p0.length ≤ 256 ∧ p1.length ≤ 256 ∧ ∃ t, Serves s t ∧ s.writeStripe l21 stripe w noErrs =
      (false, let x := ((t.writeUnit l21 stripe (2 + u) (overlay (s.rawUnit l21 stripe (2 + u)) w)).writeUnit
          l21 stripe 0 p0).writeUnit l21 stripe 1 p1
        x.setPoison l21 stripe u (sectorMask (x.poisonMask l21 stripe u) w)) := by
  have he : erasedBy noErrs = [] := rfl
  have hnd : (1 == dataUnits l21) = false := by cases l21 <;> rfl
  simp only [State.writeStripe, he, erasures_of_online ha, unitsOf_oneUnit hin hw hu, unitVal_of_online ha, readMeeting_noErrs,
    filter_map_oneUnit hu, List.map_cons, List.map_nil, inUnit_same hin]
  generalize hpar : parityOf (allUnits l21) _ = pars
  obtain ⟨v0, v1, rfl⟩ : ∃ v0 v1, pars = [(0, v0), (1, v1)] := ⟨_, _, hpar.symm⟩
  refine ⟨_, _, length_xorU_rawUnit s l21 stripe 0 v0, length_xorU_rawUnit s l21 stripe 1 v1, _,
    (Serves.readUnits s l21 stripe [0, 1, 2 + u]).trans (Serves.dieEvent _ (s.homeDie l21 stripe) 0x43 1 none), ?_⟩
  simp [hnd, inUnit_same hin]

end

/-- What a write within one unit leaves: that unit `v`, the check units `p0` and `p1` of its stripe and the poison tables are new. -/
def unitWritten (s : State) (l : Loc) (v p0 p1 : List Byte) (p : Tab (Tab (BitVec 8))) : State :=
  putPoison (putUnit (putUnit (putUnit s l.l21 l.stripe (2 + l.u) v) l.l21 l.stripe 0 p0) l.l21 l.stripe 1 p1) p

section
variable (s : State) (l : Loc) (v p0 p1 : List Byte) (p : Tab (Tab (BitVec 8)))

@[simp] theorem unitWritten_locate (pa : Nat) : (unitWritten s l v p0 p1 p).locate pa = s.locate pa := rfl
@[simp] theorem unitWritten_stripedEnd : (unitWritten s l v p0 p1 p).stripedEnd = s.stripedEnd := rfl
@[simp] theorem unitWritten_holdsRead (src pa n : Nat) : (unitWritten s l v p0 p1 p).holdsRead src pa n = s.holdsRead src pa n := rfl
@[simp] theorem unitWritten_dieOn : (unitWritten s l v p0 p1 p).dieOn = s.dieOn := rfl
@[simp] theorem unitWritten_errsAt (k : Nat) : (unitWritten s l v p0 p1 p).errsAt k = s.errsAt k := rfl
@[simp] theorem unitWritten_allOnline : allOnline (unitWritten s l v p0 p1 p) ↔ allOnline s := Iff.rfl
@[simp] theorem unitWritten_poisonMask (l21 : Bool) (stripe u : Nat) :
    (unitWritten s l v p0 p1 p).poisonMask l21 stripe u = (putPoison s p).poisonMask l21 stripe u := rfl

end

/-- The same, as what it leaves in striped memory; the unit's mask changes as R132 says. -/
theorem writeStripe_serves {s : State} (ha : allOnline s) {l : Loc} {w : StripeWrite} (hin : ∀ e ∈ w, e.1 / 256 = l.u)
    (hpois : ∀ e ∈ w, e.2.2 = false) (hw : w ≠ []) (hu : l.u < dataUnits l.l21) :
    ∃ (p0 p1 : List Byte) (p : Tab (Tab (BitVec 8))), p0.length ≤ 256 ∧ p1.length ≤ 256 ∧
      (putPoison s p).poisonMask l.l21 l.stripe l.u = sectorMask (s.poisonMask l.l21 l.stripe l.u) w ∧
      Serves (unitWritten s l (overlay (s.rawUnit l.l21 l.stripe (2 + l.u)) w) p0 p1 p) (s.writeStripe l.l21 l.stripe w noErrs).2 := by
  obtain ⟨l21, stripe, u, b⟩ := l
  obtain ⟨p0, p1, h0, h1, t, ht, heq⟩ := writeStripe_oneUnit hin ha hw hu (stripe := stripe)
  have hx := ((ht.writeUnit ha l21 stripe (2 + u) (overlay (s.rawUnit l21 stripe (2 + u)) w)).writeUnit ha l21 stripe 0 p0).writeUnit ha
    l21 stripe 1 p1
  dsimp only at hin hu ⊢
  rw [heq]
  dsimp only
  generalize State.writeUnit _ l21 stripe 1 p1 = x at hx ⊢
  have hm : x.poisonMask l21 stripe u = s.poisonMask l21 stripe u := hx.poisonMask l21 stripe u
  rw [hm]
  obtain ⟨p, hp, h⟩ := hx.setPoison (l21 := l21) (stripe := stripe) (u := u) (m := sectorMask (s.poisonMask l21 stripe u) w) <| by
    rw [hm]
    by_cases h0 : s.poisonMask l21 stripe u = 0
    · exact .inl (by rw [h0, sectorMask_unpoisoned hpois])
    · exact .inr h0
  exact ⟨p0, p1, p, h0, h1, hp, h⟩

/-! ## Accesses within one unit -/

theorem piecesOf_oneUnit {a n : Nat} (h0 : 0 < n) (hn : a % 256 + n ≤ 256) : piecesOf a n = [(a, n)] := by
  have hk : Nat.min n (256 - a % 256) = n := Nat.min_eq_left (by omega)
  rw [piecesOf, unitPieces, if_neg h0.ne', hk]
  simp [unitPieces]

theorem byStripe_oneUnit {s : State} {pa : Nat} {bs : List (Byte × Bool)} (h0 : bs ≠ []) (hn : pa % 256 + bs.length ≤ 256) :
    s.byStripe pa bs = [(((s.locate pa).l21, (s.locate pa).stripe), runAt ((s.locate pa).u * 256 + (s.locate pa).b) bs)] := by
  rw [State.byStripe, piecesOf_oneUnit (List.length_pos_iff.mpr h0) hn, ← map_range_eq_runAt]
  simp

theorem locate_b (s : State) (pa : Nat) : (s.locate pa).b = pa % 256 := rfl

theorem locate_u_lt (s : State) (pa : Nat) : (s.locate pa).u < dataUnits (s.locate pa).l21 := by
  simp only [State.locate]
  cases s.in21 pa <;> simp [stripeBytes, dataUnits] <;> omega

theorem locate_stripe_lt {s : State} {pa : Nat} (h : pa < s.stripedEnd) : (s.locate pa).stripe < 2 ^ 29 := by
  have hend : s.stripedEnd ≤ if s.in21 pa then 0x02A000000000 else 0x02C000000000 := by
    unfold State.stripedEnd State.in21
    by_cases hl : s.mem.layout21 = true ∨ s.mem.restripe = 2
    · rw [if_pos hl]
      split <;> decide
    · obtain ⟨h1, h2⟩ := not_or.mp hl
      simp [h1, h2]
  simp only [State.locate]
  cases hl : s.in21 pa <;> simp [hl, stripeBytes, dataUnits] at hend ⊢ <;> omega

theorem memWriteP_oneUnit {s : State} {pa : Nat} {bs : List (Byte × Bool)} (hg : s.mem.gather = []) (he : ∀ k, s.errsAt k = noErrs)
    (h0 : bs ≠ []) (hn : pa % 256 + bs.length ≤ 256) :
    s.memWriteP pa bs = s.nextErrs.2.writeStripe (s.locate pa).l21 (s.locate pa).stripe
      (runAt ((s.locate pa).u * 256 + (s.locate pa).b) bs) noErrs := by
  have hg' : s.mem.gather.find? (fun x => x.stripe == gatherKey (s.locate pa).l21 (s.locate pa).stripe) = none := by rw [hg]; rfl
  have he' : s.nextErrs.1 = noErrs := he _
  simp only [State.memWriteP, byStripe_oneUnit h0 hn, List.foldl_cons, List.foldl_nil, hg', he', Option.map_none, Option.getD_none, Bool.false_or]

theorem rawUnit_putPoison (s : State) (p : Tab (Tab (BitVec 8))) (l21 : Bool) (stripe i : Nat) :
    (putPoison s p).rawUnit l21 stripe i = s.rawUnit l21 stripe i := rfl

theorem rawUnit_putUnit_same (s : State) (l21 : Bool) (stripe i : Nat) {bs : List Byte} (h : bs.length = 256) :
    (putUnit s l21 stripe i bs).rawUnit l21 stripe i = bs := by
  have := readN_writeN_same bs s.mem.units (unitKey (s.stackOf l21 stripe i) stripe)
  rwa [h] at this

theorem rawUnit_putUnit_other {s : State} {l21 : Bool} {x y i j : Nat} {bs : List Byte} (hbs : bs.length ≤ 256) (hx : x < 2 ^ 29) (hy : y < 2 ^ 29)
    (hi : i < allUnits l21) (hj : j < allUnits l21) (h : x = y → i ≠ j) : (putUnit s l21 x i bs).rawUnit l21 y j = s.rawUnit l21 y j := by
  have hne : s.stackOf l21 y j ≠ s.stackOf l21 x i ∨ y ≠ x := by
    by_cases hxy : x = y
    · subst hxy
      exact .inl fun hs => h rfl (stackOf_inj hj hi hs).symm
    · exact .inr (Ne.symm hxy)
  have hapart := unitKey_apart hy hx hne
  exact readN_writeN_apart (a := unitKey (s.stackOf l21 y j) y) (by omega)

/-- What a write within one unit brings to its stripe. -/
def unitWrite (l : Loc) (bs : List Byte) : StripeWrite := runAt (l.u * 256 + l.b) (bs.map (fun b => (b, false)))

/-- The data unit at a place of the state with a write's bytes laid over it. -/
def unitAfter (s : State) (l : Loc) (bs : List Byte) : List Byte := overlay (s.rawUnit l.l21 l.stripe (2 + l.u)) (unitWrite l bs)

theorem unitWrite_ne_nil {bs : List Byte} (h : bs ≠ []) (l : Loc) : unitWrite l bs ≠ [] := by
  obtain ⟨b, bs, rfl⟩ := List.exists_cons_of_ne_nil h
  exact List.cons_ne_nil _ _

theorem mem_unitWrite {l : Loc} {bs : List Byte} (hn : l.b + bs.length ≤ 256) {e : Nat × Byte × Bool} (h : e ∈ unitWrite l bs) :
    e.1 / 256 = l.u ∧ e.2.2 = false := by
  obtain ⟨hlo, hhi, hb⟩ := mem_runAt h
  obtain ⟨b, -, hb⟩ := List.mem_map.mp hb
  rw [List.length_map] at hhi
  exact ⟨by omega, by rw [← hb]⟩

theorem length_unitAfter (s : State) (l : Loc) (bs : List Byte) : (unitAfter s l bs).length = 256 := length_overlay (length_rawUnit _ _ _ _)

/-- The bytes written are those of the unit from its offset on. -/
theorem unitAfter_bytes (s : State) {l : Loc} {bs : List Byte} (hb : l.b < 256) (hn : l.b + bs.length ≤ 256) :
    ((unitAfter s l bs).drop l.b).take bs.length = bs := by
  have ho : (l.u * 256 + l.b) % 256 = l.b := by omega
  have hlen : ((s.rawUnit l.l21 l.stripe (2 + l.u)).take l.b).length = l.b := by rw [List.length_take, length_rawUnit]; omega
  rw [unitAfter, unitWrite, overlay_runAt _ _ _ (by rw [ho, List.length_map]; omega) (length_rawUnit _ _ _ _), ho, List.map_map,
    List.append_assoc, List.drop_left' hlen, Function.comp_def, List.map_id']
  exact List.take_left

/-- A write within one unit leaves that unit with the bytes in it, and new check units in its stripe (R128, R129). -/
theorem memWrite_serves {s : State} {pa : Nat} {bs : List Byte} {l : Loc} (hl : s.locate pa = l) (ha : allOnline s) (hg : s.mem.gather = [])
    (he : ∀ k, s.errsAt k = noErrs) (h0 : bs ≠ []) (hn : pa % 256 + bs.length ≤ 256) :
    ∃ (p0 p1 : List Byte) (p : Tab (Tab (BitVec 8))), p0.length ≤ 256 ∧ p1.length ≤ 256 ∧
      (s.poisonMask l.l21 l.stripe l.u = 0 → (putPoison s p).poisonMask l.l21 l.stripe l.u = 0) ∧
      Serves (unitWritten s l (unitAfter s l bs) p0 p1 p) (s.memWrite pa bs).2 := by
  have hb : l.b = pa % 256 := hl ▸ locate_b s pa
  have hu : l.u < dataUnits l.l21 := hl ▸ locate_u_lt s pa
  have hw : ∀ e ∈ unitWrite l bs, e.1 / 256 = l.u ∧ e.2.2 = false := fun e => mem_unitWrite (by omega)
  obtain ⟨p0, p1, p, hp0, hp1, hp, h⟩ := writeStripe_serves (s := s.nextErrs.2) ha (l := l)
    (fun e h => (hw e h).1) (fun e h => (hw e h).2) (unitWrite_ne_nil h0 l) hu
  refine ⟨p0, p1, p, hp0, hp1, fun hm => hp.trans ?_, ?_⟩
  · rw [show s.nextErrs.2.poisonMask l.l21 l.stripe l.u = 0 from hm, sectorMask_unpoisoned fun e h => (hw e h).2]
  · rw [State.memWrite, memWriteP_oneUnit hg he (by simpa using h0) (by simpa using hn), hl]
    exact ⟨h.out, h.sys, h.pwr, h.rbd, h.mem, h.stk⟩

section
variable {s : State} {l : Loc} {v p0 p1 : List Byte} {p : Tab (Tab (BitVec 8))} (hx : l.stripe < 2 ^ 29) (hu : l.u < dataUnits l.l21)
  (h0 : p0.length ≤ 256) (h1 : p1.length ≤ 256) (hv : v.length = 256)
include hx hu h0 h1 hv

theorem rawUnit_unitWritten_same : (unitWritten s l v p0 p1 p).rawUnit l.l21 l.stripe (2 + l.u) = v := by
  have hi : 2 + l.u < allUnits l.l21 := by rw [allUnits]; omega
  rw [unitWritten, rawUnit_putPoison, rawUnit_putUnit_other h1 hx hx (by omega) hi (by omega),
    rawUnit_putUnit_other h0 hx hx (by omega) hi (by omega), rawUnit_putUnit_same _ _ _ _ hv]

theorem rawUnit_unitWritten_other {y w : Nat} (hy : y < 2 ^ 29) (hw : w < dataUnits l.l21) (h : l.stripe = y → l.u ≠ w) :
    (unitWritten s l v p0 p1 p).rawUnit l.l21 y (2 + w) = s.rawUnit l.l21 y (2 + w) := by
  have hi : 2 + l.u < allUnits l.l21 := by rw [allUnits]; omega
  have hj : 2 + w < allUnits l.l21 := by rw [allUnits]; omega
  rw [unitWritten, rawUnit_putPoison, rawUnit_putUnit_other h1 hx hy (by omega) hj (by omega),
    rawUnit_putUnit_other h0 hx hy (by omega) hj (by omega), rawUnit_putUnit_other hv.le hx hy hi hj (by omega)]

end

/-! ## Reads of a source -/

theorem windowAt_striped {s : State} {pa n : Nat} (h : pa + n ≤ s.stripedEnd) : windowAt pa n = none := by
  have hend : s.stripedEnd ≤ 0x02C000000000 := by unfold State.stripedEnd; split <;> decide
  rw [windowAt, if_neg (by omega), if_neg (by omega)]

/-- A read in striped memory that nothing holds back returns to its source (R127, R130). -/
theorem exec_memRead_eq {s : State} {src pa n : Nat} {e : ReadErrs} (hd : s.dieOn = true) (hend : pa + n ≤ s.stripedEnd)
    (hr : s.holdsRead src pa n = false) : exec (.memRead src pa n e) s = .next (s.readTo src pa n e) := by
  have hwin : (if src = fwSrc then windowAt pa n else none) = none := by rw [windowAt_striped hend, ite_self]
  simp [exec, execMemRead, fxMemRead, hwin, State.readStriped, hd, hr, Nat.not_lt.mpr hend]

/-- What leaves the module with a read that meets neither an error nor poison (R131). -/
theorem readTo_out {s t : State} {src pa n : Nat} {e : ReadErrs} {r : MemRes} (h : s.memReadE pa n e = (r, t)) (hc : r.corr = false)
    (hu : r.uncorr = false) (hp : r.pois.any id = false) :
    (s.readTo src pa n e).out = t.out ++ [.readData src r.bytes r.pois St.ok] := by
  have hcheck : ∀ v : State, v.readCheck src pa r = v := fun v => by simp [State.readCheck, hu, hp]
  have hnote : ∀ v : State, v.readNote src r = v := fun v => by simp [State.readNote, hc, hu]
  rw [← (Serves.forCtx t (s.srcCtx src) s).out]
  simp only [State.readTo, h, hcheck, hnote, hc, hu]
  rfl

/-- The marks of a unit whose mask is clear. -/
theorem map_getLsbD_zero (n : Nat) (f : Nat → Nat) : (List.range n).map (fun j => (0 : BitVec 8).getLsbD (f j)) = List.replicate n false := by
  simp

/-- A read within one unit that is not poisoned returns that unit's bytes, with OK (R127). -/
theorem exec_memRead_oneUnit {s : State} {src pa n : Nat} {l : Loc} (hl : s.locate pa = l) (hd : s.dieOn = true) (ha : allOnline s)
    (h0 : 0 < n) (hn : pa % 256 + n ≤ 256) (hend : pa + n ≤ s.stripedEnd) (hr : s.holdsRead src pa n = false)
    (hm : s.poisonMask l.l21 l.stripe l.u = 0) :
    ∃ t, exec (.memRead src pa n noErrs) s = .next t ∧ t.out =
      s.out ++ [.readData src (((s.rawUnit l.l21 l.stripe (2 + l.u)).drop l.b).take n) (List.replicate n false) St.ok] := by
  refine ⟨_, exec_memRead_eq hd hend hr, ?_⟩
  have hread := (memReadE_of_online ha h0 hn).trans (readPiece_of_online ha pa n)
  rw [hl, hm, map_getLsbD_zero] at hread
  rw [readTo_out hread rfl rfl (by simp), (serves_oneUnitRead s pa).out]

/-- Settles O26: the write leaves the bytes in their unit, unpoisoned, and the read takes them from there. -/
theorem aReadReturnsWhatWasWritten : Obligations.AReadReturnsWhatWasWritten := by
  unfold Obligations.AReadReturnsWhatWasWritten
  intro s pa src bs hd ha h0 hn hend hg he hr hm
  have hb : (s.locate pa).b = pa % 256 := locate_b s pa
  have hx : (s.locate pa).stripe < 2 ^ 29 := locate_stripe_lt (by have := List.length_pos_iff.mpr h0; omega)
  obtain ⟨p0, p1, p, hp0, hp1, hp, h⟩ := memWrite_serves rfl ha hg he h0 hn
  have hraw := (h.rawUnit _ _ _).trans (rawUnit_unitWritten_same hx (locate_u_lt s pa) hp0 hp1 (length_unitAfter s (s.locate pa) bs))
  generalize (s.memWrite pa bs).2 = t at h hraw ⊢
  obtain ⟨r, hex, hout⟩ := exec_memRead_oneUnit (s := t) (src := src) (pa := pa) (n := bs.length) (l := s.locate pa)
    (by rw [h.locate, unitWritten_locate]) (by rw [h.dieOn, unitWritten_dieOn, hd]) (h.online ((unitWritten_allOnline ..).mpr ha))
    (List.length_pos_iff.mpr h0) hn (by rwa [h.stripedEnd, unitWritten_stripedEnd]) (by rw [h.holdsRead, unitWritten_holdsRead, hr])
    (by rw [h.poisonMask, unitWritten_poisonMask, hp hm])
  exact ⟨r, hex, by rw [hout, hraw, unitAfter_bytes s (by omega) (by omega)]⟩

/-- What a read of one byte returns, with every stack in use and no error met. -/
theorem memRead_byte {s : State} (ha : allOnline s) (he : ∀ k, s.errsAt k = noErrs) (pa : Nat) : (s.memRead pa 1).1.bytes =
    ((s.rawUnit (s.locate pa).l21 (s.locate pa).stripe (2 + (s.locate pa).u)).drop (s.locate pa).b).take 1 := by
  have he' : s.nextErrs.1 = noErrs := he _
  have ha' : allOnline s.nextErrs.2 := ha
  rw [State.memRead, he', memReadE_of_online ha' (by decide) (by omega), readPiece_of_online ha']
  rfl

/-- The data units of striped memory follow one another, stripe by stripe (R124). -/
theorem div_eq_locate (s : State) (pa : Nat) : pa / 256 = dataUnits (s.locate pa).l21 * (s.locate pa).stripe + (s.locate pa).u := by
  simp only [State.locate, stripeBytes]
  rw [Nat.mod_mul_right_div_self, ← Nat.div_div_eq_div_mul, Nat.div_add_mod]

/-- Settles O27: the units that the write changes lie apart from every other data unit. -/
theorem aWriteLeavesOtherUnitsAlone : Obligations.AWriteLeavesOtherUnitsAlone := by
  unfold Obligations.AWriteLeavesOtherUnitsAlone
  intro s pa pb bs ha hg he h0 hn hpa hpb hrs hne
  have hlay : ∀ a, (s.locate a).l21 = s.mem.layout21 := fun a => by simp [State.locate, State.in21, hrs]
  have hl : (s.locate pa).l21 = (s.locate pb).l21 := (hlay pa).trans (hlay pb).symm
  obtain ⟨p0, p1, p, hp0, hp1, -, h⟩ := memWrite_serves rfl ha hg he h0 hn
  have hraw := (h.rawUnit _ _ _).trans (rawUnit_unitWritten_other (locate_stripe_lt hpa) (locate_u_lt s pa) hp0 hp1
    (length_unitAfter s (s.locate pa) bs) (locate_stripe_lt hpb) (hl ▸ locate_u_lt s pb)
    fun hst hu => hne (by rw [div_eq_locate s pa, div_eq_locate s pb, hl, hst, hu]))
  rw [hl] at hraw
  generalize (s.memWrite pa bs).2 = t at h hraw ⊢
  have hat : allOnline t := h.online ((unitWritten_allOnline ..).mpr ha)
  have het : ∀ k, t.errsAt k = noErrs := fun k => by rw [h.errsAt, unitWritten_errsAt, he]
  rw [memRead_byte ha he, memRead_byte hat het, h.locate, unitWritten_locate, hraw]

end Sys2Proof.Laws
end

section
/-! # The states of a stack (O30) -/

namespace Sys2Proof.Laws
open Sys2Proof Sys2Proof.Machine

/-! ## Changes of a stack's state -/

theorem event_mem (s : State) (c d : Nat) : (s.event c d).mem = s.mem := by
  unfold State.event
  refine List.foldlRecOn (motive := fun t : State => t.mem = s.mem) _ _ rfl fun t ht i _ => ?_
  dsimp only
  split_ifs <;> exact ht

theorem stk_congr {s t : State} {n : Nat} (h : t.mem.stack = s.mem.stack) : t.stk n = s.stk n := congrArg (Tab.get Stack.reset · n) h

theorem event_stk (s : State) (c d n : Nat) : (s.event c d).stk n = s.stk n := stk_congr (congrArg Mem.stack (event_mem s c d))

@[simp] theorem modStk_units (s : State) (n : Nat) (g : Stack → Stack) : (s.modStk n g).mem.units = s.mem.units := rfl

@[simp] theorem stk_modStk_same (s : State) (n : Nat) (g : Stack → Stack) : (s.modStk n g).stk n = g (s.stk n) := stk_setStk _ _ _

@[simp] theorem setStackState_stk (s : State) (n st : Nat) : (s.setStackState n st).stk n = { s.stk n with st := st } := by
  unfold State.setStackState State.event2
  split
  · next h => rw [← h]
  · rw [event_stk, stk_modStk_same]

/-- A change of a stack's state keeps the rest of striped memory. -/
theorem setStackState_field {α : Type} (π : Mem → α) (hπ : ∀ (m : Mem) t, π { m with stack := t } = π m) (s : State) (n st : Nat) :
    π (s.setStackState n st).mem = π s.mem := by
  unfold State.setStackState State.event2
  split
  · rfl
  · rw [event_mem]
    exact hπ s.mem _

/-! ## Bypass -/

/-- The suspended bypasses of all stacks set anew, by the state of each. -/
def suspendAll (f : Stack → Bool) (s : State) : State :=
  (List.range 24).foldl (fun s n => s.modStk n (fun x => { x with suspended := f x })) s

theorem serves_suspendAll (f : Stack → Bool) (s : State) : Serves s (suspendAll f s) :=
  Serves.foldl (fun t n => Serves.modStk (g := fun x => { x with suspended := f x }) (fun _ => rfl) t n) _ s

theorem suspendAll_stk (f : Stack → Bool) (s : State) (n : Nat) : ∃ b, (suspendAll f s).stk n = { s.stk n with suspended := b } := by
  refine List.foldlRecOn (motive := fun t : State => ∃ b, t.stk n = { s.stk n with suspended := b }) _ _ ⟨_, rfl⟩ ?_
  rintro t ⟨b, hb⟩ j -
  rw [stk_modStk]
  split
  · next h => exact ⟨_, by rw [h, hb]⟩
  · exact ⟨b, hb⟩

theorem forceBypass_eq (s : State) : ∃ f, s.forceBypass = suspendAll f s := ⟨_, rfl⟩

theorem settleBypass_eq (s : State) : ∃ f, s.settleBypass = (suspendAll f s).startRetrain :=
  ⟨fun x => x.suspended && decide (3 ≤ s.unavailCount) && x.st == 1, rfl⟩

/-! ## Retraining -/

variable {s : State} {n : Nat}

theorem startRetrain_of_not_due (h : s.mem.retrainDue = false) : s.startRetrain = s := by
  simp [State.startRetrain, h]

/-- No retraining begins while a stack has failed (R135). -/
theorem startRetrain_of_failed (hn : n < 24) (h : (s.stk n).st = 5) : s.startRetrain = s := by
  have hblock : (!((s.stk s.nextRetrain).st == 0 || (s.stk s.nextRetrain).st == 4)) = true ∨
      (List.range 24).any (fun j => j != s.nextRetrain && decide (1 ≤ (s.stk j).st ∧ (s.stk j).st ≤ 5)) = true := by
    by_cases hj : s.nextRetrain = n
    · exact .inl (by rw [hj, h]; rfl)
    · exact .inr (List.any_eq_true.mpr ⟨n, List.mem_range.mpr hn, by simp [h, Ne.symm hj]⟩)
  rw [State.startRetrain, if_pos]
  simp only [Bool.or_eq_true]
  tauto

/-- A retraining that is due begins where every other stack is ONLINE (R147). -/
theorem startRetrain_begins (hdue : s.mem.retrainDue = true) (hen : s.obj 0x7030 1 = 1) (hnext : s.nextRetrain = n) (hst : (s.stk n).st = 0)
    (hoth : ∀ j, j < 24 → j ≠ n → (s.stk j).st = 0) :
    (s.startRetrain.stk n).st = 3 ∧ s.startRetrain.mem.units = s.mem.units := by
  have hidle : (List.range 24).any (fun j => j != n && decide (1 ≤ (s.stk j).st ∧ (s.stk j).st ≤ 5)) = false := by
    simp only [List.any_eq_false, List.mem_range]
    intro j hj
    by_cases hjn : j = n
    · simp [hjn]
    · simp [hoth j hj hjn]
  have hgo : s.startRetrain.mem =
      { ((s.touch n).setStackState n 3).mem with retrainDue := false, retrainNext := n + 1 } := by
    simp only [State.startRetrain, hnext, hidle, hdue, hen, hst]
    rfl
  have hstk : s.startRetrain.stk n = ((s.touch n).setStackState n 3).stk n := stk_congr (by rw [hgo])
  refine ⟨by rw [hstk, setStackState_stk], ?_⟩
  rw [hgo]
  exact (setStackState_field (·.units) (fun _ _ => rfl) _ _ _).trans (Serves.touch s n).units

/-- Where no retraining is due, settling the bypasses changes nothing else. -/
theorem settleBypass_stk (h : s.mem.retrainDue = false) (n : Nat) : ∃ b, s.settleBypass.stk n = { s.stk n with suspended := b } := by
  obtain ⟨f, hf⟩ := settleBypass_eq s
  have hdue : (suspendAll f s).mem.retrainDue = false := ((serves_suspendAll f s).field (·.retrainDue)).trans h
  rw [hf, startRetrain_of_not_due hdue]
  exact suspendAll_stk f s n

theorem forceBypass_stk (s : State) (n : Nat) : ∃ b, s.forceBypass.stk n = { s.stk n with suspended := b } := by
  obtain ⟨f, hf⟩ := forceBypass_eq s
  exact hf ▸ suspendAll_stk f s n

theorem forceBypass_units (s : State) : s.forceBypass.mem.units = s.mem.units := by
  obtain ⟨f, hf⟩ := forceBypass_eq s
  exact hf ▸ (serves_suspendAll f s).units

/-! ## The commands of a stack -/

theorem alive_of_dieOn (h : s.dieOn = true) : s.alive = true := by
  simp only [State.dieOn, Bool.and_eq_true] at h
  exact h.1.1

theorem powered_of_alive (h : s.alive = true) : s.sys.vaux = true ∧ s.pwr.thermTrip = false := by
  simp only [State.alive, Bool.and_eq_true, Bool.not_eq_true'] at h
  obtain ⟨⟨⟨⟨hv, -⟩, -⟩, ht⟩, -⟩ := h
  exact ⟨hv, ht⟩

theorem mayGate_of_dieOn (h : s.dieOn = true) (hr : s.sys.regulators = true) (hp : s.pwr.state = 0) : s.mayGate = true := by
  simp [State.mayGate, alive_of_dieOn h, hr, hp]

theorem exec_stackTempReading_eq (hn : stackOk n = true) (hd : s.dieOn = true) (hr : s.sys.regulators = true) (t : BitVec 32) :
    exec (.stackTempReading n t) s = .next (fxStackTemp n t s) := by
  obtain ⟨hv, -⟩ := powered_of_alive (alive_of_dieOn hd)
  simp [exec, execStackTempReading, onStack_eq hn, hv, hr]

/-- A reading is noted at its stack. -/
def tempNoted (n : Nat) (t : BitVec 32) (s : State) : State :=
  s.modStk n (fun x => { x with
    temp := some t
    refresh2x := if f32le (f32 (s.obj 0x7040 1)) (f32 t.toNat) then true else if f32le (f32 t.toNat) (.fin false 82 0) then false else x.refresh2x })

theorem fxStackTemp_trip {t : BitVec 32} (h : f32le (.fin false 105 0) (f32 t.toNat) = true) :
    fxStackTemp n t s = (tempNoted n t s).thermalTrip := if_pos h

/-- A reading at or above MEM_T_OFFLINE takes its stack off, unless it has failed or is removed (Table 6.9). -/
theorem fxStackTemp_offline {t : BitVec 32} (h : f32le (.fin false 105 0) (f32 t.toNat) = false) (hst : (s.stk n).st < 5)
    (hoff : f32le (f32 (s.obj 0x7040 3)) (f32 t.toNat) = true) : fxStackTemp n t s =
      (((tempNoted n t s).modStk n (fun x => { x with throttled := true, selfRef := true })).setStackState n 2).forceBypass := by
  have hst' : ((tempNoted n t s).stk n).st = (s.stk n).st := by simp [tempNoted]
  unfold fxStackTemp
  extract_lets v ge s1 st
  have hst5 : st < 5 := hst'.trans_lt hst
  rw [if_neg (by simp [v, h]), if_neg (by omega), if_neg (by omega)]
  exact if_pos hoff

theorem thermalTrip_of_alive (h : s.pwr.thermTrip = false) : s.thermalTrip.pwr.thermTrip = true ∧ s.thermalTrip.sys.thermtripN = false ∧
    s.thermalTrip.mem.units = [] ∧ s.thermalTrip.sys.regulators = false := by
  rw [State.thermalTrip, if_neg (by simp [h])]
  exact ⟨rfl, rfl, rfl, rfl⟩

theorem exec_stackRetrain_eq (hn : stackOk n = true) (hd : s.dieOn = true) (hen : s.obj 0x7030 1 = 1) (hnext : s.nextRetrain = n) :
    exec (.stackRetrain n) s = .next ({ s with mem.retrainDue := true } : State).startRetrain := by
  simp [exec, execStackRetrain, onStack_eq hn, fxRetrain, alive_of_dieOn hd, hd, hen, hnext]

theorem exec_retrainEnd_ok (hn : stackOk n = true) (hst : (s.stk n).st = 3) : exec (.retrainEnd n true) s = .next (s.toCatchUp n).settleBypass := by
  simp [exec, execRetrainEnd, onStack_eq hn, fxRetrainEnd, hst]

theorem exec_retrainEnd_failed (hn : stackOk n = true) (hst : (s.stk n).st = 3) : exec (.retrainEnd n false) s =
    .next ((s.modStk n (fun x => { x with trainFail := true })).failStack n).startRetrain := by
  simp [exec, execRetrainEnd, onStack_eq hn, fxRetrainEnd, hst]

theorem exec_catchUpStripe_done (hn : stackOk n = true) (hd : s.dieOn = true) (hst : (s.stk n).st = 4) (hs : (s.stk n).stale = []) :
    exec (.catchUpStripe n) s = .next (s.setStackState n 0).settleBypass := by
  simp [exec, execCatchUpStripe, onStack_eq hn, fxCatchUp, hd, hst, hs]

theorem exec_stackSelfRefreshEntry_eq (hn : stackOk n = true) (hg : s.mayGate = true) (hen : s.obj 0x3105 1 = 1)
    (hs : (s.stk n).selfRef = false) (hst : (s.stk n).st = 0) : exec (.stackSelfRefreshEntry n) s =
      .next ((s.modStk n (fun x => { x with selfRef := true })).stkCtr n 7 1) := by
  simp [exec, execStackSelfRefreshEntry, onStack_eq hn, hg, hen, hs, hst]

theorem exec_stackWake_eq (hn : stackOk n = true) (hg : s.mayGate = true) : exec (.stackWake n) s = .next (s.touch n) := by
  simp [exec, execStackWake, onStack_eq hn, hg]

theorem touch_selfRef (h : (s.stk n).st ≠ 2) : ((s.touch n).stk n).selfRef = false := by
  unfold State.touch
  split
  · next hc => exact hc.resolve_left h
  · rw [stk_modStk_same]

theorem toCatchUp_st (s : State) (n : Nat) : ((s.toCatchUp n).stk n).st = 4 := by
  rw [State.toCatchUp, setStackState_stk]

theorem toCatchUp_retrainDue (s : State) (n : Nat) : (s.toCatchUp n).mem.retrainDue = s.mem.retrainDue :=
  setStackState_field (·.retrainDue) (fun _ _ => rfl) _ _ _

theorem logRebind_stk (s : State) (kind l p n : Nat) : (s.logRebind kind l p).stk n = s.stk n := by
  rw [State.logRebind, event_stk]
  exact stk_congr rfl

theorem bgFail_stk (s : State) (i n : Nat) : (s.bgFail i).stk n = s.stk n := by
  rw [State.bgFail, event_stk]
  exact stk_congr rfl

/-- A stack whose training has failed is FAILED (R134). -/
theorem failStack_stk_of_retraining (hst : (s.stk n).st = 3) : ∃ b, (s.failStack n).stk n = { s.stk n with st := 5, suspended := b } := by
  obtain ⟨b, hb⟩ := forceBypass_stk (((s.bgFail 3).setStackState n 5).logRebind 1 n n) n
  refine ⟨b, ?_⟩
  rw [logRebind_stk, setStackState_stk, bgFail_stk] at hb
  simpa [State.failStack, hst] using hb

/-- Settles O30: each change of state is the effect of its row, and settling the bypasses keeps it. -/
theorem stacksChangeState : Obligations.StacksChangeState := by
  unfold Obligations.StacksChangeState
  intro s n hn hd hr
  have hn24 : n < 24 := of_decide_eq_true hn
  refine ⟨fun t h => ⟨_, exec_stackTempReading_eq hn hd hr t, ?_⟩, fun t h hst hoff => ⟨_, exec_stackTempReading_eq hn hd hr t, ?_⟩,
    fun hst hen hnext hoth => ⟨_, exec_stackRetrain_eq hn hd hen hnext, ?_⟩,
    fun hst => ⟨fun hdue => ⟨_, exec_retrainEnd_ok hn hst, ?_⟩, ⟨_, exec_retrainEnd_failed hn hst, ?_⟩⟩,
    fun hst hs hdue => ⟨_, exec_catchUpStripe_done hn hd hst hs, ?_⟩,
    fun hp hen hs hst => ⟨_, exec_stackSelfRefreshEntry_eq hn (mayGate_of_dieOn hd hr hp) hen hs hst, ?_⟩,
    fun hp hst => ⟨_, exec_stackWake_eq hn (mayGate_of_dieOn hd hr hp), touch_selfRef hst⟩⟩
  · rw [fxStackTemp_trip h]
    exact thermalTrip_of_alive (powered_of_alive (alive_of_dieOn hd)).2
  · rw [fxStackTemp_offline h hst hoff]
    obtain ⟨b, hb⟩ := forceBypass_stk
      (((tempNoted n t s).modStk n (fun x => { x with throttled := true, selfRef := true })).setStackState n 2) n
    rw [hb, forceBypass_units, setStackState_field (·.units) fun _ _ => rfl]
    rw [setStackState_stk]
    simp [tempNoted]
  · exact startRetrain_begins (s := { s with mem.retrainDue := true }) rfl hen hnext hst hoth
  · obtain ⟨b, hb⟩ := settleBypass_stk ((toCatchUp_retrainDue s n).trans hdue) n
    rw [hb]
    exact toCatchUp_st s n
  · obtain ⟨b, hb⟩ := failStack_stk_of_retraining (s := s.modStk n (fun x => { x with trainFail := true })) (n := n)
      (by rw [stk_modStk_same]; exact hst)
    rw [startRetrain_of_failed hn24 (by rw [hb]), hb]
    exact ⟨rfl, by rw [stk_modStk_same]⟩
  · obtain ⟨b, hb⟩ := settleBypass_stk ((setStackState_field (·.retrainDue) (fun _ _ => rfl) s n 0).trans hdue) n
    rw [hb, setStackState_stk]
  · simp [State.stkCtr, addCtr]

end Sys2Proof.Laws
end

section
/-! # The commands of striped memory (O29) -/

namespace Sys2Proof.Laws
open Sys2Proof Sys2Proof.Machine

/-! ## A write that gathers -/

theorem length_insert_le (t : NSet) (k : Nat) : (NSet.insert t k).length ≤ t.length + 1 := by
  induction t with
  | nil => exact le_rfl
  | cons j t ih =>
    unfold NSet.insert
    split_ifs <;> simp only [List.length_cons] at ih ⊢ <;> omega

theorem length_insertAll_le {α : Type} (f : α → Nat) (l : List α) (t : NSet) :
    (l.foldl (fun t e => NSet.insert t (f e)) t).length ≤ t.length + l.length := by
  induction l generalizing t with
  | nil => exact le_rfl
  | cons a l ih =>
    have h1 := ih (NSet.insert t (f a))
    have h2 := length_insert_le t (f a)
    simp only [List.foldl_cons, List.length_cons]
    omega

/-- The gathering that a write without poison opens for its stripe. -/
def openedGather (s : State) (src pa : Nat) (bs : List Byte) : Gather :=
  let l := s.locate pa
  { stripe := gatherKey l.l21 l.stripe
    bytes := Memory.writeN [] (l.u * 256 + l.b) bs
    present := ((bs.map (fun b => (b, false))).zipIdx.map (fun e => (l.u * 256 + l.b + e.2, e.1.2))).foldl (fun t e => NSet.insert t e.1) []
    poison := []
    srcs := addSrc [] src }

/-- The state with only that gathering; a PUT of a port has joined it (R216). -/
def gatherOpened (s : State) (src pa : Nat) (bs : List Byte) : State :=
  { s with
    mem.gather := [openedGather s src pa bs]
    fab.putsIn := if 1000 ≤ src then joinPut s.fab.putsIn (src - 1000) (s.locate pa).stripe else s.fab.putsIn }

/-- A write within one unit does not complete a stripe. -/
theorem length_present_ne (s : State) (src pa : Nat) {bs : List Byte} (hn : bs.length ≤ 256) (l21 : Bool) :
    (openedGather s src pa bs).present.length ≠ stripeBytes l21 := by
  have hlen : (openedGather s src pa bs).present.length ≤ bs.length := (length_insertAll_le _ _ _).trans (by simp)
  have hsb : 5376 ≤ stripeBytes l21 := by cases l21 <;> decide
  omega

/-- Bytes without poison mark nothing. -/
theorem poison_of_unpoisoned (base : Nat) (bs : List Byte) : ((bs.map (fun b => (b, false))).zipIdx.map (fun e => (base + e.2, e.1.2))).foldl
    (fun t e => if e.2 then NSet.insert t e.1 else NSet.remove t e.1) [] = [] := by
  refine List.foldlRecOn (motive := fun t : NSet => t = []) _ _ rfl fun t ht e he => ?_
  obtain ⟨x, hx, rfl⟩ := List.mem_map.mp he
  obtain ⟨b, -, hb⟩ := List.mem_map.mp (List.fst_mem_of_mem_zipIdx hx)
  simp [ht, ← hb, NSet.remove]

variable {s : State} {src pa : Nat} {bs : List Byte}

/-- Where no stripe gathers, a write without poison opens its stripe's gathering. -/
theorem joinGather_opens (hg : s.mem.gather = []) (hn : bs.length ≤ 256) :
    s.joinGather src pa (bs.map (fun b => (b, false))) = gatherOpened s src pa bs := by
  unfold State.joinGather
  extract_lets l k base g0 marks g _ _ t
  have hg0 : g0 = ⟨k, [], [], [], []⟩ := by simp [g0, hg]
  have hgo : g = openedGather s src pa bs := by
    have hbytes : (bs.map (fun b => (b, false))).map (·.1) = bs := by rw [List.map_map, Function.comp_def, List.map_id']
    simp only [g, hg0, marks, poison_of_unpoisoned, hbytes]
    rfl
  have ht : t = gatherOpened s src pa bs := by simp only [t, hg, hgo, List.filter_nil, List.nil_append, gatherOpened]; rfl
  rw [if_neg (hgo ▸ length_present_ne s src pa hn _), ht]

theorem canGather_of_empty (hg : s.mem.gather = []) (pa : Nat) : s.canGather pa = true := by
  simp [State.canGather, State.gathered, hg]

/-- A write within one unit that nothing holds back opens its stripe's gathering (R128). -/
theorem exec_memWrite_opens (hd : s.dieOn = true) (h0 : bs ≠ []) (hn : pa % 256 + bs.length ≤ 256) (hend : pa + bs.length ≤ s.stripedEnd)
    (hg : s.mem.gather = []) (hp : s.mem.portWait = []) (hh : s.heldAhead src pa bs.length = false) :
    exec (.memWrite src pa bs false) s = .next (gatherOpened s src pa bs) := by
  have hwin : (if src = fwSrc then windowAt pa bs.length else none) = none := by rw [windowAt_striped hend, ite_self]
  have hall : (bs.map (fun b => (b, false))).take bs.length = bs.map (fun b => (b, false)) := List.take_of_length_le (by simp)
  have hadmit : (gatherOpened s src pa bs).admitWaiting = gatherOpened s src pa bs := by
    rw [State.admitWaiting, show (gatherOpened s src pa bs).mem.portWait = [] from hp]
    rfl
  have hsend : s.sendPiece src pa (bs.map (fun b => (b, false))) = gatherOpened s src pa bs := by
    simp [State.sendPiece, State.gatherPiece, hh, hp, canGather_of_empty hg, joinGather_opens hg (show bs.length ≤ 256 by omega), hadmit]
  simp [exec, execMemWrite, fxMemWrite, hwin, State.writeStriped, hd, Nat.not_lt.mpr hend, State.sendWrite,
    piecesOf_oneUnit (List.length_pos_iff.mpr h0) hn, hall, hsend]

/-- Nothing waits for the acknowledgement of a killed task's write (R55). -/
theorem addSrc_orphan (srcs : List Nat) : addSrc srcs orphanSrc = srcs := if_pos (.inl rfl)

/-- The module in power and out of reset. -/
def inPower : State := { State.reset with sys.vaux := true, sys.modResetN := true, sys.recoveryBoot := false }

/-- Refutes O29: the statement takes every number for a source, but 3000 stands for a task that has been killed, whose write gathers without
a source (`addSrc_orphan`). A write of any other source gathers with it, as the statement says (`exec_memWrite_opens`). -/
theorem not_memoryAccessesAct : ¬ Obligations.MemoryAccessesAct := by
  unfold Obligations.MemoryAccessesAct
  intro h
  have hd : inPower.dieOn = true := by decide +kernel
  have hend : 0 + ([1] : List Byte).length ≤ inPower.stripedEnd := by decide
  obtain ⟨-, -, -, hw, -⟩ := h inPower orphanSrc 0 hd
  obtain ⟨t, g, ht, hg, hsrcs, -⟩ := hw [1] (by decide) (by decide) hend rfl rfl rfl
  have hopens := exec_memWrite_opens (src := orphanSrc) hd (by decide) (by decide) hend rfl rfl rfl
  obtain rfl : gatherOpened inPower orphanSrc 0 [1] = t := Host.Outcome.next.inj (hopens.symm.trans ht)
  obtain rfl : openedGather inPower orphanSrc 0 [1] = g := (List.cons.inj hg).1
  have hnone : (openedGather inPower orphanSrc 0 [1]).srcs = [] := addSrc_orphan []
  rw [hnone] at hsrcs
  cases hsrcs

end Sys2Proof.Laws
end

section
/-! # The command front end: start, end and effect of commands (O18 to O21) -/

namespace Sys2Proof.Laws
open Sys2Proof Sys2Proof.Machine Sys2Proof.Claim

variable {s t : State} {k : CmdKey} {m : Cmd} {fo : Folio}

/-! ## Started commands and their context -/

@[simp] theorem ctx_modCmd (g : Cmd → Cmd) : (s.modCmd k g).ctx k.c =
    { s.ctx k.c with started := (s.ctx k.c).started.map (fun m => if m.key == k then g m else m) } :=
  ctx_modCtx _ _ _

@[simp] theorem ctx_acting_folios : ((acting s k).ctx k.c).folios = (s.ctx k.c).folios := by simp [acting]

theorem findCmd_acting (h : s.findCmd k = some m) : (acting s k).findCmd k = some { m with begun := true } := by
  rw [acting, findCmd_modCmd (g := fun m => { m with begun := true }) fun _ => rfl, h]
  rfl

theorem findCmd_modCtx {g : CtxState → CtxState} (hg : ∀ x, (g x).started = x.started) : (s.modCtx k.c g).findCmd k = s.findCmd k := by
  simp [State.findCmd, hg]

/-- Progress of a context only ends its quiescent-blocked state (R192). -/
theorem progress_field {γ : Type} (π : CtxState → γ) (hπ : ∀ x : CtxState, π { x with qblocked := false } = π x) (s : State) (c : Nat) :
    π ((s.progress c).ctx c) = π (s.ctx c) := by
  unfold State.progress
  split
  · exact (congrArg π (ctx_modCtx s c fun x => { x with qblocked := false })).trans (hπ _)
  · rfl

@[simp] theorem progress_started (s : State) (c : Nat) : ((s.progress c).ctx c).started = (s.ctx c).started :=
  progress_field CtxState.started (fun _ => rfl) s c

@[simp] theorem progress_folios (s : State) (c : Nat) : ((s.progress c).ctx c).folios = (s.ctx c).folios :=
  progress_field CtxState.folios (fun _ => rfl) s c

@[simp] theorem progress_dq (s : State) (c : Nat) : ((s.progress c).ctx c).dq = (s.ctx c).dq :=
  progress_field CtxState.dq (fun _ => rfl) s c

@[simp] theorem ctx_modFe (i c : Nat) (g : FrontEnd → FrontEnd) : (s.modFe i g).ctx c = s.ctx c := rfl
@[simp] theorem ctx_dieEvent (d ev n c : Nat) (x : Option Nat) : (s.dieEvent d ev n x).ctx c = s.ctx c := rfl

@[simp] theorem findCmd_progress : (s.progress k.c).findCmd k = s.findCmd k := by simp [State.findCmd]

/-- A command that may act acts, whatever its row. -/
theorem onKey_actCmd {op : Nat} (h : mayAct s k op m) (go : Cmd → State → State) :
    onKey k s (fun s => s.actCmd k op go) = .next (go m (acting s k)) := by
  obtain ⟨hc, hq, -⟩ := id h
  rw [onKey_eq hc hq, actCmd_eq h]

/-! ## The start of a command (R154, R156) -/

/-- The command that the descriptor d of queue q becomes at its start, with index i and depth: an undefined one is finished. -/
def startedCmd (s : State) (c q : Nat) (i : BitVec 32) (depth : Nat) (d : List Byte) : Cmd :=
  { cancelledCmd ⟨c, q, i.toNat⟩ d s.sys.ts with
    depth := depth
    conds := if !descOk q d then [(St.invalid, 0)] else []
    begun := !descOk q d
    finished := !descOk q d
    cplMap := (s.ctx c).cplMap
    coreStart := if dField d 0 1 = 1 then s.coreCounters (s.ctx c).coreSet else []
    dieStart := s.dieCounters c }

/-- The state in which the head of queue q has left its queue as the started command m, before it takes what its start gives it. -/
def headStarted (s : State) (c q : Nat) (m : Cmd) : State :=
  let s := s.modCtx c (fun x => { x with started := x.started ++ [m] })
  let s := if q = 15 then s.modCtx c (fun x => { x with dq := x.dq.drop 1, dqHead := x.dqHead + 1 })
    else s.modRing c q (fun r => { r with fetched := r.fetched.drop 1 })
  let s := s.modFe (c % 4) (fun fe => { fe with rrCtx := c, rrQueue := Tab.put fe.rrQueue c q })
  (s.dieEvent (8 + c % 4) 0x6E 1 (some c)).progress c

theorem startCmd_eq {c q depth : Nat} {i : BitVec 32} {d : List Byte} (h : (s.ctx c).headOf q = some (i, depth, d)) :
    s.startCmd c q = if descOk q d then (headStarted s c q (startedCmd s c q i depth d)).atStart ⟨c, q, i.toNat⟩ (startedCmd s c q i depth d)
      else headStarted s c q (startedCmd s c q i depth d) := by
  simp only [State.startCmd, h]
  cases hd : descOk q d <;> simp [headStarted, startedCmd, hd]

theorem headStarted_started (c q : Nat) (m : Cmd) : ((headStarted s c q m).ctx c).started = (s.ctx c).started ++ [m] := by
  simp only [headStarted, progress_started, ctx_dieEvent, ctx_modFe]
  split
  · simp only [ctx_modCtx]
  · simp only [State.modRing, CtxState.setRing, ctx_modCtx]

theorem headStarted_dq (c : Nat) (m : Cmd) : ((headStarted s c 15 m).ctx c).dq = (s.ctx c).dq.drop 1 := by
  simp only [headStarted, progress_dq, ctx_dieEvent, ctx_modFe, if_pos, ctx_modCtx]

theorem atStart_launch (h : m.op = 1) : s.atStart k m = s.launchBegin k m := if_pos h

theorem atStart_patch (h : m.op = 3) : s.atStart k m = s.patchBegin k m := by simp [State.atStart, h]

theorem atStart_pennant (h : m.op = 7 ∨ (m.op = 6 ∧ dField m.desc 0x14 4 / 2 ^ 31 = 1)) : s.atStart k m =
    (s.entryGen k.c (dField m.desc 0x10 4)).2.modCmd k (fun x => { x with penGen := (s.entryGen k.c (dField m.desc 0x10 4)).1 }) := by
  have h1 : m.op ≠ 1 := by omega
  have h3 : m.op ≠ 3 := by omega
  simp only [State.atStart, if_neg h1, if_neg h3, if_pos h]

theorem commandStartTakesTheTurn_holds : commandStartTakesTheTurn := by
  intro s iod c q i depth d hiod hturn hhead
  have hexec : exec (.commandStart iod) s = .next (s.startCmd c q) := by
    change execCommandStart iod s = _
    simp [execCommandStart, onIod_eq hiod, hturn]
  refine ⟨headStarted s c q (startedCmd s c q i depth d), startedCmd s c q i depth d, hexec.trans (congrArg _ (startCmd_eq hhead)),
    atStart_launch, atStart_patch, atStart_pennant, headStarted_started c q _, rfl, rfl, rfl, rfl, ?_, ?_⟩
  · cases hd : descOk q d <;> simp [startedCmd, hd]
  · rintro rfl
    exact headStarted_dq c _

/-! ## The end of a command (R157, R169) -/

theorem commandsEnd_holds : commandsEnd := by
  intro s k m hc hq ha hm
  refine ⟨fun hf ok => ?_, fun hf hd hpol => ?_, fun hf hd hpol => ?_, fun hf hd => ?_⟩
  · change execCommandComplete k ok s = _
    simp [execCommandComplete, onKey_eq hc hq, hm, ha, hf]
  · change execCommandTimeout k s = _
    simp [execCommandTimeout, onKey_eq hc hq, hm, ha, hf, hd, hpol]
  · change execCommandTimeout k s = _
    simp [execCommandTimeout, onKey_eq hc hq, hm, ha, hf, hd, hpol]
  · change execCommandDrainExpiry k s = _
    simp [execCommandDrainExpiry, onKey_eq hc hq, hm, ha, hf, hd]

/-- Settles O18: a start is the queue's head started and what its opcode takes; each end is the effect of its row on the command found. -/
theorem commandsStartAndEnd : Obligations.CommandsStartAndEnd := by
  unfold Obligations.CommandsStartAndEnd
  exact ⟨commandStartTakesTheTurn_holds, commandsEnd_holds⟩

/-! ## NOP, HOIST, WAIT and COPY -/

theorem findCmd_endCmd_ok (h : s.findCmd k = some m) : (s.endCmd k St.ok).findCmd k = some { m with finished := true } := by
  rw [State.endCmd, findCmd_progress, findCmd_modCmd (by intro; rfl), h]
  rfl

theorem simpleCommandsAct_holds : simpleCommandsAct := by
  intro s k m
  refine ⟨fun h => ⟨_, onKey_actCmd h _, ?_⟩, fun h hr => ⟨_, onKey_actCmd h _, ?_⟩, fun h hl => ?_, fun h => onKey_actCmd h _⟩
  · obtain ⟨-, -, -, hm, -⟩ := h
    exact findCmd_endCmd_ok (findCmd_acting hm)
  · rw [fxHoist, if_neg hr]
    rfl
  · exact (onKey_actCmd h _).trans (by rw [fxHoist, if_pos hl]; rfl)

theorem copyFrom_host (n va : Nat) (bs : List Byte) :
    s.copyFrom k 0 n va (.data bs) = (.ok ((sliceAt bs 0 n).map (fun x => (x, false))), false, s) := rfl

theorem copyFrom_context {n va : Nat} {h : HostRead} {r : VaRes} (hr : s.vaRead k.c va n [.r] = (r, t)) (hf : r.fault = false) :
    s.copyFrom k 1 n va h = (.ok (List.zip r.bytes r.pois), r.uncorr, t.metCmd k r.corr r.slow) := by
  simp [State.copyFrom, hr, hf]

theorem copyMovesItsBytes_holds : copyMovesItsBytes := by
  intro s k m hact
  refine ⟨fun hdir bs r t0 hw hf => ?_, fun hdir h r t0 hr hf hp hu => ?_⟩
  · have hclean : ((sliceAt bs 0 (dField m.desc 0x14 4)).map (fun x => (x, false))).any (·.2) = false := by simp
    refine (onKey_actCmd hact _).trans (congrArg _ ?_)
    simp [fxCopy, hdir, copyFrom_host, hclean, hw, hf]
  · have hclean : (List.zip r.bytes r.pois).any (·.2) = false := List.any_eq_false.mpr fun e he => by simp [hp e he]
    refine (onKey_actCmd hact _).trans (congrArg _ ?_)
    simp [fxCopy, hdir, copyFrom_context hr hf, hclean, hu]

/-- Settles O19: each effect is its row's on the state in which the command is acting; a copy's bytes are clean, so it notes no poison. -/
theorem simpleCommandsAndCopyAct : Obligations.SimpleCommandsAndCopyAct := by
  unfold Obligations.SimpleCommandsAndCopyAct
  exact ⟨simpleCommandsAct_holds, copyMovesItsBytes_holds⟩

/-! ## LAUNCH (R162) -/

/-- Where task i of a list joins the queue of core `core i`, each core's queue grows by the tasks that name it. -/
theorem queue_length_foldl (core : Nat → Nat) (task : State → Nat → TaskInfo) (L : Nat) (l : List Nat) (s : State) :
    ((l.foldl (fun s i => s.modCore (core i) (fun cs => { cs with queue := cs.queue ++ [task s i] })) s).core L).queue.length =
      (s.core L).queue.length + (l.filter (fun i => core i == L)).length := by
  induction l generalizing s with
  | nil => rfl
  | cons i l ih =>
    rw [List.foldl_cons, ih, List.filter_cons]
    by_cases h : core i = L
    · subst h
      simp
      omega
    · simp [core_modCore_ne _ _ _ _ (Ne.symm h), h]

theorem map_getD_range {α : Type} (l : List α) (d : α) : (List.range l.length).map (fun i => (l[i]?).getD d) = l :=
  List.ext_getElem (by simp) fun i _ h => by simp [h]

/-- A dispatch puts each record's task at the end of its core's queue (step 5 of R162). -/
theorem dispatch_queue_length (hd gen : Nat) (p : LaunchPlan) (vas : List (Option Nat)) (L : Nat) :
    ((s.dispatch k m hd gen p vas).core L).queue.length =
      (s.core L).queue.length + (p.recs.filter (fun r => trLcore r == L)).length := by
  have hrecs : (p.recs.filter (fun r => trLcore r == L)).length =
      ((List.range p.recs.length).filter (fun i => trLcore ((p.recs[i]?).getD []) == L)).length := by
    conv_lhs => rw [← map_getD_range p.recs [], List.filter_map, List.length_map]
    rfl
  rw [hrecs]
  exact queue_length_foldl (fun i => trLcore ((p.recs[i]?).getD [])) _ L _ s

theorem launchOn_eq {p : LaunchPlan} (h : mayDispatch s k p) (go : State → State) : s.launchOn k p go = go s := by
  have hset : p.recs.all (fun r => NSet.mem (s.ctx k.c).coreSet (trLcore r)) = true :=
    List.all_eq_true.mpr fun r hr => (h r hr).1
  have hwork : p.recs.any (fun r => (s.core (trLcore r)).failed) = false :=
    List.any_eq_false.mpr fun r hr => by simp [(h r hr).2]
  simp [State.launchOn, hset, hwork]

/-- Steps 2 to 5 of R162 from t: where the endpaper is read and the blocks are filled, the tasks are dispatched. -/
theorem launched_launchTasks (t : State) (k : CmdKey) (m : Cmd) (gen : Nat) (p : LaunchPlan) (blks : List Nat) (h : HostRead) :
    launched (.next (t.launchTasks k m (fieldAt m.desc 0x10 1) gen p blks h)) t k m gen p blks h := by
  unfold launched
  intro t1 e b hb l ps hps f hf
  have heq : t.launchTasks k m (fieldAt m.desc 0x10 1) gen p blks h =
      (f.2.2.modCmd k (fun m => { m with tasksLeft := p.recs.length })).dispatch k m (fieldAt m.desc 0x10 1) gen p f.2.1 := by
    unfold State.launchTasks
    simp only [t1, e, l, f] at hb hps hf ⊢
    simp only [hb, hps, hf]
  exact ⟨_, rfl, heq, fun L => by rw [heq, dispatch_queue_length]; rfl⟩

theorem exec_launch {h : HostRead} (hact : mayAct s k 1 m) (hw : m.bound = true ∨ s.arenaWaits k.c m.desc = false) :
    exec (.launch k h) s = .next (fxLaunch k h m (acting s k)) := by
  obtain ⟨hc, hq, -, hm, -⟩ := id hact
  change execLaunch k h s = _
  rcases hw with hb | ha
  · simp [execLaunch, onKey_eq hc hq, hm, hb, actCmd_eq hact]
  · simp [execLaunch, onKey_eq hc hq, hm, ha, actCmd_eq hact]

/-- A launch that its start has bound goes on with what it took there. -/
theorem fxLaunch_of_bound {h : HostRead} {p : LaunchPlan} (hb : m.bound = true)
    (hfo : Tab.find (s.ctx k.c).folios (fieldAt m.desc 0x10 1) = some fo)
    (hp : s.launchPlan k { fo with current := m.gen } (fieldAt m.desc 0x11 1) = (.ok p, t)) (hd : mayDispatch t k p) :
    fxLaunch k h m s = t.launchTasks k m (fieldAt m.desc 0x10 1) m.gen p m.arena h := by
  simp [fxLaunch, hb, hfo, hp, launchOn_eq hd]

/-- A launch whose folio, cores and arena allow it goes on with the generation that is current and with its blocks (steps 1 and 2 of R162). -/
theorem launchBind_eq {p : LaunchPlan} {blks : List Nat} (go : Nat → LaunchPlan → List Nat → State → State)
    (hfo : Tab.find (s.ctx k.c).folios (fieldAt m.desc 0x10 1) = some fo) (hcl : fo.closing = none)
    (hq : k.q ≠ 15 ∨ fieldAt m.desc 0x12 1 % 2 = 0) (hn : fieldAt m.desc 0x14 2 ≤ 1024)
    (hp : (binding s k m fo).launchPlan k fo (fieldAt m.desc 0x11 1) = (.ok p, t))
    (hd : mayDispatch (t.modCmd k (fun m => { m with cores := p.cores })) k p)
    (ha : p.templated ≤ (t.ctx k.c).arenaBlocks) (hblk : (t.ctx k.c).freeBlocks p.templated = some blks) :
    (acting s k).launchBind k m go = go fo.current p blks (t.modCmd k (fun m => { m with cores := p.cores })) := by
  have hq' : ¬ (k.q = 15 ∧ fieldAt m.desc 0x12 1 % 2 = 1) := by omega
  unfold binding at hp
  simp [State.launchBind, hfo, hcl, hq', Nat.not_lt.mpr hn, hp, launchOn_eq hd, Nat.not_lt.mpr ha, hblk]

/-- Settles O20: a launch comes to `launchTasks` with what its start took, or with what it binds now. -/
theorem launchDispatchesItsTasks : Obligations.LaunchDispatchesItsTasks := by
  unfold Obligations.LaunchDispatchesItsTasks
  intro s k m fo h p hact hfo
  refine ⟨fun hb hp hd => ?_, fun hb hw hcl hq hn hp hd ha blks hblk => ?_⟩
  · rw [exec_launch hact (.inl hb), fxLaunch_of_bound hb (by rw [ctx_acting_folios, hfo]) (Prod.ext hp rfl) hd]
    exact launched_launchTasks _ k m m.gen p m.arena h
  · rw [exec_launch hact (.inr hw), fxLaunch, hb, Bool.not_false, if_pos rfl, launchBind_eq _ hfo hcl hq hn (Prod.ext hp rfl) hd ha hblk]
    exact launched_launchTasks _ k m fo.current p blks h

/-! ## FOLIO_OPEN and FOLIO_CLOSE (R159, R160) -/

/-- The folio that FOLIO_OPEN makes of a spine (R159). -/
def openedFolio (m : Cmd) (sp : List Byte) : Folio :=
  { spineVa := fieldAt m.desc 0x18 8
    poolVa := fieldAt m.desc 0x20 8
    poolSigs := if fieldAt m.desc 0x20 8 = 0 then 0 else fieldAt m.desc 0x28 4
    gens := [(0, ⟨(recordsOf sp (spineOf sp).sigTab 8 (spineOf sp).sigCount).map leNat, 0⟩)]
    current := 0
    closing := none
    patchers := [] }

theorem fxFolioOpen_eq {hd sp : List Byte} {t0 t1 t2 : State} (hnew : Tab.has (s.ctx k.c).folios (fieldAt m.desc 0x10 1) = false)
    (hhd : (s.modCmd k (fun x => { x with handle := fieldAt m.desc 0x10 1 })).rdCmd k (fieldAt m.desc 0x18 8) 64 [.r] = (.ok hd, t0))
    (hhdok : headerOk hd = true) (hsp : t0.rdCmd k (fieldAt m.desc 0x18 8) (spineOf hd).size [.r] = (.ok sp, t1)) (hspok : spineOk sp = true)
    (hmap : t1.foliosMapped k.c ((recordsOf sp (spineOf sp).sigTab 8 (spineOf sp).sigCount).map leNat) (fieldAt m.desc 0x20 8)
      (fieldAt m.desc 0x28 4) = (true, t2)) :
    fxFolioOpen k m s =
      (t2.modCtx k.c (fun x => { x with folios := Tab.put x.folios (fieldAt m.desc 0x10 1) (openedFolio m sp) })).endCmd k St.ok := by
  simp [fxFolioOpen, hnew, hhd, hhdok, hsp, hspok, hmap, openedFolio]

theorem endCmd_folios (st : Status) : ((s.endCmd k st).ctx k.c).folios = (s.ctx k.c).folios := by simp [State.endCmd]

theorem closeIfIdle_of_idle {hd : Nat} (hfo : Tab.find (s.ctx k.c).folios hd = some fo) (hcl : fo.closing = some k) (hidle : fo.idle = true) :
    s.closeIfIdle k.c hd = s.modCmd k (fun m => { m with finished := true }) := by
  simp [State.closeIfIdle, hfo, hcl, hidle]

theorem fxFolioClose_of_idle (hfo : Tab.find (s.ctx k.c).folios (fieldAt m.desc 0x10 1) = some fo) (hcl : fo.closing = none)
    (hidle : fo.idle = true) : fxFolioClose k m s =
      ((s.modCmd k (fun x => { x with handle := fieldAt m.desc 0x10 1 })).modCtx k.c (fun x =>
        { x with folios := Tab.put x.folios (fieldAt m.desc 0x10 1) { fo with closing := some k } })).modCmd k
          (fun m => { m with finished := true }) := by
  have hfind : Tab.find ((s.modCmd k (fun x => { x with handle := fieldAt m.desc 0x10 1 })).ctx k.c).folios (fieldAt m.desc 0x10 1) =
      some fo := by rw [ctx_modCmd]; exact hfo
  simp only [fxFolioClose, hfind, hcl]
  exact closeIfIdle_of_idle (fo := { fo with closing := some k }) (by simp [find_put]) rfl hidle

theorem foliosOpenAndClose_holds : foliosOpenAndClose := by
  intro s k m
  refine ⟨fun hact hnew hd sp t0 t1 t2 hhd hhdok hsp hspok hmap => ⟨_, onKey_actCmd hact _, openedFolio m sp, ?_, rfl, rfl, rfl, rfl⟩,
    fun hact fo hfo hcl hidle => ⟨_, onKey_actCmd hact _, ?_⟩⟩
  · rw [fxFolioOpen_eq (by rw [ctx_acting_folios, hnew]) hhd hhdok hsp hspok hmap, endCmd_folios, ctx_modCtx, find_put, if_pos rfl]
  · obtain ⟨-, -, -, hm, -⟩ := hact
    rw [fxFolioClose_of_idle (by rw [ctx_acting_folios, hfo]) hcl hidle]
    refine ⟨⟨{ m with begun := true, handle := fieldAt m.desc 0x10 1, finished := true }, ?_, rfl, rfl⟩, by simp [find_put]⟩
    rw [findCmd_modCmd (by intro; rfl), findCmd_modCtx (by intro; rfl), findCmd_modCmd (by intro; rfl), findCmd_acting hm]
    rfl

/-! ## FOLIO_PATCH (R164, R165) -/

/-- A patch that has its place works where it is the first of its folio's patches. -/
theorem patchTurn_eq {h : HostRead} (hm : s.findCmd k = some m) (hb : m.bound = true) (hf : m.finished = false) (hd : m.draining = false)
    (hfo : Tab.find (s.ctx k.c).folios m.handle = some fo) :
    s.patchTurn k h = if fo.patchers.head? = some k then s.patchWork k m fo h else s := by
  simp [State.patchTurn, hm, hfo, hb, hf, hd]

/-- The state in which a patch has its place among the patches of its folio (R164). -/
def patchPlaced (s : State) (k : CmdKey) (hd : Nat) (fo : Folio) : State :=
  ((s.modCmd k (fun m => { m with handle := hd })).modCtx k.c (fun x =>
    { x with folios := Tab.put x.folios hd { fo with patchers := fo.patchers ++ [k] } })).modCmd k (fun m => { m with bound := true })

theorem patchBegin_eq (hfo : Tab.find (s.ctx k.c).folios (fieldAt m.desc 0x10 1) = some fo) (hcl : fo.closing = none)
    (hn : fieldAt m.desc 0x14 2 ≤ 1024) : s.patchBegin k m = patchPlaced s k (fieldAt m.desc 0x10 1) fo := by
  simp [State.patchBegin, hfo, hcl, Nat.not_lt.mpr hn, patchPlaced]

theorem patchPlaced_folio (hd : Nat) : Tab.find ((patchPlaced s k hd fo).ctx k.c).folios hd =
    some { fo with patchers := fo.patchers ++ [k] } := by
  simp [patchPlaced, find_put]

theorem findCmd_patchPlaced (hm : s.findCmd k = some m) (hd : Nat) :
    (patchPlaced s k hd fo).findCmd k = some { m with handle := hd, bound := true } := by
  rw [patchPlaced, findCmd_modCmd (by intro; rfl), findCmd_modCtx (by intro; rfl), findCmd_modCmd (by intro; rfl), hm]
  rfl

/-- A patch without entries makes the next generation with the signatures of the current one. -/
theorem patchWork_of_no_entries {h : HostRead} {p : LaunchPlan} (hlen : fo.gens.length < 4)
    (hfree : Tab.has fo.gens ((fo.current + 1) % 256) = false) (hn : fieldAt m.desc 0x14 2 = 0) (hp : s.launchPlan k fo 0 = (.ok p, t)) :
    s.patchWork k m fo h = t.modCmd k (fun m => { m with gen := (fo.current + 1) % 256, patch := some p.sigs, finished := true }) := by
  have hep : ∀ addr host, t.endpaper k addr 0 host h = (.ok [], t) := fun _ _ => if_pos rfl
  have hentries : t.epEntries k false p.sites [] 0 = (.ok [], t) := rfl
  have hpages : fo.freePages 0 = some [] := by simp [Folio.freePages]
  simp [State.patchWork, Nat.not_le.mpr hlen, hfree, hn, hp, hep, hentries, touched, hpages]

theorem folioPatchWorksInTurn_holds : folioPatchWorksInTurn := by
  intro s k m fo h
  refine ⟨fun hact hb hfo hcl hn => ?_, fun hact hb hfo => ?_, fun hc hq ha hm hop hbeg hb hf hd hfo hfirst => ?_,
    fun hlen hfree hn p t0 hp => patchWork_of_no_entries hlen hfree hn hp⟩
  · obtain ⟨-, -, -, hm, -, hf, hd, -⟩ := id hact
    refine ⟨patchPlaced (acting s k) k (fieldAt m.desc 0x10 1) fo,
      { m with begun := true, handle := fieldAt m.desc 0x10 1, bound := true }, patchPlaced_folio _, rfl,
      (onKey_actCmd hact _).trans (congrArg _ ?_)⟩
    rw [fxFolioPatch, hb, if_neg Bool.false_ne_true, patchBegin_eq (by rw [ctx_acting_folios, hfo]) hcl hn]
    exact patchTurn_eq (findCmd_patchPlaced (findCmd_acting hm) _) rfl hf hd (patchPlaced_folio _)
  · obtain ⟨-, -, -, hm, -, hf, hd, -⟩ := id hact
    refine (onKey_actCmd hact _).trans (congrArg _ ?_)
    rw [fxFolioPatch, if_pos hb]
    exact patchTurn_eq (findCmd_acting hm) hb hf hd (by rw [ctx_acting_folios, hfo])
  · have hturn : s.patchTurn k h = s.patchWork k m fo h := (patchTurn_eq hm hb hf hd hfo).trans (if_pos hfirst)
    change execFolioPatchBegin k h s = _
    simp [execFolioPatchBegin, onKey_eq hc hq, fxFolioPatchBegin, hm, ha, hop, hbeg, hturn]

/-- Settles O21: an open and a close are their rows' effects; a patch takes its place at the end of its folio's and works when it is first. -/
theorem foliosAct : Obligations.FoliosAct := by
  unfold Obligations.FoliosAct
  exact ⟨foliosOpenAndClose_holds, folioPatchWorksInTurn_holds⟩

end Sys2Proof.Laws
end

section
/-! # Slots of pennants and the hoists that reach them (O24, O57) -/

namespace Sys2Proof.Laws
open Sys2Proof Sys2Proof.Machine Sys2Proof.Claim

/-! ## What a slot holds (Table 8.5) -/

/-- A slot that has taken a hoist's value and has not yet released a waiter. -/
def hoistedSlot (x : Slot) (v : BitVec 48) : Slot :=
  if x.k then { x with value := x.value + v, f := x.value + v != 0 } else { x with value := v, f := true }

/-- The same slot once it has released the watchers that the value satisfies (R182). -/
def watchedSlot (x : Slot) (v : BitVec 48) : Slot :=
  { hoistedSlot x v with waiters := (hoistedSlot x v).waiters.filter (fun w => !(!w.strike && (hoistedSlot x v).meets w.n)) }

section
variable (x : Slot) (v : BitVec 48)

/-- An accepted hoist serves strikers on the slot that has released its watchers. -/
theorem accept_eq : ∃ n l, x.accept v = serveStrikers n (watchedSlot x v) l := ⟨_, _, rfl⟩

theorem watchedSlot_k : (watchedSlot x v).k = x.k := by
  change (hoistedSlot x v).k = x.k
  unfold hoistedSlot
  split <;> rfl

variable {x}

theorem hoistedSlot_data (hk : x.k = false) : hoistedSlot x v = { x with value := v, f := true } := by simp [hoistedSlot, hk]

theorem hoistedSlot_counting (hk : x.k = true) : hoistedSlot x v = { x with value := x.value + v, f := x.value + v != 0 } := by
  simp [hoistedSlot, hk]

theorem hoistedSlot_waiters : (hoistedSlot x v).waiters = x.waiters := by
  unfold hoistedSlot
  split <;> rfl

theorem accept_of_no_waiters (h : x.waiters = []) : x.accept v = (hoistedSlot x v, []) := by
  have hw : (hoistedSlot x v).waiters = [] := (hoistedSlot_waiters v).trans h
  change serveStrikers ((hoistedSlot x v).waiters.filter _).length { hoistedSlot x v with waiters := (hoistedSlot x v).waiters.filter _ }
    (((hoistedSlot x v).waiters.filter _).map _) = _
  rw [hw]
  exact congrArg (fun l => ({ hoistedSlot x v with waiters := l }, ([] : List (Waiter × BitVec 48)))) hw.symm

end

/-- With no striker recorded there is none to serve. -/
theorem serveStrikers_of_no_striker {x : Slot} (h : ∀ w ∈ x.waiters, w.strike = false) (n : Nat) (l : List (Waiter × BitVec 48)) :
    serveStrikers n x l = (x, l) := by
  cases n with
  | zero => rfl
  | succ n =>
    have hnone : x.waiters.find? (·.strike) = none := List.find?_eq_none.mpr fun w hw => by simp [h w hw]
    rw [serveStrikers, hnone]

/-! ## Kind and fullness (R174) -/

section
variable {x : Slot} {v : BitVec 48} {n : Nat}

theorem accept_k : (x.accept v).1.k = x.k := by
  obtain ⟨n, l, h⟩ := accept_eq x v
  rw [h, (serveStrikers_kind n _ l).1, watchedSlot_k]

/-- A data pennant that no striker waits for is full after a hoist. -/
theorem accept_f_of_data (hk : x.k = false) (hw : ∀ w ∈ x.waiters, w.strike = false) : (x.accept v).1.f = true := by
  obtain ⟨n, l, h⟩ := accept_eq x v
  have hno : ∀ w ∈ (watchedSlot x v).waiters, w.strike = false := fun w hmem =>
    hw w (hoistedSlot_waiters (x := x) v ▸ List.mem_of_mem_filter hmem)
  rw [h, serveStrikers_of_no_striker hno]
  change (hoistedSlot x v).f = true
  rw [hoistedSlot_data v hk]

/-- A counting pennant is full after a hoist exactly if its value is not 0, however many strikers were served. -/
theorem accept_f_of_counting (hk : x.k = true) : (x.accept v).1.f = true ↔ (x.accept v).1.value ≠ 0 := by
  obtain ⟨n, l, h⟩ := accept_eq x v
  have hfull : (watchedSlot x v).f = true ↔ (watchedSlot x v).value ≠ 0 := by
    change (hoistedSlot x v).f = true ↔ (hoistedSlot x v).value ≠ 0
    rw [hoistedSlot_counting v hk]
    exact bne_iff_ne
  rw [h]
  exact (serveStrikers_kind n _ l).2 ((watchedSlot_k x v).trans hk) hfull

theorem consume_data (hk : x.k = false) : x.consume n = { x with f := false } := by simp [Slot.consume, hk]

theorem consume_counting (hk : x.k = true) : x.consume n =
    { x with value := x.value - BitVec.ofNat 48 n, f := x.value - BitVec.ofNat 48 n != 0 } := by simp [Slot.consume, hk]

theorem consume_k : (x.consume n).k = x.k := by
  cases hk : x.k with
  | false => rw [consume_data hk, hk]
  | true => rw [consume_counting hk, hk]

theorem consume_f_of_counting (hk : x.k = true) : (x.consume n).f = true ↔ (x.consume n).value ≠ 0 := by
  rw [consume_counting hk]
  exact bne_iff_ne

end

/-- Settles O57: a hoist sets F with the value, and the strikers it serves keep the kind and how F follows VALUE. -/
theorem pennantKindAndFullness : Obligations.PennantKindAndFullness := by
  unfold Obligations.PennantKindAndFullness
  exact ⟨fun x v => ⟨accept_k, fun hw hk => accept_f_of_data hk hw, accept_f_of_counting⟩,
    fun x n => ⟨consume_k, fun hk => by rw [consume_data hk], consume_f_of_counting⟩⟩

/-! ## A hoist at its slot (R177, R181, R184) -/

section
variable {s u : State} {m : PenMsg} {e key c : Nat}

@[simp] theorem progress_slot : (s.progress c).slot key = s.slot key := by
  unfold State.progress
  split <;> rfl

@[simp] theorem outcome_slot (src : PenSrc) (st : Status) (id : Nat) : (s.outcome src st id).slot key = s.slot key := rfl

@[simp] theorem progress_outcomes : (s.progress c).pen.outcomes = s.pen.outcomes := by
  unfold State.progress
  split <;> rfl

/-- A table entry is read only where its table does not lie in a reserved range. -/
theorem penBeyond_of_penEntry {id : Nat} (he : s.penEntry c id = (some e, u)) : s.penBeyond c id = false := by
  rw [← Bool.not_eq_true]
  intro hb
  simp [State.penEntry, hb] at he

/-- A message whose generation is that of its entry and of its slot takes effect at the slot. -/
theorem deliver_eq_atSlot (he : s.penEntry m.c m.id = (some e, u)) (hv : peV e = true) (hm : m.gen = some (BitVec.ofNat 8 (peGen e)))
    (hg : (u.slot (slotKey (peHome e) (peIdx e))).gen = BitVec.ofNat 8 (peGen e)) :
    s.deliver m = u.atSlot (slotKey (peHome e) (peIdx e)) m := by
  simp [State.deliver, penBeyond_of_penEntry he, he, hv, hm, hg]

variable {v : BitVec 48} {rel : Bool} (hop : m.op = .hoist v rel)
include hop

/-- A hoist of a command is held by nothing but an earlier message of its endpoint. -/
theorem fxPennantOperation_hoist {n : Nat} {k : CmdKey} (hn : s.pen.msgs[n]? = some m) (ha : s.alive = true) (hsrc : m.src = .cmd k)
    (hb : s.behind n m = false) : fxPennantOperation n s = ({ s with pen.msgs := s.pen.msgs.eraseIdx n } : State).deliver m := by
  simp [fxPennantOperation, hn, ha, hb, State.mayGo, State.left, hsrc, hop]

theorem atSlot_accepts (hr : (s.slot key).refuses v = none) (hw : (s.slot key).waiters = []) :
    s.atSlot key m = ((s.setSlot key (hoistedSlot (s.slot key) v)).outcome m.src St.ok m.id).progress m.c := by
  simp [State.atSlot, hop, hr, accept_of_no_waiters v hw, State.proceedAll]

theorem atSlot_refuses {st : Status} (hr : (s.slot key).refuses v = some st) :
    s.atSlot key m = (({ s with pen.refused := s.pen.refused + 1 } : State).penNote m.c m.id st).outcome m.src st m.id := by
  simp [State.atSlot, hop, hr]

end

/-- Settles O24: translation takes the message to its slot, which takes the value or notes the refusal; either outcome joins those on their
way. -/
theorem hoistTakesEffectAtItsSlot : Obligations.HoistTakesEffectAtItsSlot := by
  unfold Obligations.HoistTakesEffectAtItsSlot
  intro s n m v rel e k u hn ha hop hsrc he hb hv hm hg
  have hexec : exec (.pennantOperation n) s = .next (u.atSlot (slotKey (peHome e) (peIdx e)) m) :=
    congrArg Host.Outcome.next ((fxPennantOperation_hoist hop hn ha hsrc hb).trans (deliver_eq_atSlot he hv hm hg))
  refine ⟨fun hr hw => ⟨_, hexec, ?_⟩, fun st hr => ⟨_, hexec, ?_⟩⟩
  · rw [atSlot_accepts hop hr hw, progress_slot, progress_outcomes, outcome_slot, slot_setSlot, hsrc]
    refine ⟨?_, ?_, rfl⟩ <;> unfold hoistedSlot <;> split <;> rfl
  · rw [atSlot_refuses hop hr, hsrc]
    exact ⟨rfl, rfl⟩

end Sys2Proof.Laws
end

section
/-! # SYN and MRK instructions (O12) -/

namespace Sys2Proof.Laws
open Sys2Proof Sys2Proof.Machine Sys2Proof.Claim

variable {s t : State} {L cls opc : Nat} {f : TileFields} {u : TUnit}

/-- From a state whose core still stands at the instruction that has issued, PC moves to the next one. -/
theorem advance_of_ready {p : Plan} (h : ready s L cls opc f u p) (hk : seqKey (t.core L) = seqKey (s.core L)) :
    t.advance L = t.setCore L { t.core L with pc := (s.core L).pc + 1 } := by
  obtain ⟨k, ht, hpc⟩ := h.2.2.1
  simp only [seqKey, Prod.mk.injEq] at hk
  obtain ⟨htask, hended, hpc'⟩ := hk
  rw [advance_eq t L k (htask.trans ht) (hended.trans (ready_ended h)) (by omega), hpc']

/-- An instruction of a unit that issues acts once it has entered its queue, and moves on. -/
theorem exec_issue {mk : Nat → TileFields → Instr} {ok : Bool} {plan : State → Plan} {act : State → State}
    (he : exec (mk L f) s = onCore L s (fun s => s.issue L cls opc f ok u plan act)) (hok : ok = true) (h : ready s L cls opc f u (plan s)) :
    exec (mk L f) s = .next ((act (entered s L u (plan s))).advance L) := by
  rw [he, onCore_eq h.1.1, issue_go s L cls opc f ok u plan act hok h]

/-! ## SYN instructions -/

/-- The message of the SYN instruction with fields f that core L of the state s, with task k, has come to. -/
def synMsg (s : State) (L : Nat) (f : TileFields) (k : TaskInfo) (chk : Bool) (op : PenOp) : PenMsg :=
  ⟨k.key.c, handleId ((s.core L).A (synPR f)), some (handleGen ((s.core L).A (synPR f))), .core L (s.core L).seqNo chk, op⟩

/-- The core that holds the SYN instruction in its queue, `n` of its hoists being on their way. -/
def synQueued (cs : CoreState) (p : Plan) (n : Nat) : CoreState := { cs.issued.push .syn p with hoistsOut := n }

section
variable {p : Plan} {n : Nat} {k : TaskInfo} {chk : Bool} {op : CoreState → PenOp} (hc : t.core L = synQueued (s.core L) p n)
include hc

/-- Once the instruction is in its queue, what its core posts is its message. -/
theorem post_msgs (ht : (s.core L).task = some k) :
    (t.post L f chk op).pen.msgs = t.pen.msgs ++ [synMsg s L f k chk (op (synQueued (s.core L) p n))] := by
  have hk : (synQueued (s.core L) p n).task = some k := ht
  simp only [State.post, hc, hk]
  rfl

/-- A SYN instruction that has posted its message moves on. -/
theorem advance_post (h : ready s L 4 opc f .syn p) : (t.post L f chk op).advance L =
    (t.post L f chk op).setCore L { synQueued (s.core L) p n with pc := (s.core L).pc + 1 } := by
  have hcore : (t.post L f chk op).core L = synQueued (s.core L) p n := hc
  rw [advance_of_ready h (by rw [hcore]; rfl), hcore]

end

/-- A row that waits at a pennant, from its meaning. -/
theorem waitRow_of {mk : Nat → TileFields → Instr} {test : Bool} {op : TileFields → PenOp}
    (he : ∀ L f s, exec (mk L f) s = onCore L s (fun s => s.issue L 4 opc f (waitOk test f) .syn
      (fun _ => { waitPlan f with blocks := !test }) (fun s => s.post L f false (fun _ => op f)))) : waitRow mk opc test op := by
  intro s L f k hok ht h
  have hc : (entered s L .syn { waitPlan f with blocks := !test }).core L =
      synQueued (s.core L) { waitPlan f with blocks := !test } (s.core L).hoistsOut := core_modCore _ _ _
  refine ⟨_, exec_issue (he L f s) hok h, ?_⟩
  rw [advance_post hc h, core_setCore, setCore_pen, post_msgs hc ht]
  exact ⟨rfl, rfl, rfl⟩

theorem pennantInstructionsComplete_holds : pennantInstructionsComplete := by
  refine ⟨fun s L f k hok ht h => ?_, waitRow_of fun _ _ _ => rfl, waitRow_of fun _ _ _ => rfl, waitRow_of fun _ _ _ => rfl⟩
  have hc : ((entered s L .syn { aUse := hoistRegs f, ctl := hoistRegs f, pDst := synCHK f, waiting := true }).modCore L
      (fun cs => { cs with hoistsOut := cs.hoistsOut + 1 })).core L =
      synQueued (s.core L) { aUse := hoistRegs f, ctl := hoistRegs f, pDst := synCHK f, waiting := true } ((s.core L).hoistsOut + 1) := by
    rw [core_modCore, entered, core_modCore]
    rfl
  refine ⟨_, exec_issue (mk := .synHoist) rfl hok h, ?_⟩
  rw [advance_post hc h, core_setCore, setCore_pen, post_msgs hc ht]
  exact ⟨rfl, rfl, rfl⟩

/-! ## MRK instructions -/

/-- An instruction whose effect, in the state in which it has entered its queue, is the change `g` of its core leaves `after`. -/
theorem onCore_issue_after {plan : State → Plan} {act : State → State} {g : CoreState → CoreState} {ok : Bool} (hok : ok = true)
    (h : ready s L cls opc f u (plan s)) (hk : keeps g) (hact : act (entered s L u (plan s)) = (entered s L u (plan s)).modCore L g) :
    onCore L s (fun s => s.issue L cls opc f ok u plan act) = .next (after s L u (plan s) g) := by
  rw [onCore_eq h.1.1, issue_go s L cls opc f ok u plan act hok h, hact,
    ← issue_go s L cls opc f ok u plan (fun s => s.modCore L g) hok h, issue_after s L cls opc f ok u plan g hok h hk]

theorem setA_keeps (r v : Nat) (pois : Bool) : keeps (fun cs => cs.setA r v pois) := fun _ => ⟨rfl, rfl, rfl⟩

section
variable (hok : mrkOk true false false true true f = true)
  (h : ready s L 7 0x00 f .mrk { aUse := if mTR f then [mAR f] else [] })
include hok h

/-- A ribbon that is not honoured only takes the issue (R355). -/
theorem fxMrkRibbon_ignored (hm : (!s.ribbonMode || (s.ctx (s.ctxOf L)).traceBase == 0) = true) :
    fxMrkRibbon L f s = s.setCore L { (s.core L).issued with pc := (s.core L).pc + 1 } := by
  refine (front_go s L 7 0x00 f _ .mrk _ _ hok h).trans ((if_pos hm).trans ?_)
  rw [advance_of_ready h (by rw [core_modCore]; rfl), core_modCore, State.modCore, setCore_setCore]

theorem fxMrkRibbon_written (hm : (!s.ribbonMode || (s.ctx (s.ctxOf L)).traceBase == 0) = false) :
    fxMrkRibbon L f s = ((entered s L .mrk { aUse := if mTR f then [mAR f] else [] }).ribbon L (s.core L).pc
      (if mTR f then (s.core L).A (mAR f) % 2 ^ 32 else mTAG f) (mTR f && (s.core L).Ap (mAR f))).advance L :=
  (front_go s L 7 0x00 f _ .mrk _ _ hok h).trans ((if_neg fun hc => Bool.false_ne_true (hm.symm.trans hc)).trans
    (operands_go s L .mrk _ _ h.2.2.2))

end

theorem markerInstructionsComplete_holds : markerInstructionsComplete := fun _ _ _ =>
  ⟨fun hok h => onCore_issue_after hok h (fun _ => ⟨rfl, rfl, rfl⟩) rfl,
    fun hok h => onCore_issue_after hok h (fun _ => ⟨rfl, rfl, rfl⟩) rfl,
    fun hok h => onCore_issue_after hok h (setA_keeps _ _ _) rfl,
    fun hok h => ⟨fun hm => (onCore_eq h.1.1 _ _).trans (congrArg _ (fxMrkRibbon_ignored hok h hm)),
      fun hm => (onCore_eq h.1.1 _ _).trans (congrArg _ (fxMrkRibbon_written hok h hm))⟩⟩

/-- Settles O12: each row is its issue to its unit, then the message it posts or the change of its core. -/
theorem pennantAndMarkerInstructionsComplete : Obligations.PennantAndMarkerInstructionsComplete := by
  unfold Obligations.PennantAndMarkerInstructionsComplete
  exact ⟨pennantInstructionsComplete_holds, markerInstructionsComplete_holds⟩

end Sys2Proof.Laws
end

section
/-! # Outcomes, waits and the deadlock detector (O25) -/

namespace Sys2Proof.Laws
open Sys2Proof Sys2Proof.Machine Sys2Proof.Claim

variable {s t : State} {L c seq : Nat} {chk : Bool}

/-! ## Outcomes (R185) -/

/-- The core that learns that its hoist `seq` was accepted. -/
def hoistAccepted (seq : Nat) (chk : Bool) (cs : CoreState) : CoreState :=
  if chk && cs.owns seq then { ({ cs with hoistsOut := cs.hoistsOut - 1 } : CoreState).unwait seq with p := true }
  else { cs with hoistsOut := cs.hoistsOut - 1 }

theorem hoistAccepted_hoistsOut (cs : CoreState) : (hoistAccepted seq chk cs).hoistsOut = cs.hoistsOut - 1 := by
  unfold hoistAccepted
  split <;> rfl

theorem fxHoistOutcome_accepted {n id : Nat} (ha : s.alive = true) (ho : s.pen.outcomes[n]? = some ⟨.core L seq chk, St.ok, id⟩) :
    fxHoistOutcome n s =
      (({ s with pen.outcomes := s.pen.outcomes.eraseIdx n } : State).modCore L (hoistAccepted seq chk)).settle L := by
  have hst : (St.ok == St.penStale) = false := by decide
  have hov : (St.ok == St.penOverrun) = false := by decide
  have hct : (St.ok == St.penCount) = false := by decide
  simp only [fxHoistOutcome, ho, ha, hst, hov, hct]
  rfl

theorem pen_settle : (s.settle L).pen = s.pen := by
  unfold State.settle
  split
  · unfold State.finishTask
    dsimp only
    split <;> rfl
  · rfl

theorem hoistsOut_settle : ((s.settle L).core L).hoistsOut = (s.core L).hoistsOut :=
  field_of_sansTask CoreState.hoistsOut sansTask_settle

/-! ## Timed waits (R186) -/

/-- Whether a waiter is that of a timed wait of core L. -/
def timedWait (L : Nat) (w : Waiter) : Bool :=
  w.src.unitNo == L && decide (0 < w.tmo) && (match w.src with
    | .core _ _ _ => true
    | _ => false)

theorem timedWait_of_core {w : Waiter} (h : w.src = .core L seq chk) : timedWait L w = decide (0 < w.tmo) := by
  simp [timedWait, h, PenSrc.unitNo]

theorem core_of_timedWait {w : Waiter} (h : timedWait L w = true) : ∃ seq chk, w.src = .core L seq chk := by
  cases hs : w.src with
  | core K seq chk =>
    rw [timedWait, hs] at h
    simp only [PenSrc.unitNo, Bool.and_true, Bool.and_eq_true, beq_iff_eq] at h
    exact ⟨seq, chk, by rw [h.1]⟩
  | cmd k => simp [timedWait, hs] at h
  | remote port did unit tag cong ctx => simp [timedWait, hs] at h
  | engine c run => simp [timedWait, hs] at h

/-- The state whose slots no longer record the timed waits of core L. -/
def untimed (L : Nat) (s : State) : State :=
  { s with pen.slots := Tab.mapV s.pen.slots (fun _ x => { x with waiters := x.waiters.filter (fun w => !timedWait L w) }) }

/-- The waits in a list end unsatisfied. -/
def endWaits (s : State) (ws : List Waiter) : State := ws.foldl (fun (s : State) w => s.endWait w.src w.wr none false) s

theorem fxPerWaitTimeout_eq : fxPerWaitTimeout L s =
    endWaits (untimed L s) (s.pen.slots.flatMap (fun e => e.2.waiters.filter (timedWait L))) := rfl

@[simp] theorem progress_slots : (s.progress c).pen.slots = s.pen.slots := by
  unfold State.progress
  split <;> rfl

theorem slots_endWait (src : PenSrc) (wr : Option Nat) (v : Option (BitVec 48)) (stale : Bool) :
    (s.endWait src wr v stale).pen.slots = s.pen.slots := by
  unfold State.endWait
  split
  · exact progress_slots
  · exact progress_slots
  · exact progress_slots
  · rfl

theorem slots_endWaits (ws : List Waiter) : (endWaits s ws).pen.slots = s.pen.slots :=
  foldl_kept (fun t : State => t.pen.slots) (fun _ _ => slots_endWait _ _ _ _) ws s

theorem progress_core : (s.progress c).core L = s.core L := by
  unfold State.progress
  split <;> rfl

/-- An unsatisfied wait of a task that still runs sets P to 0; of any other it does nothing. -/
theorem core_endWait_unsatisfied (wr : Option Nat) : (s.endWait (.core L seq chk) wr none false).core L =
    if (s.core L).owns seq then { (s.core L).unwait seq with p := false } else s.core L := by
  simp only [State.endWait, progress_core, core_modCore]
  cases (s.core L).owns seq <;> rfl

section
variable {w : Waiter} {ws : List Waiter}

theorem p_endWait_timed (hw : timedWait L w = true) :
    ((s.endWait w.src w.wr none false).core L).p = false ∨ (s.endWait w.src w.wr none false).core L = s.core L := by
  obtain ⟨seq, chk, hs⟩ := core_of_timedWait hw
  rw [hs, core_endWait_unsatisfied]
  split
  · exact .inl rfl
  · exact .inr rfl

theorem p_endWaits_of_p (hws : ∀ w ∈ ws, timedWait L w = true) (hp : (s.core L).p = false) : ((endWaits s ws).core L).p = false :=
  List.foldlRecOn (motive := fun t : State => (t.core L).p = false) ws _ hp fun t ht w hw =>
    (p_endWait_timed (hws w hw)).elim id fun h => by rw [h, ht]

/-- Of the waits of core L that end, one that its task owns sets P to 0, and none sets it to 1. -/
theorem p_endWaits_of_owned (hws : ∀ w ∈ ws, timedWait L w = true) (hw : w ∈ ws) (hs : w.src = .core L seq chk)
    (ho : (s.core L).owns seq = true) : ((endWaits s ws).core L).p = false := by
  induction ws generalizing s with
  | nil => cases hw
  | cons x ws ih =>
    have htail : ∀ w ∈ ws, timedWait L w = true := fun w hw => hws w (List.mem_cons_of_mem x hw)
    change ((endWaits (s.endWait x.src x.wr none false) ws).core L).p = false
    rcases List.mem_cons.mp hw with rfl | hmem
    · refine p_endWaits_of_p htail ?_
      rw [hs, core_endWait_unsatisfied, ho, if_pos rfl]
    · rcases p_endWait_timed (s := s) (hws x List.mem_cons_self) with hp | hsame
      · exact p_endWaits_of_p htail hp
      · exact ih htail hmem (by rw [hsame, ho])

end

/-- After the timeout no slot records a timed wait of core L. -/
theorem slots_fxPerWaitTimeout : ∀ e ∈ (fxPerWaitTimeout L s).pen.slots, ∀ w ∈ e.2.waiters, ∀ seq chk, w.src = .core L seq chk → w.tmo = 0 := by
  rw [fxPerWaitTimeout_eq, slots_endWaits]
  intro e he w hw seq chk hs
  obtain ⟨e', -, rfl⟩ := List.mem_map.mp he
  have hno := (List.mem_filter.mp hw).2
  rw [timedWait_of_core hs] at hno
  simpa using hno

theorem p_fxPerWaitTimeout {e : Nat × Slot} {w : Waiter} (he : e ∈ s.pen.slots) (hw : w ∈ e.2.waiters) (hs : w.src = .core L seq chk)
    (h0 : 0 < w.tmo) (ho : (s.core L).owns seq = true) : ((fxPerWaitTimeout L s).core L).p = false := by
  have htimed : timedWait L w = true := by rw [timedWait_of_core hs, decide_eq_true h0]
  rw [fxPerWaitTimeout_eq]
  refine p_endWaits_of_owned (fun x hx => ?_) (List.mem_flatMap.mpr ⟨e, he, List.mem_filter.mpr ⟨hw, htimed⟩⟩) hs ho
  obtain ⟨_, -, hmem⟩ := List.mem_flatMap.mp hx
  exact (List.mem_filter.mp hmem).2

/-! ## What events and dumps leave -/

/-- A state without its event queues and without what is observed of it. -/
def sansNotes (s : State) : State := { s with um.events := [], um.eventDrops := [], obs := State.reset.obs }

theorem sansNotes_event (code detail : Nat) : sansNotes (s.event code detail) = sansNotes s := by
  unfold State.event
  refine foldl_kept sansNotes (fun t i => ?_) _ _
  dsimp only
  split_ifs <;> rfl

theorem sansNotes_dump (cause : Nat) : sansNotes (s.dump cause) = sansNotes s := by
  unfold State.dump
  split_ifs <;> rfl

/-- What neither an event nor a dump changes is read off the rest of the state. -/
theorem field_of_sansNotes {γ : Type} (π : State → γ) (h : sansNotes s = sansNotes t) : π (sansNotes s) = π (sansNotes t) :=
  congrArg π h

/-! ## The deadlock detector (R192) -/

theorem sansNotes_blockedEvent {raise : State → State} (hr : ∀ t, sansNotes (raise t) = sansNotes t) :
    sansNotes (s.blockedEvent raise) = sansNotes { s with pen.dldEvents := s.pen.dldEvents + 1 } := by
  unfold State.blockedEvent
  dsimp only
  split
  · rfl
  · exact hr _

/-- The module as it enters its own quiescent-blocked state. -/
def moduleEntered (s : State) : State := { s with pen.modBlocked := true, pen.dldEvents := s.pen.dldEvents + 1 }

theorem enterModule_of_blocked : s.enterModule true = s := rfl

theorem enterModule_of_not_allBlocked {was : Bool} (h : s.allBlocked = false) : s.enterModule was = s := by
  simp [State.enterModule, h]

theorem sansNotes_enterModule (ho : s.obj 0x2200 1 ≠ 0) (h : s.allBlocked = true) :
    sansNotes (s.enterModule false) = sansNotes (moduleEntered s) := by
  have hgo : (false || !s.allBlocked || s.obj 0x2200 1 == 0) = false := by simp [h, ho]
  rw [State.enterModule, if_neg (Bool.eq_false_iff.mp hgo)]
  exact sansNotes_blockedEvent fun _ => sansNotes_event _ _

/-- The module's entry is counted where it was not quiescent-blocked and then is. -/
theorem dldEvents_enterModule (ho : s.obj 0x2200 1 ≠ 0) (was : Bool) : (s.enterModule was).pen.dldEvents =
    s.pen.dldEvents + (if (s.enterModule was).moduleBlocked && !was then 1 else 0) := by
  cases was with
  | true => simp [enterModule_of_blocked]
  | false =>
    cases hall : s.allBlocked with
    | false =>
      have hmod : s.moduleBlocked = false := by simp [State.moduleBlocked, hall]
      simp [enterModule_of_not_allBlocked hall, hmod]
    | true =>
      have hin := sansNotes_enterModule ho hall
      have hmod : (s.enterModule false).moduleBlocked = true := (field_of_sansNotes State.moduleBlocked hin).trans hall
      rw [hmod]
      exact field_of_sansNotes (fun t => t.pen.dldEvents) hin

theorem ctx_enterModule (ho : s.obj 0x2200 1 ≠ 0) (was : Bool) : (s.enterModule was).ctx c = s.ctx c := by
  cases was with
  | true => rw [enterModule_of_blocked]
  | false =>
    cases hall : s.allBlocked with
    | false => rw [enterModule_of_not_allBlocked hall]
    | true => exact (field_of_sansNotes (fun t => t.ctx c) (sansNotes_enterModule ho hall)).trans rfl

/-- The state in which context c is quiescent-blocked, before its event. -/
def ctxBlocked (s : State) (c : Nat) : State :=
  s.modCtx c (fun x => { x with qblocked := true, quiesce := (s.awaited c).take 64, quiesceAt := s.workMark c })

theorem qblocked_ctxBlocked : ((ctxBlocked s c).ctx c).qblocked = true := by rw [ctxBlocked, ctx_modCtx]

/-- The same with the event counted and raised, and no suspicion against the context. -/
def ctxEntered (s : State) (c : Nat) : State :=
  let t := (ctxBlocked s c).blockedEvent (fun s => s.event 0x0101 c)
  { t with pen.suspects := NSet.remove t.pen.suspects c }

theorem fxQuiescentBlocked_enters (ha : s.alive = true) (ho : s.obj 0x2200 1 ≠ 0) (hq : s.quiescent c = true) (hb : s.blocked c = false) :
    fxQuiescentBlocked c s = ((ctxEntered s c).enterModule s.moduleBlocked).dump 1 := by
  simp only [fxQuiescentBlocked, ha, ho, hq, hb]
  rfl

theorem sansNotes_ctxBlocked : sansNotes ((ctxBlocked s c).blockedEvent (fun s => s.event 0x0101 c)) =
    sansNotes { ctxBlocked s c with pen.dldEvents := s.pen.dldEvents + 1 } :=
  sansNotes_blockedEvent fun _ => sansNotes_event _ _

theorem quiescentBlocked_enters (ha : s.alive = true) (ho : s.obj 0x2200 1 ≠ 0) (hq : s.quiescent c = true) (hb : s.blocked c = false) :
    ((fxQuiescentBlocked c s).ctx c).qblocked = true ∧ (fxQuiescentBlocked c s).pen.dldEvents =
      s.pen.dldEvents + (if (fxQuiescentBlocked c s).moduleBlocked && !s.moduleBlocked then 2 else 1) := by
  have hobj : (ctxEntered s c).obj 0x2200 1 ≠ 0 := fun h =>
    ho ((field_of_sansNotes (fun t => t.obj 0x2200 1) (sansNotes_ctxBlocked (s := s) (c := c))).symm.trans h)
  have hcount : (ctxEntered s c).pen.dldEvents = s.pen.dldEvents + 1 :=
    field_of_sansNotes (fun t => t.pen.dldEvents) sansNotes_ctxBlocked
  have hctx : ((ctxEntered s c).ctx c).qblocked = true :=
    (field_of_sansNotes (fun t => (t.ctx c).qblocked) sansNotes_ctxBlocked).trans qblocked_ctxBlocked
  rw [fxQuiescentBlocked_enters ha ho hq hb]
  have hdump := sansNotes_dump (s := (ctxEntered s c).enterModule s.moduleBlocked) 1
  refine ⟨(field_of_sansNotes (fun t => (t.ctx c).qblocked) hdump).trans ((congrArg CtxState.qblocked (ctx_enterModule hobj _)).trans hctx),
    (field_of_sansNotes (fun t => t.pen.dldEvents) hdump).trans ?_⟩
  have hmod : ((ctxEntered s c).enterModule s.moduleBlocked |>.dump 1).moduleBlocked =
    ((ctxEntered s c).enterModule s.moduleBlocked).moduleBlocked := field_of_sansNotes State.moduleBlocked hdump
  rw [hmod]
  refine (dldEvents_enterModule hobj s.moduleBlocked).trans ?_
  rw [hcount]
  split
  · exact BitVec.add_assoc _ _ _
  · exact BitVec.add_zero _

/-! ## What a packet that leaves changes -/

/-- A state without its fabric and without what has left it. -/
def sansFabric (s : State) : State := { s with fab := State.reset.fab, out := [] }

theorem field_of_sansFabric {γ : Type} (π : State → γ) (h : sansFabric s = sansFabric t) : π (sansFabric s) = π (sansFabric t) :=
  congrArg π h

theorem sansFabric_sendIdle (p : Nat) : sansFabric (s.sendIdle p) = sansFabric s := by
  unfold State.sendIdle
  split <;> rfl

theorem sansFabric_flush (p : Nat) : sansFabric (s.flush p) = sansFabric s :=
  foldl_kept sansFabric (fun _ _ => by split; exacts [rfl, sansFabric_sendIdle p]) _ _

theorem sansFabric_freeUnits (p vc n : Nat) : sansFabric (s.freeUnits p vc n) = sansFabric s := by
  unfold State.freeUnits
  split
  · rfl
  · exact sansFabric_flush p

theorem sansFabric_giveBack (q : QPacket) : sansFabric (s.giveBack q) = sansFabric s := by
  unfold State.giveBack
  split
  · rfl
  · exact sansFabric_freeUnits _ _ _

theorem sansFabric_sendFlits (p : Nat) (q : QPacket) : sansFabric (s.sendFlits p q) = sansFabric s := by
  unfold State.sendFlits
  refine foldl_kept sansFabric (fun _ _ => ?_) _ _
  rfl

theorem sansFabric_transmitGo (p fuel : Nat) : sansFabric (s.transmitGo p fuel) = sansFabric s := by
  induction fuel generalizing s with
  | zero => rfl
  | succ fuel ih =>
    simp only [State.transmitGo]
    split
    · rfl
    · exact ih.trans ((sansFabric_giveBack _).trans (sansFabric_sendFlits p _))

theorem sansFabric_transmit (p : Nat) : sansFabric (s.transmit p) = sansFabric s := by
  unfold State.transmit
  split
  · rfl
  · exact (sansFabric_flush p).trans (sansFabric_transmitGo p _)

theorem sansFabric_enqueue (p vc k : Nat) (h : Hdr) (pk : List Byte) (src : Option (Nat × Nat)) :
    sansFabric (s.enqueue p vc k h pk src) = sansFabric s := sansFabric_transmit p

theorem sansFabric_routeOn {inDim : Option Nat} {src : Option (Nat × Nat)} {pk : List Byte} (ht : s.routeOn inDim src pk = some t) :
    sansFabric t = sansFabric s := by
  have hgo : ∀ {p vc k : Nat} {hd : Hdr}, some (s.enqueue p vc k hd pk src) = some t → sansFabric t = sansFabric s :=
    fun e => Option.some.inj e ▸ sansFabric_enqueue _ _ _ _ pk src
  unfold State.routeOn at ht
  extract_lets hd at ht
  split at ht
  · cases ht
  · split at ht
    · cases ht
    · extract_lets at ht
      split at ht
      · exact hgo ht
      · split at ht
        · cases ht
        · split at ht
          · cases ht
          · exact hgo ht

theorem sansFabric_send {pk : List Byte} (ht : s.send pk = some t) : sansFabric t = sansFabric s := by
  unfold State.send at ht
  split at ht
  · cases ht
    rfl
  · exact sansFabric_routeOn ht

theorem sansFabric_mgmt (did kind : Nat) (bs : List Byte) : sansFabric (s.mgmt did kind bs) = sansFabric s := by
  refine foldl_kept sansFabric (fun t f => ?_) _ _
  cases hs : t.send (t.mgmtPacket did f) with
  | none => rfl
  | some t' => exact sansFabric_send hs

theorem sansFabric_tellCoord (kind : Nat) (bs : List Byte) : sansFabric (s.tellCoord kind bs) = sansFabric s := by
  unfold State.tellCoord State.tellCoordBut
  split
  · exact sansFabric_mgmt _ _ _
  · rfl

/-! ## The stall census (R193) -/

/-- The rounds in a row that a census has found context c blocked and without a transaction, once it has this round's report. -/
theorem emptyRounds_fxStallCensus {others : Bool} {count : Nat} (ha : s.alive = true) (ho : s.obj 0x2201 1 ≠ 0) :
    Tab.get 0 (fxStallCensus c others count s).pen.emptyRounds c =
      if s.blocked c && others && count + Tab.get 0 s.pen.txCount c == 0 then Tab.get 0 s.pen.emptyRounds c + 1 else 0 := by
  have hgo : (!s.alive || decide (s.obj 0x2201 1 = 0)) = false := by simp [ha, ho]
  unfold fxStallCensus
  rw [if_neg (Bool.eq_false_iff.mp hgo)]
  extract_lets mine t n _ t'
  have htell : sansFabric t = sansFabric s := sansFabric_tellCoord _ _
  have hblocked : t.blocked c = s.blocked c := field_of_sansFabric (fun x => x.blocked c) htell
  have hpen : t.pen = s.pen := field_of_sansFabric State.pen htell
  have hn : Tab.get 0 t'.pen.emptyRounds c = n := get_put 0 _ c n
  have hval : n = if s.blocked c && others && count + mine == 0 then Tab.get 0 s.pen.emptyRounds c + 1 else 0 := by
    simp only [n, hblocked, hpen]
  refine Eq.trans ?_ (hn.trans hval)
  split
  · refine (field_of_sansNotes (fun x => Tab.get 0 x.pen.emptyRounds c) (sansNotes_dump 2)).trans ?_
    exact field_of_sansNotes (fun x => Tab.get 0 x.pen.emptyRounds c) (sansNotes_event 0x0102 c)
  · rfl

/-- Settles O25: an outcome, a timeout and the end of a quarantine are their rows' effects on cores and slots; entry into the
quiescent-blocked state is counted once for the context and once for the module, and a census counts by what it reads. -/
theorem pennantServiceActs : Obligations.PennantServiceActs := by
  unfold Obligations.PennantServiceActs
  refine fun s => ⟨fun n L seq chk id ha ho => ⟨_, congrArg Host.Outcome.next (fxHoistOutcome_accepted ha ho), ?_, ?_⟩,
    fun L hL => ⟨_, onCore_eq hL s _, slots_fxPerWaitTimeout, fun e he w hw seq chk => p_fxPerWaitTimeout he hw⟩, fun n => rfl,
    fun c hc ha ho hq hb => ⟨_, onCtx_eq hc s _, quiescentBlocked_enters ha ho hq hb⟩,
    fun c count hc ha ho => ⟨fun hb hz => ⟨_, onCtx_eq hc s _, (emptyRounds_fxStallCensus ha ho).trans ?_⟩,
      fun hb => ⟨_, onCtx_eq hc s _, (emptyRounds_fxStallCensus ha ho).trans ?_⟩⟩⟩
  · rw [pen_settle]
    rfl
  · rw [hoistsOut_settle, core_modCore, hoistAccepted_hoistsOut]
    rfl
  · simp [hb, hz]
  · simp [hb]

end Sys2Proof.Laws
end

section
/-! # Service operations (O51) -/

namespace Sys2Proof.Laws
open Sys2Proof Sys2Proof.Machine Sys2Proof.Claim

/-- With a FAILED stack in the 22+2 layout a new mapping may take no page from the range that a re-stripe gives up (R140). -/
theorem mapEnd_of_topClosed {s : State} (h : s.topClosed = true) : s.mapEnd = 0x02A000000000 := if_pos h

/-- MAP to given pages past the end of what a mapping may take is refused with DETAIL 0x06 and changes nothing (R345). -/
theorem svcMap_refuses_past_mapEnd {p : UmPath} {c : Nat} {pl : List Byte} {s : State} (hpa : fieldAt pl 0x18 8 ≠ 0)
    (hend : s.mapEnd < fieldAt pl 0x18 8 + fieldAt pl 0x10 4 * pageSize (fieldAt pl 0x14 1)) :
    svcMap p c pl s = (some (refuse 0x06), s) := by
  unfold svcMap
  dsimp only
  split
  · rfl
  · split
    · rfl
    · rw [if_pos ⟨hpa, .inr (.inr (.inr hend))⟩]

/-- The payload of MAP of one 2 MiB page, readable and writable, from VA 0 of context 0 to the first page of the range of R140. -/
def topMapPayload : List Byte := natLe 1 0 ++ List.replicate 7 0 ++ natLe 8 0 ++ natLe 4 1 ++ [0, 3, 0, 0] ++ natLe 8 0x02A000000000

/-- The frame of that request, without a session (R333): version, operation 0x30, length and payload. -/
def topMapFrame : List Byte :=
  natLe 1 1 ++ natLe 1 0x30 ++ List.replicate 14 0 ++ natLe 4 32 ++ List.replicate 28 0 ++ topMapPayload

/-- The module in operation with stack 0 FAILED and the request at the head of the PF mailbox's queue. -/
def topMapState : State := { State.reset with
  sys.ready := 4
  sys.booting := false
  mem.stack := [(0, { Stack.reset with st := 5 })]
  um.queues := [(pathNo .mbox, [⟨.mbox, topMapFrame⟩])] }

/-- The same once the management controller has taken the request. -/
def topMapTaken : State := taken topMapState .mbox ⟨.mbox, topMapFrame⟩ []

theorem serves_topMap : serves topMapState .mbox 0x30 ⟨.mbox, topMapFrame⟩ [] :=
  ⟨fun _ h => (by cases h), by decide, by decide +kernel, rfl, by decide, by decide, by decide +kernel⟩

theorem payload_topMap : topMapTaken.frPayload topMapFrame = topMapPayload := by decide +kernel

theorem svcFits_topMap : svcFits topMapTaken ⟨.mbox, topMapFrame⟩ 0 := by
  refine ⟨by decide, ?_, by decide, ?_, fun d h => by cases h⟩ <;> rw [payload_topMap] <;> decide

/-- Although its page lies below the end of striped memory, the request is refused. -/
theorem svcMap_topMap : svcMap .mbox 0 (topMapTaken.frPayload topMapFrame) topMapTaken = (some (refuse 0x06), topMapTaken) := by
  have hclosed : topMapTaken.topClosed = true := by decide +kernel
  rw [payload_topMap]
  refine svcMap_refuses_past_mapEnd (by decide) ?_
  rw [mapEnd_of_topClosed hclosed]
  decide

/-- Refutes O51: its clause on MAP bounds the page by the end of striped memory alone, but while a stack is FAILED in the 22+2 layout the
range that a re-stripe gives up takes no new mapping, and MAP of a page there is refused with DETAIL 0x06 (R140). -/
theorem not_serviceOperationsAct : ¬ Obligations.ServiceOperationsAct := by
  unfold Obligations.ServiceOperationsAct
  intro h
  obtain ⟨hmap, -⟩ := h topMapState .mbox ⟨.mbox, topMapFrame⟩ [] topMapTaken 0 rfl svcFits_topMap
  obtain ⟨-, hpage⟩ := hmap _ _ serves_topMap svcMap_topMap
  obtain ⟨hok, -⟩ := hpage 0 0x02A000000000 (by decide) (by decide) (by decide) (by decide) rfl payload_topMap (by decide) (by decide)
    (by decide +kernel) (by decide +kernel) (by decide +kernel)
  exact absurd hok (by decide)

end Sys2Proof.Laws
end

section
/-! # Fabric ports and flits (O34) -/

namespace Sys2Proof.Laws
open Sys2Proof Sys2Proof.Machine Sys2Proof.Claim

variable {s t : State} {p : Nat} {x y : Port}

/-! ## What traffic leaves of a port -/

/-- A port without what moves as packets and flits leave it: queue, credits, counters and the number of the next flit; and, while it is up,
its retry buffer, which flits that are sent join (R199). -/
def linkPart (x : Port) : Port :=
  { x with
    txSeq := 0
    retry := if x.st = 2 ∨ x.st = 3 then [] else x.retry
    credits := []
    used := []
    due := []
    granted := []
    outq := []
    ctr := [] }

/-- Every port of a module without its traffic. -/
def links (s : State) : Nat → Port := fun p => linkPart (s.port p)

/-- What traffic leaves is read off the rest of the port. -/
theorem field_of_linkPart {γ : Type} (π : Port → γ) (h : linkPart x = linkPart y)
    (hπ : ∀ z, π (linkPart z) = π z := by exact fun _ => rfl) : π x = π y :=
  (hπ x).symm.trans ((congrArg π h).trans (hπ y))

/-- No traffic joins the retry buffer of a port that is DOWN. -/
theorem retry_of_linkPart (h : linkPart x = linkPart y) (h0 : y.st = 0) : x.retry = y.retry := by
  have hst : x.st = y.st := field_of_linkPart Port.st h
  have hretry : (linkPart x).retry = (linkPart y).retry := congrArg Port.retry h
  simpa [linkPart, hst, h0] using hretry

theorem port_setPort_ne {q : Nat} (h : p ≠ q) : (s.setPort p x).port q = s.port q := get_put_ne _ _ p q x h

/-- A change of a port's traffic changes no link. -/
theorem links_setPort (h : linkPart x = linkPart (s.port p)) : links (s.setPort p x) = links s := by
  funext q
  by_cases hq : p = q
  · subst hq
    exact (congrArg linkPart (port_setPort s p x)).trans h
  · exact congrArg linkPart (port_setPort_ne hq)

theorem links_modPort {g : Port → Port} (h : linkPart (g (s.port p)) = linkPart (s.port p)) : links (s.modPort p g) = links s :=
  links_setPort h

theorem port_modPort {g : Port → Port} : (s.modPort p g).port p = g (s.port p) := port_setPort s p _

theorem links_of_fab (h : s.fab = t.fab) : links s = links t := congrArg (fun (f : Fab) q => linkPart (Tab.get Port.reset f.ports q)) h

theorem links_of_sansNotes (h : sansNotes s = sansNotes t) : links s = links t := field_of_sansNotes links h

theorem links_event (code detail : Nat) : links (s.event code detail) = links s := links_of_sansNotes (sansNotes_event code detail)

/-! ## Flits and packets that leave (R199, R202, R205) -/

theorem up_of_canFlit (h : x.canFlit = true) : x.st = 2 ∨ x.st = 3 := by
  simp only [Port.canFlit, Bool.and_eq_true, Bool.or_eq_true, beq_iff_eq] at h
  exact h.1

/-- A port that is up sends a flit. -/
theorem links_sendFlit {ftype vc sop : Nat} {slots : List Byte} (h : (s.port p).st = 2 ∨ (s.port p).st = 3) :
    links (s.sendFlit p ftype vc sop slots) = links s := by
  refine links_setPort (s := s) ?_
  simp [linkPart, Port.takeDue, h]

theorem links_sendIdle : links (s.sendIdle p) = links s := by
  unfold State.sendIdle
  split
  next h =>
    rw [Bool.and_eq_true] at h
    exact links_sendFlit (up_of_canFlit h.1)
  next => rfl

theorem links_flush : links (s.flush p) = links s :=
  foldl_kept links (fun _ _ => by split; exacts [rfl, links_sendIdle]) _ _

theorem links_freeUnits (vc n : Nat) : links (s.freeUnits p vc n) = links s := by
  unfold State.freeUnits
  split
  · rfl
  · exact links_flush.trans (links_modPort rfl)

theorem links_giveBack (q : QPacket) : links (s.giveBack q) = links s := by
  unfold State.giveBack
  split
  · rfl
  · exact links_freeUnits _ _

/-- The flits of a packet leave on a port that is up, which stays up from each to the next. -/
theorem links_sendFlits {q : QPacket} (h : (s.port p).st = 2 ∨ (s.port p).st = 3) : links (s.sendFlits p q) = links s := by
  refine List.foldlRecOn (motive := fun t => links t = links s) _ _ rfl fun t ht sl _ => (links_sendFlit ?_).trans ht
  have hst : (t.port p).st = (s.port p).st := field_of_linkPart Port.st (congrFun ht p)
  rwa [hst]

theorem links_transmitGo (fuel : Nat) : links (s.transmitGo p fuel) = links s := by
  induction fuel generalizing s with
  | zero => rfl
  | succ fuel ih =>
    simp only [State.transmitGo]
    split
    · rfl
    next q hq =>
      have hsend := List.find?_some hq
      simp only [Port.canSend, Bool.and_eq_true] at hsend
      obtain ⟨-, hcan, -⟩ := hsend
      refine ih.trans ((links_giveBack _).trans ?_)
      refine Eq.trans (links_sendFlits ?_) (links_setPort rfl)
      rw [port_setPort]
      exact up_of_canFlit hcan

theorem links_transmit : links (s.transmit p) = links s := by
  unfold State.transmit
  split
  · rfl
  · exact links_flush.trans (links_transmitGo _)

theorem links_enqueue (vc k : Nat) (h : Hdr) (pk : List Byte) (src : Option (Nat × Nat)) :
    links (s.enqueue p vc k h pk src) = links s := links_transmit.trans (links_modPort rfl)

/-- A packet that is routed on joins the output queue of some port (R211). -/
theorem routeOn_enqueues {inDim : Option Nat} {src : Option (Nat × Nat)} {pk : List Byte} (ht : s.routeOn inDim src pk = some t) :
    ∃ p vc k h, s.enqueue p vc k h pk src = t := by
  unfold State.routeOn at ht
  extract_lets hd at ht
  split at ht
  · cases ht
  · split at ht
    · cases ht
    · extract_lets at ht
      split at ht
      · exact ⟨_, _, _, _, Option.some.inj ht⟩
      · split at ht
        · cases ht
        · split at ht
          · cases ht
          · exact ⟨_, _, _, _, Option.some.inj ht⟩

/-- A packet is sent, or lost where it finds no route. -/
theorem links_send_getD (pk : List Byte) : links ((s.send pk).getD s) = links s := by
  cases hs : s.send pk with
  | none => rfl
  | some t =>
    unfold State.send at hs
    split at hs
    · cases hs
      rfl
    · obtain ⟨_, _, _, _, rfl⟩ := routeOn_enqueues hs
      exact links_enqueue _ _ _ _ _

theorem links_mgmt (did kind : Nat) (bs : List Byte) : links (s.mgmt did kind bs) = links s :=
  foldl_kept links (fun _ _ => links_send_getD _) _ _

theorem links_tellCoordBut (but : Option Nat) (kind : Nat) (bs : List Byte) : links (s.tellCoordBut but kind bs) = links s := by
  unfold State.tellCoordBut
  split
  · exact links_mgmt _ _ _
  · rfl

/-! ## A port takes a state (R214) -/

theorem links_watchBundle : links (s.watchBundle p) = links s := by
  unfold State.watchBundle
  split
  · extract_lets did
    split
    · exact links_tellCoordBut _ _ _
    · rfl
  · rfl

theorem links_rerouteOne (k : Nat) (q : QPacket) : links (s.rerouteOne p k q) = links s := by
  unfold State.rerouteOne
  extract_lets h way
  cases way with
  | some i => exact links_enqueue _ _ _ _ _
  | none => exact (links_send_getD _).trans (links_giveBack q)

theorem links_rerouteFrom : links (s.rerouteFrom p) = links s := by
  unfold State.rerouteFrom
  split
  · rfl
  · split
    · rfl
    · exact (foldl_kept links (fun _ _ => links_rerouteOne _ _) _ _).trans (foldl_kept links (fun _ _ => links_modPort rfl) _ _)

/-- The port has the state that it takes; what is sent because of the change is traffic. -/
theorem links_setPortState (st : Nat) : links (s.setPortState p st) = links (s.modPort p (fun x => { x with st := st })) := by
  unfold State.setPortState
  split
  next h =>
    subst h
    exact (links_modPort rfl).symm
  next => exact links_watchBundle.trans ((foldl_kept links (fun _ _ => links_mgmt _ _ _) _ _).trans (links_rerouteFrom.trans (links_event _ _)))

theorem linkPart_setPortState (st : Nat) : linkPart ((s.setPortState p st).port p) = linkPart { s.port p with st := st } :=
  (congrFun (links_setPortState st) p).trans (congrArg linkPart port_modPort)

theorem linkPart_transmit : linkPart ((s.transmit p).port p) = linkPart (s.port p) := congrFun links_transmit p

theorem st_setPortState (st : Nat) : ((s.setPortState p st).port p).st = st := field_of_linkPart Port.st (linkPart_setPortState st)

theorem st_transmit : ((s.transmit p).port p).st = (s.port p).st := field_of_linkPart Port.st linkPart_transmit

/-- A port that goes down has no flit left to send again, and shows that it lost its link (R199). -/
theorem portDown_port : ((s.portDown p).port p).st = 0 ∧ ((s.portDown p).port p).retry = [] ∧ ((s.portDown p).port p).linkDown = true := by
  have h := linkPart_setPortState (s := s.modPort p (fun x => { x with
    linkDown := true, retry := [], retrying := false, skipping := false })) (p := p) 0
  rw [port_modPort] at h
  exact ⟨field_of_linkPart Port.st h, retry_of_linkPart h rfl, field_of_linkPart Port.linkDown h⟩

/-! ## Training (R198, R210) -/

/-- The state in which a port trains: the shape of the objects has taken effect (R223). -/
def training (s : State) (p : Nat) : State := ({ s with fab.retrainReq := NSet.remove s.fab.retrainReq p } : State).takeShape

/-- A port that has found its peer, with nothing sent yet. -/
def trainedPort (lr : Bool) (peer : Nat × Nat) (lanes : BitVec 2) (x : Port) : Port :=
  { x with
    lr := lr
    peerDid := BitVec.ofNat 17 peer.1
    peerPort := peer.2
    lanes := x.spared ||| lanes
    txSeq := 0
    rxSeq := 0
    skipping := false
    retrying := false
    retry := []
    credits := []
    used := []
    due := []
    granted := [] }

/-- The state in which port p has found its peer. -/
def metPeer (s : State) (p : Nat) (lr : Bool) (peer : Nat × Nat) (lanes : BitVec 2) : State :=
  ((training s p).emit (.train p s.myDid)).modPort p (trainedPort lr peer lanes)

theorem fxPortTraining_no_neighbour {r : TrainResult} (hm : s.mayTrain p = true) (hn : s.takeShape.neighbourOf p = none) :
    fxPortTraining p r s = (training s p).setPortState p 7 := by
  have hnone : ((training s p).neighbourOf p).isNone = true := Option.isNone_iff_eq_none.mpr hn
  simp only [fxPortTraining, hm, Bool.not_true, Bool.false_eq_true, if_false]
  exact if_pos hnone

theorem fxPortTraining_no_peer {r : TrainResult} (hm : s.mayTrain p = true) (hn : s.takeShape.neighbourOf p ≠ none) (hr : r.peer = none) :
    fxPortTraining p r s = ((training s p).emit (.train p s.myDid)).setPortState p 0 := by
  have hsome : ¬ ((training s p).neighbourOf p).isNone = true := fun h => hn (Option.isNone_iff_eq_none.mp h)
  simp only [fxPortTraining, hm, hr, Bool.not_true, Bool.false_eq_true, if_false]
  exact if_neg hsome

/-- With both lanes working no lane fails. -/
theorem lanes_all_work (h : (s.port p).lanes = 3) :
    (List.range 2).foldl (fun (s : State) i => if (s.port p).lanes.getLsbD i then s else s.laneFails p i) s = s := by
  simp [List.range_succ, h]

theorem lanes_metPeer (lr : Bool) (peer : Nat × Nat) : ((metPeer s p lr peer 3).port p).lanes = 3 := by
  rw [metPeer, port_modPort]
  exact BitVec.or_allOnes

theorem fxPortTraining_peer {r : TrainResult} {peer : Nat × Nat} {lr : Bool} (hm : s.mayTrain p = true)
    (hp : s.takeShape.peerOk p peer = true) (hr : r.peer = some peer) (hlr : s.takeShape.trainsLr p r = some lr) (hl : r.lanes = 3) :
    fxPortTraining p r s = ((metPeer s p lr peer 3).setPortState p 2).transmit p := by
  have hsome : ¬ ((training s p).neighbourOf p).isNone = true := fun h => by
    have hn : s.takeShape.neighbourOf p = none := Option.isNone_iff_eq_none.mp h
    simp [State.peerOk, hn] at hp
  have hpeer : ¬ (!(metPeer s p lr peer 3).peerOk p peer) = true := by
    rw [Bool.not_eq_true', Bool.not_eq_false]
    exact hp
  have hmay : ¬ (!s.mayTrain p) = true := by simp [hm]
  unfold fxPortTraining
  rw [if_neg hmay]
  extract_lets fab t t1
  rw [if_neg (show ¬ (t.neighbourOf p).isNone = true from hsome)]
  have hlr1 : t1.trainsLr p r = some lr := hlr
  rw [hr, hlr1, hl]
  dsimp only
  have hmet : t1.modPort p (trainedPort lr peer 3) = metPeer s p lr peer 3 := rfl
  unfold trainedPort at hmet
  rw [hmet, lanes_all_work (lanes_metPeer lr peer), if_neg hpeer, lanes_metPeer]
  rfl

/-! ## Lanes (R200) -/

/-- A port that has lost lane i. -/
def laneLost (i : Nat) (x : Port) : Port :=
  { x with laneFail := true, spared := x.spared &&& ~~~(1#2 <<< i), lanes := x.lanes &&& ~~~(1#2 <<< i) }

theorem port_laneFails_lost {i : Nat} (h : s.spareLane p = none) : (s.laneFails p i).port p = laneLost i (s.port p) := by
  have hnone : (s.modPort p (fun x => { x with laneFail := true })).spareLane p = none := h
  simp only [State.laneFails, hnone, port_modPort]
  rfl

/-- A port whose lane i a spare has taken. -/
def laneSpared (i : Nat) (x : Port) : Port :=
  { x with laneFail := true, spared := x.spared ||| (1#2 <<< i), lanes := x.lanes ||| (1#2 <<< i) }

theorem links_logRebind (kind logical physical : Nat) : links (s.logRebind kind logical physical) = links s := by
  unfold State.logRebind
  extract_lets l rbd t
  have hfab : t.fab = s.fab := rfl
  exact (links_event _ _).trans (links_of_fab hfab)

theorem port_withSpares (u : Tab NSet) : ({ s with fab.sparesUsed := u } : State).port p = s.port p := rfl

theorem linkPart_laneFails_spared {i j : Nat} (h : s.spareLane p = some j) :
    linkPart ((s.laneFails p i).port p) = linkPart (laneSpared i (s.port p)) := by
  have hsome : (s.modPort p (fun x => { x with laneFail := true })).spareLane p = some j := h
  simp only [State.laneFails, hsome]
  refine (congrFun (links_logRebind _ _ _) p).trans (congrArg linkPart ?_)
  simp only [port_modPort, port_withSpares]
  rfl

/-- Where a working lane is left to a port that is up and not QUIET, its state is that of its lanes. -/
theorem fxLaneSpare_eq {i : Nat} (ha : s.alive = true) (hi : i < 2) (hst : (s.port p).st = 2) (hl : ((s.laneFails p i).port p).lanes ≠ 0)
    (hq : ((s.laneFails p i).port p).st = 2) :
    fxLaneSpare p i s = (s.laneFails p i).setPortState p (upState ((s.laneFails p i).port p).lanes) := by
  have hgo : (!s.alive || !portUp (s.port p).st || decide (2 ≤ i)) = false := by simp [ha, hst, portUp, hi]
  have hq4 : ((s.laneFails p i).port p).st ≠ 4 := by rw [hq]; decide
  unfold fxLaneSpare
  rw [if_neg (Bool.eq_false_iff.mp hgo)]
  dsimp only
  rw [if_neg hl, if_neg hq4]

/-! ## Flits (R199, R202) -/

/-- A port that is up does not pass a flit over. -/
theorem receives_of_up (ha : s.alive = true) (hup : (s.port p).st = 2 ∨ (s.port p).st = 3) :
    (!s.alive || !((s.port p).st == 2 || (s.port p).st == 3 || (s.port p).st == 4 || (s.port p).st == 5)) = false := by
  rcases hup with h | h <;> simp [ha, h]

/-- A flit that cannot be read is discarded, and the flits from the expected one on are asked for. -/
theorem fxFlitReceive_bad {b : List Byte} {fec : Bool} (ha : s.alive = true) (hup : (s.port p).st = 2 ∨ (s.port p).st = 3)
    (hbad : fec = false ∨ flitOk b = false) :
    fxFlitReceive p b fec s = ((s.modPort p (fun x => { x with crcErr := true })).portCtr p 3 1).askRetry p := by
  have hfec : (!fec || !flitOk b) = true := by rcases hbad with h | h <;> simp [h]
  unfold fxFlitReceive
  rw [if_neg (Bool.eq_false_iff.mp (receives_of_up ha hup)), if_pos hfec]

/-- The expected flit, but for a retry request, is received. -/
theorem fxFlitReceive_expected {b : List Byte} (ha : s.alive = true) (hup : (s.port p).st = 2 ∨ (s.port p).st = 3)
    (hok : flitOk b = true) (h3 : flType b ≠ 3) (h4 : flType b ≤ 4) (hseq : BitVec.ofNat 12 (flSeq b) = (s.port p).rxSeq) :
    fxFlitReceive p b true s =
      if flType b = 2 then (s.goodFlit p b (flType b == 0)).setPortState p 5 else s.goodFlit p b (flType b == 0) := by
  have hfec : (!true || !flitOk b) = false := by simp [hok]
  have hgap : (BitVec.ofNat 12 (flSeq b) - (s.port p).rxSeq).toNat = 0 := by simp [hseq]
  unfold fxFlitReceive
  rw [if_neg (Bool.eq_false_iff.mp (receives_of_up ha hup)), if_neg (Bool.eq_false_iff.mp hfec), if_neg h3, if_pos h4]
  exact if_pos hgap

/-- The port of a receiver that asks for flits again. -/
theorem askRetry_port : (s.askRetry p).port p = { s.port p with skipping := true } := port_setPort s p _

theorem rxSeq_credited (c : Nat × Nat) : (x.credited c).rxSeq = x.rxSeq := by
  unfold Port.credited
  split <;> rfl

/-- A port that has received flit b in sequence. -/
def receivedFlit (b : List Byte) (x : Port) : Port :=
  let x := ((x.acked (BitVec.ofNat 12 (flAck b))).credited (flCredit b 0)).credited (flCredit b 1)
  { x with rxSeq := x.rxSeq + 1, skipping := false, ctr := addCtr x.ctr 2 1 }

theorem rxSeq_receivedFlit (b : List Byte) : (receivedFlit b x).rxSeq = x.rxSeq + 1 := by
  simp only [receivedFlit, rxSeq_credited]
  rfl

/-- What a flit in sequence makes the port send is traffic. -/
theorem links_goodFlit (b : List Byte) (data : Bool) : links (s.goodFlit p b data) = links (s.modPort p (receivedFlit b)) := by
  unfold State.goodFlit
  extract_lets u t
  split
  · exact links_sendIdle.trans links_transmit
  · exact links_transmit

theorem linkPart_goodFlit (b : List Byte) (data : Bool) :
    linkPart ((s.goodFlit p b data).port p) = linkPart (receivedFlit b (s.port p)) :=
  (congrFun (links_goodFlit b data) p).trans (congrArg linkPart port_modPort)

/-- The transmitter sends again what it still holds from the flit asked for. -/
theorem resend_eq {fseq : BitVec 12} {e : BitVec 12 × List Byte} {l : List (BitVec 12 × List Byte)}
    (h : (s.port p).retry.dropWhile (fun e => e.1 != fseq) = e :: l) :
    s.resend p fseq = (e :: l).foldl (fun (s : State) e => s.emit (.flit p (flType e.2) e.1.toNat))
      ((s.setPort p { s.port p with
        retrying := true, resentTo := (((s.port p).retry.getLast?).map (·.1)).getD 0 }).portCtr p 4 1) := by
  unfold State.resend
  simp only [h]

theorem out_foldl_emit {α : Type} (f : α → Out) (l : List α) : (l.foldl (fun (s : State) a => s.emit (f a)) s).out = s.out ++ l.map f := by
  induction l generalizing s with
  | nil => simp
  | cons a l ih =>
    have hstep : ((a :: l).foldl (fun (s : State) a => s.emit (f a)) s).out = (s.emit (f a)).out ++ l.map f := ih
    simpa [State.emit] using hstep

theorem port_foldl_emit {α : Type} (f : α → Out) (l : List α) : (l.foldl (fun (s : State) a => s.emit (f a)) s).port p = s.port p :=
  foldl_kept (fun (s : State) => s.port p) (f := fun s a => s.emit (f a)) (fun _ _ => rfl) l s

/-! ## The rows -/

theorem portTraining_acts (hp : portOk p = true) (r : TrainResult) (hm : s.mayTrain p = true) :
    (s.takeShape.neighbourOf p = none → ∃ t, exec (.portTraining p r) s = .next t ∧ (t.port p).st = 7) ∧
    (s.takeShape.neighbourOf p ≠ none → r.peer = none → ∃ t, exec (.portTraining p r) s = .next t ∧ (t.port p).st = 0) ∧
    (∀ peer, s.takeShape.peerOk p peer = true → r.peer = some peer → (s.takeShape.trainsLr p r).isSome = true → r.lanes = 3 →
      ∃ t, exec (.portTraining p r) s = .next t ∧ (t.port p).st = 2 ∧ (t.port p).peerDid = BitVec.ofNat 17 peer.1 ∧
        (t.port p).peerPort = peer.2 ∧ (t.port p).lanes = 3) := by
  refine ⟨fun hn => ⟨_, onPort_eq hp s _, ?_⟩, fun hn hr => ⟨_, onPort_eq hp s _, ?_⟩,
    fun peer hpeer hr hlr hl => ⟨_, onPort_eq hp s _, ?_⟩⟩
  · rw [fxPortTraining_no_neighbour hm hn, st_setPortState]
  · rw [fxPortTraining_no_peer hm hn hr, st_setPortState]
  · obtain ⟨lr, hlr⟩ := Option.isSome_iff_exists.mp hlr
    have hpart : linkPart ((fxPortTraining p r s).port p) = linkPart { (metPeer s p lr peer 3).port p with st := 2 } := by
      rw [fxPortTraining_peer hm hpeer hr hlr hl, linkPart_transmit, linkPart_setPortState]
    have hmet : (metPeer s p lr peer 3).port p = trainedPort lr peer 3 (s.port p) := port_modPort
    exact ⟨field_of_linkPart Port.st hpart, (field_of_linkPart Port.peerDid hpart).trans (congrArg Port.peerDid hmet),
      (field_of_linkPart Port.peerPort hpart).trans (congrArg Port.peerPort hmet),
      (field_of_linkPart Port.lanes hpart).trans (lanes_metPeer lr peer)⟩

theorem linkRetryTimeout_acts (hp : portOk p = true) (hup : portUp (s.port p).st = true) :
    ∃ t, exec (.linkRetryTimeout p) s = .next t ∧ (t.port p).st = 0 ∧ (t.port p).retry = [] ∧ (t.port p).linkDown = true := by
  have hgo : (portUp (s.port p).st || (s.port p).st == 5) = true := by rw [hup, Bool.true_or]
  refine ⟨_, onPort_eq hp s _, ?_⟩
  rw [if_pos hgo]
  exact portDown_port

/-- One of two working lanes that fails leaves the other. -/
theorem lane_lost {l : Nat} (hl : l < 2) : (3#2 &&& ~~~(1#2 <<< l)).getLsbD l = false ∧ 3#2 &&& ~~~(1#2 <<< l) ≠ 0 ∧
    upState (3#2 &&& ~~~(1#2 <<< l)) = 3 := by
  interval_cases l <;> decide

theorem lane_spared {l : Nat} (hl : l < 2) (sp : BitVec 2) : 3#2 ||| (1#2 <<< l) = 3 ∧ (sp ||| (1#2 <<< l)).getLsbD l = true := by
  interval_cases l <;> revert sp <;> decide

theorem laneSpare_acts (hp : portOk p = true) (ha : s.alive = true) {l : Nat} (hl : l < 2) (hst : (s.port p).st = 2)
    (hlanes : (s.port p).lanes = 3) :
    (s.spareLane p = none → ∃ t, exec (.laneSpare p l) s = .next t ∧ (t.port p).st = 3 ∧ (t.port p).lanes.getLsbD l = false ∧
      (t.port p).laneFail = true) ∧
    (∀ j, s.spareLane p = some j → ∃ t, exec (.laneSpare p l) s = .next t ∧ (t.port p).st = 2 ∧ (t.port p).lanes = 3 ∧
      (t.port p).spared.getLsbD l = true ∧ (t.port p).laneFail = true) := by
  refine ⟨fun hnone => ⟨_, onPort_eq hp s _, ?_⟩, fun j hsome => ⟨_, onPort_eq hp s _, ?_⟩⟩
  · obtain ⟨hoff, hne, hup⟩ := lane_lost hl
    have hport := port_laneFails_lost (i := l) hnone
    have hlost : ((s.laneFails p l).port p).lanes = 3#2 &&& ~~~(1#2 <<< l) := by
      rw [hport, laneLost, hlanes]
      rfl
    rw [fxLaneSpare_eq ha hl hst (by rw [hlost]; exact hne) ((congrArg Port.st hport).trans hst), hlost, hup]
    have hpart := linkPart_setPortState (s := s.laneFails p l) (p := p) 3
    have hleft : (((s.laneFails p l).setPortState p 3).port p).lanes = 3#2 &&& ~~~(1#2 <<< l) :=
      (field_of_linkPart Port.lanes hpart).trans hlost
    refine ⟨field_of_linkPart Port.st hpart, ?_, (field_of_linkPart Port.laneFail hpart).trans (congrArg Port.laneFail hport)⟩
    rw [hleft]
    exact hoff
  · obtain ⟨hall, hon⟩ := lane_spared hl (s.port p).spared
    have hport := linkPart_laneFails_spared (i := l) hsome
    have hlane : ((s.laneFails p l).port p).lanes = (s.port p).lanes ||| (1#2 <<< l) := field_of_linkPart Port.lanes hport
    have hspared : ((s.laneFails p l).port p).spared = (s.port p).spared ||| (1#2 <<< l) := field_of_linkPart Port.spared hport
    have hfail : ((s.laneFails p l).port p).laneFail = true := field_of_linkPart Port.laneFail hport
    have hkept : ((s.laneFails p l).port p).lanes = 3 := by rw [hlane, hlanes]; exact hall
    rw [fxLaneSpare_eq ha hl hst (by rw [hkept]; decide) ((field_of_linkPart Port.st hport).trans hst), hkept]
    have hpart := linkPart_setPortState (s := s.laneFails p l) (p := p) (upState 3)
    refine ⟨field_of_linkPart Port.st hpart, (field_of_linkPart Port.lanes hpart).trans hkept, ?_,
      (field_of_linkPart Port.laneFail hpart).trans hfail⟩
    rw [(field_of_linkPart Port.spared hpart).trans hspared]
    exact hon

theorem portQuietEntry_acts (hp : portOk p = true) (ha : s.alive = true) (hst : (s.port p).st = 2) (hq : (s.port p).outq = [])
    (hr : (s.port p).retry = []) (ho : s.obj 0x6012 2 = 1) : ∃ t, exec (.portQuietEntry p) s = .next t ∧ (t.port p).st = 4 := by
  refine ⟨_, onPort_eq hp s _, ?_⟩
  have hgo : (s.alive && ((s.port p).st == 2 || (s.port p).st == 3) && (s.port p).outq.isEmpty && (s.port p).retry.isEmpty &&
    s.obj 0x6012 2 == 1) = true := by simp [ha, hst, hq, hr, ho]
  unfold fxPortQuietEntry
  rw [if_pos hgo, st_setPortState]

theorem portQuietWake_acts (hp : portOk p = true) (ha : s.alive = true) (hst : (s.port p).st = 4) (hl : (s.port p).lanes = 3) :
    ∃ t, exec (.portQuietWake p) s = .next t ∧ (t.port p).st = 2 := by
  refine ⟨_, onPort_eq hp s _, ?_⟩
  have hgo : (s.alive && (s.port p).st == 4) = true := by simp [ha, hst]
  rw [if_pos hgo, st_transmit, st_setPortState, hl]
  rfl

theorem flitReceive_bad_acts (hp : portOk p = true) (ha : s.alive = true) {b : List Byte} {fec : Bool}
    (hup : (s.port p).st = 2 ∨ (s.port p).st = 3) (hbad : fec = false ∨ flitOk b = false) :
    ∃ t, exec (.flitReceive p b fec) s = .next t ∧ (t.port p).crcErr = true ∧ (t.port p).skipping = true ∧
      (t.port p).rxSeq = (s.port p).rxSeq ∧ t.out = s.out ++ [.flit p 3 (s.port p).rxSeq.toNat] := by
  refine ⟨_, onPort_eq hp s _, ?_⟩
  rw [fxFlitReceive_bad ha hup hbad, askRetry_port, State.portCtr, port_modPort, port_modPort]
  refine ⟨rfl, rfl, rfl, ?_⟩
  unfold State.askRetry
  rw [port_modPort, port_modPort]
  rfl

theorem flitReceive_data_acts (hp : portOk p = true) (ha : s.alive = true) {b : List Byte} (hup : (s.port p).st = 2 ∨ (s.port p).st = 3)
    (hok : flitOk b = true) (hty : flType b = 0 ∨ flType b = 1 ∨ flType b = 4) (hseq : BitVec.ofNat 12 (flSeq b) = (s.port p).rxSeq) :
    ∃ t, exec (.flitReceive p b true) s = .next t ∧ (t.port p).rxSeq = (s.port p).rxSeq + 1 ∧ (t.port p).skipping = false := by
  refine ⟨_, onPort_eq hp s _, ?_⟩
  have hno : flType b ≠ 2 := by omega
  rw [fxFlitReceive_expected ha hup hok (by omega) (by omega) hseq, if_neg hno]
  have hpart := linkPart_goodFlit (s := s) (p := p) b (flType b == 0)
  exact ⟨(field_of_linkPart Port.rxSeq hpart).trans (rxSeq_receivedFlit b), field_of_linkPart Port.skipping hpart⟩

theorem flitReceive_fence_acts (hp : portOk p = true) (ha : s.alive = true) {b : List Byte} (hup : (s.port p).st = 2 ∨ (s.port p).st = 3)
    (hok : flitOk b = true) (hty : flType b = 2) (hseq : BitVec.ofNat 12 (flSeq b) = (s.port p).rxSeq) :
    ∃ t, exec (.flitReceive p b true) s = .next t ∧ (t.port p).st = 5 := by
  refine ⟨_, onPort_eq hp s _, ?_⟩
  rw [fxFlitReceive_expected ha hup hok (by omega) (by omega) hseq, if_pos hty, st_setPortState]

theorem retryRequest_acts (hp : portOk p = true) (ha : s.alive = true) {fseq : BitVec 12} {e : BitVec 12 × List Byte}
    {l : List (BitVec 12 × List Byte)} (h : (s.port p).retry.dropWhile (fun e => e.1 != fseq) = e :: l) :
    ∃ t, exec (.retryRequest p fseq) s = .next t ∧ (t.port p).retrying = true ∧ (t.port p).retry = (s.port p).retry ∧
      t.out = s.out ++ (e :: l).map (fun x => .flit p (flType x.2) x.1.toNat) := by
  refine ⟨_, onPort_eq hp s _, ?_⟩
  rw [if_pos ha, resend_eq h]
  rw [port_foldl_emit, State.portCtr, port_modPort, port_setPort]
  exact ⟨rfl, rfl, out_foldl_emit _ _⟩

theorem portsChangeState_holds : portsChangeState := fun _ _ hp ha =>
  ⟨portTraining_acts hp, linkRetryTimeout_acts hp, fun _ hl hst hlanes => laneSpare_acts hp ha hl hst hlanes,
    portQuietEntry_acts hp ha, portQuietWake_acts hp ha⟩

theorem flitsAct_holds : flitsAct := by
  refine fun s p hp ha => ⟨fun b fec hup => ⟨flitReceive_bad_acts hp ha hup, fun hfec => ?_, fun hfec => ?_⟩,
    fun _ _ _ => retryRequest_acts hp ha⟩
  · rw [hfec]
    exact flitReceive_data_acts hp ha hup
  · rw [hfec]
    exact flitReceive_fence_acts hp ha hup

/-- Settles O34: a port takes the state that its row gives it, whatever the change of state makes the module send; a flit is received by its
number, and what the transmitter still holds is sent again. -/
theorem portsAndFlitsAct : Obligations.PortsAndFlitsAct := ⟨portsChangeState_holds, flitsAct_holds⟩

end Sys2Proof.Laws
end
section
/-! # Packets in transit (O35) -/

namespace Sys2Proof.Laws
open Sys2Proof Sys2Proof.Machine Sys2Proof.Claim

variable {s : State} {p : Nat} {pk : List Byte}

theorem portInOk_of_portOk (h : portOk p = true) : portInOk p = true := by
  simp only [portOk, portInOk, decide_eq_true_eq] at h ⊢
  omega

/-- A good packet for another module goes on where routing finds it a port (R211). -/
theorem fxPacketForward_routed {t : State} (ha : s.alive = true) (hd : (hdrOf pk).dst ≠ s.myDid) (hl : s.didLost (hdrOf pk).src = false)
    (hok : pkOk pk = true)
    (ht : (s.occupy p (s.arrivalVc p pk) pk).routeOn ((s.neighbourOf p).map (·.1)) (some (p, s.arrivalVc p pk)) pk = some t) :
    fxPacketForward p pk s = t := by
  simp [fxPacketForward, ha, hd, hl, hok, ht]

/-- A Umasel request whose frame is whole joins the fabric path's queue where that has room (R336). -/
theorem mgmtIn_queues {did : Nat} {bs : List Byte} (hlen : 48 + fieldAt bs 0x10 4 % 2 ^ 20 ≤ bs.length) (hop : fieldAt bs 1 1 < 0x40)
    (hin : s.inShape did = true) (hroom : (Tab.get [] s.um.queues 3).length < 32) :
    s.mgmtIn did bs = { s with um.queues := Tab.put s.um.queues 3 (Tab.get [] s.um.queues 3 ++ [⟨.fabric did, bs⟩]) } := by
  have hshort : (decide (bs.length < 48) || (fieldAt bs 0x10 4 / 2 ^ 20 % 2 == 0 &&
      decide (bs.length < 48 + fieldAt bs 0x10 4 % 2 ^ 20))) = false := by
    rw [decide_eq_false (by omega), decide_eq_false (by omega), Bool.and_false, Bool.or_false]
  have hmessage : (decide (0x40 ≤ fieldAt bs 1 1) && decide (fieldAt bs 1 1 < 0x60)) = false := by
    rw [decide_eq_false (by omega), Bool.false_and]
  have hother : (decide (128 ≤ fieldAt bs 1 1) || !s.inShape did) = false := by rw [decide_eq_false (by omega), hin]; rfl
  unfold State.mgmtIn
  extract_lets op q
  rw [if_neg (Bool.eq_false_iff.mp hshort), if_neg (Bool.eq_false_iff.mp hmessage), if_neg (Bool.eq_false_iff.mp hother),
    if_neg (Nat.not_le.mpr hroom)]

/-- A management packet for this module leaves its port's buffer, and its frame is heard (R205, R333). -/
theorem fxPacketForward_mgmt (ha : s.alive = true) (hd : (hdrOf pk).dst = s.myDid) (hty : (hdrOf pk).ty = 6)
    (hl : s.didLost (hdrOf pk).src = false) (hok : pkOk pk = true) :
    fxPacketForward p pk s = (s.passOn p pk).mgmtIn (hdrOf pk).src (pk.drop 32) := by
  simp [fxPacketForward, ha, hd, hl, hok, hty, ownCommand]

/-- A packet that holds no buffer is discarded from its queue (R215). -/
theorem outq_fxPacketResidenceTimeout {n : Nat} {q : QPacket} (hq : (s.port p).outq[n]? = some q) (hsrc : q.src = none) :
    ((fxPacketResidenceTimeout p n s).port p).outq = (s.port p).outq.eraseIdx n := by
  simp only [fxPacketResidenceTimeout, hq, State.giveBack, hsrc, State.portCtr, port_modPort, port_setPort]

/-- Settles O35: a packet takes the branch of its row, and a port-state message changes what is known of one link. -/
theorem packetsMove : Obligations.PacketsMove := by
  unfold Obligations.PacketsMove
  refine fun s p hp ha => ⟨fun pk t hd hl hok ht => ?_, fun pk u hu hd hty hl hok hlen hop hin hroom => ?_, fun n q hq hsrc => ?_,
    fun did nb => ?_, fun did nb => ?_⟩
  · exact (onPortIn_eq (portInOk_of_portOk hp) s _).trans (congrArg Host.Outcome.next (fxPacketForward_routed ha hd hl hok ht))
  · subst hu
    refine (onPortIn_eq (portInOk_of_portOk hp) s _).trans (congrArg Host.Outcome.next ?_)
    rw [fxPacketForward_mgmt ha hd hty hl hok, mgmtIn_queues hlen hop hin hroom]
  · exact ⟨_, onPort_eq hp s _, outq_fxPacketResidenceTimeout hq hsrc⟩
  · show execPortState did nb false s = _
    simp [execPortState, ha]
  · show execPortState did nb true s = _
    simp [execPortState, ha]

end Sys2Proof.Laws
end

section
/-! # Requests of other modules, responses and timeouts (O36) -/

namespace Sys2Proof.Laws
open Sys2Proof Sys2Proof.Machine Sys2Proof.Claim

variable {s : State} {p : Nat} {pk : List Byte}

/-! ## Requests at the destination (R216 to R218) -/

/-- A packet of the right type for this module is served as it arrives. -/
theorem arrive_eq {ty : Nat} (h : arrives s p ty pk) (g : State → State) : s.arrive p ty pk g = g s := by
  obtain ⟨-, ha, hty, hd, hl, hpwr, hok⟩ := h
  simp [State.arrive, ha, hty, hd, hl, hpwr, hok]

/-- A row that serves an arriving packet is its effect. -/
theorem onPortIn_arrives {ty : Nat} (h : arrives s p ty pk) (g : State → State) : onPortIn p s g = .next (g s) := by
  obtain ⟨hp, -⟩ := h
  exact onPortIn_eq hp s g

theorem fxPut_translated {pa : Nat} {v : State} (h : arrives s p 1 pk)
    (hx : (s.taken p 1 pk).xlate (hdrOf pk).ctx (pkVa pk) [.w, .fab] = (some pa, v)) :
    fxPut p pk s = (({ v with
      fab.putsIn := v.fab.putsIn ++ [⟨v.fab.putNo, p, pk, none, St.ok⟩], fab.putNo := v.fab.putNo + 1 } : State).sendWrite
        (1000 + p) pa (pkData pk)).forCtx (some (hdrOf pk).ctx) v := by
  unfold fxPut
  rw [ingress_eq h, hx]

theorem fxGet_answers {pa : Nat} {x : State} {r : MemRes × State} (h : arrives s p 2 pk)
    (hpa : ((s.taken p 2 pk).xlate (hdrOf pk).ctx (pkVa pk) [.r, .fab]).1 = some pa)
    (hx : x = ((s.taken p 2 pk).xlate (hdrOf pk).ctx (pkVa pk) [.r, .fab]).2.settlePort p pa (pkLen pk)) (hr : x.memRead pa (pkLen pk) = r)
    (hu : r.1.uncorr = false) (hp : r.1.pois.any id = false) :
    fxGet p pk s = (r.2.forCtx (some (hdrOf pk).ctx) x).respond pk (if r.1.corr then St.okCorr else St.ok) (some r.1.bytes) := by
  subst hx
  unfold fxGet
  rw [ingress_eq h]
  simp only [hpa, hr, hu, hp, Bool.false_eq_true, if_false]

theorem fxAtomic_adds {pa : Nat} {x v w : State} {r : MemRes × State} (h : arrives s p 4 pk) (hal : pkVa pk % atomicSize pk = 0)
    (hpa : ((s.taken p 4 pk).xlate (hdrOf pk).ctx (pkVa pk) [.r, .w, .fab]).1 = some pa)
    (hx : x = ((s.taken p 4 pk).xlate (hdrOf pk).ctx (pkVa pk) [.r, .w, .fab]).2.settlePort p pa (atomicSize pk))
    (hr : x.memRead pa (atomicSize pk) = r) (hu : r.1.uncorr = false) (hp : r.1.pois.any id = false)
    (hv : v = r.2.forCtx (some (hdrOf pk).ctx) x)
    (hw : v.memWrite pa (natLe (atomicSize pk) (atomicVal pk (leNat r.1.bytes))) = (false, w)) :
    fxAtomic p pk s = (w.forCtx (some (hdrOf pk).ctx) v).respond pk (if r.1.corr then St.okCorr else St.ok)
      (if (hdrOf pk).fetch then some r.1.bytes else none) := by
  subst hx hv
  unfold fxAtomic
  rw [ingress_eq h]
  simp only [hal, hpa, hr, hu, hp, hw, ne_eq, not_true_eq_false, Bool.false_eq_true, if_false]

/-- A hoist that orders nothing behind PUTs of its port goes to its slot (R217). -/
theorem fxHoistPacket_delivers (h : arrives s p 3 pk) (hrel : (hdrOf pk).rel = false ∨ ∀ x ∈ s.fab.putsIn, x.port ≠ p) :
    fxHoistPacket p pk s = (s.taken p 3 pk).deliver (hoistMsg p pk) := by
  have hfree : ((hdrOf pk).rel && s.fab.putsIn.any (fun i => i.port == p)) = false := by
    rcases hrel with hrel | hnone
    · rw [hrel, Bool.false_and]
    · rw [Bool.and_eq_false_iff]
      exact .inr (List.any_eq_false.mpr fun x hx => by simpa using hnone x hx)
  unfold fxHoistPacket
  rw [arrive_eq h, if_neg (Bool.eq_false_iff.mp hfree)]

/-- A hoist with REL is held behind the PUTs of its port (R217). -/
theorem fxHoistPacket_holds (h : arrives s p 3 pk) (hrel : (hdrOf pk).rel = true) (hput : ∃ x ∈ s.fab.putsIn, x.port = p) :
    fxHoistPacket p pk s = { s.kept p pk with
      fab.relHeld := (s.kept p pk).fab.relHeld ++ [⟨p, pk, (s.kept p pk).fab.putNo⟩] } := by
  have hheld : ((hdrOf pk).rel && s.fab.putsIn.any (fun i => i.port == p)) = true := by
    obtain ⟨x, hx, hp⟩ := hput
    rw [hrel, Bool.true_and]
    exact List.any_eq_true.mpr ⟨x, hx, beq_iff_eq.mpr hp⟩
  unfold fxHoistPacket
  rw [arrive_eq h, if_pos hheld]

/-- A held hoist goes to its slot once no PUT that arrived before it waits (R217). -/
theorem fxRelHoistRelease_delivers {r : RelIn} (ha : s.alive = true) (hr : s.fab.relHeld.find? (fun r => r.port == p) = some r)
    (hdone : ∀ x ∈ s.fab.putsIn, x.port = p → r.after ≤ x.no) :
    fxRelHoistRelease p s =
      (({ s with fab.relHeld := s.fab.relHeld.erase r } : State).leavePort p r.pk).deliver (hoistMsg p r.pk) := by
  have hnone : s.fab.putsIn.any (fun i => i.port == p && decide (i.no < r.after)) = false := by
    refine List.any_eq_false.mpr fun x hx h => ?_
    rw [Bool.and_eq_true, beq_iff_eq, decide_eq_true_eq] at h
    exact absurd (hdone x hx h.1) (Nat.not_le.mpr h.2)
  simp [fxRelHoistRelease, hr, ha, hnone]

theorem remoteRequestsAct_holds : remoteRequestsAct := by
  refine fun s p pk pa => ⟨fun u v h hu hx => ?_, fun u x r h hu hpa hx hr hun hp => ?_,
    fun u x r v w h hu hal hpa hx hr hun hp hv hw => ?_, fun h hrel => ?_, fun u h hu hrel hput => ?_, fun r hp ha hr hdone => ?_⟩
  · subst hu
    exact (onPortIn_arrives h _).trans (congrArg Host.Outcome.next (fxPut_translated h hx))
  · subst hu
    exact (onPortIn_arrives h _).trans (congrArg Host.Outcome.next (fxGet_answers h hpa hx hr hun hp))
  · subst hu
    exact (onPortIn_arrives h _).trans (congrArg Host.Outcome.next (fxAtomic_adds h hal hpa hx hr hun hp hv hw))
  · exact (onPortIn_arrives h _).trans (congrArg Host.Outcome.next (fxHoistPacket_delivers h hrel))
  · subst hu
    exact (onPortIn_arrives h _).trans (congrArg Host.Outcome.next (fxHoistPacket_holds h hrel hput))
  · exact (onPortIn_eq hp s _).trans (congrArg Host.Outcome.next (fxRelHoistRelease_delivers ha hr hdone))

/-! ## Responses and timeouts (R219, R274) -/

variable {x : Trans} {st : Status} {e : Option Nat}

/-- A transaction of no collective ends, and layer counts are tried again (R212). -/
theorem endAny_eq (h : ∀ k, x.kind ≠ .coll k) : s.endAny x st e = (s.endTrans x st e).sendCounters := by
  unfold State.endAny
  split
  next k hk => exact absurd hk (h k)
  next => rfl

/-- A response without a corrected error leaves its task nothing to note (R9). -/
theorem noteTrans_ok : s.noteTrans x St.ok = s := if_neg (by decide)

theorem fxAck_ok (h : arrives s p 8 pk) (hx : (s.taken p 8 pk).transOf pk = some x) (hst : pkStatus pk = St.ok)
    (hk : ∀ k, x.kind ≠ .coll k) : fxAck p pk s = ((s.taken p 8 pk).endTrans x St.ok (some (pkEcho pk))).sendCounters := by
  have hpois : St.ok ≠ St.poison := by decide
  unfold fxAck
  rw [ingress_eq h]
  simp only [hx, hst, hpois, if_false, noteTrans_ok, endAny_eq hk]

theorem fxData_get {L q a n : Nat} (h : arrives s p 9 pk) (hx : (s.taken p 9 pk).transOf pk = some x) (hst : pkStatus pk = St.ok)
    (hk : x.kind = .get L q a n) (ho : ((s.taken p 9 pk).core L).owns q = true) :
    fxData p pk s = (((((s.taken p 9 pk).modCore L (fun cs => cs.store false a ((pkData pk).take n))).moverBytes L n n).endTrans x St.ok
      (some (pkEcho pk))).sendCounters) := by
  have hcoll : ∀ k, x.kind ≠ .coll k := fun k hc => by simp [hk] at hc
  unfold fxData
  rw [ingress_eq h]
  simp only [hx, hst, hk, ho, if_true, noteTrans_ok, endAny_eq hcoll]

theorem fxE2eTimeout_ends {tag : Nat} (ha : s.alive = true) (hx : s.fab.trans.find? (fun y => y.tag.toNat == tag) = some x)
    (hk : ∀ k, x.kind ≠ .coll k) :
    fxE2eTimeout tag s = (s.endTrans x (if s.rankLost x.rank then St.peerLost else St.noRoute) none).sendCounters := by
  simp only [fxE2eTimeout, ha, hx, Bool.not_true, Bool.false_eq_true, if_false, endAny_eq hk]

/-- A hoist that ends leaves the list of what is outstanding, and its sender learns the outcome (R184). -/
theorem endTrans_hoist {src : PenSrc} {m : Nat} (hk : x.kind = .hoist src m) :
    (s.endTrans x st e).fab.trans = s.fab.trans.erase x ∧ (s.endTrans x st e).pen.outcomes = s.pen.outcomes ++ [⟨src, st, m⟩] := by
  simp only [State.endTrans, hk]
  exact ⟨rfl, rfl⟩

theorem responsesEndTransactions_holds : responsesEndTransactions := by
  refine fun s p pk x hnd => ⟨fun u h hu hx hst hk => ?_, fun u h hu hx hst L q a n hk ho => ?_, fun tag ha hx hk => ?_,
    fun st e src m _ hk => ?_⟩
  · subst hu
    exact (onPortIn_arrives h _).trans (congrArg Host.Outcome.next (fxAck_ok h hx hst hk))
  · subst hu
    exact (onPortIn_arrives h _).trans (congrArg Host.Outcome.next (fxData_get h hx hst hk ho))
  · exact congrArg Host.Outcome.next (fxE2eTimeout_ends ha hx hk)
  · obtain ⟨htrans, hout⟩ := endTrans_hoist (s := s) (st := st) (e := e) hk
    refine ⟨?_, hout⟩
    rw [htrans]
    exact hnd.not_mem_erase

/-- Settles O36: a request that arrives is the effect of its row, and a response or a timeout ends the transaction that it names. -/
theorem remoteRequestsAndResponsesAct : Obligations.RemoteRequestsAndResponsesAct := ⟨remoteRequestsAct_holds, responsesEndTransactions_holds⟩

end Sys2Proof.Laws
end

section
/-! # Collectives: their start, reductions and exchanges (O37, O38) -/

namespace Sys2Proof.Laws
open Sys2Proof Sys2Proof.Machine Sys2Proof.Claim

variable {s t : State} {k : CollKey} {r : CollRun} {ins : List MemberIn}

/-! ## Rows of a collective that runs -/

/-- A row of an operation at work is its effect. -/
theorem onCtx_onOp {op : Nat} {g : CollRun → State → State} (h : working s k op r) (hg : g r s = t) :
    onCtx k.c s (fun s => s.onOp k op g) = .next t := by
  obtain ⟨⟨hc, -⟩, -⟩ := id h
  rw [onCtx_eq hc, onOp_eq h, hg]

/-- A row of a running collective is its effect. -/
theorem onCtx_onRun {g : CollRun → State → State} (h : running s k r) (hg : g r s = t) :
    onCtx k.c s (fun s => s.onRun k g) = .next t := by
  obtain ⟨hc, -⟩ := id h
  rw [onCtx_eq hc, onRun_eq h, hg]

/-- What a collective reads whole, it goes on with. -/
theorem withBytes_reads {va n : Nat} {b : List Byte} (h : reads s r va n b t) (go : List Byte → State → State) :
    s.withBytes r va n go = go b t := by
  obtain ⟨t0, hrd, rfl⟩ := h
  simp only [State.withBytes, State.rdColl, hrd]

/-! ## The start (R224, R226) -/

/-- A descriptor without a fault, of an engine that is enabled, starts its collective over its rank list. -/
theorem fxCollective_starts {k : CmdKey} {m : Cmd} {b : List Byte} {ranks : List Nat} {s1 s2 : State} (hon : s.obj 0x2300 1 = 1)
    (hb : s.rdCmd k (dField m.desc 0x18 8) 128 [.r] = (.ok b, s1)) (hok : collDescOk b = true)
    (hrouter : s.obj 0x2310 1 = 1 ∨ (collDesc b).op < 0x10) (hupd : s.obj 0x2400 1 = 1 ∨ (collDesc b).updEn = false)
    (hranks : s1.rankList k (collDesc b) = (.ok ranks, s2)) :
    fxCollective k m s = s2.wakeEngines.startRun k (collDesc b) ranks := by
  have hcoll : s.obj 0x2300 1 ≠ 0 := by omega
  have hrt : ¬(((collDesc b).op = 0x10 ∨ (collDesc b).op = 0x11) ∧ s.obj 0x2310 1 = 0) := by omega
  have hup : ¬((collDesc b).updEn = true ∧ s.obj 0x2400 1 = 0) := by
    rintro ⟨he, h0⟩
    rcases hupd with h1 | hd
    · omega
    · exact absurd he (Bool.eq_false_iff.mp hd)
  simp only [fxCollective, if_neg hcoll, hb, hok, Bool.not_true, Bool.false_eq_true, if_false, if_neg hrt, if_neg hup, hranks]

/-! ## Reductions (R229) -/

/-- The reduction of R229 as this member sees it, `owner` naming the member that an element's tree ends at. -/
def reductionOf (r : CollRun) (ins : List MemberIn) (owner : Nat → Nat) (own : List (Nat × Bool)) : Reduction :=
  r.reduceAll owner (gathered r ins own)

/-- The codes of DTYPE that FP32 words convert to, with their overflow marks. -/
def converted (r : CollRun) (xs : List Nat) : List (Nat × Bool) := toType r.d.dtype (xs.map (Fp.decode Fp.fp32))

/-- Overflow marks of a REDUCE_SCATTER: those of its reduction, and of its block's conversion. -/
def scatterMarks (r : CollRun) (ins : List MemberIn) (own : List (Nat × Bool)) : List (List Bool) :=
  (reductionOf r ins (fun e => e / r.d.count) own).marks ++
    [(converted r (scaleAll r.d.postScale ((reducedBlock r ins own).map (·.1)))).map (·.2)]

/-- The poison that a REDUCE_SCATTER notes: that of its block, and of its own source (R274). -/
def scatterPoison (r : CollRun) (ins : List MemberIn) (own : List (Nat × Bool)) : List Bool :=
  (reducedBlock r ins own).map (·.2) ++ own.map (·.2)

/-- REDUCE_SCATTER without an update and without gradient-noise statistics. -/
theorem fxReduceScatter_reduces (hin : r.insOk ins (r.d.n * r.d.count) = true) (hupd : r.d.updEn = false) (hheld : r.updHeld = false)
    (hgn : r.d.gnEn = false) :
    fxReduceScatter ins r s = s.withElems r r.d.srcVa r.d.mtype (r.d.n * r.d.count) (fun own s =>
      (s.collOverflows r (scatterMarks r ins own)).putElems r r.d.dstVa r.d.dtype
        (List.zip ((converted r (scaleAll r.d.postScale ((reducedBlock r ins own).map (·.1)))).map (·.1))
          ((reducedBlock r ins own).map (·.2)))
        (fun s => s.dataDone r [] (scatterPoison r ins own) (chunkCount r.d.wtype r.d.count)
          (reductionOf r ins (fun e => e / r.d.count) own).sends)) := by
  simp only [fxReduceScatter, hin, hupd, hheld, State.gnOwn, hgn, Bool.not_true, Bool.not_false, Bool.or_self, Bool.false_and,
    Bool.false_eq_true, if_false, if_true]
  rfl

/-- The result of an ALL_REDUCE in the wire format, with its overflow marks. -/
def wiredResult (r : CollRun) (ins : List MemberIn) (own : List (Nat × Bool)) : List (Fp.Val × Bool) :=
  wire r.d.wtype (scaleAll r.d.postScale ((reducedTo r ins r.formedBy own).map (·.1)))

/-- The poison of an ALL_REDUCE's result: an element's own where this member forms it, that of its mask's bit elsewhere (R274). -/
def resultPoison (r : CollRun) (ins : List MemberIn) (own : List (Nat × Bool)) : List Bool :=
  let bad := (reducedTo r ins r.formedBy own).map (·.2)
  (List.zip bad (spreadMarks r.d.count r.d.wtype bad)).zipIdx.map (fun p => if r.formedBy p.2 = r.me then p.1.1 else p.1.2)

/-- Overflow marks of an ALL_REDUCE: those of its reduction, of the elements that this member forms, and of the conversion. -/
def allReduceMarks (r : CollRun) (ins : List MemberIn) (own : List (Nat × Bool)) : List (List Bool) :=
  (reductionOf r ins r.formedBy own).marks ++
    [(wiredResult r ins own).zipIdx.map (fun v => v.1.2 && r.formedBy v.2 == r.me),
      (toType r.d.dtype ((wiredResult r ins own).map (·.1))).map (·.2)]

/-- What an ALL_REDUCE sends: the partial results of its stages, then what its gather passes on. -/
def allReduceSends (r : CollRun) (ins : List MemberIn) (own : List (Nat × Bool)) : List SentChunk :=
  let red := reducedTo r ins r.formedBy own
  (reductionOf r ins r.formedBy own).sends ++
    r.gatherSends r.formedBy (fun _ => 0) (fun e => 4 * cdiv (chunkCount r.d.wtype r.d.count) 4 + chunkNo r.d.wtype r.d.count e)
      (indexed (List.zip (scaleAll r.d.postScale (red.map (·.1))) (red.map (·.2))))

/-- ALL_REDUCE without gradient-noise statistics. -/
theorem fxAllReduce_reduces (hin : r.insOk ins r.d.count = true) (hgn : r.d.gnEn = false) :
    fxAllReduce ins r s = s.withElems r r.d.srcVa r.d.mtype r.d.count (fun own s =>
      (s.collOverflows r (allReduceMarks r ins own)).putElems r r.d.dstVa r.d.dtype
        (List.zip ((toType r.d.dtype ((wiredResult r ins own).map (·.1))).map (·.1)) (resultPoison r ins own))
        (fun s => s.dataDone r [] (resultPoison r ins own ++ own.map (·.2)) (chunkCount r.d.wtype r.d.count)
          (allReduceSends r ins own))) := by
  simp only [fxAllReduce, hin, State.gnOwn, hgn, Bool.not_true, Bool.not_false, Bool.false_eq_true, if_false, if_true]
  rfl

/-- Settles O37: a valid descriptor's command starts its collective, and each reduction is its row's effect. -/
theorem collectivesStartAndReduce : Obligations.CollectivesStartAndReduce := by
  refine ⟨fun s k m b ranks s1 s2 hact hroom hon hb hok hrouter hupd hranks => ?_,
    fun s k r ins h hin hupd hheld hgn => ⟨scatterMarks r ins, scatterPoison r ins,
      fun own => (reductionOf r ins (fun e => e / r.d.count) own).sends, ?_⟩,
    fun s k r ins h hin hgn => ⟨allReduceMarks r ins, fun own => resultPoison r ins own ++ own.map (·.2), allReduceSends r ins, ?_⟩⟩
  · obtain ⟨hc, hq, -⟩ := id hact
    refine (onKey_eq hc hq _ _).trans (congrArg Host.Outcome.next ?_)
    simp only [if_neg (Nat.not_le.mpr hroom)]
    rw [actCmd_eq hact]
    exact fxCollective_starts hon hb hok hrouter hupd hranks
  · exact onCtx_onOp h (fxReduceScatter_reduces hin hupd hheld hgn)
  · exact onCtx_onOp h (fxAllReduce_reduces hin hgn)

/-! ## Exchanges (R226, R227, R233, R234, R262) -/

/-- What the flags of a shard header say: BUSY, FAILED, or the version to go on with (R262). -/
theorem shardHdr_eq (b : List Byte) : shardHdr b =
    if fieldAt b 4 1 % 2 = 1 then .busy else if fieldAt b 4 1 / 2 % 2 = 1 then .failed else .go (fieldAt b 0 4) := rfl

theorem shardHdr_eq_busy (b : List Byte) : shardHdr b = .busy ↔ fieldAt b 4 1 % 2 = 1 := by
  rw [shardHdr_eq]
  split_ifs <;> simp_all

theorem fxAllGather_unversioned (hin : r.insOk ins r.d.count = true) (hw : r.shardWait = false) (hv : r.d.f 0x40 4 = 0) :
    fxAllGather ins r s = s.gatherGo r ins true 0 := by
  simp only [fxAllGather, hin, hw, hv, Bool.not_true, Bool.or_self, Bool.false_eq_true, if_false, if_true]

theorem fxAllGather_versioned (hin : r.insOk ins r.d.count = true) (hw : r.shardWait = false) (hv : r.d.f 0x40 4 = 1)
    (hsrc : 64 ≤ r.d.srcVa) :
    fxAllGather ins r s = s.withBytes r (r.d.srcVa - 64) 64 (fun b s =>
      if fieldAt b 4 1 % 2 = 1 then s.modRun r.ck (fun r => { r with shardWait := true })
      else if fieldAt b 4 1 / 2 % 2 = 1 then s.gatherGo r ins false 0 else s.gatherGo r ins true (fieldAt b 0 4)) := by
  simp only [fxAllGather, hin, hw, hv, if_neg (Nat.not_lt.mpr hsrc), Bool.not_true, Bool.or_self, Bool.false_eq_true, if_false,
    Nat.one_ne_zero]
  refine congrArg (s.withBytes r (r.d.srcVa - 64) 64) (funext fun b => funext fun s => ?_)
  rw [shardHdr_eq]
  split_ifs <;> rfl

theorem fxShardHeaderRelease_reads (hw : r.shardWait = true) :
    fxShardHeaderRelease r s = s.withBytes r (r.d.srcVa - 64) 64 (fun b s =>
      if fieldAt b 4 1 % 2 = 1 then s else s.modRun r.ck (fun r => { r with shardWait := false })) := by
  simp only [fxShardHeaderRelease, hw, Bool.not_true, Bool.false_eq_true, if_false, shardHdr_eq_busy]

/-- Whether a member's count of elements to come differs from what that member sends (R227). -/
theorem counts_agree {rc sc : List Byte} (h : ∀ j, j < r.d.n → fieldAt rc (8 * j) 8 =
      (if j = r.me then fieldAt sc (8 * j) 8 else (contribution ins r.d.wtype (2 ^ 40) j).length)) :
    ((List.range r.d.n).any fun j => fieldAt rc (8 * j) 8 !=
      (if j = r.me then fieldAt sc (8 * j) 8 else (contribution ins r.d.wtype (2 ^ 40) j).length)) = false :=
  List.any_eq_false.mpr fun j hj => by simpa using h j (List.mem_range.mp hj)

theorem fxAllToAllv_exchanges {sc so rc ro : List Byte} {s1 s2 s3 s4 s5 : State} {own : List (List (Nat × Bool))}
    (hlen : ins.length = r.d.n) (hsc : reads s r (r.d.f 0x40 8) (8 * r.d.n) sc s1) (hso : reads s1 r (r.d.f 0x48 8) (8 * r.d.n) so s2)
    (hrc : reads s2 r (r.d.f 0x50 8) (8 * r.d.n) rc s3) (hro : reads s3 r (r.d.f 0x58 8) (8 * r.d.n) ro s4)
    (hcnt : ∀ j, j < r.d.n → fieldAt rc (8 * j) 8 =
      (if j = r.me then fieldAt sc (8 * j) 8 else (contribution ins r.d.wtype (2 ^ 40) j).length))
    (hown : s4.readBlocks r ((List.range r.d.n).map (fun j =>
      (r.d.srcVa + fieldAt so (8 * j) 8 * typeSize r.d.mtype, fieldAt sc (8 * j) 8))) = (.ok own, s5)) :
    fxAllToAllv ins r s = s5.exchange r ((List.range r.d.n).map (fun j =>
          (r.d.dstVa + fieldAt ro (8 * j) 8 * typeSize r.d.dtype, if j = r.me then (own[j]?).getD []
            else contribution ins r.d.wtype (2 ^ 40) j)))
        own (chunkCount r.d.wtype (own.map (·.length)).sum)
        (((List.range r.d.n).filter (· != r.me)).flatMap (fun j =>
          cutChunks (r.rankOf j) (fun x => x / chunkElems r.d.wtype) (indexed ((own[j]?).getD [])))) := by
  simp only [fxAllToAllv, hlen, ne_eq, not_true_eq_false, if_false, withBytes_reads hsc, withBytes_reads hso, withBytes_reads hrc,
    withBytes_reads hro, counts_agree hcnt, hown, Bool.false_eq_true]

theorem fxAllToAll_exchanges (hin : r.insOk ins r.d.count = true) :
    fxAllToAll ins r s = s.withElems r r.d.srcVa r.d.mtype (r.d.n * r.d.count) (fun own s =>
      s.exchange r ((List.range r.d.n).map (fun j => (r.d.dstVa + j * r.d.count * typeSize r.d.dtype,
          if j = r.me then (own.drop (j * r.d.count)).take r.d.count else contribution ins r.d.wtype r.d.count j)))
        ((List.range r.d.n).map (fun j => (own.drop (j * r.d.count)).take r.d.count)) (chunkCount r.d.wtype (r.d.n * r.d.count))
        (((List.range r.d.n).filter (· != r.me)).flatMap (fun j => cutChunks (r.rankOf j)
          (fun e => chunkNo r.d.wtype r.d.count (j * r.d.count + e)) (indexed ((own.drop (j * r.d.count)).take r.d.count))))) := by
  simp only [fxAllToAll, hin, Bool.not_true, Bool.false_eq_true, if_false]

theorem fxBroadcast_receives (hlen : ins.length = r.d.n) (hme : r.me ≠ r.d.f 0x40 4)
    (hroot : (contribution ins r.d.wtype r.d.count (r.d.f 0x40 4)).length = r.d.count) :
    fxBroadcast ins r s = s.exchange r [(r.d.dstVa, contribution ins r.d.wtype r.d.count (r.d.f 0x40 4))] []
      (chunkCount r.d.wtype r.d.count) [] := by
  simp only [fxBroadcast, hlen, hroot, if_neg hme, ne_eq, not_true_eq_false, if_false]

theorem fxBroadcast_sends (hlen : ins.length = r.d.n) (hme : r.me = r.d.f 0x40 4) :
    fxBroadcast ins r s = s.withElems r r.d.srcVa r.d.mtype r.d.count (fun own s =>
      s.exchange r [(r.d.dstVa, own)] [own] (chunkCount r.d.wtype r.d.count)
        (r.partners.flatMap (fun m => cutChunks (r.rankOf m) (chunkNo r.d.wtype r.d.count) (indexed own)))) := by
  simp only [fxBroadcast, hlen, hme, ne_eq, not_true_eq_false, if_false, if_true]

/-- Settles O38: each exchange is its row's effect once its conditions hold. -/
theorem exchangesMoveElements : Obligations.ExchangesMoveElements := fun _ _ _ _ =>
  ⟨fun h hin hw hv => onCtx_onOp h (fxAllGather_unversioned hin hw hv),
    fun h hin hw hv hsrc => onCtx_onOp h (fxAllGather_versioned hin hw hv hsrc),
    fun h hw => onCtx_onOp h (fxShardHeaderRelease_reads hw),
    fun h hin => onCtx_onOp h (fxAllToAll_exchanges hin),
    fun _ _ _ _ _ _ _ _ _ _ h hlen hsc hso hrc hro hcnt hown =>
      onCtx_onOp h (fxAllToAllv_exchanges hlen hsc hso hrc hro hcnt hown),
    fun h hlen hme hroot => onCtx_onOp h (fxBroadcast_receives hlen hme hroot),
    fun h hlen hme => onCtx_onOp h (fxBroadcast_sends hlen hme)⟩

end Sys2Proof.Laws
end

section
/-! # Packets of a collective as they arrive (R225, R238, R241), for O39 to O41 -/

namespace Sys2Proof.Laws
open Sys2Proof Sys2Proof.Machine Sys2Proof.Claim

variable {s : State} {p : Nat} {pk : CollPkt} {t : CollTag} {m : CollMsg} {r : CollRun}

/-! ## What an arrival at a port changes beside the collective -/

/-- A state without its fabric, its power and what has left it: an arrival at a port keeps the rest until the packet is taken. -/
def sansPort (s : State) : State := { sansFabric s with pwr := State.reset.pwr }

theorem field_of_sansPort {γ : Type} {u v : State} (π : State → γ) (h : sansPort u = sansPort v) : π (sansPort u) = π (sansPort v) :=
  congrArg π h

theorem sansPort_of_sansFabric {u v : State} (h : sansFabric u = sansFabric v) : sansPort u = sansPort v :=
  congrArg (fun x : State => { x with pwr := State.reset.pwr }) h

theorem sansPort_wakeEngine (k : Nat) : sansPort (s.wakeEngine k) = sansPort s := by
  unfold State.wakeEngine
  split <;> rfl

theorem sansFabric_passUnits (vc n : Nat) : sansFabric (s.passUnits p vc n) = sansFabric s := by
  unfold State.passUnits
  split
  · exact sansFabric_flush p
  · rfl

theorem sansFabric_holdUnits (vc n : Nat) : sansFabric (s.holdUnits p vc n) = sansFabric s := by
  unfold State.holdUnits
  split <;> rfl

/-- A packet that the module sends changes the fabric alone; one without a route is lost (R215). -/
theorem sansFabric_send_getD (bs : List Byte) : sansFabric ((s.send bs).getD s) = sansFabric s := by
  cases hs : s.send bs with
  | none => rfl
  | some v => exact sansFabric_send hs

theorem sansFabric_sendCollTo (did rank unit flowlet : Nat) (h : CollHead) (bs : List Byte) :
    sansFabric (s.sendCollTo did rank unit flowlet h bs) = sansFabric s := sansFabric_send_getD _

/-- The state in which a collective packet has left its port's buffer (R206), its engine group awake (R310). -/
def leftPort (s : State) (p : Nat) (pk : CollPkt) : State := (s.wakeEngine (portDie p)).passUnits p (collVc pk) (collUnits pk)

theorem passed_eq_leftPort : passed s t m = leftPort s t.port (tagPkt t m) := rfl

theorem sansPort_leftPort : sansPort (leftPort s p pk) = sansPort s :=
  (sansPort_of_sansFabric (sansFabric_passUnits _ _)).trans (sansPort_wakeEngine _)

@[simp] theorem leftPort_coll : (leftPort s p pk).coll = s.coll := field_of_sansPort State.coll sansPort_leftPort
@[simp] theorem leftPort_ctx (c : Nat) : (leftPort s p pk).ctx c = s.ctx c := field_of_sansPort (fun x => x.ctx c) sansPort_leftPort
@[simp] theorem leftPort_findRun (k : CollKey) : (leftPort s p pk).findRun k = s.findRun k :=
  field_of_sansPort (fun x => x.findRun k) sansPort_leftPort
@[simp] theorem leftPort_isEarly (qk : CollPkt) : (leftPort s p pk).isEarly qk = s.isEarly qk :=
  field_of_sansPort (fun x => x.isEarly qk) sansPort_leftPort
@[simp] theorem leftPort_endedOf (qk : CollPkt) : (leftPort s p pk).endedOf qk = s.endedOf qk :=
  field_of_sansPort (fun x => x.endedOf qk) sansPort_leftPort

@[simp] theorem wakeEngine_coll (k : Nat) : (s.wakeEngine k).coll = s.coll := field_of_sansPort State.coll (sansPort_wakeEngine k)
@[simp] theorem wakeEngine_mustStick (k q : Nat) (qk : CollPkt) : (s.wakeEngine k).mustStick q qk = s.mustStick q qk :=
  field_of_sansPort (fun x => x.mustStick q qk) (sansPort_wakeEngine k)

/-! ## Which packets are early -/

/-- A packet that is not early needs no room. -/
theorem mustStick_of_timely (h : s.isEarly pk = false) : s.mustStick p pk = false := by simp [State.mustStick, h]

/-- Room for an early packet in the share of its port's I/O die. -/
theorem mustStick_of_room (h : s.earlyUnits (portDie p) + collUnits pk ≤ s.obj 0x2302 0) : s.mustStick p pk = false := by
  simp [State.mustStick, h]

theorem mustStick_of_full (he : s.isEarly pk = true) (h : s.obj 0x2302 0 < s.earlyUnits (portDie p) + collUnits pk) :
    s.mustStick p pk = true := by
  simp [State.mustStick, he, h]

theorem epoch_ne_next {e : BitVec 16} : e ≠ e + 1 := by bv_omega

/-- A packet of a collective that runs here is taken at once. -/
theorem isEarly_of_running (hep : pk.epoch = (s.ctx pk.c).epoch) (hr : s.findRun (collKeyOf pk) = some r) (hh : r.held = false)
    (hu : r.updHeld = false) : s.isEarly pk = false := by
  simp only [State.isEarly, hep, beq_false_of_ne epoch_ne_next, hr, hh, hu, Bool.false_and, Bool.or_self, Bool.and_false]

/-- A packet of this epoch whose collective does not run here is early unless that collective has ended here. -/
theorem isEarly_of_none (hep : pk.epoch = (s.ctx pk.c).epoch) (hr : s.findRun (collKeyOf pk) = none) :
    s.isEarly pk = (s.endedOf pk).isNone := by
  simp only [State.isEarly, hep, beq_false_of_ne epoch_ne_next, hr, beq_self_eq_true, Bool.true_and, Bool.false_or]

theorem isEarly_of_next (hep : pk.epoch = (s.ctx pk.c).epoch + 1) : s.isEarly pk = true := by
  simp only [State.isEarly, hep, beq_self_eq_true, Bool.true_or]

theorem isEarly_of_other (hnext : pk.epoch ≠ (s.ctx pk.c).epoch + 1) (hep : pk.epoch ≠ (s.ctx pk.c).epoch) : s.isEarly pk = false := by
  simp only [State.isEarly, beq_false_of_ne hnext, beq_false_of_ne hep, Bool.false_and, Bool.or_self]

/-! ## Arrival -/

/-- A collective packet from a module that is not lost comes to a port of an active module whose buffers hold nothing back (R238, R241). -/
def reaches (s : State) (p : Nat) (pk : CollPkt) : Prop :=
  portInOk p = true ∧ s.alive = true ∧ ctxOk pk.c = true ∧ s.didLost pk.src = false ∧ s.pwr.state = 0 ∧ s.coll.stuck = []

theorem collComes_arrives (h : reaches s p pk) : s.collComes p pk = (s.wakeEngine (portDie p)).collArrive p pk := by
  obtain ⟨-, ha, hc, hl, hp, -⟩ := h
  have hoff : ¬(s.pwr.state = 2 ∨ s.pwr.state = 3) := by omega
  simp only [State.collComes, ha, hc, hl, if_neg hoff, wakeBy_active hp, Bool.not_true, Bool.or_self, Bool.false_eq_true, if_false]

/-- A packet that needs no room, or has it, leaves its port's buffer. -/
theorem collComes_takes (h : reaches s p pk) (hm : s.mustStick p pk = false) : s.collComes p pk = (leftPort s p pk).collIn p pk := by
  obtain ⟨-, -, -, -, -, hs⟩ := id h
  rw [collComes_arrives h]
  simp only [State.collArrive, wakeEngine_coll, hs, wakeEngine_mustStick, hm, List.any_nil, Bool.or_self, Bool.false_eq_true, if_false]
  rfl

/-- A packet without room stays in its port's buffer. -/
theorem collComes_sticks (h : reaches s p pk) (hm : s.mustStick p pk = true) : s.collComes p pk =
    ({ s.wakeEngine (portDie p) with coll.stuck := [(p, pk)] } : State).holdUnits p (collVc pk) (collUnits pk) := by
  obtain ⟨-, -, -, -, -, hs⟩ := id h
  rw [collComes_arrives h]
  simp only [State.collArrive, wakeEngine_coll, hs, wakeEngine_mustStick, hm, Bool.or_true, if_true, List.nil_append]

/-- An early packet is held, and its abort recorded. -/
theorem collIn_holds (h : s.isEarly pk = true) : s.collIn p pk =
    ((s.noteAbort pk).holdEarly p pk).dieEvent (8 + portDie p) 0x63 1 (some pk.c) := by
  rw [State.collIn, if_pos h]

/-- A packet of another epoch is dropped and answered. -/
theorem collIn_drops (h : s.isEarly pk = false) (hep : pk.epoch ≠ (s.ctx pk.c).epoch) : s.collIn p pk = s.dropColl p pk := by
  simp only [State.collIn, h, Bool.false_eq_true, if_false, if_pos hep]

/-- A packet of this epoch that is not early goes to its collective, and its abort is recorded. -/
theorem collIn_goes (h : s.isEarly pk = false) (hep : pk.epoch = (s.ctx pk.c).epoch) : s.collIn p pk = (s.noteAbort pk).collGo p pk := by
  simp only [State.collIn, h, hep, Bool.false_eq_true, if_false, ne_eq, not_true_eq_false]

/-! ## Recorded aborts (R238) -/

/-- A packet that is no abort leaves nothing to record. -/
theorem noteAbort_of_not (h : isAbort pk = false) : s.noteAbort pk = s := by
  unfold State.noteAbort
  split
  next hm => simp [isAbort, hm] at h
  next => rfl

/-- The state in which an abort is recorded: the flag, the originating rank and the event. -/
def abortNoted (s : State) (c rank : Nat) : State :=
  ({ s with
    coll.abortRx := NSet.insert s.coll.abortRx (c % 4)
    coll.abortRank := Tab.put s.coll.abortRank (c % 4) (BitVec.ofNat 17 rank) } : State).dieEvent (8 + c % 4) 0x62 1 (some c)

theorem noteAbort_abort {st : Status} {rank : Nat} (hm : pk.msg = some (.abort st rank)) (hst : statusClass st ≠ 0) :
    s.noteAbort pk = abortNoted s pk.c rank := by
  simp only [State.noteAbort, hm, if_neg hst]
  rfl

@[simp] theorem noteAbort_ctx (c : Nat) : (s.noteAbort pk).ctx c = s.ctx c := by
  unfold State.noteAbort
  split
  · split <;> rfl
  · rfl

@[simp] theorem noteAbort_findRun (k : CollKey) : (s.noteAbort pk).findRun k = s.findRun k := by
  unfold State.noteAbort
  split
  · split <;> rfl
  · rfl

theorem nset_mem_insert_self (l : NSet) (k : Nat) : NSet.mem (NSet.insert l k) k = true := by
  induction l with
  | nil => simp [NSet.insert, NSet.mem]
  | cons j l ih =>
    simp only [NSet.insert, NSet.mem] at ih ⊢
    split_ifs <;> simp_all

@[simp] theorem runs_abortNoted (c rank : Nat) : (abortNoted s c rank).coll.runs = s.coll.runs := rfl
theorem abortRx_abortNoted (c rank : Nat) : NSet.mem (abortNoted s c rank).coll.abortRx (c % 4) = true := nset_mem_insert_self _ _
theorem abortRank_abortNoted (c rank : Nat) : Tab.get 0 (abortNoted s c rank).coll.abortRank (c % 4) = BitVec.ofNat 17 rank :=
  get_put 0 _ _ _

/-! ## What a packet does to its collective -/

/-- A message that fits the running collective takes effect. -/
theorem collGo_message (hep : pk.epoch = (s.ctx pk.c).epoch) (hr : s.findRun (collKeyOf pk) = some r) (hchk : pk.chk = r.check)
    (hm : pk.msg = some m) : s.collGo p pk = s.collMsg (collKeyOf pk) r m := by
  simp only [State.collGo, hep, hr, hchk, hm, ne_eq, not_true_eq_false, if_false]

/-- Data that fit the running collective are taken. -/
theorem collGo_data (hep : pk.epoch = (s.ctx pk.c).epoch) (hr : s.findRun (collKeyOf pk) = some r) (hchk : pk.chk = r.check)
    (hm : pk.msg = none) : s.collGo p pk = s.acceptColl p r pk := by
  simp only [State.collGo, hep, hr, hchk, hm, ne_eq, not_true_eq_false, if_false]

/-- A packet with another check ends the running collective and is answered (R225). -/
theorem collGo_mismatch (hep : pk.epoch = (s.ctx pk.c).epoch) (hr : s.findRun (collKeyOf pk) = some r) (hchk : pk.chk ≠ r.check) :
    s.collGo p pk = (s.failMine r St.invalid).answerAbort pk St.invalid := by
  simp only [State.collGo, hep, hr, ne_eq, not_true_eq_false, if_false, if_pos hchk]

/-- A packet whose collective does not run here meets what is known of its end (R237). -/
theorem collGo_ended (hep : pk.epoch = (s.ctx pk.c).epoch) (hr : s.findRun (collKeyOf pk) = none) : s.collGo p pk = s.afterEnd pk := by
  simp only [State.collGo, hep, hr, ne_eq, not_true_eq_false, if_false]

/-- A message to a collective that has ended here is discarded. -/
theorem afterEnd_message (hm : pk.msg = some m) : s.afterEnd pk = s := by
  unfold State.afterEnd
  split
  next => rfl
  next => simp [hm]

/-- A packet of this epoch that is not early goes to its collective, from a state in which an abort is recorded. -/
theorem collComes_goes (h : reaches s p pk) (he : s.isEarly pk = false) (hep : pk.epoch = (s.ctx pk.c).epoch) :
    s.collComes p pk = ((leftPort s p pk).noteAbort pk).collGo p pk := by
  rw [collComes_takes h (mustStick_of_timely he), collIn_goes (by simpa using he) (by simpa using hep)]

/-- What a message says to the running collective that it fits takes effect, once an abort is recorded. -/
theorem collComes_message (h : reaches s p pk) (hep : pk.epoch = (s.ctx pk.c).epoch) (hr : s.findRun (collKeyOf pk) = some r)
    (hh : r.held = false) (hu : r.updHeld = false) (hchk : pk.chk = r.check) (hm : pk.msg = some m) :
    s.collComes p pk = ((leftPort s p pk).noteAbort pk).collMsg (collKeyOf pk) r m := by
  rw [collComes_goes h (isEarly_of_running hep hr hh hu) hep, collGo_message (by simpa using hep) (by simpa using hr) hchk hm]

/-- Data that fit a running collective are taken. -/
theorem collComes_data (h : reaches s p pk) (hep : pk.epoch = (s.ctx pk.c).epoch) (hr : s.findRun (collKeyOf pk) = some r)
    (hh : r.held = false) (hu : r.updHeld = false) (hchk : pk.chk = r.check) (hm : pk.msg = none) :
    s.collComes p pk = (leftPort s p pk).acceptColl p r pk := by
  rw [collComes_goes h (isEarly_of_running hep hr hh hu) hep, noteAbort_of_not (by simp [isAbort, hm]),
    collGo_data (by simpa using hep) (by simpa using hr) hchk hm]

/-- A packet with another check that is no abort ends the running collective and is answered. -/
theorem collComes_mismatch (h : reaches s p pk) (hep : pk.epoch = (s.ctx pk.c).epoch) (hr : s.findRun (collKeyOf pk) = some r)
    (hh : r.held = false) (hu : r.updHeld = false) (hchk : pk.chk ≠ r.check) (hm : isAbort pk = false) :
    s.collComes p pk = ((leftPort s p pk).failMine r St.invalid).answerAbort pk St.invalid := by
  rw [collComes_goes h (isEarly_of_running hep hr hh hu) hep, noteAbort_of_not hm,
    collGo_mismatch (by simpa using hep) (by simpa using hr) hchk]

/-- A message other than an abort to a collective that has ended here does nothing more. -/
theorem collComes_ended (h : reaches s p pk) (hep : pk.epoch = (s.ctx pk.c).epoch) (hr : s.findRun (collKeyOf pk) = none)
    (hend : (s.endedOf pk).isSome = true) (hm : pk.msg = some m) (ha : isAbort pk = false) : s.collComes p pk = leftPort s p pk := by
  have hearly : s.isEarly pk = false := (isEarly_of_none hep hr).trans (Option.isNone_eq_false_iff.mpr hend)
  rw [collComes_goes h hearly hep, noteAbort_of_not ha, collGo_ended (by simpa using hep) (by simpa using hr), afterEnd_message hm]

/-- An early packet with room is held in the pool, and its abort recorded. -/
theorem collComes_holds (h : reaches s p pk) (he : s.isEarly pk = true)
    (hroom : s.earlyUnits (portDie p) + collUnits pk ≤ s.obj 0x2302 0) :
    s.collComes p pk = (((leftPort s p pk).noteAbort pk).holdEarly p pk).dieEvent (8 + portDie p) 0x63 1 (some pk.c) := by
  rw [collComes_takes h (mustStick_of_room hroom), collIn_holds (by simpa using he)]

/-- A packet of another epoch is dropped and answered. -/
theorem collComes_drops (h : reaches s p pk) (hnext : pk.epoch ≠ (s.ctx pk.c).epoch + 1) (hep : pk.epoch ≠ (s.ctx pk.c).epoch) :
    s.collComes p pk = (leftPort s p pk).dropColl p pk := by
  have he := isEarly_of_other hnext hep
  rw [collComes_takes h (mustStick_of_timely he), collIn_drops (by simpa using he) (by simpa using hep)]

/-! ## Rows of a packet -/

theorem reaches_of_comes (h : comes s t r) (m : CollMsg) : reaches s t.port (tagPkt t m) := by
  obtain ⟨hp, hl, hpw, hs, -, ⟨hc, ha, -⟩, -⟩ := h
  exact ⟨hp, ha, hc, hl, hpw, hs⟩

/-- A message of a collective is what its packet does on arrival. -/
theorem onTag_collComes (h : reaches s t.port (tagPkt t m)) :
    onTag t s (fun s => s.collComes t.port (tagPkt t m)) = .next (s.collComes t.port (tagPkt t m)) := by
  obtain ⟨hp, -, hc, -⟩ := h
  rw [onTag, if_pos hp]
  exact onCtx_eq hc _ _

/-- What a message says to a running collective takes effect, once an abort is recorded. -/
theorem onTag_comes {v : State} (h : comes s t r) (hv : ((passed s t m).noteAbort (tagPkt t m)).collMsg ⟨t.c, t.id⟩ r m = v) :
    onTag t s (fun s => s.collComes t.port (tagPkt t m)) = .next v := by
  have hreach := reaches_of_comes h m
  obtain ⟨-, -, -, -, hep, ⟨-, -, hr, hh⟩, hu, hchk⟩ := h
  exact (onTag_collComes hreach).trans (congrArg Host.Outcome.next ((collComes_message hreach hep hr hh hu hchk rfl).trans hv))

/-- What a message other than an abort says to a running collective takes effect. -/
theorem onTag_says {v : State} (h : comes s t r) (hm : isAbort (tagPkt t m) = false) (hv : (passed s t m).collMsg ⟨t.c, t.id⟩ r m = v) :
    onTag t s (fun s => s.collComes t.port (tagPkt t m)) = .next v :=
  onTag_comes h (by rw [noteAbort_of_not hm, hv])

end Sys2Proof.Laws
end

section
/-! # ACCUMULATE, RESHARD and gradient-noise statistics (O39) -/

namespace Sys2Proof.Laws
open Sys2Proof Sys2Proof.Machine Sys2Proof.Claim

variable {s s1 s2 : State} {k : CollKey} {r : CollRun}

/-- The next elements that are added leave more to do (R228). -/
theorem fxAccumulate_adds {xs : List (Nat × Bool)} {i : Nat} (hidle : s.collTrans r.ck = false)
    (hread : s.readElems r.key (r.d.srcVa + 4 * r.sent) 6 (Nat.min 4096 (r.d.count - r.sent)) = (.ok xs, s1))
    (hadd : s1.addChunk r r.sent xs = (i, none, false, s2)) (hi : i < r.d.count) :
    fxAccumulate r s = (s2.modRun r.ck (fun r => { r with sent := i })).collProgress r.ck := by
  simp only [fxAccumulate, hidle, State.withElems, hread, hadd, Bool.false_eq_true, if_false, if_neg (Nat.not_le.mpr hi)]

/-! ## The re-shard fence (R240) -/

/-- A RESHARD that is the only collective of its context left begins its fence. -/
theorem fxReshard_begins (hst : r.fenceStage = 0) (halone : ∀ x ∈ s.coll.runs, x.key.c = r.key.c → x.key = r.key ∨ x.held = true)
    (hf : (s.ctx r.key.c).fence = some r.key) :
    fxReshard r s = (((s.sendNotices r 0).modRun r.ck (fun x => { x with fenceStage := 1 })).collProgress r.ck).fenceGo r.ck 6 := by
  have hwaits : s.coll.runs.any (fun x => x.key.c == r.key.c && !(x.key == r.key) && !x.held) = false := by
    refine List.any_eq_false.mpr fun x hx h => ?_
    simp only [Bool.and_eq_true, beq_iff_eq, Bool.not_eq_true', beq_eq_false_iff_ne] at h
    obtain ⟨⟨hc, hk⟩, hh⟩ := h
    exact (halone x hx hc).elim hk fun ht => Bool.false_ne_true (hh.symm.trans ht)
  simp only [fxReshard, hst, hwaits, hf, ne_eq, not_true_eq_false, decide_false, Bool.or_self, Bool.false_eq_true, if_false]

/-- A running RESHARD takes a notice and goes on. -/
theorem fxFenceNotice_taken {m : Nat} (h : running s k r) (hop : r.d.op = 0x20) : fxFenceNotice k m s =
    ((s.modRun k (fun x => { x with notices := NSet.insert x.notices m })).collProgress k).fenceGo k 6 := by
  obtain ⟨-, ha, hr, hh⟩ := h
  simp only [fxFenceNotice, ha, hr, hh, hop, ne_eq, not_true_eq_false, Bool.not_true, Bool.false_eq_true, if_false]

/-- A notice that comes before its RESHARD is kept. -/
theorem fxFenceNotice_kept {m : Nat} (ha : s.alive = true) (hr : s.findRun k = none) :
    fxFenceNotice k m s = { s with coll.notices := s.coll.notices ++ [(k.c, k.id, m)] } := by
  simp only [fxFenceNotice, ha, hr, Bool.not_true, Bool.false_eq_true, if_false]

/-! ## Gradient-noise statistics (R246) -/

/-- The members' norms in member order, this member's own among them. -/
def memberNorms (r : CollRun) (own : BitVec 64 × BitVec 64) (sums : List (BitVec 64 × BitVec 64)) : List (BitVec 64 × BitVec 64) :=
  sums.zipIdx.map (fun x => if x.2 = r.me then own else x.1)

/-- The sums of the members' local norms, and of the norms of their blocks. -/
def localSum (r : CollRun) (own : BitVec 64 × BitVec 64) (sums : List (BitVec 64 × BitVec 64)) : Fp.Val :=
  sum64 ((memberNorms r own sums).map (·.1))
def globalSum (r : CollRun) (own : BitVec 64 × BitVec 64) (sums : List (BitVec 64 × BitVec 64)) : Fp.Val :=
  sum64 ((memberNorms r own sums).map (·.2))

/-- With every member's norms here, the record of Table 10.8 is written and the statistics are done. -/
theorem fxGnExchange_records {own : BitVec 64 × BitVec 64} {sums : List (BitVec 64 × BitVec 64)} (hgn : r.gn = some own)
    (hw : r.gnWait = true) (hlen : sums.length = r.d.n)
    (hput : ((noiseOverflows r (localSum r own sums) (globalSum r own sums)).foldl (fun (s : State) _ => s.dieOverflow r (k.c % 4)) s).collPut
      r.key (r.d.f 0x50 8) ((noiseRecord r (localSum r own sums) (globalSum r own sums)).map (fun x => (x, false))) = (false, s1)) :
    fxGnExchange k sums r s = ((s1.modRun k (fun r => { r with gnWait := false })).collProgress k).settleRun k := by
  have hgo : (!r.gnWait || decide (sums.length ≠ r.d.n)) = false := by simp [hw, hlen]
  simp only [noiseOverflows, noiseRecord, localSum, globalSum, memberNorms] at hput
  simp only [fxGnExchange, hgn, hgo, hput, Bool.false_eq_true, if_false]

/-- Settles O39: each operation is its row's effect, and the norms are what their packet says to the running collective. -/
theorem accumulateReshardAndNoiseAct : Obligations.AccumulateReshardAndNoiseAct := by
  refine fun s k r => ⟨fun h hidle xs s1 i s2 hread hadd hi => onCtx_onOp h (fxAccumulate_adds hidle hread hadd hi),
    fun h hst halone hf => onCtx_onOp h (fxReshard_begins hst halone hf), fun m h hop => ?_, fun m hc ha hr => ?_,
    fun t sums own s1 h hgn hw hlen hput => onTag_says h rfl (fxGnExchange_records hgn hw hlen hput)⟩
  · obtain ⟨hc, -⟩ := id h
    exact (onCtx_eq hc s _).trans (congrArg Host.Outcome.next (fxFenceNotice_taken h hop))
  · exact (onCtx_eq hc s _).trans (congrArg Host.Outcome.next (fxFenceNotice_kept ha hr))

end Sys2Proof.Laws
end

section
/-! # Chunks, progress, aborts and the arrival of packets (O40) -/

namespace Sys2Proof.Laws
open Sys2Proof Sys2Proof.Machine Sys2Proof.Claim

variable {s : State} {k : CollKey} {r : CollRun} {p : Nat} {pk : CollPkt}

/-! ## Chunks on their way and progress (R235 to R237) -/

theorem fxChunkResend_sends {x : ChunkRef} {u : SentChunk} (hu : r.unacked.find? (·.isRef x) = some u) : fxChunkResend k x r s =
    ((s.modRun k (fun r => { r with flowlets := r.flowlets + 1 })).sendPackets { r with flowlets := r.flowlets + 1 } u).dieEvent
      (8 + x.chunk % 4) 0x61 1 (some k.c) := by
  simp only [fxChunkResend, hu]

/-- T_REAL that has advanced goes to the members that wait. -/
theorem fxProgressSend_tells (hadv : r.sentProg < r.tReal) (hu : r.updHeld = false) : fxProgressSend k r s =
    (r.waiting.foldl (fun (s : State) m => s.tellMember r m Ck.progress (natLe 8 r.tReal ++ natLe 1 (bit r.slowTx))) s).modRun k
      (fun r => { r with sentProg := r.tReal, slowTx := false }) := by
  simp only [fxProgressSend, decide_eq_false (Nat.not_le.mpr hadv), hu, Bool.or_self, Bool.false_eq_true, if_false]

/-- A partner's higher T_REAL is taken. -/
theorem fxProgressPacket_rises {x : Nat} (hx : r.tReal < x) (slow : Bool) : fxProgressPacket k x slow r s =
    ((if slow then s.modRun k (fun r => { r with slow := true, slowTx := true }) else s).modRun k (fun r => { r with tReal := x })).progress
      k.c := by
  simp only [fxProgressPacket, if_pos hx]

/-! ## What becomes of packets of other epochs (R241) -/

@[simp] theorem early_noteAbort : (s.noteAbort pk).coll.early = s.coll.early := by
  unfold State.noteAbort
  split
  · split <;> rfl
  · rfl

theorem early_holdEarly : (s.holdEarly p pk).coll.early = s.coll.early ++ [(p, pk)] := by
  unfold State.holdEarly State.beginAnew
  split <;> rfl

theorem abortRx_holdEarly : (s.holdEarly p pk).coll.abortRx = s.coll.abortRx := by
  unfold State.holdEarly State.beginAnew
  split <;> rfl

/-- An early packet joins those held. -/
theorem early_collComes (h : reaches s p pk) (he : s.isEarly pk = true)
    (hroom : s.earlyUnits (portDie p) + collUnits pk ≤ s.obj 0x2302 0) :
    (s.collComes p pk).coll.early = s.coll.early ++ [(p, pk)] := by
  rw [collComes_holds h he hroom]
  refine (early_holdEarly (s := (leftPort s p pk).noteAbort pk)).trans ?_
  rw [early_noteAbort, leftPort_coll]

/-- An early abort is recorded as it is held (R238). -/
theorem abortRx_collComes {st : Status} {rank : Nat} (h : reaches s p pk) (he : s.isEarly pk = true)
    (hroom : s.earlyUnits (portDie p) + collUnits pk ≤ s.obj 0x2302 0) (hm : pk.msg = some (.abort st rank)) (hst : statusClass st ≠ 0) :
    NSet.mem (s.collComes p pk).coll.abortRx (pk.c % 4) = true := by
  rw [collComes_holds h he hroom, noteAbort_abort hm hst]
  exact (congrArg (NSet.mem · (pk.c % 4)) abortRx_holdEarly).trans (abortRx_abortNoted _ _)

/-- The state in which a packet of another epoch is counted as dropped. -/
def dropNoted (s : State) (p : Nat) (pk : CollPkt) : State :=
  ({ s with coll.epochDrop := NSet.insert s.coll.epochDrop (portDie p) } : State).dieEvent (8 + portDie p) 0x63 1 (some pk.c)

@[simp] theorem runs_dropNoted : (dropNoted s p pk).coll.runs = s.coll.runs := rfl
@[simp] theorem early_dropNoted : (dropNoted s p pk).coll.early = s.coll.early := rfl
theorem epochDrop_dropNoted : NSet.mem (dropNoted s p pk).coll.epochDrop (portDie p) = true := nset_mem_insert_self _ _

theorem coll_answerAbort (st : Status) : (s.answerAbort pk st).coll = s.coll := by
  have h : sansFabric (s.answerAbort pk st) = sansFabric s := sansFabric_sendCollTo _ _ _ _ _ _
  exact field_of_sansFabric State.coll h

theorem coll_dropColl : (s.dropColl p pk).coll = (dropNoted s p pk).coll := coll_answerAbort (s := dropNoted s p pk) St.epochMismatch

/-- Settles O40: each row is its effect; a packet of a collective meets the branch of R225, R238 or R241 that its epoch and its collective
call for. -/
theorem chunksProgressAndAbortsAct : Obligations.ChunksProgressAndAbortsAct := by
  refine fun s k r => ⟨fun h => ⟨fun x u hu => onCtx_onRun h (fxChunkResend_sends hu), fun x hx => onCtx_onRun h (if_pos hx),
      fun hadv hu => onCtx_onRun h (fxProgressSend_tells hadv hu)⟩,
    fun t h => ⟨fun x => onTag_says h rfl rfl, fun x hx => onTag_says h rfl (fxProgressPacket_rises hx false),
      fun x hx => onTag_says h rfl (fxProgressPacket_rises hx true), fun st rank hst => ?_⟩,
    fun t m hp ha hc hl hpw hs hep => ?_, fun p pk hp ha hl hc hpw hs => ?_⟩
  · refine ⟨abortNoted (passed s t (.abort st rank)) t.c rank, onTag_comes h ?_, ?_, abortRx_abortNoted _ _, abortRank_abortNoted _ _⟩
    · rw [noteAbort_abort rfl hst]
      exact if_neg hst
    · rw [runs_abortNoted, passed_eq_leftPort, leftPort_coll]
  · have hreach : reaches s t.port (tagPkt t m) := ⟨hp, ha, hc, hl, hpw, hs⟩
    refine ⟨fun st rank hm hst hr hend hroom => ?_, fun x hm hr hend => ?_, fun x hm hr hu hchk => ?_⟩ <;> subst hm
    · have hearly : s.isEarly (tagPkt t (.abort st rank)) = true := (isEarly_of_none hep hr).trans (Option.isNone_iff_eq_none.mpr hend)
      exact ⟨_, onTag_collComes hreach, early_collComes hreach hearly hroom, abortRx_collComes hreach hearly hroom rfl hst⟩
    · exact (onTag_collComes hreach).trans (congrArg Host.Outcome.next (collComes_ended hreach hep hr hend rfl rfl))
    · obtain ⟨-, -, hr, hh⟩ := hr
      exact (onTag_collComes hreach).trans (congrArg Host.Outcome.next (collComes_mismatch hreach hep hr hh hu hchk rfl))
  · have hreach : reaches s p pk := ⟨hp, ha, hc, hl, hpw, hs⟩
    have hrow : exec (.coll p pk) s = .next (s.collComes p pk) := onPortIn_eq hp s (fun s => s.collComes p pk)
    refine ⟨fun hep hroom => ⟨_, hrow, early_collComes hreach (isEarly_of_next hep) hroom⟩,
      fun hep hfull => hrow.trans (congrArg _ (collComes_sticks hreach (mustStick_of_full (isEarly_of_next hep) hfull))),
      fun hnext hep => ⟨_, hrow, ?_⟩,
      fun hep hr hh hu hchk hm => hrow.trans (congrArg _ ?_)⟩
    · rw [collComes_drops hreach hnext hep, coll_dropColl]
      exact ⟨epochDrop_dropNoted, by simp, by simp⟩
    · exact collComes_data hreach hep hr hh hu hchk hm

end Sys2Proof.Laws
end

section
/-! # The token router (O41) -/

namespace Sys2Proof.Laws
open Sys2Proof Sys2Proof.Machine Sys2Proof.Claim

variable {s t : State} {k : CollKey} {r : CollRun}

/-! ## DISPATCH (R242, R243) -/

/-- Every choice of every token, at its first candidate. -/
def allChoices (d : CollDesc) : List (Nat × Nat × Nat) :=
  (List.range d.tokens).flatMap (fun t => (List.range d.choices).map (fun j => (t, j, j)))

/-- Whether a choice's candidate is no expert. -/
def noExpert (d : CollDesc) (cand : List Nat) (m : Nat × Nat × Nat) : Bool := (cand[m.1 * d.cands + m.2.2]?).getD 0 == 0xFFFFFFFF

theorem mem_allChoices {d : CollDesc} {t j : Nat} (ht : t < d.tokens) (hj : j < d.choices) : (t, j, j) ∈ allChoices d :=
  List.mem_flatMap.mpr ⟨t, List.mem_range.mpr ht, List.mem_map.mpr ⟨j, List.mem_range.mpr hj, rfl⟩⟩

/-- A dispatch whose tables say emap and cand, in its first round: it claims for the choices with an expert, and holds the claims that came
before it. -/
def openedDispatch (s : State) (r : CollRun) (emap cand : List Nat) : DispRun where
  emap := emap
  cand := cand
  round := 1
  mine := (allChoices r.d).filter (fun m => !noExpert r.d cand m)
  grants := []
  cursor := []
  got := []
  drops := 0
  falls := 0
  ownRound := 1
  claims := (s.coll.claims.filter (fun e => e.1 == r.ck)).map (·.2)
  granted := []
  rowsIn := 0
  ownerDone := false

/-- The words of the expert map, and of the candidates. -/
def expertMap (r : CollRun) (eb : List Byte) : List Nat := (chunksOf 8 r.d.experts eb).map leNat
def candidates (r : CollRun) (cb : List Byte) : List Nat := (chunksOf 4 (r.d.cands * r.d.tokens) cb).map leNat

/-- Its tables read and found valid, a dispatch drops the choices without an expert and claims for the others. -/
theorem fxDispatch_begins {eb cb : List Byte} {s1 s2 : State} (hd : r.disp = none)
    (heb : reads s r (r.d.f 0x60 8) (8 * r.d.experts) eb s1) (hcb : reads s1 r (r.d.f 0x50 8) (4 * r.d.cands * r.d.tokens) cb s2)
    (hok : dispOk r (expertMap r eb) (candidates r cb) = true) :
    fxDispatch r s = (((((allChoices r.d).filter (noExpert r.d (candidates r cb))).foldl
      (fun (s : State) m => s.dropChoice r m.1 m.2.1)
      (({ s2 with coll.claims := s2.coll.claims.filter (fun e => !(e.1 == r.ck)) } : State).modRun r.ck (fun y =>
        { y with disp := some (openedDispatch s2 r (expertMap r eb) (candidates r cb)) }))).collProgress r.ck).sendClaims r.ck).pump
          r.ck 20 := by
  rw [expertMap, candidates] at hok
  simp only [fxDispatch, hd, Option.isSome_none, withBytes_reads heb, withBytes_reads hcb, hok, Bool.not_true, Bool.false_eq_true, if_false]
  rfl

/-- Each choice is either claimed for or without an expert. -/
theorem mem_mine_or_noExpert (emap : List Nat) {cand : List Nat} {m : Nat × Nat × Nat} (hm : m ∈ allChoices r.d) :
    m ∈ (openedDispatch s r emap cand).mine ∧ m ∉ (allChoices r.d).filter (noExpert r.d cand) ∨
      m ∉ (openedDispatch s r emap cand).mine ∧ m ∈ (allChoices r.d).filter (noExpert r.d cand) := by
  simp only [openedDispatch, List.mem_filter, hm, true_and]
  cases noExpert r.d cand m <;> decide

/-! ## Claims and grants (R243) -/

theorem fxClaimCount_joins {m : Nat} {cs : List Claim} (hd : r.disp.isSome = true) (hm : m < r.d.n) (hme : m ≠ r.me) :
    fxClaimCount k m cs r s =
      ((s.modDisp k (fun x => { x with claims := x.claims ++ [(m, cs)] })).collProgress k).pump k 20 := by
  have hnone : r.disp.isNone = false := Option.isNone_eq_false_iff.mpr hd
  simp only [fxClaimCount, hnone, hme, Nat.not_le.mpr hm, Bool.false_eq_true, and_false, or_self, if_false]

theorem fxGrant_joins {m : Nat} {gs : List Grant} {x : DispRun} (hd : r.disp = some x) (hm : m < r.d.n) (hme : m ≠ r.me)
    (hdone : r.dataDone = false) (hnew : ∀ g ∈ x.grants, g.1 ≠ m) :
    fxGrant k m gs r s = ((s.modDisp k (fun x => { x with grants := x.grants ++ [(m, gs)] })).collProgress k).pump k 20 := by
  have hany : x.grants.any (fun g => g.1 == m) = false := List.any_eq_false.mpr fun g hg => by simpa using hnew g hg
  simp only [fxGrant, hd, hme, hdone, hany, Nat.not_le.mpr hm, Bool.false_eq_true, or_self, if_false]

/-! ## COMBINE (R245) -/

theorem fxCombine_forms {ins : List MemberIn} {rb : List Byte} {s1 : State}
    (hrb : reads s r (r.d.f 0x68 8) (8 * (r.d.choices * r.d.tokens)) rb s1)
    (hfit : r.rowsFit ins ((chunksOf 8 (r.d.choices * r.d.tokens) rb).map leNat) = true) :
    fxCombine ins r s = s1.withElems r (r.d.f 0x58 8) 6 (r.d.choices * r.d.tokens) (fun gates s =>
      let t := (List.range r.d.tokens).foldl (fun (s : State) t => if (s.findRun r.ck).isNone then s
        else s.combineToken r ins ((chunksOf 8 (r.d.choices * r.d.tokens) rb).map leNat) gates t) (s.sendSlots r)
      if (t.findRun r.ck).isNone then t else t.dataDone r [] [] 0 []) := by
  simp only [fxCombine, withBytes_reads hrb, hfit, Bool.not_true, Bool.false_eq_true, if_false]

/-- Settles O41: DISPATCH and COMBINE are their rows' effects on the tables they read; claims and grants are what their packets say. -/
theorem tokenRouterActs : Obligations.TokenRouterActs := fun _ _ _ =>
  ⟨fun eb cb _ s2 h hd heb hcb hok =>
      ⟨openedDispatch s2 _ (expertMap _ eb) (candidates _ cb), _, onCtx_onOp h (fxDispatch_begins hd heb hcb hok),
        rfl, rfl, rfl, rfl, rfl, rfl, fun _ _ ht hj => mem_mine_or_noExpert _ (mem_allChoices ht hj)⟩,
    fun _ _ _ h hd hm hme => onTag_says h rfl (fxClaimCount_joins hd hm hme),
    fun _ _ _ _ h hd hm hme hdone hnew => onTag_says h rfl (fxGrant_joins hd hm hme hdone hnew),
    fun _ _ _ h hrb hfit => onCtx_onOp h (fxCombine_forms hrb hfit)⟩

end Sys2Proof.Laws
end

section
/-! # The chunks and the phases of an update (O42) -/

namespace Sys2Proof.Laws
open Sys2Proof Sys2Proof.Machine Sys2Proof.Claim

variable {s : State} {k : CollKey} {r : CollRun} {u : UpdRun}

/-! ## Updates under way (R251) -/

theorem updHeld_of_upd (hu : r.upd = some u) : r.updHeld = u.held := by simp only [CollRun.updHeld, hu]

/-! ## Final chunks (R249, R257) -/

/-- The gradient of chunk n: its elements as FP32 codes with their poison. -/
def chunkGradient (r : CollRun) (n : Nat) : List (Nat × Bool) :=
  ((r.grad.drop (chunkSpan r.d.wtype r.d.count n).1).take
    ((chunkSpan r.d.wtype r.d.count n).2 - (chunkSpan r.d.wtype r.d.count n).1)).map (fun x => (x.1.toNat, x.2))

/-- A final chunk whose work is not done goes to GBUF_VA in phase 1; else a cut being taken holds its update, or the program runs. -/
theorem fxUpdateChunk_final {n : Nat} (hu : r.upd = some u) (hheld : u.held = false) (hdone : r.dataDone = true)
    (hnew : NSet.mem u.chunks n = false) (hn : n < chunkCount r.d.wtype r.d.count) :
    fxUpdateChunk n r s =
      if u.phase ≠ 0 then s.bufferChunk r u n (chunkGradient r n)
      else if s.cutHolds r u = true then s.noteHeld r else s.runChunk r u n (chunkGradient r n) := by
  simp only [fxUpdateChunk, hu, hheld, hdone, hnew, decide_eq_false (Nat.not_le.mpr hn), Bool.not_true, Bool.or_self, Bool.false_eq_true,
    if_false, bne_iff_ne, chunkGradient]

/-! ## The end of phase 1 and the exchange of norms (R258) -/

/-- The hoist of P1_DONE. -/
def p1DoneMsg (r : CollRun) (u : UpdRun) : PenMsg :=
  ⟨r.key.c, handleId (enP1Done u.entry), some (handleGen (enP1Done u.entry)), .engine r.key.c none, .hoist 1 true⟩

/-- The state in which the end of phase 1 has written NORM2 and hoisted P1_DONE, where the entry names one. -/
def phase1Left (s : State) (r : CollRun) (u : UpdRun) : State :=
  let t := s.putEntry r.key.c u.group 0xC0 (natLe 8 u.norm2.toNat)
  if enP1Done u.entry = 0 then t else { t with pen.msgs := t.pen.msgs ++ [p1DoneMsg r u] }

theorem mem_phase1Left : (phase1Left s r u).mem = (s.putEntry r.key.c u.group 0xC0 (natLe 8 u.norm2.toNat)).mem := by
  by_cases h : enP1Done u.entry = 0
  · simp only [phase1Left, if_pos h]
  · simp only [phase1Left, if_neg h]

theorem getLast?_msgs_phase1Left (h : enP1Done u.entry ≠ 0) : (phase1Left s r u).pen.msgs.getLast? = some (p1DoneMsg r u) := by
  simp only [phase1Left, if_neg h, List.getLast?_append, List.getLast?_singleton, Option.some_or]

/-- With every chunk buffered, phase 1 ends and the exchange begins. -/
theorem fxPhase1Done_ends (hu : r.upd = some u) (hheld : u.held = false) (hph : u.phase ≠ 0) (hp1 : u.p1Done = false)
    (hdone : r.dataDone = true) (hall : ∀ n, n < chunkCount r.d.wtype r.d.count → NSet.mem u.chunks n = true) :
    fxPhase1Done r s = ((phase1Left s r u).modUpd r.ck (fun u => { u with p1Done := true })).normGo r.ck := by
  have hchunks : (List.range (chunkCount r.d.wtype r.d.count)).all (fun n => NSet.mem u.chunks n) = true :=
    List.all_eq_true.mpr fun n hn => hall n (List.mem_range.mp hn)
  simp only [fxPhase1Done, hu, hheld, hp1, hdone, hchunks, beq_false_of_ne hph, Bool.not_true, Bool.or_self, Bool.false_eq_true, if_false]
  rfl

/-- A member's sum joins the exchange of an update that has begun. -/
theorem fxNormExchange_joins {m : Nat} {v : BitVec 64} (hu : r.upd = some u) (hheld : u.held = false) :
    fxNormExchange k m v r s =
      ((s.modUpd k (fun u => { u with members := Tab.put u.members m v })).collProgress k).normGo k := by
  have hupd : r.upd.isNone = false := by rw [hu]; rfl
  simp only [fxNormExchange, hupd, updHeld_of_upd hu, hheld, Bool.or_self, Bool.false_eq_true, if_false]

/-! ## Phase 2 (R258, R271) -/

/-- Phase 2 of an update as its strike at PRE_READY comes to: one not yet made is made, and one that waits is left to wait. -/
def afterPreReady (s : State) (r : CollRun) (u : UpdRun) : State :=
  match u.strike with
  | .waits => s
  | .done => s.phase2Go r
  | .stale => s.failMine r St.penStale
  | .none =>
    let z := s.engineStrike r.ck (enPreReady u.entry)
    match z.1 with
    | .wait => z.2.modUpd r.ck (fun u => { u with strike := .waits })
    | .stale => z.2.failMine r St.penStale
    | .yes => z.2.phase2Go r

section
variable (hu : r.upd = some u) (hg : u.gnorm.isSome = true) (hp2 : u.p2 = false) (hcut : u.phase = 3 ∨ s.cutHolds r u = false)
include hu hg hp2 hcut

/-- With GNORM there and no cut before its first write, host software applies the update in mode 2 (log 16); else the program runs, in
phase 2 as its strike at PRE_READY comes to. -/
theorem fxPhase2Start_begins :
    fxPhase2Start r s =
      if u.phase = 3 then s.modUpd r.ck (fun u => { u with p2 := true })
      else if u.phase = 2 then afterPreReady s r u
      else s.phase2Go r := by
  have hopen : (u.phase != 3 && s.cutHolds r u) = false := by
    rcases hcut with h3 | hfree
    · rw [h3]; rfl
    · rw [hfree, Bool.and_false]
  simp only [fxPhase2Start, hu, Option.isNone_eq_false_iff.mpr hg, hp2, hopen, Bool.or_self, Bool.false_eq_true, if_false]
  rfl

end

/-- Settles O42: each row of an update is its effect once its conditions hold. -/
theorem updatesRunInTheirPhases : Obligations.UpdatesRunInTheirPhases := by
  refine fun s k r u h hu => ⟨fun n hheld hdone hnew hn g hg => ?_, fun hheld hfree hfirst => onCtx_onRun h ?_,
    fun hheld hph hp1 hdone hall => ⟨phase1Left s r u, onCtx_onRun h (fxPhase1Done_ends hu hheld hph hp1 hdone hall), mem_phase1Left,
      fun h0 => ⟨p1DoneMsg r u, getLast?_msgs_phase1Left h0, rfl, rfl⟩⟩,
    fun m v hheld => onCtx_onRun h (fxNormExchange_joins hu hheld), fun hg hp2 hcut => ?_⟩
  · have hfx := fxUpdateChunk_final (s := s) hu hheld hdone hnew hn
    subst hg
    refine ⟨fun hph => onCtx_onRun h ?_, fun hph hcut => onCtx_onRun h ?_, fun hph hcut => onCtx_onRun h ?_⟩
    · rw [hfx, if_pos hph]; rfl
    · rw [hfx, if_neg (not_not.mpr hph), if_neg (Bool.eq_false_iff.mp hcut)]; rfl
    · rw [hfx, if_neg (not_not.mpr hph), if_pos hcut]; rfl
  · simp only [updHeld_of_upd hu, hheld, hfree, hfirst, Bool.not_false, beq_self_eq_true, Bool.and_self, if_true]
  · have hfx := fxPhase2Start_begins hu hg hp2 hcut
    refine ⟨fun h3 => onCtx_onRun h ?_, fun h2 h3 => onCtx_onRun h ?_, fun h2 hs => onCtx_onRun h ?_,
      fun t h2 hs => ⟨fun hy => onCtx_onRun h ?_, fun hw => onCtx_onRun h ?_⟩⟩
    · rw [hfx, if_pos h3]
    · rw [hfx, if_neg h3, if_neg h2]
    · rw [hfx, if_neg (by omega), if_pos h2, afterPreReady, hs]
    · rw [hfx, if_neg (by omega), if_pos h2, afterPreReady, hs, hy]
    · rw [hfx, if_neg (by omega), if_pos h2, afterPreReady, hs, hw]

end Sys2Proof.Laws
end

section
/-! # The end of an update and its parity (O43) -/

namespace Sys2Proof.Laws
open Sys2Proof Sys2Proof.Machine Sys2Proof.Claim

variable {s t : State} {r : CollRun} {u : UpdRun} {p : Nat} {pk : List Byte}

/-! ## Completion (R260, R264) -/

/-- An update whose elements are all written and whose deltas are all acknowledged, with nothing else left of its collective. -/
structure UpdateDone (s : State) (r : CollRun) (u : UpdRun) : Prop where
  sent : s.sendDeltas r.ck = s
  found : s.findRun r.ck = some r
  upd : r.upd = some u
  begun : u.held = false
  written : r.allWritten u = true
  deltas : u.deltas = 0
  queue : u.deltaQ = []
  rest : s.runDone { r with upd := none } = true

/-- The update leaves its collective, which completes when nothing is left of it. -/
def leaveUpdate (r : CollRun) (s : State) : State := (s.modRun r.ck (fun r => { r with upd := none })).settleRun r.ck

/-- The entry shows STEP and VERSION one more, and the update leaves its collective (R260). -/
def closeEntry (r : CollRun) (u : UpdRun) (s : State) : State :=
  s.putEnd r (s.entryVa r.key.c u.group + 4) (natLe 4 u.t ++ natLe 4 ((enVersion u.entry + 1) % 2 ^ 32)) (leaveUpdate r)

/-- An update that is done marks its header where its command has failed (R264); else the header at OUT_VA, where there is one, and then
the entry show the new version (R260). -/
theorem fxUpdateComplete_ends (h : UpdateDone s r u) : fxUpdateComplete r s =
    if statusClass (s.cmdStatus r.key) ≠ 0 then leaveUpdate r (s.failHeader r)
    else if enOut u.entry = 0 then closeEntry r u s
    else s.putEnd r (enOut u.entry - 64)
      (natLe 4 ((enVersion u.entry + 1) % 2 ^ 32) ++ natLe 4 0 ++ natLe 4 u.group ++ natLe 4 u.t) (closeEntry r u) := by
  obtain ⟨hsent, hfound, hupd, hheld, hall, hdeltas, hqueue, hrest⟩ := h
  simp only [fxUpdateComplete, hsent, hfound, hupd, hheld, hall, hdeltas, hqueue, hrest, bne_self_eq_false, List.isEmpty_nil, Bool.not_true,
    Bool.or_self, Bool.false_eq_true, if_false]
  rfl

/-- The bytes at an update's end, once they are written. -/
theorem putEnd_written {va : Nat} {bs : List Byte} {go : State → State} {w : VaWr}
    (hw : s.vaWrite none r.key.c va (bs.map (fun b => (b, false))) [.w] = (w, t)) (hf : w.fault = false) (hu : w.uncorr = false) :
    s.putEnd r va bs go = go ((t.metCmd r.key false w.slow).collSlow r.key w.slow) := by
  simp only [State.putEnd, hw, hf, hu, Bool.false_eq_true, if_false]

/-! ## Parity at the holder (R267) -/

/-- The delta bytes of a packet, each with its offset in the parity image. -/
def deltaBytes (pk : List Byte) : List (Nat × Byte) := (pk.drop 32).zipIdx.map (fun b => (pdOffset pk + b.2, b.1))

/-- A delta packet that arrives is combined into each block of the parity image that it touches. -/
theorem fxParityDelta_combines (h : arrives s p 5 pk) (hok : pdOk pk = true) :
    fxParityDelta p pk s = ((deltaBytes pk).map (fun b => b.1 / 4096)).eraseDups.foldl (fun (s : State) blk =>
        s.combineInto (portDie p) (hdrOf pk).ctx blk pk
          (((deltaBytes pk).filter (fun b => b.1 / 4096 == blk)).map (fun b => (b.1 % 4096, b.2))))
      (((s.taken p 5 pk).wakeEngine (portDie p)).modCtx (hdrOf pk).ctx (fun x =>
        { x with heldBytes := Nat.max x.heldBytes (pdOffset pk + pdLen pk), heldShard := pdShard pk })) := by
  simp only [fxParityDelta, ingress_eq h, hok, Bool.not_true, Bool.false_eq_true, if_false]
  rfl

theorem length_of_pdOk (hok : pdOk pk = true) : (pk.drop 32).length = pdLen pk ∧ 1 ≤ pdLen pk := by
  simp only [pdOk, Bool.and_eq_true, decide_eq_true_eq, beq_iff_eq] at hok
  obtain ⟨⟨⟨-, hpos, -⟩, -⟩, hlen⟩ := hok
  refine ⟨?_, hpos⟩
  rw [List.length_drop, hlen, Nat.add_sub_cancel_left]

theorem deltaBytes_length (hok : pdOk pk = true) : (deltaBytes pk).length = pdLen pk := by
  rw [deltaBytes, List.length_map, List.length_zipIdx, (length_of_pdOk hok).1]

/-- Every byte of a packet that stays within a block of 4096 B is in the block of its first. -/
theorem deltaBytes_block (hok : pdOk pk = true) (hin : pdOffset pk % 4096 + pdLen pk ≤ 4096) {b : Nat × Byte} (hb : b ∈ deltaBytes pk) :
    b.1 / 4096 = pdOffset pk / 4096 := by
  obtain ⟨⟨x, i⟩, hi, rfl⟩ := List.mem_map.mp hb
  have hlt : i < pdLen pk := (length_of_pdOk hok).1 ▸ List.snd_lt_of_mem_zipIdx hi
  show (pdOffset pk + i) / 4096 = _
  omega

/-- A list that holds one value holds it once without its repeats. -/
theorem eraseDups_replicate {α : Type} [BEq α] [LawfulBEq α] (n : Nat) (a : α) : (List.replicate (n + 1) a).eraseDups = [a] := by
  rw [List.replicate_succ, List.eraseDups_cons, List.filter_replicate]
  simp

/-- A packet within one block is combined into that block alone. -/
theorem fxParityDelta_within (h : arrives s p 5 pk) (hok : pdOk pk = true) (hin : pdOffset pk % 4096 + pdLen pk ≤ 4096) :
    fxParityDelta p pk s = (((s.taken p 5 pk).wakeEngine (portDie p)).modCtx (hdrOf pk).ctx (fun x =>
        { x with heldBytes := Nat.max x.heldBytes (pdOffset pk + pdLen pk), heldShard := pdShard pk })).combineInto
      (portDie p) (hdrOf pk).ctx (pdOffset pk / 4096) pk ((deltaBytes pk).map (fun b => (b.1 % 4096, b.2))) := by
  have hblock : ∀ b ∈ deltaBytes pk, b.1 / 4096 = pdOffset pk / 4096 := fun b => deltaBytes_block hok hin
  have hblocks : (deltaBytes pk).map (fun b => b.1 / 4096) = List.replicate (pdLen pk - 1 + 1) (pdOffset pk / 4096) := by
    rw [Nat.sub_add_cancel (length_of_pdOk hok).2, ← deltaBytes_length hok, List.map_congr_left hblock, List.map_const']
  have hall : (deltaBytes pk).filter (fun b => b.1 / 4096 == pdOffset pk / 4096) = deltaBytes pk :=
    List.filter_eq_self.mpr fun b hb => beq_iff_eq.mpr (hblock b hb)
  rw [fxParityDelta_combines h hok, hblocks, eraseDups_replicate, List.foldl_cons, List.foldl_nil, hall]

/-- A block leaves its die's buffer when its time has passed, or when each of its bytes has the deltas of every sender. -/
theorem fxParityFlush_flushes {die n : Nat} {b : ParBlock} {why : FlushCause} (ha : s.alive = true)
    (hb : (Tab.get [] s.coll.combine die)[n]? = some b)
    (hfull : why = .allSenders → ∀ e ∈ b.counts, (s.ctx b.c).parSenders ≤ e.2) :
    fxParityFlush die n why s = s.flushBlock die b := by
  have hready : (why == .allSenders && !b.counts.all (fun e => decide ((s.ctx b.c).parSenders ≤ e.2))) = false := by
    simpa using hfull
  simp only [fxParityFlush, hb, ha, hready, Bool.not_true, Bool.or_self, Bool.false_eq_true, if_false]

/-! ## The preconditioner's fallback (R259) -/

/-- The state in which a fallback has counted one more in its group's entry. -/
def fallbackCounted (s : State) (c g : Nat) : State :=
  (s.vaRead c (s.entryVa c g + 0xBC) 4 [.r, .w]).2.putEntry c g 0xBC
    (natLe 4 (leNat (s.vaRead c (s.entryVa c g + 0xBC) 4 [.r, .w]).1.bytes + 1))

/-- The state in which a fallback has counted at the module, as an event of its die too. -/
def fallbackNoted (s : State) (c : Nat) : State :=
  ({ s with coll.fallbacks := s.coll.fallbacks + 1 } : State).dieEvent 8 0x6B 1 (some c)

theorem mem_fallbackNoted (c : Nat) : (fallbackNoted s c).mem = s.mem := rfl

theorem exec_preconditionerFallback {c g : Nat} (hc : ctxOk c = true) (ha : s.alive = true) (hg : g < 4096) :
    exec (.preconditionerFallback c g) s = .next (fallbackNoted (fallbackCounted s c g) c) := by
  have hgo : (!s.alive || decide (4096 ≤ g)) = false := by rw [ha, decide_eq_false (Nat.not_le.mpr hg)]; rfl
  show execPreconditionerFallback c g s = _
  unfold execPreconditionerFallback
  rw [onCtx_eq hc]
  simp only [hgo, Bool.false_eq_true, if_false, fallbackNoted, fallbackCounted]

/-- Settles O43: an update that is done ends by its status, and each row of parity is its effect. -/
theorem updatesCompleteAndParityCombines : Obligations.UpdatesCompleteAndParityCombines := by
  refine fun s => ⟨fun k r u h hsent hfound hupd hheld hall hdeltas hqueue hrest => ?_, fun p pk h hok hin => ?_,
    fun die n b hdie ha hb => ⟨?_, fun hfull => ?_⟩, fun c g hc ha hg => ⟨_, exec_preconditionerFallback hc ha hg, mem_fallbackNoted c⟩⟩
  · have hdone : UpdateDone s r u := ⟨hsent, hfound, hupd, hheld, hall, hdeltas, hqueue, hrest⟩
    refine ⟨fun hst hout w t hw hf hu => onCtx_onRun h ((fxUpdateComplete_ends hdone).trans ?_),
      fun hst => onCtx_onRun h ((fxUpdateComplete_ends hdone).trans (if_pos hst))⟩
    rw [if_neg (not_not.mpr hst), if_pos hout]
    exact putEnd_written hw hf hu
  · refine (onPortIn_arrives h _).trans (congrArg Host.Outcome.next ((fxParityDelta_within h hok hin).trans ?_))
    rw [deltaBytes, List.map_map]
    rfl
  · exact (onIod_eq hdie s _).trans (congrArg Host.Outcome.next (fxParityFlush_flushes ha hb nofun))
  · exact (onIod_eq hdie s _).trans (congrArg Host.Outcome.next (fxParityFlush_flushes ha hb fun _ => hfull))

end Sys2Proof.Laws
end

section
/-! # Functions, stops, resets and the watchdog (O44, O45) -/

namespace Sys2Proof.Laws
open Sys2Proof Sys2Proof.Machine Sys2Proof.Claim

variable {s : State} {f : FuncId} {rq : Req} {v : Nat}

/-! ## Functions (R282, R339) -/

theorem exec_functionDisable_eq (hf : f ≠ .fetch) (h : accepts s rq (fnIdx f) 1 0) :
    exec (.functionDisable rq f) s = .next ((s.fnDisable f).answerTo rq.path 0) :=
  congrArg Host.Outcome.next ((if_neg hf).trans (umTry_eq h _))

theorem exec_functionEnable_eq (hf : f ≠ .fetch) (h : accepts s rq (fnIdx f) 1 1) :
    exec (.functionEnable rq f) s = .next ((s.fnEnable f).answerTo rq.path 0) :=
  congrArg Host.Outcome.next ((if_neg hf).trans (umTry_eq h _))

/-- A function that is not disabled yet: its enable reads 0, and its drain begins or is over. -/
theorem fnDisable_enabled (hd : Tab.get 0 s.rbd.disable (fnNo f) = 0) : (s.fnDisable f).obj (fnIdx f) 1 = 0 ∧
    (s.fnDisable f).rbd.disable = Tab.put s.rbd.disable (fnNo f) (if s.fnBusy f then 1 else 2) := by
  have hgo : s.fnDisable f = { s.setObj (fnIdx f) 1 0 with
      rbd.reenable := NSet.remove s.rbd.reenable (fnNo f)
      rbd.disable := Tab.put s.rbd.disable (fnNo f) (if s.fnBusy f then 1 else 2) } := if_neg (not_not.mpr hd)
  rw [hgo]
  exact ⟨obj_setObj s _ _ _, rfl⟩

theorem fnEnable_idle (hd : s.disableState f ≠ 1) : s.fnEnable f = s.fnOn f := if_neg hd

theorem fnEnable_draining (hd : s.disableState f = 1) :
    s.fnEnable f = { s with rbd.reenable := NSet.insert s.rbd.reenable (fnNo f) } := if_pos hd

theorem fxDisableDrainExpiry_kills (hd : s.disableState f = 1) (hr : NSet.mem (s.fnKill f).rbd.reenable (fnNo f) = false) :
    fxDisableDrainExpiry f s = { s.fnKill f with rbd.disable := Tab.put (s.fnKill f).rbd.disable (fnNo f) 3 } := by
  simp only [fxDisableDrainExpiry, hd, hr, ne_eq, not_true_eq_false, Bool.false_eq_true, if_false]

/-- Settles O44: an accepted write does what its function's enable, drain or mode does. -/
theorem functionsAct : Obligations.FunctionsAct := by
  refine fun s f rq hf => ⟨fun h hd => ⟨_, exec_functionDisable_eq hf h, fnDisable_enabled hd⟩, fun h hd => ?_, fun h hd => ?_,
    fun hd hr => congrArg Host.Outcome.next (fxDisableDrainExpiry_kills hd hr), fun v h => congrArg Host.Outcome.next (umTry_eq h _)⟩
  · refine ⟨_, exec_functionEnable_eq hf h, ?_⟩
    rw [fnEnable_idle hd]
    exact ⟨obj_setObj s _ _ _, rfl⟩
  · rw [exec_functionEnable_eq hf h, fnEnable_draining hd]

/-! ## Stops, resets and roles by request (R283, R285 to R287, R293, R302) -/

/-- A reset that its object accepts is answered before it acts. -/
theorem umTryReset_eq {idx sub : Nat} {ok : State → Bool} (h : accepts s rq idx sub v) (hok : ok s = true) (go : State → State) :
    s.umTryReset rq idx sub v ok true go = go (s.answerTo rq.path 0) := by
  simp [State.umTryReset, h.1, h.2, hok]

/-- What a change of a context always brings about holds of each context of a list that has changed so. -/
theorem ctx_foldl_modCtx {g : CtxState → CtxState} {P : CtxState → Prop} (hg : ∀ x, P (g x)) (c : Nat) (l : List Nat) (s : State)
    (h : c ∈ l ∨ P (s.ctx c)) : P ((l.foldl (fun (t : State) d => t.modCtx d g) s).ctx c) := by
  induction l generalizing s with
  | nil => exact h.resolve_left List.not_mem_nil
  | cons d l ih =>
    refine ih _ ?_
    rcases eq_or_ne c d with rfl | hne
    · exact .inr ((ctx_modCtx s c g).symm ▸ hg _)
    · have hkeep : (s.modCtx d g).ctx c = s.ctx c := ctx_setCtx_ne s d c _ hne
      exact h.imp (fun hm => (List.mem_cons.mp hm).resolve_left hne) (fun hp => hkeep.symm ▸ hp)

theorem mem_maskCtxs {m c : Nat} (hc : c < 16) (h : m.testBit c = true ∨ m.testBit 16 = true) : c ∈ maskCtxs m := by
  simpa [maskCtxs, hc] using h

/-- A context that a resume names may start commands, and no epoch stop of it is in force. -/
theorem resume_frees {c : Nat} (hc : c < 16) (h : v.testBit c = true ∨ v.testBit 16 = true) :
    ((s.resume v).ctx c).halted = false ∧ ((s.resume v).ctx c).epochStop = none :=
  ctx_foldl_modCtx (P := fun x => x.halted = false ∧ x.epochStop = none) (fun _ => ⟨rfl, rfl⟩) c _ s (.inl (mem_maskCtxs hc h))

theorem actEpochStop_eq (hv : v < 2 ^ 36) : actEpochStop v s = (0, (s.epochStop v).tellAll Mg.epochStop (natLe 8 v)) :=
  if_neg (Nat.not_le.mpr hv)

/-- The context of an epoch stop is the upper part of its value, and stops at once where its cut is sealed here (R287). -/
theorem epochStop_ctx (hv : v < 2 ^ 36) : ((s.epochStop v).ctx (v / 2 ^ 32)).epochStop = some (v % 2 ^ 32) ∧
    ((s.epochStop v).ctx (v / 2 ^ 32)).stopped =
      ((s.ctx (v / 2 ^ 32)).sealLocal.isSome && decide (v % 2 ^ 32 ≤ (s.ctx (v / 2 ^ 32)).cutStepLocal.toNat)) := by
  have hc : nbits v 35 32 = v / 2 ^ 32 := by
    rw [nbits, Nat.shiftRight_eq_div_pow]
    omega
  rw [State.epochStop, hc, ctx_modCtx]
  exact ⟨rfl, rfl⟩

theorem actRole_inService (hr : s.rbd.role ≠ 2) : actRole v s = (0, { s with rbd.role := v }) := if_neg (fun h => hr h.1)

theorem actRole_retired (hr : s.rbd.role = 2) (h1 : v ≠ 1) (h2 : v ≠ 2) : actRole v s = (0x0D, s) := if_pos ⟨hr, h1, h2⟩

theorem stopsAndResetsByRequest_holds : stopsAndResetsByRequest := by
  refine fun s rq v => ⟨fun h => congrArg Host.Outcome.next (umTry_eq h _), fun m ha => congrArg Host.Outcome.next (if_pos ha),
    fun h => ⟨s.resume v, congrArg Host.Outcome.next (umTry_eq h _), fun c hc hm => resume_frees hc hm⟩,
    fun h hv => ⟨s.epochStop v, congrArg Host.Outcome.next ((umTry_eq h _).trans ?_), epochStop_ctx hv⟩,
    fun h => congrArg Host.Outcome.next (umTry_eq h _), fun h hs hr ht => congrArg Host.Outcome.next (umTryReset_eq h ?_ _),
    fun h hw => congrArg Host.Outcome.next (umTryReset_eq h hw _), fun cool h => congrArg Host.Outcome.next (umTryReset_eq h rfl _),
    fun h => congrArg Host.Outcome.next (umTry_eq h _), fun h hr => congrArg Host.Outcome.next ((umTry_eq h _).trans ?_),
    fun h hr h1 h2 => congrArg Host.Outcome.next ((umTry_eq h _).trans ?_)⟩
  · rw [actEpochStop_eq hv]
  · simp [State.holdLeavable, hs, hr, ht]
  · rw [actRole_inService hr]
  · rw [actRole_retired hr h1 h2]

/-! ## The watchdog of the management controller (R281) -/

/-- The state in which an expiry of the watchdog has been counted. -/
def expiryCounted (s : State) : State := { s with rbd.wdExpiries := s.rbd.wdExpiries + 1, rbd.wdLast := some s.sys.ts }

/-- A first expiry raises its event and restarts the management controller; the module does not enter safe hold. -/
theorem fxMgmtWatchdogExpiry_first (h : s.mcOn = true) (hl : s.rbd.wdLast = none) : fxMgmtWatchdogExpiry s =
    ((expiryCounted s).event 0x0204 (s.rbd.wdExpiries + 1).toNat).restartMc := by
  simp only [fxMgmtWatchdogExpiry, h, hl, Bool.not_true, Bool.false_and, Bool.false_eq_true, if_false]
  rfl

theorem watchdogRestartsTheController_holds : watchdogRestartsTheController := by
  intro s h hl
  refine ⟨_, congrArg Host.Outcome.next (fxMgmtWatchdogExpiry_first h hl), ?_⟩
  have hnotes := sansNotes_event (s := expiryCounted s) 0x0204 (s.rbd.wdExpiries + 1).toNat
  have hrbd := event_rbd (s := expiryCounted s) 0x0204 (s.rbd.wdExpiries + 1).toNat
  have hmem := field_of_sansNotes State.mem hnotes
  have hcores := field_of_sansNotes State.cores hnotes
  clear hnotes
  generalize (expiryCounted s).event 0x0204 (s.rbd.wdExpiries + 1).toNat = t at *
  exact ⟨congrArg Rbd.wdExpiries hrbd, congrArg Rbd.wdLast hrbd, rfl, rfl, rfl, rfl, hmem, hcores, (congrArg Rbd.safeHold hrbd :)⟩

/-- Settles O45: each accepted request does what its object's write does, and a first expiry of the watchdog restarts the controller. -/
theorem stopsResetsAndWatchdogAct : Obligations.StopsResetsAndWatchdogAct := by
  unfold Obligations.StopsResetsAndWatchdogAct
  exact ⟨stopsAndResetsByRequest_holds, watchdogRestartsTheController_holds⟩

end Sys2Proof.Laws
end

section
/-! # Step-epoch cuts (O46) -/

namespace Sys2Proof.Laws
open Sys2Proof Sys2Proof.Machine Sys2Proof.Claim

variable {s : State} {c : Nat}

/-! ## The request (R289) -/

/-- The state in which VALID of slot 0 of context c has been cleared. -/
def slotCleared (s : State) (c : Nat) : State := s.putVa c ((s.ctx c).slotVa 0 + 0x34) (natLe 4 0)

/-- A cut begins as its row says, but whether an update is held under it is read after VALID has been cleared. -/
theorem exec_rbdCutCtl_begins {v : BitVec 32} (hc : ctxOk c = true) (hb : s.barUp = true) (hp : s.pwr.state = 0)
    (hr : s.cutRefuses c v.toNat = false) (hg : (s.ctx c).sealGlobal = none) : exec (.rbdCutCtl c v) s =
      .next ((slotCleared s c).modCtx c (fun x => { x with
        cutState := 1
        sealLocal := if x.sealGlobal.isSome then x.sealGlobal else none
        cutHeld := (slotCleared s c).heldUnder c
        cut := some ⟨v.toNat, 0, false, [], false, 0, []⟩ })) := by
  refine (onCtx_eq hc s (fxRbdCutCtl c v.toNat)).trans (congrArg Host.Outcome.next ?_)
  simp only [fxRbdCutCtl, hb, wakeBy_active hp, hr, hg, Bool.not_true, Bool.false_eq_true, if_false]
  rfl

theorem heldUnder_idle (h : s.coll.runs = []) : s.heldUnder c = false := by simp [State.heldUnder, h]

/-! ## Reads through a page table in error -/

theorem xlate_broken {va : Nat} {ps : List Perm} (hh : s.held c va = none) (hw : (s.walk c va).1 = .broken) :
    (s.xlate c va ps).1 = none := by
  unfold State.xlate
  split
  · rfl
  · simp only [hh, State.fetchLeaf, hw]

/-- A read of one unit whose translation fails returns nothing. -/
theorem vaRead_fails {va n : Nat} {ps : List Perm} (h0 : 0 < n) (hn : va % 256 + n ≤ 256) (hx : (s.xlate c va ps).1 = none) :
    (s.vaRead c va n ps).1.bytes = [] := by
  have hruns : (s.vaRuns c va n ps).1 = (true, []) := by
    simp [State.vaRuns, piecesOf_oneUnit h0 hn, hx]
  simp [State.vaRead, State.vaReadBy, hruns]

/-! ## A request that meets an error in the page table -/

/-- A context whose first cut, of step 1, is copied and waits for markers and for its holder, with slots of 64 MiB. -/
def midCut : CtxState := { CtxState.init 0 with
  cutState := 2
  cut := some ⟨1, 0, true, [], false, 0, []⟩
  cutHeld := true
  parCfg := 1
  cutSize := 64 }

/-- A REDUCE_SCATTER of one member whose update, of a group with PAR_EN, has come to its first write. -/
def atFirstWrite : CollRun :=
  { CollRun.init ⟨0, 0, 0⟩ ⟨1, 0, 6, 0, 6, 0, 7, 0, false, 64, 0, 1, 0, [1, 1, 1, 1], List.replicate 64 0⟩ [0] 0 with
    upd := some ⟨0, [0x80, 4], [], 0, false, [], [], [], false, none, false, false, 0, [], .none⟩ }

/-- The module in operation with both, and with a poisoned word at the head of the page table of context 0. -/
def tornTable : State := ({ State.reset with
  sys.vaux := true
  sys.modResetN := true
  sys.recoveryBoot := false
  sys.linkUp := true
  mem.errFree := true
  xl.ptRoot := [(0, 1)]
  ctxs := [(0, midCut)]
  coll.runs := [atFirstWrite] } : State).setPoison false 0 0 1

/-- The level-1 entry of the first GiB is in error. -/
theorem walk_tornTable {va : Nat} (h : va < 2 ^ 30) : (tornTable.walk 0 va).1 = .broken := by
  have hroot : Tab.get 0 tornTable.xl.ptRoot 0 = 1 := by decide +kernel
  have hentry : (tornTable.tableEntry 0).1 = none := by decide +kernel
  have hva : ¬(va ≥ 2 ^ 48 ∨ bits (1 : BitVec 64) 0 0 = 0) := by
    rw [not_or]
    exact ⟨by omega, by decide⟩
  have haddr : bits (1 : BitVec 64) 47 21 * 2 ^ 21 + 8 * (va / 2 ^ 30) = 0 := by rw [Nat.div_eq_of_lt h]; rfl
  unfold State.walk
  simp only [hroot, if_neg hva, haddr, hentry]

theorem groupEntry_tornTable {p : Nat} (h : p < 4096) : tornTable.groupEntry 0 0 p = [] := by
  have hva : 0 + 256 * p < 2 ^ 30 := by omega
  exact vaRead_fails (by decide) (by omega) (xlate_broken (by rfl) (walk_tornTable hva))

theorem cutGroups_tornTable : tornTable.cutGroups 0 0 = [] := by
  unfold State.cutGroups
  refine List.filter_eq_nil_iff.mpr fun e he => ?_
  obtain ⟨p, hp, rfl⟩ := List.mem_map.mp he
  rw [groupEntry_tornTable (List.mem_range.mp hp)]
  have hinvalid : enValid [] = false := rfl
  simp [hinvalid]

/-- No group of the context can be read, and its slot of 64 MiB is large enough for none. -/
theorem slotNeed_tornTable : tornTable.slotNeed 0 = 2 ^ 21 := by
  have hctx : tornTable.ctx 0 = midCut := by decide +kernel
  have htab : midCut.ueGtab.toNat = 0 := rfl
  have himage : tornTable.imageBytes 0 0 = 0 := by rw [State.imageBytes, cutGroups_tornTable, List.foldl_nil]
  rw [State.slotNeed, hctx, htab, himage]
  decide

theorem accepted_tornTable : tornTable.cutRefuses 0 (2 : BitVec 32).toNat = false := by
  have hctx : tornTable.ctx 0 = midCut := by decide +kernel
  rw [State.cutRefuses, hctx, slotNeed_tornTable]
  decide

/-- Refutes O46: its clause on a request that begins a cut reads HELD before VALID of the slot is cleared. Where the translation of that write
meets an error in the page table the module enters safe hold (R275, R283), every collective is gone, and no update is held any more: the
model reads HELD after the write (`exec_rbdCutCtl_begins`). -/
theorem not_cutsAdvance : ¬ Obligations.CutsAdvance := by
  unfold Obligations.CutsAdvance
  intro h
  have hb : tornTable.barUp = true := by decide +kernel
  have hp : tornTable.pwr.state = 0 := by decide +kernel
  have hg : (tornTable.ctx 0).sealGlobal = none := by decide +kernel
  have hheld : tornTable.heldUnder 0 = true := by decide +kernel
  have hgone : (slotCleared tornTable 0).coll.runs = [] := by decide +kernel
  obtain ⟨-, hbegin, -⟩ := h tornTable 0 rfl
  have hsame := (exec_rbdCutCtl_begins rfl hb hp accepted_tornTable hg).symm.trans (hbegin 2 hb hp accepted_tornTable hg)
  have hctx := congrArg (fun t : State => (t.ctx 0).cutHeld) (Host.Outcome.next.inj hsame)
  simp only [ctx_modCtx, heldUnder_idle hgone, hheld] at hctx
  cases hctx

end Sys2Proof.Laws
end

section
/-! # What a recovery rests on, and what leaves it (for O48)

Whether each context is halted, its newest globally sealed cut, where its held parity lies, the rank map, and the state of the recovery. A halt
kills commands, a reset of a context ends its work and lets packets of other contexts go on, and a rebuild writes memory: none of that work
changes them. One lemma per operation, in the order of the operations; each takes the footing before it and gives the same after it, so that the
proof for a composed operation is its composition. -/

namespace Sys2Proof.Laws
open Sys2Proof Sys2Proof.Machine

/-! ## The footing of a recovery -/

/-- The part of a context that a recovery rests on. -/
def stance (x : CtxState) : Bool × Option Seal × BitVec 64 := (x.halted, x.sealGlobal, x.parImage)

/-- What a recovery rests on: the stance of each context, the rank map, and the state of the recovery. -/
abbrev Footing := (Nat → Bool × Option Seal × BitVec 64) × Tab (BitVec 32) × Nat

/-- What a recovery rests on in a state. -/
def footing (s : State) : Footing := (fun c => stance (s.ctx c), s.xl.rankMap, s.rbd.recState)

variable {s t : State} {F : Footing}

theorem halted_of_footing (h : footing t = footing s) (c : Nat) : (t.ctx c).halted = (s.ctx c).halted :=
  congrArg (fun f => (f.1 c).1) h

theorem sealGlobal_of_footing (h : footing t = footing s) (c : Nat) : (t.ctx c).sealGlobal = (s.ctx c).sealGlobal :=
  congrArg (fun f => (f.1 c).2.1) h

theorem parImage_of_footing (h : footing t = footing s) (c : Nat) : (t.ctx c).parImage = (s.ctx c).parImage :=
  congrArg (fun f => (f.1 c).2.2) h

theorem rankMap_of_footing (h : footing t = footing s) : t.xl.rankMap = s.xl.rankMap := congrArg (fun f => f.2.1) h

theorem recState_of_footing (h : footing t = footing s) : t.rbd.recState = s.rbd.recState := congrArg (fun f => f.2.2) h

/-- A state with the same contexts, rank map and state of the recovery has the same footing. -/
theorem footing_frame (h : footing s = F) (hc : t.ctxs = s.ctxs) (hm : t.xl.rankMap = s.xl.rankMap) (hr : t.rbd.recState = s.rbd.recState) :
    footing t = F := by
  refine h ▸ Prod.ext (funext fun c => ?_) (Prod.ext hm hr)
  show stance ((Tab.find t.ctxs c).getD (CtxState.init c)) = _
  rw [hc]
  rfl

/-! ## Choices and folds -/

section
variable {α β γ : Type} {p : Prop} [Decidable p]

theorem footing_ite {a b : State} (ha : footing a = F) (hb : footing b = F) : footing (if p then a else b) = F := by
  split
  · exact ha
  · exact hb

/-- A step that one branch takes and the other leaves out. -/
theorem footing_when {a b : State} (hb : footing b = F) (ha : footing b = F → footing a = F) : footing (if p then a else b) = F :=
  footing_ite (ha hb) hb

theorem footing_unless {a b : State} (ha : footing a = F) (hb : footing a = F → footing b = F) : footing (if p then a else b) = F :=
  footing_ite ha (hb ha)

theorem footing_snd_mk {a : α} (h : footing s = F) : footing (a, s).2 = F := h

theorem footing_snd_ite {a b : α × State} (ha : footing a.2 = F) (hb : footing b.2 = F) : footing (if p then a else b).2 = F := by
  split
  · exact ha
  · exact hb

theorem footing_foldl {f : State → β → State} {l : List β} (h : footing s = F) (hf : ∀ t b, footing t = F → footing (f t b) = F) :
    footing (l.foldl f s) = F := List.foldlRecOn (motive := fun t => footing t = F) l f h fun t ht b _ => hf t b ht

theorem footing_snd_foldl {f : α × State → β → α × State} {l : List β} {y : α × State} (h : footing y.2 = F)
    (hf : ∀ y b, footing y.2 = F → footing (f y b).2 = F) : footing (l.foldl f y).2 = F :=
  List.foldlRecOn (motive := fun y => footing y.2 = F) l f h fun y hy b _ => hf y b hy

theorem footing_fst_foldl {f : State × α → β → State × α} {l : List β} {y : State × α} (h : footing y.1 = F)
    (hf : ∀ y b, footing y.1 = F → footing (f y b).1 = F) : footing (l.foldl f y).1 = F :=
  List.foldlRecOn (motive := fun y => footing y.1 = F) l f h fun y hy b _ => hf y b hy

end

/-! ## Parts of the state -/

theorem footing_modCore {L : Nat} {g : CoreState → CoreState} (h : footing s = F) : footing (s.modCore L g) = F := h
theorem footing_modStk {n : Nat} {g : Stack → Stack} (h : footing s = F) : footing (s.modStk n g) = F := h
theorem footing_modPort {n : Nat} {g : Port → Port} (h : footing s = F) : footing (s.modPort n g) = F := h
theorem footing_modRun {k : CollKey} {g : CollRun → CollRun} (h : footing s = F) : footing (s.modRun k g) = F := h
theorem footing_setSlot {k : Nat} {x : Slot} (h : footing s = F) : footing (s.setSlot k x) = F := h
theorem footing_emit {o : Out} (h : footing s = F) : footing (s.emit o) = F := h
theorem footing_stkCtr {n i k : Nat} (h : footing s = F) : footing (s.stkCtr n i k) = F := h
theorem footing_dieEvent {d ev n : Nat} {c : Option Nat} (h : footing s = F) : footing (s.dieEvent d ev n c) = F := h
theorem footing_free (h : footing s = F) : footing s.free.2 = F := h
theorem footing_freeBytes {n : Nat} (h : footing s = F) : footing (s.freeBytes n).2 = F := h
theorem footing_nextErrs (h : footing s = F) : footing s.nextErrs.2 = F := h
theorem footing_ackAll {l : List Nat} {k : Nat} (h : footing s = F) : footing (s.ackAll l k) = F := h

/-- A change of a context that leaves its stance leaves the footing. -/
theorem footing_modCtx {c : Nat} {g : CtxState → CtxState} (h : footing s = F) (hg : ∀ x, stance (g x) = stance x) :
    footing (s.modCtx c g) = F := by
  refine h ▸ Prod.ext (funext fun d => ?_) rfl
  show stance ((s.modCtx c g).ctx d) = stance (s.ctx d)
  rcases eq_or_ne d c with rfl | hne
  · rw [ctx_modCtx, hg]
  · exact congrArg stance (ctx_setCtx_ne s c d _ hne)

theorem footing_modCmd {k : CmdKey} {g : Cmd → Cmd} (h : footing s = F) : footing (s.modCmd k g) = F := footing_modCtx h fun _ => rfl

/-- Looking up a key after a change of every value. -/
theorem find_mapV {α : Type} (g : Nat → α → α) (l : Tab α) (k : Nat) : Tab.find (Tab.mapV l g) k = (Tab.find l k).map (g k) := by
  induction l with
  | nil => rfl
  | cons e l ih =>
    simp only [Tab.mapV, List.map_cons, Tab.find]
    split
    · next heq => rw [heq]; rfl
    · exact ih

/-- A change of every context that leaves their stances leaves the footing. -/
theorem footing_mapCtxs {g : Nat → CtxState → CtxState} (h : footing s = F) (hg : ∀ c x, stance (g c x) = stance x) :
    footing { s with ctxs := Tab.mapV s.ctxs g } = F := by
  refine h ▸ Prod.ext (funext fun c => ?_) rfl
  show stance ((Tab.find (Tab.mapV s.ctxs g) c).getD (CtxState.init c)) = stance ((Tab.find s.ctxs c).getD (CtxState.init c))
  rw [find_mapV]
  cases Tab.find s.ctxs c with
  | none => rfl
  | some x => exact hg c x

theorem footing_forCtx {c : Option Nat} {was : State} (h : footing s = F) : footing (s.forCtx c was) = F := by
  unfold State.forCtx
  split
  · exact h
  · exact footing_ite h h

/-! ## Events, dumps and safe hold; packets that leave -/

theorem footing_sansNotes (ht : sansNotes t = sansNotes s) (h : footing s = F) : footing t = F :=
  (field_of_sansNotes footing ht).trans h

theorem footing_event {code detail : Nat} (h : footing s = F) : footing (s.event code detail) = F :=
  footing_sansNotes (sansNotes_event code detail) h

theorem footing_event2 {code a b : Nat} (h : footing s = F) : footing (s.event2 code a b) = F := footing_event h

theorem footing_dump {cause : Nat} (h : footing s = F) : footing (s.dump cause) = F := footing_sansNotes (sansNotes_dump cause) h

theorem footing_logRebind {kind logical physical : Nat} (h : footing s = F) : footing (s.logRebind kind logical physical) = F := by
  unfold State.logRebind
  exact footing_event (footing_frame h rfl rfl rfl)

theorem footing_enterSafeHold {code unit : Nat} (h : footing s = F) : footing (s.enterSafeHold code unit) = F :=
  footing_ite h (footing_event (footing_mapCtxs h fun _ _ => rfl))

theorem footing_sansFabric (ht : sansFabric t = sansFabric s) (h : footing s = F) : footing t = F :=
  (field_of_sansFabric footing ht).trans h

theorem footing_freeUnits {p vc n : Nat} (h : footing s = F) : footing (s.freeUnits p vc n) = F :=
  footing_sansFabric (sansFabric_freeUnits p vc n) h

theorem footing_giveBack {q : QPacket} (h : footing s = F) : footing (s.giveBack q) = F := footing_sansFabric (sansFabric_giveBack q) h

theorem footing_enqueue {p vc k : Nat} {hd : Hdr} {pk : List Byte} {src : Option (Nat × Nat)} (h : footing s = F) :
    footing (s.enqueue p vc k hd pk src) = F := footing_sansFabric (sansFabric_enqueue p vc k hd pk src) h

theorem footing_send {pk : List Byte} (ht : s.send pk = some t) (h : footing s = F) : footing t = F :=
  footing_sansFabric (sansFabric_send ht) h

theorem footing_send_getD {pk : List Byte} (h : footing s = F) : footing ((s.send pk).getD s) = F := by
  cases ht : s.send pk with
  | none => exact h
  | some t => exact footing_send ht h

theorem footing_mgmt {did kind : Nat} {bs : List Byte} (h : footing s = F) : footing (s.mgmt did kind bs) = F :=
  footing_sansFabric (sansFabric_mgmt did kind bs) h

/-! ## Striped memory -/

theorem footing_setPoison {l21 : Bool} {stripe u : Nat} {m : BitVec 8} (h : footing s = F) :
    footing (s.setPoison l21 stripe u m) = F :=
  footing_ite h (footing_ite (footing_enterSafeHold h) (footing_ite h (footing_dieEvent h)))

theorem footing_setStackState {n st : Nat} (h : footing s = F) : footing (s.setStackState n st) = F :=
  footing_ite h (footing_event2 (footing_modStk h))

theorem footing_forceBypass (h : footing s = F) : footing s.forceBypass = F :=
  footing_foldl h fun _ _ ht => footing_modStk ht

theorem footing_bgFail {i : Nat} (h : footing s = F) : footing (s.bgFail i) = F := footing_event h

theorem footing_failStack {n : Nat} (h : footing s = F) : footing (s.failStack n) = F :=
  footing_ite h (footing_forceBypass (footing_logRebind
    (footing_setStackState (footing_ite (footing_bgFail h) (footing_ite (footing_bgFail h) h)))))

theorem footing_uncorrError {n : Nat} (h : footing s = F) : footing (s.uncorrError n) = F :=
  footing_when (footing_stkCtr (footing_modStk h)) fun ht => footing_failStack ht

theorem footing_severity {e : ReadErrs} {n : Nat} (h : footing s = F) : footing (s.severity e n) = F :=
  footing_ite (footing_uncorrError h) (footing_ite (footing_stkCtr (footing_modStk h)) h)

theorem footing_touch {n : Nat} (h : footing s = F) : footing (s.touch n) = F := footing_ite h (footing_modStk h)

theorem footing_readUnits {l21 : Bool} {stripe : Nat} {is : List Nat} (h : footing s = F) :
    footing (s.readUnits l21 stripe is) = F := footing_foldl h fun _ _ ht => footing_touch (footing_stkCtr ht)

theorem footing_readMeeting {l21 : Bool} {stripe : Nat} {is : List Nat} {e : ReadErrs} (h : footing s = F) :
    footing (s.readMeeting l21 stripe is e) = F := footing_foldl (footing_readUnits h) fun _ _ ht => footing_severity ht

theorem footing_readPiece {pa n : Nat} {e : ReadErrs} (h : footing s = F) : footing (s.readPiece pa n e).2 = F := by
  unfold State.readPiece
  extract_lets l i st hd direct dec t1
  have h1 : footing t1 = F := footing_setPoison (footing_readMeeting h)
  clear_value t1 l
  split
  · refine footing_snd_ite ?_ ?_
    · exact footing_dieEvent (footing_severity (footing_readUnits h))
    · exact footing_dieEvent (footing_stkCtr (footing_readMeeting h))
  · exact h1

theorem footing_readStripe {l21 : Bool} {stripe : Nat} {e : ReadErrs} (h : footing s = F) :
    footing (s.readStripe l21 stripe e).2 = F :=
  footing_when (footing_foldl (footing_readMeeting h) fun _ _ ht => footing_ite (footing_setPoison ht) (footing_stkCtr ht))
    fun ht => footing_dieEvent ht

theorem footing_readGo {e : ReadErrs} {fuel pa n : Nat} {acc : MemRes} (h : footing s = F) :
    footing (s.readGo e fuel pa n acc).2 = F := by
  induction fuel generalizing s pa n acc with
  | zero => exact h
  | succ fuel ih =>
    simp only [State.readGo]
    split
    · exact h
    · refine ih ?_
      exact footing_snd_ite (footing_readStripe h) (footing_readPiece h)

theorem footing_memReadE {pa n : Nat} {e : ReadErrs} (h : footing s = F) : footing (s.memReadE pa n e).2 = F :=
  footing_readGo h

theorem footing_memRead {pa n : Nat} (h : footing s = F) : footing (s.memRead pa n).2 = F :=
  footing_memReadE (footing_nextErrs h)

theorem footing_tableRead {pa n : Nat} (h : footing s = F) : footing (s.tableRead pa n).2 = F :=
  footing_snd_ite (footing_enterSafeHold (footing_memRead h)) (footing_memRead h)

theorem footing_tableEntry {pa : Nat} (h : footing s = F) : footing (s.tableEntry pa).2 = F :=
  footing_snd_ite h (footing_tableRead h)

theorem footing_skipUnit {l21 : Bool} {stripe i : Nat} (h : footing s = F) : footing (s.skipUnit l21 stripe i) = F :=
  footing_unless (footing_dieEvent (footing_stkCtr h)) fun ht => footing_modStk ht

theorem footing_writeUnit {l21 : Bool} {stripe i : Nat} {bs : List Byte} (h : footing s = F) :
    footing (s.writeUnit l21 stripe i bs) = F := by
  unfold State.writeUnit
  dsimp only
  split
  · exact footing_skipUnit h
  · exact h

theorem footing_writeStripe {l21 : Bool} {stripe : Nat} {w : StripeWrite} {errs : ReadErrs} (h : footing s = F) :
    footing (s.writeStripe l21 stripe w errs).2 = F :=
  footing_unless (footing_foldl (footing_foldl (footing_foldl (footing_dieEvent (footing_ite h (footing_readMeeting h)))
    fun _ _ ht => footing_writeUnit ht) fun _ _ ht => footing_setPoison ht) fun _ _ ht => footing_setPoison ht) fun ht => ht

/-! ## Gathered writes -/

theorem footing_coreCond {L : Nat} {st : Status} (h : footing s = F) : footing (s.coreCond L st) = F :=
  footing_modCore h

theorem footing_lostFor {srcs : List Nat} {stripe : Nat} (h : footing s = F) : footing (s.lostFor srcs stripe) = F :=
  footing_foldl h fun _ _ ht => footing_ite (footing_coreCond ht) ht

theorem footing_performGather {g : Gather} {errs : ReadErrs} (h : footing s = F) :
    footing (s.performGather g errs) = F :=
  footing_when (footing_ackAll (footing_forCtx (footing_writeStripe h))) fun ht => footing_lostFor ht

theorem footing_joinGather {src pa : Nat} {bs : List (Byte × Bool)} (h : footing s = F) :
    footing (s.joinGather src pa bs) = F := footing_ite (footing_performGather h) h

theorem footing_admitGo {fuel : Nat} (h : footing s = F) : footing (s.admitGo fuel) = F := by
  induction fuel generalizing s with
  | zero => exact h
  | succ fuel ih =>
    simp only [State.admitGo]
    split
    · exact h
    · exact ih (footing_joinGather h)

theorem footing_admitWaiting (h : footing s = F) : footing s.admitWaiting = F := footing_admitGo h

theorem footing_gatherPiece {src pa : Nat} {bs : List (Byte × Bool)} (h : footing s = F) :
    footing (s.gatherPiece src pa bs) = F := footing_ite h (footing_admitWaiting (footing_joinGather h))

theorem footing_sendPiece {src pa : Nat} {bs : List (Byte × Bool)} (h : footing s = F) :
    footing (s.sendPiece src pa bs) = F := footing_ite h (footing_gatherPiece h)

theorem footing_sendWrite {src pa : Nat} {bs : List (Byte × Bool)} (h : footing s = F) :
    footing (s.sendWrite src pa bs) = F := footing_foldl h fun _ _ ht => footing_sendPiece ht

theorem footing_memWriteP {pa : Nat} {bs : List (Byte × Bool)} (h : footing s = F) :
    footing (s.memWriteP pa bs).2 = F := by
  unfold State.memWriteP
  dsimp only
  refine footing_snd_foldl h (fun _ _ ht => ?_)
  split
  · exact footing_when (footing_ackAll (footing_writeStripe (footing_nextErrs ht))) fun ht => footing_lostFor ht
  · exact footing_writeStripe (footing_nextErrs ht)

theorem footing_memWrite {pa : Nat} {bs : List Byte} (h : footing s = F) : footing (s.memWrite pa bs).2 = F :=
  footing_memWriteP h

theorem footing_memScramble {pa n : Nat} (h : footing s = F) : footing (s.memScramble pa n) = F :=
  footing_memWrite (footing_freeBytes h)

/-! ## Accesses by virtual address -/

theorem footing_walk {c va : Nat} (h : footing s = F) : footing (s.walk c va).2 = F := by
  generalize hw : s.walk c va = w
  unfold State.walk at hw
  extract_lets root r at hw
  have hr : footing r.2 = F := footing_tableEntry h
  clear_value r root
  split at hw
  · subst hw; exact h
  · obtain ⟨_ | e, t⟩ := r
    · subst hw; exact hr
    · dsimp only at hw hr
      cases hl : level1 e va with
      | some v => rw [hl] at hw; subst hw; exact hr
      | none =>
        have hq : footing (t.tableEntry (bits e 47 12 * 4096 + 8 * (va / 2 ^ 21 % 512))).2 = F := footing_tableEntry hr
        rw [hl] at hw
        dsimp only at hw
        generalize t.tableEntry _ = q at hq hw
        obtain ⟨_ | _, _⟩ := q <;> (subst hw; exact hq)

theorem footing_fetchLeaf {c va : Nat} {ps : List Perm} (h : footing s = F) : footing (s.fetchLeaf c va ps).2 = F := by
  unfold State.fetchLeaf
  extract_lets r1 _ t2
  have h1 : footing r1.2 = F := footing_walk h
  have h2 : footing t2 = F := h1
  split
  · exact h2
  · exact h1

theorem footing_xlate {c va : Nat} {ps : List Perm} (h : footing s = F) : footing (s.xlate c va ps).2 = F := by
  unfold State.xlate
  refine footing_snd_ite h ?_
  split
  · exact footing_fetchLeaf h
  · exact footing_snd_ite h (footing_snd_ite (footing_free h) (footing_fetchLeaf (footing_free h)))

theorem footing_vaWrite {src : Option Nat} {c va : Nat} {bs : List (Byte × Bool)} {ps : List Perm} (h : footing s = F) :
    footing (s.vaWrite src c va bs ps).2 = F := by
  unfold State.vaWrite
  refine footing_snd_foldl (footing_snd_foldl h (fun _ _ ht => footing_snd_ite ht ?_)) (fun _ _ ht => footing_forCtx ?_)
  · split
    · extract_lets r1
      have h1 : footing r1.2 = F := footing_xlate ht
      split <;> exact h1
    · extract_lets r1
      have h1 : footing r1.2 = F := footing_xlate ht
      split <;> exact h1
  · split
    · exact footing_sendWrite ht
    · exact footing_memWriteP ht

theorem footing_vaScramble {c va n : Nat} (h : footing s = F) : footing (s.vaScramble c va n) = F := by
  unfold State.vaScramble
  refine footing_foldl h (fun _ _ ht => ?_)
  extract_lets r1
  have h1 : footing r1.2 = F := footing_xlate ht
  split
  · exact footing_memScramble h1
  · exact h1

theorem footing_putEntry {c group off : Nat} {bs : List Byte} (h : footing s = F) :
    footing (s.putEntry c group off bs) = F := footing_vaWrite h

/-! ## The order of a source's accesses -/

theorem footing_endWindows {src pa len : Nat} (h : footing s = F) : footing (s.endWindows src pa len) = F := by
  unfold State.endWindows
  refine footing_foldl h (fun _ _ ht => ?_)
  extract_lets _ r1
  have h1 : footing r1.2 = F := footing_nextErrs ht
  split
  · exact footing_performGather h1
  · exact ht

theorem footing_makeRoom {pa : Nat} (h : footing s = F) : footing (s.makeRoom pa) = F := by
  unfold State.makeRoom
  refine footing_ite h ?_
  extract_lets _ r1
  have h1 : footing r1.2 = F := footing_nextErrs h
  split
  · exact footing_performGather h1
  · exact h

theorem footing_bringPort {src : Nat} (h : footing s = F) : footing (s.bringPort src) = F :=
  footing_foldl h fun _ _ ht => footing_joinGather (footing_makeRoom ht)

theorem footing_settleOwn {src pa len : Nat} (h : footing s = F) : footing (s.settleOwn src pa len) = F :=
  footing_ite h (footing_endWindows (footing_ite (footing_bringPort h) h))

theorem footing_readNote {src : Nat} {r : MemRes} (h : footing s = F) : footing (s.readNote src r) = F := by
  unfold State.readNote
  extract_lets t1
  have h1 : footing t1 = F := footing_ite (footing_modCore h) h
  exact footing_ite (footing_ite (footing_modCore h1) h1) h

theorem footing_readCheck {src pa : Nat} {r : MemRes} (h : footing s = F) : footing (s.readCheck src pa r) = F :=
  footing_ite (footing_enterSafeHold h) h

theorem footing_readTo {src pa len : Nat} {e : ReadErrs} (h : footing s = F) : footing (s.readTo src pa len e) = F :=
  footing_readCheck (footing_emit (footing_readNote (footing_forCtx (footing_memReadE h))))

theorem footing_releaseOne {h : HeldRead} (hs : footing s = F) : footing (s.releaseOne h) = F := by
  unfold State.releaseOne
  split
  · exact footing_ite hs (footing_gatherPiece hs)
  · exact footing_ite hs (footing_readTo hs)

theorem footing_releaseReads {src : Nat} (h : footing s = F) : footing (s.releaseReads src) = F :=
  footing_foldl h fun _ _ ht => footing_releaseOne ht

theorem footing_settleGo {src pa len fuel : Nat} (h : footing s = F) : footing (s.settleGo src pa len fuel) = F := by
  induction fuel generalizing s with
  | zero => exact h
  | succ fuel ih =>
    simp only [State.settleGo]
    split
    · exact h
    · exact ih (footing_releaseReads (footing_foldl (footing_settleOwn h) fun t b ht => ht))

theorem footing_settleCore {src pa len : Nat} (h : footing s = F) : footing (s.settleCore src pa len) = F :=
  footing_settleGo h

theorem footing_vaRuns {c va n : Nat} {ps : List Perm} (h : footing s = F) : footing (s.vaRuns c va n ps).2 = F := by
  unfold State.vaRuns
  refine footing_snd_foldl h fun y p hy => footing_snd_ite hy ?_
  have hx : footing (y.2.xlate c p.1 ps).2 = F := footing_xlate hy
  dsimp only
  split <;> exact hx

theorem footing_vaReadBy {src : Option Nat} {c va n : Nat} {ps : List Perm} (h : footing s = F) :
    footing (s.vaReadBy src c va n ps).2 = F := by
  unfold State.vaReadBy
  refine footing_snd_foldl (footing_vaRuns h) (fun _ _ ht => footing_forCtx (footing_memRead ?_))
  split
  · exact footing_settleCore ht
  · exact ht

theorem footing_vaRead {c va n : Nat} {ps : List Perm} (h : footing s = F) : footing (s.vaRead c va n ps).2 = F :=
  footing_vaReadBy h

end Sys2Proof.Laws
end

section
/-! # The footing of a recovery: collectives, tasks and commands -/

namespace Sys2Proof.Laws
open Sys2Proof Sys2Proof.Machine

variable {s t : State} {F : Footing}

/-! ## Collectives that end -/

theorem footing_sendCollTo {did rank unit flowlet : Nat} {h : CollHead} {bs : List Byte} (hs : footing s = F) :
    footing (s.sendCollTo did rank unit flowlet h bs) = F := by
  unfold State.sendCollTo
  exact footing_send_getD (footing_emit hs)

theorem footing_tellMember {r : CollRun} {m kind : Nat} {bs : List Byte} (h : footing s = F) :
    footing (s.tellMember r m kind bs) = F := by
  unfold State.tellMember
  split
  · exact h
  · exact footing_foldl h fun _ _ ht => footing_sendCollTo ht

theorem footing_abortAll {r : CollRun} {st : Status} {rank : Nat} (h : footing s = F) :
    footing (s.abortAll r st rank) = F := footing_foldl h fun _ _ ht => footing_tellMember ht

theorem footing_tellCoordBut {but : Option Nat} {kind : Nat} {bs : List Byte} (h : footing s = F) :
    footing (s.tellCoordBut but kind bs) = F := by
  unfold State.tellCoordBut
  split
  · exact footing_mgmt h
  · exact h

theorem footing_tellCoord {kind : Nat} {bs : List Byte} (h : footing s = F) : footing (s.tellCoord kind bs) = F :=
  footing_tellCoordBut h

theorem footing_deltaFailed {c group die : Nat} (h : footing s = F) : footing (s.deltaFailed c group die) = F :=
  footing_tellCoord (footing_putEntry (footing_dieEvent (footing_modCtx h fun _ => rfl)))

theorem footing_dropDeltas {r : CollRun} (h : footing s = F) : footing (s.dropDeltas r) = F := by
  unfold State.dropDeltas
  split
  · exact h
  · exact footing_foldl h fun _ _ ht => footing_deltaFailed ht

theorem footing_dropRun {r : CollRun} (h : footing s = F) : footing (s.dropRun r) = F :=
  footing_dropDeltas h

theorem footing_dropFence {r : CollRun} (h : footing s = F) : footing (s.dropFence r) = F :=
  footing_ite (footing_modCtx h fun _ => rfl) h

theorem footing_failHeader {r : CollRun} (h : footing s = F) : footing (s.failHeader r) = F := by
  unfold State.failHeader
  split
  · exact h
  · exact footing_ite h (footing_ite (footing_modCtx h fun _ => rfl) (footing_vaWrite (footing_modCtx h fun _ => rfl)))

theorem footing_noteSlow {r : CollRun} (h : footing s = F) : footing (s.noteSlow r) = F :=
  footing_ite (footing_modCtx (footing_modCmd h) fun _ => rfl) h

theorem footing_progress {c : Nat} (h : footing s = F) : footing (s.progress c) = F := by
  have hm : footing (s.modCtx c fun x => { x with qblocked := false }) = F := footing_modCtx h fun _ => rfl
  exact footing_ite hm h

theorem footing_endCmd {k : CmdKey} {st : Status} (h : footing s = F) : footing (s.endCmd k st) = F :=
  footing_progress (footing_modCmd h)

theorem footing_failRun {r : CollRun} {st : Status} {rank : Nat} (h : footing s = F) :
    footing (s.failRun r st rank) = F := by
  unfold State.failRun
  extract_lets _ t1 t2 t3 t4
  have h1 : footing t1 = F := footing_ite (footing_modCtx h fun _ => rfl) h
  have h2 : footing t2 = F := footing_noteSlow h1
  have h3 : footing t3 = F := footing_ite h2 (footing_failHeader (footing_foldl h2 (fun _ _ ht => footing_vaScramble ht)))
  have h4 : footing t4 = F := footing_ite h3 (footing_abortAll h3)
  exact footing_endCmd (footing_dropRun (footing_dropFence h4))

theorem footing_failMine {r : CollRun} {st : Status} (h : footing s = F) : footing (s.failMine r st) = F :=
  footing_failRun h

/-! ## Tasks and commands that are killed -/

theorem footing_scrambleDst {L : Nat} {d : List (Space × Nat × Nat)} (h : footing s = F) :
    footing (s.scrambleDst L d) = F := by
  refine footing_foldl h fun t r ht => ?_
  split
  · exact footing_memScramble ht
  · exact footing_modCore (footing_freeBytes ht)
  · exact footing_modCore (footing_freeBytes ht)

theorem footing_finishTask {L : Nat} (h : footing s = F) : footing (s.finishTask L) = F := by
  unfold State.finishTask
  extract_lets cs
  split
  · exact h
  · exact footing_modCmd h

theorem footing_dropPen {L : Nat} (h : footing s = F) : footing (s.dropPen L) = F := h

theorem footing_killTask {L : Nat} {st : Status} (h : footing s = F) : footing (s.killTask L st) = F := by
  unfold State.killTask
  extract_lets c1 t2 _ _ t3 t4
  have h2 : footing t2 = F := footing_foldl h (fun _ _ ht => footing_scrambleDst ht)
  have h3 : footing t3 = F := h2
  have h4 : footing t4 = F := footing_modCore (footing_dropPen h3)
  exact footing_ite h (footing_finishTask h4)

theorem footing_rebind {L : Nat} (h : footing s = F) : footing (s.rebind L).2 = F := by
  unfold State.rebind
  split
  · extract_lets t
    have ht : footing t = F := footing_frame h rfl rfl rfl
    exact footing_snd_mk (footing_logRebind (footing_modCore ht))
  · exact footing_modCore h

theorem footing_killCore {L : Nat} {st : Status} (h : footing s = F) : footing (s.killCore L st) = F :=
  footing_when (footing_killTask h) fun ht => footing_rebind ht

theorem footing_discardTasks {k : CmdKey} (h : footing s = F) : footing (s.discardTasks k) = F :=
  footing_foldl h fun _ _ ht => footing_modCmd (footing_modCore ht)

theorem footing_dropCmdPen {k : CmdKey} (h : footing s = F) : footing (s.dropCmdPen k) = F := h

theorem footing_killCmd {k : CmdKey} {st : Status} (h : footing s = F) : footing (s.killCmd k st) = F := by
  unfold State.killCmd
  split
  · exact h
  · exact footing_ite h (footing_modCmd (footing_foldl
      (footing_discardTasks (footing_dropCmdPen (footing_foldl (footing_modCmd h) (fun _ _ ht => footing_failMine ht))))
      (fun _ _ ht => footing_killCore ht)))

/-! ## Packets of collectives -/

theorem footing_noteCmd {k : CmdKey} {st : Status} (h : footing s = F) : footing (s.noteCmd k st) = F := footing_modCmd h

theorem footing_metCmd {k : CmdKey} {corr slow : Bool} (h : footing s = F) : footing (s.metCmd k corr slow) = F :=
  footing_ite (footing_modCmd h) h

theorem footing_collSlow {k : CmdKey} {slow : Bool} (h : footing s = F) : footing (s.collSlow k slow) = F :=
  footing_ite h h

theorem footing_collPut {k : CmdKey} {va : Nat} {bs : List (Byte × Bool)} (h : footing s = F) :
    footing (s.collPut k va bs).2 = F :=
  footing_collSlow (footing_metCmd (footing_when (footing_vaWrite h) fun ht => footing_noteCmd ht))

theorem footing_writeElems {k : CmdKey} {va t : Nat} {xs : List (Nat × Bool)} (h : footing s = F) :
    footing (s.writeElems k va t xs).2 = F := footing_collPut h

theorem footing_dieOverflow {r : CollRun} {die : Nat} (h : footing s = F) : footing (s.dieOverflow r die) = F :=
  footing_modCmd (footing_dieEvent h)

theorem footing_collOverflow {r : CollRun} {ovs : List Bool} (h : footing s = F) : footing (s.collOverflow r ovs) = F :=
  footing_foldl h fun _ _ ht => footing_dieOverflow ht

theorem footing_collOverflows {r : CollRun} {ovs : List (List Bool)} (h : footing s = F) :
    footing (s.collOverflows r ovs) = F := footing_foldl h fun _ _ ht => footing_collOverflow ht

theorem footing_collPoison {r : CollRun} {ps : List Bool} (h : footing s = F) : footing (s.collPoison r ps) = F :=
  footing_ite (footing_noteCmd h) h

theorem footing_modDisp {k : CollKey} {g : DispRun → DispRun} (h : footing s = F) : footing (s.modDisp k g) = F :=
  footing_modRun h

theorem footing_collProgress {k : CollKey} (h : footing s = F) : footing (s.collProgress k) = F :=
  footing_progress (footing_modRun h)

theorem footing_sendAck {r : CollRun} {pk : CollPkt} (h : footing s = F) : footing (s.sendAck r pk) = F :=
  footing_sendCollTo h

theorem footing_readElems {k : CmdKey} {va t n : Nat} (h : footing s = F) : footing (s.readElems k va t n).2 = F := by
  unfold State.readElems
  extract_lets r t u
  have ht : footing t = F := footing_when (footing_vaRead h) fun hr => footing_noteCmd hr
  have hu : footing u = F := footing_collSlow (footing_metCmd ht)
  exact footing_snd_ite hu hu

theorem footing_withElems {r : CollRun} {va t n : Nat} {go : List (Nat × Bool) → State → State} (h : footing s = F)
    (hgo : ∀ x t, footing t = F → footing (go x t) = F) : footing (s.withElems r va t n go) = F := by
  unfold State.withElems
  extract_lets r1
  have h1 : footing r1.2 = F := footing_readElems h
  split
  · exact footing_failMine h1
  · exact hgo _ _ h1

theorem footing_writeRow {r : CollRun} {origin loc slot token choice : Nat} {row : List (Nat × Bool)}
    (h : footing s = F) : footing (s.writeRow r origin loc slot token choice row) = F := by
  unfold State.writeRow
  extract_lets _ _ t1 r2 _ r3
  have h1 : footing t1 = F := footing_collOverflow h
  have h2 : footing r2.2 = F := footing_writeElems h1
  have h3 : footing r3.2 = F := footing_collPut h2
  split
  · exact footing_failMine h2
  · exact footing_ite (footing_failMine h3) (footing_modRun (footing_collPoison h3))

theorem footing_takeRow {r : CollRun} {pk : CollPkt} (h : footing s = F) : footing (s.takeRow r pk) = F :=
  footing_ite h (footing_ite (footing_writeRow (footing_modRun h)) (footing_modRun h))

theorem footing_takeFlow {c unit rank dst : Nat} {f : Flow} (ht : s.takeFlow c unit rank dst = some (f, t)) (h : footing s = F) :
    footing t = F := by
  unfold State.takeFlow at ht
  extract_lets at ht
  split at ht
  · exact (Prod.mk.inj (Option.some.inj ht)).2 ▸ h
  · split at ht
    · exact (Prod.mk.inj (Option.some.inj ht)).2 ▸ h
    · split at ht
      · exact (Prod.mk.inj (Option.some.inj ht)).2 ▸ h
      · cases ht

theorem footing_form_sent {c unit rank ty : Nat} {rel : Bool} {tail : List Byte} {kind : TransKind} (h : footing s = F)
    (ht : s.form c unit rank ty rel tail kind = .sent t) : footing t = F := by
  unfold State.form at ht
  split at ht
  · cases ht
  · split at ht
    · cases ht
    · next hf =>
      dsimp only at ht
      split at ht
      · next hs =>
        cases ht
        have hflow := footing_takeFlow hf h
        exact footing_send hs hflow
      · cases ht

theorem footing_form_noRoute {c unit rank ty : Nat} {rel : Bool} {tail : List Byte} {kind : TransKind} (h : footing s = F)
    (ht : s.form c unit rank ty rel tail kind = .noRoute t) : footing t = F := by
  unfold State.form at ht
  split at ht
  · cases ht; exact footing_dieEvent h
  · split at ht
    · cases ht
    · dsimp only at ht
      split at ht
      · cases ht
      · cases ht; exact footing_dieEvent h

theorem footing_sendCounters (h : footing s = F) : footing s.sendCounters = F := by
  refine footing_foldl h fun t e ht => ?_
  dsimp only
  split
  · next hf => exact footing_form_sent ht hf
  · next hf => exact footing_form_noRoute ht hf
  · exact ht

theorem footing_layerCounters {r : CollRun} (h : footing s = F) : footing (s.layerCounters r) = F := by
  unfold State.layerCounters
  split
  · exact h
  · exact footing_ite h (footing_sendCounters h)

theorem footing_settleRun {k : CollKey} (h : footing s = F) : footing (s.settleRun k) = F := by
  unfold State.settleRun
  split
  · exact h
  · refine footing_ite h ?_
    exact footing_endCmd (footing_dropRun (footing_noteSlow
      (footing_when (footing_unless (footing_layerCounters h) fun ht => footing_abortAll ht) fun ht => ht)))

theorem footing_ownerEnds {k : CollKey} (h : footing s = F) : footing (s.ownerEnds k) = F := by
  unfold State.ownerEnds
  split
  · exact h
  · split
    · exact h
    · split
      · exact h
      · extract_lets mine z hd p t
        have hz : footing z.2 = F := footing_snd_foldl h fun _ _ hy => footing_snd_mk (footing_collPut hy)
        have ht : footing t = F := footing_frame hz rfl rfl rfl
        exact footing_ite (footing_failMine hz) (footing_modRun ht)

theorem footing_acceptColl {port : Nat} {r : CollRun} {pk : CollPkt} (h : footing s = F) :
    footing (s.acceptColl port r pk) = F := by
  unfold State.acceptColl
  extract_lets k t r u v w
  have ht : footing t = F := footing_collProgress h
  have hu : footing u = F := footing_modRun ht
  have hv : footing v = F := footing_takeRow hu
  have hw : footing w = F := footing_modRun hv
  exact footing_ite (footing_when ht fun ht => footing_sendAck ht)
    (footing_ite hu (footing_ite hv (footing_settleRun (footing_ownerEnds (footing_sendAck hw)))))

theorem footing_fxProgressPacket {k : CollKey} {t : Nat} {slow : Bool} {r : CollRun} (h : footing s = F) :
    footing (fxProgressPacket k t slow r s) = F :=
  footing_when (footing_when h fun ht => footing_modRun ht) fun ht => footing_progress (footing_modRun ht)

theorem footing_grantRound {r : CollRun} {x : DispRun} (h : footing s = F) : footing (s.grantRound r x) = F :=
  footing_modDisp (footing_foldl h (fun _ _ ht => footing_ite ht (footing_tellMember ht)))

theorem footing_sendPackets {r : CollRun} {x : SentChunk} (h : footing s = F) : footing (s.sendPackets r x) = F := by
  unfold State.sendPackets
  split
  · exact h
  · exact footing_foldl h fun _ _ ht => footing_sendCollTo ht

theorem footing_sendChunk {r : CollRun} {x : SentChunk} (h : footing s = F) : footing (s.sendChunk r x) = F :=
  footing_modRun (footing_sendPackets h)

theorem footing_sendRow {r : CollRun} {x : DispRun} {t j e slot : Nat} (h : footing s = F) :
    footing (s.sendRow r x t j e slot) = F :=
  footing_ite (footing_failMine (footing_collPut h))
    (footing_withElems (footing_collPut h) (fun _ _ ht => footing_ite
    (footing_writeRow (footing_dieEvent (footing_collPoison (footing_collOverflow ht))))
    (footing_sendChunk (footing_dieEvent (footing_collPoison (footing_collOverflow ht))))))

theorem footing_dropChoice {r : CollRun} {t j : Nat} (h : footing s = F) : footing (s.dropChoice r t j) = F := by
  unfold State.dropChoice
  extract_lets f v w
  have hw : footing w.2 = F := footing_collPut (footing_free h)
  exact footing_ite (footing_failMine hw) (footing_modDisp (footing_dieEvent hw))

theorem footing_reject {r : CollRun} {acc : List (Nat × Nat × Nat)} {tj : Nat × Nat} (h : footing s = F) :
    footing (s.reject r acc tj).2 = F := by
  unfold State.reject
  split
  · exact h
  · refine footing_snd_ite (footing_dropChoice h) ?_
    split
    · exact footing_dropChoice h
    · exact footing_snd_ite (footing_dropChoice (footing_modDisp h)) (footing_modDisp (footing_dieEvent (footing_modDisp h)))

theorem footing_sendClaims {k : CollKey} (h : footing s = F) : footing (s.sendClaims k) = F := by
  unfold State.sendClaims
  split
  · exact h
  · split
    · exact h
    · exact footing_modDisp (footing_foldl h (fun _ _ ht => footing_ite ht (footing_tellMember ht)))

theorem footing_dataDone {r : CollRun} {ovs : List (List Bool)} {ps : List Bool} {n : Nat} {sends : List SentChunk}
    (h : footing s = F) : footing (s.dataDone r ovs ps n sends) = F :=
  footing_settleRun (footing_collProgress (footing_modRun
    (footing_foldl (footing_foldl (footing_collPoison (footing_collOverflows h)) (fun _ _ ht => footing_dieEvent ht))
    (fun _ _ ht => footing_sendChunk ht))))

theorem footing_takeRound {r : CollRun} {x : DispRun} (h : footing s = F) : footing (s.takeRound r x) = F := by
  unfold State.takeRound
  extract_lets k a t u z
  have hu : footing u = F := footing_foldl (footing_modDisp h) fun _ _ ht => footing_ite ht (footing_sendRow ht)
  have hz : footing z.2 = F := footing_snd_foldl hu fun _ _ hy => footing_reject hy
  exact footing_ite (footing_sendClaims (footing_modDisp hz)) (footing_dataDone (footing_modDisp hz))

theorem footing_pump {k : CollKey} {fuel : Nat} (h : footing s = F) : footing (s.pump k fuel) = F := by
  induction fuel generalizing s with
  | zero => exact h
  | succ fuel ih =>
    simp only [State.pump]
    split
    · exact h
    · split
      · exact h
      · exact footing_ite (ih (footing_grantRound h)) (footing_ite (ih (footing_takeRound h)) (footing_settleRun (footing_ownerEnds h)))

theorem footing_fxClaimCount {k : CollKey} {m : Nat} {cs : List Claim} {r : CollRun} (h : footing s = F) :
    footing (fxClaimCount k m cs r s) = F :=
  footing_ite h (footing_ite h (footing_pump (footing_collProgress (footing_modDisp h))))

theorem footing_fxGrant {k : CollKey} {m : Nat} {gs : List Grant} {r : CollRun} (h : footing s = F) :
    footing (fxGrant k m gs r s) = F := by
  unfold fxGrant
  split
  · exact h
  · exact footing_ite h (footing_pump (footing_collProgress (footing_modDisp h)))

theorem footing_fxGnExchange {k : CollKey} {sums : List (BitVec 64 × BitVec 64)} {r : CollRun} (h : footing s = F) :
    footing (fxGnExchange k sums r s) = F := by
  unfold fxGnExchange
  split
  · exact h
  · split
    · exact h
    · extract_lets _ _ _ _ _ _ _ t w
      have hw : footing w.2 = F := footing_collPut (footing_foldl h fun _ _ ht => footing_dieOverflow ht)
      exact footing_ite (footing_failMine hw) (footing_settleRun (footing_collProgress (footing_modRun hw)))

theorem footing_collMsg {k : CollKey} {r : CollRun} {m : CollMsg} (h : footing s = F) :
    footing (s.collMsg k r m) = F := by
  cases m with
  | ack x => exact footing_settleRun (footing_modRun h)
  | progress t slow => exact footing_fxProgressPacket h
  | abort st rank => exact footing_ite h (footing_failRun h)
  | claims m l => exact footing_fxClaimCount h
  | grants m l => exact footing_fxGrant h
  | sums l => exact footing_fxGnExchange h

theorem footing_answerAbort {pk : CollPkt} {st : Status} (h : footing s = F) : footing (s.answerAbort pk st) = F :=
  footing_sendCollTo h

theorem footing_dropColl {port : Nat} {pk : CollPkt} (h : footing s = F) : footing (s.dropColl port pk) = F :=
  footing_answerAbort (footing_dieEvent h)

theorem footing_afterEnd {pk : CollPkt} (h : footing s = F) : footing (s.afterEnd pk) = F := by
  unfold State.afterEnd
  split
  · exact h
  · exact footing_ite (footing_sendCollTo h) h

theorem footing_beginAnew {pk : CollPkt} (h : footing s = F) : footing (s.beginAnew pk) = F :=
  footing_ite h h

theorem footing_holdEarly {port : Nat} {pk : CollPkt} (h : footing s = F) : footing (s.holdEarly port pk) = F :=
  footing_beginAnew h

theorem footing_noteAbort {pk : CollPkt} (h : footing s = F) : footing (s.noteAbort pk) = F := by
  unfold State.noteAbort
  split
  · exact footing_ite h (footing_dieEvent h)
  · exact h

theorem footing_collGo {port : Nat} {pk : CollPkt} (h : footing s = F) : footing (s.collGo port pk) = F := by
  unfold State.collGo
  refine footing_ite (footing_dropColl h) ?_
  split
  · exact footing_afterEnd h
  · refine footing_ite (footing_answerAbort (footing_failMine h)) ?_
    split
    · exact footing_acceptColl h
    · exact footing_collMsg h

theorem footing_collIn {port : Nat} {pk : CollPkt} (h : footing s = F) : footing (s.collIn port pk) = F :=
  footing_ite (footing_dieEvent (footing_holdEarly (footing_noteAbort h))) (footing_ite (footing_dropColl h) (footing_collGo (footing_noteAbort h)))

theorem footing_unstick (h : footing s = F) : footing s.unstick = F := by
  refine footing_fst_foldl h fun y e hy => ?_
  extract_lets q
  split
  · exact hy
  · exact footing_collIn (footing_freeUnits hy)

end Sys2Proof.Laws
end

section
/-! # The footing of a recovery: the reset of a context, and a rank that moves -/

namespace Sys2Proof.Laws
open Sys2Proof Sys2Proof.Machine

variable {s t : State} {F : Footing}

/-! ## The reset of a context -/

theorem footing_penEntry {c id : Nat} (h : footing s = F) : footing (s.penEntry c id).2 = F := by
  unfold State.penEntry
  exact footing_snd_ite h (footing_snd_mk (footing_tableRead h))

theorem footing_emptySlot {key : Nat} (h : footing s = F) : footing (s.emptySlot key) = F := by
  unfold State.emptySlot
  refine footing_setSlot ?_
  split
  · exact footing_penEntry h
  · exact h

theorem footing_emptySlots {p : Slot → Bool} (h : footing s = F) : footing (s.emptySlots p) = F :=
  footing_foldl h fun _ _ ht => footing_emptySlot ht

theorem footing_penReset {c : Nat} (h : footing s = F) : footing (s.penReset c) = F :=
  footing_emptySlots h

theorem footing_killTasksOf {c : Nat} (h : footing s = F) : footing (s.killTasksOf c) = F :=
  footing_foldl h fun _ _ ht => footing_when (footing_modCore ht) fun hu => footing_killCore hu

theorem footing_dropStuck {c : Nat} (h : footing s = F) : footing (s.dropStuck c) = F :=
  footing_unstick (footing_foldl h (fun _ _ ht => footing_freeUnits ht))

theorem footing_dropReqs {p : UmPath} (h : footing s = F) : footing (s.dropReqs p) = F := h

theorem footing_svcReset {c : Nat} (h : footing s = F) : footing (s.svcReset c) = F := footing_dropReqs (footing_modCtx h fun _ => rfl)

theorem footing_closeSessions (h : footing s = F) : footing s.closeSessions = F := h

/-! ## A rank that moves -/

theorem footing_respond {pk : List Byte} {st : Status} {data : Option (List Byte)} (h : footing s = F) :
    footing (s.respond pk st data) = F := footing_send_getD h

theorem footing_noWay {p : Nat} {pk : List Byte} (h : footing s = F) : footing (s.noWay p pk) = F :=
  footing_respond (footing_dieEvent h)

theorem footing_rerouteOne {p k : Nat} {q : QPacket} (h : footing s = F) : footing (s.rerouteOne p k q) = F := by
  unfold State.rerouteOne
  dsimp only
  split
  · exact footing_enqueue h
  · exact footing_noWay (footing_giveBack h)

theorem footing_rerouteFrom {p : Nat} (h : footing s = F) : footing (s.rerouteFrom p) = F := by
  unfold State.rerouteFrom
  split
  · exact h
  · exact footing_ite h (footing_foldl (footing_foldl h (fun _ _ ht => footing_modPort ht)) (fun _ _ ht => footing_rerouteOne ht))

theorem footing_rerouteAll (h : footing s = F) : footing s.rerouteAll = F :=
  footing_foldl h fun _ _ ht => footing_rerouteFrom ht

theorem footing_publishPorts (h : footing s = F) : footing s.publishPorts = F :=
  footing_foldl h fun _ _ ht => footing_foldl ht (fun _ _ ht1 => footing_mgmt ht1)

theorem footing_wakeBy {code : Nat} (h : footing s = F) : footing (s.wakeBy code) = F :=
  footing_ite h (footing_ite h (footing_ite h (footing_ite h h)))

/-- The part of the footing that is not of a context. A module that takes a rank takes its parity too, so its contexts do not keep theirs. -/
def ranks (s : State) : Tab (BitVec 32) × Nat := (s.xl.rankMap, s.rbd.recState)

theorem ranks_of_footing (h : footing t = footing s) : ranks t = ranks s := congrArg Prod.snd h

theorem ranks_takeParity (s : State) (rank : Nat) : ranks (s.takeParity rank) = ranks s :=
  List.foldlRecOn (motive := fun u => ranks u = ranks s) (List.range 16) _ rfl fun _ hu _ _ => hu

theorem ranks_takeRank (s : State) : ranks s.takeRank = ranks s := by
  unfold State.takeRank
  extract_lets me r was rbd t rbd' u v
  clear_value r
  have hu : ranks u = ranks s := by
    dsimp only [u]
    split
    · rfl
    · split
      · exact ranks_takeParity _ _
      · rfl
  have hv : ranks v = ranks s := by
    dsimp only [v]
    split
    · exact (ranks_of_footing (footing_wakeBy rfl)).trans hu
    · exact hu
  split
  · exact (ranks_of_footing (footing_enterSafeHold rfl)).trans hv
  · exact hv

theorem ranks_followMap (s : State) : ranks s.followMap = ranks s :=
  (ranks_of_footing (footing_publishPorts (footing_rerouteAll rfl))).trans (ranks_takeRank s)

end Sys2Proof.Laws
end

section
/-! # Recovery (O48) -/

namespace Sys2Proof.Laws
open Sys2Proof Sys2Proof.Machine Sys2Proof.Claim

variable {s : State} {c rank : Nat}

/-! ## Halting (R283) and the reset of a context -/

/-- What a halt of contexts leaves of the footing: the newest globally sealed cuts and the rank map. -/
def cutsAndRanks (s : State) : (Nat → Option Seal) × Tab (BitVec 32) := (fun d => (s.ctx d).sealGlobal, s.xl.rankMap)

theorem cutsAndRanks_of_footing {t : State} (h : footing t = footing s) : cutsAndRanks t = cutsAndRanks s :=
  Prod.ext (funext fun d => sealGlobal_of_footing h d) (rankMap_of_footing h)

theorem cutsAndRanks_modCtx {g : CtxState → CtxState} (hg : ∀ x, (g x).sealGlobal = x.sealGlobal) :
    cutsAndRanks (s.modCtx c g) = cutsAndRanks s := by
  refine Prod.ext (funext fun d => ?_) rfl
  show ((s.modCtx c g).ctx d).sealGlobal = (s.ctx d).sealGlobal
  rcases eq_or_ne d c with rfl | hne
  · rw [ctx_modCtx, hg]
  · exact congrArg CtxState.sealGlobal (ctx_setCtx_ne s c d _ hne)

theorem cutsAndRanks_haltCtx (s : State) (c : Nat) : cutsAndRanks (s.haltCtx c) = cutsAndRanks s :=
  (cutsAndRanks_of_footing (footing_foldl rfl fun _ _ ht => footing_killCmd ht)).trans (cutsAndRanks_modCtx fun _ => rfl)

theorem cutsAndRanks_halt (s : State) (m : Nat) : cutsAndRanks (s.halt m) = cutsAndRanks s := by
  unfold State.halt
  extract_lets cs t
  split
  · rfl
  · refine (cutsAndRanks_of_footing (footing_foldl (footing_dump rfl) fun _ _ hu => footing_mgmt hu)).trans ?_
    exact List.foldlRecOn (motive := fun u => cutsAndRanks u = cutsAndRanks s) cs _ rfl
      fun u hu d _ => (cutsAndRanks_haltCtx u d).trans hu

/-- A context that is reset is not halted. -/
theorem halted_ctxReset (s : State) (c : Nat) : ((s.ctxReset c).ctx c).halted = false := by
  unfold State.ctxReset
  extract_lets t u v xl fab coll w
  have hu : (u.ctx c).halted = false := congrArg CtxState.halted (ctx_modCtx t c CtxState.afterReset)
  have hv : footing v = footing u := footing_penReset (footing_killTasksOf rfl)
  have hw : footing w = footing u := footing_frame hv rfl rfl rfl
  have hend : footing ((w.dropStuck c).svcReset c).closeSessions = footing u := footing_closeSessions (footing_svcReset (footing_dropStuck hw))
  exact (halted_of_footing hend c).trans hu

/-! ## The steps of a recovery (R278, R297 to R301) -/

section
variable {spare : Option Nat} {short : Bool}

/-- The state in which a lost rank has been recorded. -/
def lossRecorded (s : State) (rank : Nat) : State := { s with rbd.lastLost := BitVec.ofNat 17 rank }

/-- With recovery disabled only the loss is recorded. -/
theorem fxRecoveryHaltRebind_disabled (ha : s.alive = true) (he : s.obj 0x4003 1 = 0) :
    fxRecoveryHaltRebind c rank spare short s = lossRecorded s rank := by
  have hr : (lossRecorded s rank).obj 0x4003 1 = 0 := he
  simp only [fxRecoveryHaltRebind, ha, Bool.not_true, Bool.false_eq_true, if_false]
  exact if_pos hr

/-- A loss that waits for nothing halts the context and rebinds the rank. -/
theorem fxRecoveryHaltRebind_goes (ha : s.alive = true) (he : s.obj 0x4003 1 ≠ 0)
    (hw : ¬(s.obj 0x4003 2 = 2 ∧ (lossRecorded s rank).leads rank = true ∧ (!s.rbd.recConfirm) = true)) :
    fxRecoveryHaltRebind c rank spare short s = (lossRecorded s rank).haltRebind c rank spare short := by
  have hr : (lossRecorded s rank).obj 0x4003 1 ≠ 0 := he
  simp only [fxRecoveryHaltRebind, ha, Bool.not_true, Bool.false_eq_true, if_false]
  exact (if_neg hr).trans (if_neg hw)

/-- In mode 2 a loss without the host's confirmation waits for it. -/
theorem fxRecoveryHaltRebind_waits (ha : s.alive = true) (he : s.obj 0x4003 1 ≠ 0) (hm : s.obj 0x4003 2 = 2)
    (hl : (lossRecorded s rank).leads rank = true) (hn : s.rbd.recConfirm = false) :
    fxRecoveryHaltRebind c rank spare short s = { lossRecorded s rank with rbd.recWait := some rank } := by
  have hr : (lossRecorded s rank).obj 0x4003 1 ≠ 0 := he
  simp only [fxRecoveryHaltRebind, ha, Bool.not_true, Bool.false_eq_true, if_false]
  exact (if_neg hr).trans (if_pos ⟨hm, hl, by rw [hn]; rfl⟩)

end

theorem actConfirm_waiting (hw : s.rbd.recWait.isSome = true) : actConfirm s = (0, { s with rbd.recConfirm := true }) := if_pos hw

/-- A step that restores or rebuilds acts in state 4 alone. -/
theorem fxRecoveryStateRebuild_other {p : RebuildIn} (hs : s.rbd.recState ≠ 4) : fxRecoveryStateRebuild c p s = s := by
  simp [fxRecoveryStateRebuild, hs]

/-- A survivor sends its parts and goes back to its cut. -/
theorem fxRecoveryStateRebuild_survivor {p : RebuildIn} {g : Seal} (ha : s.alive = true) (hs : s.rbd.recState = 4)
    (hg : (s.ctx c).sealGlobal = some g) : fxRecoveryStateRebuild c p s = (s.sendParts c g).restoreCut c g := by
  simp [fxRecoveryStateRebuild, ha, hs, hg]

/-- A spare that has its rank forms its image from what it received. -/
theorem fxRecoveryStateRebuild_spare {p : RebuildIn} (ha : s.alive = true) (hs : s.rbd.recState = 4)
    (hg : (s.ctx c).sealGlobal = none) (hr : s.myRank.isSome = true) :
    fxRecoveryStateRebuild c p s = (s.takeImage c p).stepThreeDone := by
  have hn : s.myRank.isNone = false := by rw [← Option.not_isSome, hr]; rfl
  simp [fxRecoveryStateRebuild, ha, hs, hg, hn]

theorem fxRecoveryResume_other (hs : s.rbd.recState ≠ 5) : fxRecoveryResume c s = s := by
  simp [fxRecoveryResume, hs]

/-- The last step ends the recovery, with the context reset. -/
theorem fxRecoveryResume_ends (ha : s.alive = true) (hs : s.rbd.recState = 5) :
    (fxRecoveryResume c s).rbd.recState = 0 ∧ ((fxRecoveryResume c s).ctx c).halted = false := by
  have hgo : (!s.alive || s.rbd.recState != 5) = false := by rw [ha, hs]; rfl
  simp only [fxRecoveryResume, hgo, Bool.false_eq_true, if_false]
  generalize hu : s.ctxReset c = u
  have hh : (u.ctx c).halted = false := hu ▸ halted_ctxReset s c
  refine ⟨recState_of_footing (footing_event2 rfl), (halted_of_footing (footing_event2 rfl) c).trans ?_⟩
  exact hh

/-! ## A planned move and a transient loss (R304) -/

theorem rankMap_of_ranks {m : Tab (BitVec 32)} {n : Nat} (h : ranks s = (m, n)) : s.xl.rankMap = m := congrArg Prod.fst h

theorem recState_of_ranks {m : Tab (BitVec 32)} {n : Nat} (h : ranks s = (m, n)) : s.rbd.recState = n := congrArg Prod.snd h

theorem ranks_bindRank (s : State) (rank did : Nat) :
    ranks (s.bindRank rank did) = (Tab.put s.xl.rankMap rank (reBound did), s.rbd.recState) :=
  (ranks_followMap _).trans (ranks_of_footing (footing_logRebind rfl))

/-- A move of another module's rank rebinds it. -/
theorem moveRank_rebinds {spare : Nat} (hm : s.myRank ≠ some rank) (hl : s.isCoord = false) :
    Tab.get 0 (s.moveRank rank spare).xl.rankMap rank = reBound spare ∧ (s.moveRank rank spare).rbd.recState = 3 := by
  unfold State.moveRank
  extract_lets cs lead mine t rbd obs u v
  have hmine : mine = false := beq_eq_false_iff_ne.mpr hm
  have hv : v = u := if_neg (by rw [hmine]; exact Bool.false_ne_true)
  have hend : (v.bindRank rank spare).endStepTwo lead rank = u.bindRank rank spare := by
    rw [hv]
    exact if_neg (by rw [show lead = false from hl]; exact Bool.false_ne_true)
  have hranks : ranks (u.bindRank rank spare) = (Tab.put u.xl.rankMap rank (reBound spare), 3) := ranks_bindRank u rank spare
  rw [hend, rankMap_of_ranks hranks, get_put]
  exact ⟨rfl, recState_of_ranks hranks⟩

/-- The state in which a recovery has halted a context. -/
def haltedFor (s : State) (c : Nat) : State := (s.halt (2 ^ c)).modCtx c (fun x => { x with halted := true })

theorem halted_haltedFor (s : State) (c : Nat) : ((haltedFor s c).ctx c).halted = true :=
  congrArg CtxState.halted (ctx_modCtx (s.halt (2 ^ c)) c _)

theorem cutsAndRanks_haltedFor (s : State) (c : Nat) : cutsAndRanks (haltedFor s c) = cutsAndRanks s := by
  unfold haltedFor
  refine (cutsAndRanks_modCtx ?_).trans (cutsAndRanks_halt s (2 ^ c))
  exact fun _ => rfl

/-- The state in which a transient loss has halted a context. -/
def lossHalted (s : State) (c : Nat) : State := { haltedFor s c with obs.recoveryMode := true, rbd.recState := 4 }

theorem rankMap_lossHalted (s : State) (c : Nat) : (lossHalted s c).xl.rankMap = s.xl.rankMap :=
  congrArg Prod.snd (cutsAndRanks_haltedFor s c)

theorem sealGlobal_lossHalted (s : State) (c : Nat) : ((lossHalted s c).ctx c).sealGlobal = (s.ctx c).sealGlobal :=
  congrArg (fun q => q.1 c) (cutsAndRanks_haltedFor s c)

/-- A transient loss halts the context, and goes back to its newest globally sealed cut. -/
theorem fxTransientLoss_restores {g : Seal} (ha : s.alive = true) (he : s.obj 0x4003 1 ≠ 0) (hg : (s.ctx c).sealGlobal = some g) :
    fxTransientLoss c s = (lossHalted s c).restoreCut c g := by
  have hgo : (!s.alive || s.obj 0x4003 1 == 0) = false := by rw [ha, beq_eq_false_iff_ne.mpr he]; rfl
  simp only [fxTransientLoss, hgo, Bool.false_eq_true, if_false]
  show (match ((lossHalted s c).ctx c).sealGlobal with
    | some g => (lossHalted s c).restoreCut c g
    | none => (lossHalted s c).stepThreeDone) = _
  rw [sealGlobal_lossHalted, hg]

/-- A write of a context's memory leaves where its held parity lies. -/
theorem parImage_putVa (s : State) (c va : Nat) (bs : List Byte) : ((s.putVa c va bs).ctx c).parImage = (s.ctx c).parImage :=
  parImage_of_footing (footing_vaWrite rfl) c

/-- Writes from a base that no write moves. -/
theorem foldl_putVa_parImage (image : List (Nat × List Byte)) (s : State) {b : BitVec 64} (hb : b = (s.ctx c).parImage) :
    image.foldl (fun (s : State) (e : Nat × List Byte) => s.putVa c ((s.ctx c).parImage.toNat + e.1) e.2) s =
      image.foldl (fun (t : State) (e : Nat × List Byte) => t.putVa c (b.toNat + e.1) e.2) s := by
  induction image generalizing s with
  | nil => rfl
  | cons e image ih =>
    rw [List.foldl_cons, List.foldl_cons, ← hb]
    exact ih _ (hb.trans (parImage_putVa s c _ _).symm)

theorem fxHeldParityRebuild_writes {image : List (Nat × List Byte)} (ha : s.alive = true) :
    fxHeldParityRebuild c image s = (image.foldl (fun (s : State) (e : Nat × List Byte) =>
      s.putVa c ((s.ctx c).parImage.toNat + e.1) e.2) s).markParity c false := by
  rw [foldl_putVa_parImage image s rfl]
  simp [fxHeldParityRebuild, ha]

/-- Settles O48: each step acts in its own state alone, and a loss halts, rebinds or restores as its mode says. -/
theorem recoveryAdvances : Obligations.RecoveryAdvances := by
  intro s c hc ha
  have hone : s.obj 0x4003 1 = 1 → s.obj 0x4003 1 ≠ 0 := fun h => by rw [h]; exact one_ne_zero
  refine ⟨fun rank spare short he => ?_, fun rank spare short he hm => ?_, fun rank spare short he hm hn hl => ?_,
    fun rq v h hw => congrArg Host.Outcome.next ((umTry_eq h _).trans ?_), fun p g hs hg => ?_, fun p hs hg hr => ?_,
    fun hs => ⟨_, onCtx_eq hc s _, fxRecoveryResume_ends ha hs⟩, fun p hs => ?_, fun hs => ?_,
    fun rank spare he hm hd hl => ⟨s.moveRank rank spare, ?_, moveRank_rebinds hm hl⟩,
    fun rank g he hr hg => ⟨lossHalted s c, ?_, halted_haltedFor s c, rfl, rankMap_lossHalted s c⟩,
    fun image => ?_⟩
  · exact (onCtx_eq hc s _).trans (congrArg _ (fxRecoveryHaltRebind_disabled ha he))
  · exact (onCtx_eq hc s _).trans (congrArg _ (fxRecoveryHaltRebind_goes ha (hone he) fun h => hm h.1))
  · exact (onCtx_eq hc s _).trans (congrArg _ (fxRecoveryHaltRebind_waits ha (hone he) hm hl hn))
  · rw [actConfirm_waiting hw]
  · exact (onCtx_eq hc s _).trans (congrArg _ (fxRecoveryStateRebuild_survivor ha hs hg))
  · exact (onCtx_eq hc s _).trans (congrArg _ (fxRecoveryStateRebuild_spare ha hs hg hr))
  · exact (onCtx_eq hc s _).trans (congrArg _ (fxRecoveryStateRebuild_other hs))
  · exact (onCtx_eq hc s _).trans (congrArg _ (fxRecoveryResume_other hs))
  · refine congrArg Host.Outcome.next ?_
    simp [fxPlannedRankMove, ha, he, hl]
  · refine (onCtx_eq hc s _).trans (congrArg _ ?_)
    rw [if_pos hr]
    exact fxTransientLoss_restores ha (hone he) hg
  · exact (onCtx_eq hc s _).trans (congrArg _ (fxHeldParityRebuild_writes ha))

end Sys2Proof.Laws
end

section
/-! # What an event leaves, and writes that act (for O15, O33, O52) -/

namespace Sys2Proof.Laws
open Sys2Proof Sys2Proof.Machine Sys2Proof.Claim

variable {s : State} {rq : Req} {idx sub v : Nat}

/-! ## An event changes its queues alone (R358) -/

/-- What is read of a state without its event queues and without what is observed of it, an event leaves. -/
theorem event_keeps {γ : Type} (π : State → γ) (hπ : ∀ t, π (sansNotes t) = π t) (code detail : Nat) : π (s.event code detail) = π s :=
  (hπ _).symm.trans ((congrArg π (sansNotes_event code detail)).trans (hπ s))

theorem obs_event (code detail : Nat) : (s.event code detail).obs = s.obs := by
  unfold State.event
  refine foldl_kept State.obs (fun t i => ?_) _ _
  dsimp only
  split_ifs <;> rfl

/-! ## Writes (R335, R336) -/

/-- An accepted write of an action object acts and is answered with 0. -/
theorem umTry_doAct (h : accepts s rq idx sub v) (g : State → State) : s.umTry rq idx sub v (doAct g) = (g s).answerTo rq.path 0 :=
  umTry_eq h _

/-- An accepted write whose reset the state allows, and which the spec leaves without an answer. -/
theorem umTryReset_unanswered {ok : State → Bool} (h : accepts s rq idx sub v) (hok : ok s = true) (g : State → State) :
    s.umTryReset rq idx sub v ok false g = g s := by
  simp [State.umTryReset, h.1, h.2, hok]

end Sys2Proof.Laws
end

section
/-! # Failures of clocks, links and control (O15) -/

namespace Sys2Proof.Laws
open Sys2Proof Sys2Proof.Machine

variable {s : State} {code unit die cd iod : Nat}

/-! ## Entry into safe hold (R283) -/

/-- Entry into safe hold records the cause and time of its trigger, and nothing else of resilience changes. -/
theorem rbd_enterSafeHold (h : s.rbd.safeHold = false) : (s.enterSafeHold code unit).rbd =
    { s.rbd with safeHold := true, cause := BitVec.ofNat 32 (code + unit * 256), time := s.sys.ts } := by
  unfold State.enterSafeHold
  split
  next hin => exact absurd hin (Bool.eq_false_iff.mp h)
  next =>
    extract_lets t
    exact (event_keeps State.rbd (fun _ => rfl) 0x0203 _).trans rfl

theorem pllLock_enterSafeHold : (s.enterSafeHold code unit).sys.pllLock = s.sys.pllLock := by
  unfold State.enterSafeHold
  split
  · rfl
  · extract_lets t
    exact (event_keeps (fun t => t.sys.pllLock) (fun _ => rfl) 0x0203 _).trans rfl

/-- A module that acts for programs is not in safe hold (R284). -/
theorem safeHold_of_alive (h : s.alive = true) : s.rbd.safeHold = false := by
  simp only [State.alive, Bool.and_eq_true, Bool.not_eq_true'] at h
  exact h.1.1.2

/-- A module that enters safe hold is in it, with the code and the unit of its trigger. -/
theorem enterSafeHold_holds (h : s.rbd.safeHold = false) : (s.enterSafeHold code unit).rbd.safeHold = true ∧
    (s.enterSafeHold code unit).rbd.cause = BitVec.ofNat 32 (code + unit * 256) := by
  rw [rbd_enterSafeHold h]
  exact ⟨rfl, rfl⟩

/-! ## A PLL that loses its lock (R312, R313) -/

/-- The state in which a PLL is no longer locked. -/
def unlocked (s : State) (die : Nat) : State := { s with sys.pllLock := s.sys.pllLock &&& ~~~ (1#13 <<< die) }

theorem pllLock_unlocked (hd : die < 13) : (unlocked s die).sys.pllLock.getLsbD die = false := by
  simp [unlocked, hd]

theorem fxPllLockLoss_die (ha : s.alive = true) (hd : die ≠ 12) (hl : s.sys.pllLock.getLsbD die = true) :
    fxPllLockLoss die s = (unlocked s die).enterSafeHold 4 die := by
  rw [fxPllLockLoss, if_pos hl]
  exact (if_neg hd).trans (if_pos ha)

theorem fxPllLockLoss_controller (hl : s.sys.pllLock.getLsbD 12 = true) :
    fxPllLockLoss 12 s = { unlocked s 12 with sys.mcOnPll := false } := by
  rw [fxPllLockLoss, if_pos hl]
  rfl

theorem exec_pllLockLoss_die (hd : dieOk die = true) (hne : die ≠ 12) : exec (.pllLockLoss die) s = .next (fxPllLockLoss die s) :=
  (if_neg hne).trans (onDie_eq hd s _)

/-! ## A compute die that loses links (R12, R277) -/

/-- The state in which the link of a compute die to an I/O die is lost, with its event counted and logged. -/
def linkLost (s : State) (cd iod : Nat) : State :=
  ({ s with
    sys.dieLinks := Tab.put s.sys.dieLinks cd (NSet.insert (s.lostLinks cd) iod)
    sys.dieLinkEvents := s.sys.dieLinkEvents + 1 } : State).logRebind 3 cd iod

theorem sys_logRebind (kind logical physical : Nat) : (s.logRebind kind logical physical).sys = s.sys := by
  unfold State.logRebind
  extract_lets l t
  exact (event_keeps State.sys (fun _ => rfl) 0x0201 _).trans rfl

theorem safeHold_logRebind (kind logical physical : Nat) : (s.logRebind kind logical physical).rbd.safeHold = s.rbd.safeHold := by
  unfold State.logRebind
  extract_lets l t
  exact (event_keeps (fun u => u.rbd.safeHold) (fun _ => rfl) 0x0201 _).trans rfl

theorem lostLinks_linkLost : (linkLost s cd iod).lostLinks cd = NSet.insert (s.lostLinks cd) iod := by
  rw [linkLost, State.lostLinks, sys_logRebind, get_put]

theorem safeHold_linkLost : (linkLost s cd iod).rbd.safeHold = s.rbd.safeHold := by
  rw [linkLost, safeHold_logRebind]

theorem fxDieLinkFailure_eq (ha : s.alive = true) (hr : s.sys.regulators = true) (hm : NSet.mem (s.lostLinks cd) iod = false) :
    fxDieLinkFailure cd iod s =
      if 2 ≤ (NSet.insert (s.lostLinks cd) iod).length then (linkLost s cd iod).enterSafeHold 3 cd else linkLost s cd iod := by
  rw [← lostLinks_linkLost]
  simp only [fxDieLinkFailure, linkLost, ha, hr, hm, Bool.not_true, Bool.or_self, Bool.false_eq_true, if_false]

/-- A link that joins the lost ones makes them one more. -/
theorem length_insert_of_not_mem {t : NSet} {k : Nat} (h : NSet.mem t k = false) : (NSet.insert t k).length = t.length + 1 := by
  induction t with
  | nil => rfl
  | cons j t ih =>
    simp only [NSet.mem, List.contains_cons, Bool.or_eq_false_iff, beq_eq_false_iff_ne] at h
    unfold NSet.insert
    split_ifs with hlt heq
    · rfl
    · exact absurd heq h.1
    · exact congrArg (· + 1) (ih h.2)

theorem exec_dieLinkFailure_eq (hc : cdOk cd = true) (hi : iodOk iod = true) :
    exec (.dieLinkFailure cd iod) s = .next (fxDieLinkFailure cd iod s) :=
  (onCd_eq hc s _).trans (congrArg _ (if_pos hi))

/-- The first lost link leaves the module in operation. -/
theorem dieLinkFailure_first (ha : s.alive = true) (hr : s.sys.regulators = true) (h0 : s.lostLinks cd = []) :
    (fxDieLinkFailure cd iod s).rbd.safeHold = false ∧ (fxDieLinkFailure cd iod s).lostLinks cd = [iod] := by
  have hins : NSet.insert (s.lostLinks cd) iod = [iod] := by rw [h0]; rfl
  rw [fxDieLinkFailure_eq ha hr (by rw [h0]; rfl), hins, if_neg (by simp)]
  exact ⟨safeHold_linkLost.trans (safeHold_of_alive ha), lostLinks_linkLost.trans hins⟩

/-- The second puts the die beyond reach. -/
theorem dieLinkFailure_second {j : Nat} (ha : s.alive = true) (hr : s.sys.regulators = true) (hm : NSet.mem (s.lostLinks cd) iod = false)
    (h1 : s.lostLinks cd = [j]) : fxDieLinkFailure cd iod s = (linkLost s cd iod).enterSafeHold 3 cd := by
  have hlen : (NSet.insert (s.lostLinks cd) iod).length = 2 := by rw [length_insert_of_not_mem hm, h1]; rfl
  rw [fxDieLinkFailure_eq ha hr hm, hlen, if_pos le_rfl]

/-! ## Failed checks of control (R277, R283) -/

theorem exec_controlCheckFailure_eq {lost : Bool} (ha : s.alive = true) (hd : dieOk die = true) : exec (.controlCheckFailure die lost) s =
    .next (s.enterSafeHold (if lost && decide (die < 8) then 3 else 4) die) :=
  (onDie_eq hd s _).trans (congrArg _ (if_pos ha))

/-- A compute die is a die. -/
theorem dieOk_of_cdOk (h : cdOk cd = true) : dieOk cd = true :=
  decide_eq_true (Nat.lt_trans (of_decide_eq_true h) (by decide))

/-- Settles O15: each trigger but the management controller's own PLL ends in `State.enterSafeHold` with its code and unit. -/
theorem clockAndLinkFailuresEnterSafeHold : Obligations.ClockAndLinkFailuresEnterSafeHold := by
  intro s ha
  have hs : s.rbd.safeHold = false := safeHold_of_alive ha
  refine ⟨fun die hd hne hl => ?_, fun hl => ?_, fun hl hp => ?_, fun cd iod hc hi hr hm => ⟨fun h0 => ?_, fun j h1 => ?_⟩,
    fun die hd => ⟨_, exec_controlCheckFailure_eq ha hd, ?_⟩, fun cd hc => ⟨_, exec_controlCheckFailure_eq ha (dieOk_of_cdOk hc), ?_⟩⟩
  · have hlt : die < 13 := Nat.lt_trans (of_decide_eq_true hd) (by decide)
    have hold := enterSafeHold_holds (s := unlocked s die) (code := 4) (unit := die) hs
    refine ⟨_, exec_pllLockLoss_die hd hne, ?_⟩
    rw [fxPllLockLoss_die ha hne hl]
    exact ⟨hold.1, hold.2, by rw [pllLock_enterSafeHold, pllLock_unlocked hlt]⟩
  · refine ⟨fxPllLockLoss 12 s, rfl, ?_⟩
    rw [fxPllLockLoss_controller hl]
    exact ⟨rfl, rfl, pllLock_unlocked (by decide)⟩
  · have hgo : (s.sys.pllLock.getLsbD 12 && s.pwr.state != 2) = true := by rw [hl, bne_iff_ne.mpr hp]; rfl
    exact congrArg Host.Outcome.next (if_pos hgo)
  · exact ⟨_, exec_dieLinkFailure_eq hc hi, dieLinkFailure_first ha hr h0⟩
  · refine ⟨_, exec_dieLinkFailure_eq hc hi, ?_⟩
    rw [dieLinkFailure_second ha hr hm h1]
    exact enterSafeHold_holds (safeHold_linkLost.trans hs)
  · exact enterSafeHold_holds hs
  · have hcd : (true && decide (cd < 8)) = true := hc
    rw [if_pos hcd]
    exact enterSafeHold_holds hs

end Sys2Proof.Laws
end

section
/-! # The power limiter and the thermal limits of a die (O33) -/

namespace Sys2Proof.Laws
open Sys2Proof Sys2Proof.Machine Sys2Proof.Claim

variable {s : State} {d w : Nat} {v : BitVec 32}

/-! ## Samples and steps of the limiter (R318 to R320) -/

theorem exec_powerSample_eq (hr : s.sys.regulators = true) (ht : s.pwr.thermTrip = false) :
    exec (.powerSample w) s = .next (s.sample w) := by
  have hgo : (s.sys.regulators && !s.pwr.thermTrip) = true := by rw [hr, ht]; rfl
  exact congrArg Host.Outcome.next (if_pos hgo)

theorem samples_sample : (s.sample w).pwr.samples = (s.pwr.samples ++ [w]).drop ((s.pwr.samples ++ [w]).length - 10000) := by
  simp only [State.sample]

theorem limitHit_sample (h : s.pwr.limitHit = true) : (s.sample w).pwr.limitHit = true := by simp [State.sample, h]

/-- The state after a step of the limiter, before its event: DUTY goes down while it is above 4, then the divisor is slowed. -/
def limited (s : State) : State :=
  let t : State := if 4 < s.pwr.duty then { s with pwr.duty := s.pwr.duty - 1 }
    else { s with pwr.effDiv := Nat.min 2 (s.divCode + 1) }
  { t with pwr.limiterSteps := t.pwr.limiterSteps + 1 }

theorem pwr_fxLimiterStep (hg : s.mayGate = true) : (fxLimiterStep s).pwr = (limited s).pwr := by
  have hstep : fxLimiterStep s =
      if (s.pwr.duty == 16 && s.coreDiv == s.obj 0x3020 1) = true then (limited s).event 0x0403 (limited s).pwrStatus else limited s := by
    simp only [fxLimiterStep, hg, Bool.not_true, Bool.false_eq_true, if_false]
    rfl
  rw [hstep]
  split
  · exact event_keeps State.pwr (fun _ => rfl) 0x0403 _
  · rfl

theorem limited_duty (h : 4 < s.pwr.duty) : (limited s).pwr.duty = s.pwr.duty - 1 ∧ (limited s).pwr.effDiv = s.pwr.effDiv := by
  simp [limited, h]

theorem limited_divisor (h : s.pwr.duty ≤ 4) :
    (limited s).pwr.duty = s.pwr.duty ∧ (limited s).pwr.effDiv = Nat.min 2 (s.divCode + 1) := by
  simp [limited, Nat.not_lt.mpr h]

theorem fxLimiterRestoreStep_eq (hg : s.mayGate = true) (hb : s.belowLimit = true) : fxLimiterRestoreStep s =
    if s.obj 0x3020 1 < s.coreDiv then { s with pwr.effDiv := s.divCode - 1 }
    else { s with pwr.effDiv := 0, pwr.duty := Nat.min 16 (s.pwr.duty + 1) } := by
  simp only [fxLimiterRestoreStep, hg, hb, Bool.not_true, Bool.or_self, Bool.false_eq_true, if_false]

theorem powerLimiterSteps_holds : powerLimiterSteps := by
  intro s
  refine ⟨fun w hr ht => ⟨_, exec_powerSample_eq hr ht, samples_sample, limitHit_sample⟩,
    fun hg => ⟨fun h => ⟨fxLimiterStep s, rfl, ?_⟩, fun h => ⟨fxLimiterStep s, rfl, ?_⟩, fun hb hlt => ?_, fun hb hle => ?_⟩,
    fun rq v hm hv => congrArg Host.Outcome.next (umTry_doAct ⟨hm, hv⟩ _)⟩
  · rw [pwr_fxLimiterStep hg]
    exact limited_duty h
  · rw [pwr_fxLimiterStep hg]
    exact limited_divisor h
  · exact congrArg Host.Outcome.next ((fxLimiterRestoreStep_eq hg hb).trans (if_pos hlt))
  · exact congrArg Host.Outcome.next ((fxLimiterRestoreStep_eq hg hb).trans (if_neg (Nat.not_lt.mpr hle)))

/-! ## The throttle of a die (R321) -/

theorem nset_mem_remove_self (t : NSet) (k : Nat) : NSet.mem (NSet.remove t k) k = false := by
  simp [NSet.mem, NSet.remove]

theorem dieThrottled_setThrottle (s : State) (d : Nat) (on : Bool) : (s.setThrottle d on).dieThrottled d = on := by
  by_cases h : d < 8 <;> cases on <;> simp [State.setThrottle, State.dieThrottled, h, nset_mem_insert_self, nset_mem_remove_self]

theorem mem_setThrottle (s : State) (d : Nat) (on : Bool) : (s.setThrottle d on).mem = s.mem := by
  unfold State.setThrottle
  dsimp only
  split <;> rfl

theorem dieTemp_setThrottle (s : State) (d : Nat) (on : Bool) : (s.setThrottle d on).pwr.dieTemp = s.pwr.dieTemp := by
  unfold State.setThrottle
  dsimp only
  split <;> rfl

/-- The state in which a reading of a die's temperature is kept. -/
def readingKept (s : State) (d : Nat) (v : BitVec 32) : State := { s with pwr.dieTemp := Tab.put s.pwr.dieTemp d v }

theorem dieTemp_readingKept : Tab.get 0 (readingKept s d v).pwr.dieTemp d = v := get_put _ _ _ _

theorem fxDieTempReading_eq (hv : s.sys.vaux = true) : fxDieTempReading d v s =
    if f32le (.fin false 110 0) (f32 v.toNat) then (readingKept s d v).thermalTrip
    else if f32le (f32 (s.obj 0x3201 1)) (f32 v.toNat) then
      if s.dieThrottled d then readingKept s d v
      else ((readingKept s d v).setThrottle d true).event 0x0403 ((readingKept s d v).setThrottle d true).pwrStatus
    else if f32le (f32 v.toNat) s.dieRelease then (readingKept s d v).setThrottle d false
    else readingKept s d v := by
  simp only [fxDieTempReading, hv, Bool.not_true, Bool.false_eq_true, if_false]
  rfl

theorem thermalTrip_trips (h : s.pwr.thermTrip = false) : s.thermalTrip.pwr.thermTrip = true ∧ s.thermalTrip.sys.regulators = false ∧
    s.thermalTrip.sys.thermtripN = false ∧ s.thermalTrip.mem.units = [] := by
  rw [State.thermalTrip, if_neg (Bool.eq_false_iff.mp h)]
  exact ⟨rfl, rfl, rfl, rfl⟩

/-- A throttle that is set has its die throttled, the reading kept and memory as it was. -/
theorem setThrottle_of_reading (on : Bool) : ((readingKept s d v).setThrottle d on).dieThrottled d = on ∧
    Tab.get 0 ((readingKept s d v).setThrottle d on).pwr.dieTemp d = v ∧ ((readingKept s d v).setThrottle d on).mem = s.mem :=
  ⟨dieThrottled_setThrottle _ _ _, by rw [dieTemp_setThrottle, dieTemp_readingKept], mem_setThrottle _ _ _⟩

theorem fxDieTempReading_hot (hv : s.sys.vaux = true) (hc : f32le (.fin false 110 0) (f32 v.toNat) = false)
    (hh : f32le (f32 (s.obj 0x3201 1)) (f32 v.toNat) = true) : (fxDieTempReading d v s).dieThrottled d = true ∧
    Tab.get 0 (fxDieTempReading d v s).pwr.dieTemp d = v ∧ (fxDieTempReading d v s).mem = s.mem := by
  rw [fxDieTempReading_eq hv, if_neg (Bool.eq_false_iff.mp hc), if_pos hh]
  split
  next hset => exact ⟨hset, dieTemp_readingKept, rfl⟩
  next =>
    obtain ⟨hthr, htemp, hmem⟩ := setThrottle_of_reading (s := s) (d := d) (v := v) true
    exact ⟨(event_keeps (fun t => t.dieThrottled d) (fun _ => rfl) 0x0403 _).trans hthr,
      (event_keeps (fun t => Tab.get 0 t.pwr.dieTemp d) (fun _ => rfl) 0x0403 _).trans htemp,
      (event_keeps State.mem (fun _ => rfl) 0x0403 _).trans hmem⟩

/-- The state after a step of a die's throttle. -/
def dutyStepped (s : State) (d : Nat) : State :=
  let x := Tab.get 16 s.pwr.dieDuty d
  { s with pwr.dieDuty := Tab.put s.pwr.dieDuty d (if s.dieThrottled d then (if 4 < x then x - 1 else x) else Nat.min 16 (x + 1)) }

theorem exec_dieThrottleStep_eq (hd : dieOk d = true) : exec (.dieThrottleStep d) s = .next (dutyStepped s d) :=
  onDie_eq hd s (fun s => dutyStepped s d)

theorem dieTemperatureActs_holds : dieTemperatureActs := by
  intro s d hd hv v
  have hexec : exec (.dieTempReading d v) s = .next (fxDieTempReading d v s) := onDie_eq hd s _
  refine ⟨fun hc ht => ⟨_, hexec, ?_⟩, fun hc hh => ⟨_, hexec, fxDieTempReading_hot hv hc hh⟩, fun hc hh hr => ⟨_, hexec, ?_⟩,
    ⟨_, exec_dieThrottleStep_eq hd, get_put _ _ _ _⟩⟩
  · rw [fxDieTempReading_eq hv, if_pos hc]
    exact thermalTrip_trips ht
  · rw [fxDieTempReading_eq hv, if_neg (Bool.eq_false_iff.mp hc), if_neg (Bool.eq_false_iff.mp hh), if_pos hr]
    exact setThrottle_of_reading false

/-- Settles O33: the limiter's part and the thermal part, whose events leave power, throttles and memory as their steps set them. -/
theorem powerAndTemperatureLimitsAct : Obligations.PowerAndTemperatureLimitsAct := by
  unfold Obligations.PowerAndTemperatureLimitsAct
  exact ⟨powerLimiterSteps_holds, dieTemperatureActs_holds⟩

end Sys2Proof.Laws
end

section
/-! # Supplies, control signals and the PCIe link (O13) -/

namespace Sys2Proof.Laws
open Sys2Proof Sys2Proof.Machine Sys2Proof.Claim

variable {s : State}

/-! ## What a change of the always-on supply leaves (R368) -/

/-- A module whose always-on supply has changed stands as after a cold reset: nothing is left of its memories, cores and objects, and the
boot flash and the fuses hold what they held. -/
theorem auxPower_leaves (s : State) (on : Bool) : (s.auxPower on).sys.vaux = on ∧ (s.auxPower on).sys.step = 1 ∧
    (s.auxPower on).sys.ready = 0 ∧ (s.auxPower on).sys.regulators = false ∧ (s.auxPower on).mem = Mem.reset ∧ (s.auxPower on).cores = [] ∧
    (s.auxPower on).um.vals = [] ∧ (s.auxPower on).sys.slotImage = s.sys.slotImage ∧ (s.auxPower on).sys.cfgStore = s.sys.cfgStore ∧
    (s.auxPower on).um.keys = s.um.keys :=
  ⟨rfl, rfl, rfl, rfl, rfl, rfl, rfl, rfl, rfl, rfl⟩

theorem exec_vaux3p3Rise_eq (h : s.sys.vaux = false) : exec .vaux3p3Rise s = .next (s.auxPower true) :=
  congrArg Host.Outcome.next (if_neg (Bool.eq_false_iff.mp h))

/-- The state in which VIN48 is lost while the regulators are on: a cold reset that waits for VIN48 (R367). -/
def inputLost (s : State) : State := { s.coldReset false with sys.vin48 := false }

theorem exec_vin48Loss_off (h : s.sys.regulators = false) : exec .vin48Loss s = .next { s with sys.vin48 := false } := by
  show Host.Outcome.next { (if s.sys.regulators then s.coldReset false else s) with sys.vin48 := false } = _
  rw [h]
  rfl

theorem exec_vin48Loss_on (h : s.sys.regulators = true) : exec .vin48Loss s = .next (inputLost s) := by
  show Host.Outcome.next { (if s.sys.regulators then s.coldReset false else s) with sys.vin48 := false } = _
  rw [h]
  rfl

theorem suppliesAct_holds : suppliesAct := by
  intro s
  obtain ⟨hon, hstep, hready, -, hmem, hcores, -, himage, hstore, -⟩ := auxPower_leaves s true
  obtain ⟨hoff, -, -, hreg, hmem', -, hvals, himage', hstore', hkeys⟩ := auxPower_leaves s false
  exact ⟨fun h => ⟨_, exec_vaux3p3Rise_eq h, hon, hstep, hready, hmem, hcores, himage, hstore⟩,
    ⟨_, rfl, hoff, hvals, hmem', hreg, himage', hstore', hkeys⟩, rfl, exec_vin48Loss_off,
    fun h => ⟨_, exec_vin48Loss_on h, rfl, rfl, rfl⟩⟩

/-! ## Control signals (Table 16.3) -/

section
variable {did : BitVec 17} {node : BitVec 4} {test cool : Bool}

/-- The state in which MOD_RESET_N is low: that of a cold reset. -/
def heldInReset (s : State) (cool : Bool) : State := { s.coldReset cool with sys.modResetN := false }

theorem exec_modResetN_low (hv : s.sys.vaux = true) : exec (.modResetN false did node test cool) s = .next (heldInReset s cool) := by
  refine congrArg Host.Outcome.next ?_
  simp only [fxModResetN, hv, Bool.not_true, Bool.not_false, Bool.false_eq_true, if_false, if_true]
  rfl

theorem exec_modResetN_high (hv : s.sys.vaux = true) (hr : s.sys.modResetN = false) : exec (.modResetN true did node test cool) s =
    .next { s with sys.modResetN := true, sys.strapDid := did, sys.strapNode := node, sys.strapTest := test } := by
  refine congrArg Host.Outcome.next ?_
  simp only [fxModResetN, hv, hr, Bool.not_true, Bool.false_eq_true, if_false]

end

/-- An assertion of PERST_N that follows none seen high is no warm reset (R369). -/
theorem exec_perstN_low {us : Nat} (hv : s.sys.vaux = true) (hh : s.sys.perstSeenHigh = false) : exec (.perstN false us) s = .next { s with
    sys.perstN := false
    sys.perstSeenHigh := false
    sys.linkUp := false
    sys.numVfs := 0
    sys.bar2Pf := 1
    sys.bar2Vf := 1 } := by
  refine congrArg Host.Outcome.next ?_
  simp only [fxPerstN, hv, hh, Bool.not_true, Bool.false_and, Bool.false_eq_true, if_false]

theorem wakeBy_tripped {code : Nat} (ht : s.pwr.thermTrip = true) : s.wakeBy code = s := if_pos ht

/-- A wake event in standby is recorded, and the exit begins (R316). -/
theorem wakeBy_standby {code : Nat} (ht : s.pwr.thermTrip = false) (hs : s.pwr.state = 2) :
    s.wakeBy code = { s with pwr.state := 3, pwr.wakeSource := code, pwr.wakeTime := s.sys.ts } := by
  have h1 : s.pwr.state ≠ 1 := by rw [hs]; decide
  rw [State.wakeBy, if_neg (Bool.eq_false_iff.mp ht), if_neg h1, if_pos hs]

theorem exec_wakeN_tripped {ns : Nat} (ht : s.pwr.thermTrip = true) : exec (.wakeN ns) s = .next s := by
  show Host.Outcome.next (if 1000 ≤ ns then s.wakeBy 5 else s) = _
  rw [wakeBy_tripped ht, ite_self]

/-! ## The PCIe link (R17, R373, R383) -/

theorem exec_pcieLinkTraining_eq (hm : s.mcOn = true) (hp : s.sys.perstN = true) (hc : s.sys.pcieConfigured = true) :
    exec .pcieLinkTraining s = .next { s with sys.linkUp := true } := by
  have hgo : (s.mcOn && s.sys.perstN && s.sys.pcieConfigured) = true := by rw [hm, hp, hc]; rfl
  exact congrArg Host.Outcome.next (if_pos hgo)

section
variable (hl : s.sys.linkUp = true)
include hl

theorem exec_sriovNumvfs_eq {n : Nat} (hn : n ≤ 15) : exec (.sriovNumvfs n) s = .next { s with sys.numVfs := n } := by
  have hgo : (s.sys.linkUp && decide (n ≤ 15)) = true := by rw [hl, decide_eq_true hn]; rfl
  exact congrArg Host.Outcome.next (if_pos hgo)

theorem exec_bar2Resize_pf {g : Nat} (hg : g ∈ [1, 2, 4, 8, 16, 32, 64]) :
    exec (.bar2Resize true g) s = .next { s with sys.bar2Pf := g } := by
  have hup : (!s.sys.linkUp) ≠ true := by rw [hl]; decide
  exact congrArg Host.Outcome.next ((if_neg hup).trans (if_pos (List.contains_iff_mem.mpr hg)))

theorem exec_bar2Resize_vf {g : Nat} (hg : g ∈ [1, 2, 4]) : exec (.bar2Resize false g) s = .next { s with sys.bar2Vf := g } := by
  have hup : (!s.sys.linkUp) ≠ true := by rw [hl]; decide
  exact congrArg Host.Outcome.next ((if_neg hup).trans (if_pos (List.contains_iff_mem.mpr hg)))

end

theorem controlSignalsAct_holds : controlSignalsAct := by
  intro s
  exact ⟨fun hv did node test cool => ⟨⟨_, exec_modResetN_low hv, rfl, rfl, rfl, rfl⟩, exec_modResetN_high hv,
      fun hh us => exec_perstN_low hv hh⟩,
    fun ht hs ns hn => congrArg Host.Outcome.next ((if_pos hn).trans (wakeBy_standby ht hs)),
    fun ht ns => exec_wakeN_tripped ht, exec_pcieLinkTraining_eq,
    fun hl => ⟨fun n hn => exec_sriovNumvfs_eq hl hn, fun g hg => exec_bar2Resize_pf hl hg, fun g hg => exec_bar2Resize_vf hl hg⟩⟩

/-- Settles O13: what a cold reset leaves, and one equation per signal and per event of the link. -/
theorem suppliesAndSignalsAct : Obligations.SuppliesAndSignalsAct := by
  unfold Obligations.SuppliesAndSignalsAct
  exact ⟨suppliesAct_holds, controlSignalsAct_holds⟩

end Sys2Proof.Laws
end

section
/-! # Sessions and the paths of Umasel (O50) -/

namespace Sys2Proof.Laws
open Sys2Proof Sys2Proof.Machine Sys2Proof.Claim

variable {s t : State} {p : UmPath} {rq : UmReq} {rest : List UmReq}

/-! ## A request that is served (R336) -/

/-- A request that no check stops is of its own operation. -/
theorem isOp_of_serves {op : Nat} (h : serves s p op rq rest) : isOp op rq.bs = true := by
  obtain ⟨-, -, -, -, hop, hfwd, -⟩ := h
  simp [isOp, hop, hfwd]

theorem path_of_serves {op : Nat} (h : serves s p op rq rest) : rq.path = p := h.2.2.2.1

/-- A request whose operation answers at once. -/
theorem serve_answers {op : Nat} {go : UmReq → State → Option Rsp × State} {x : Rsp} {u : State} (h : serves s p op rq rest)
    (hg : go rq (taken s p rq rest) = (some x, u)) : onPath p s (fun s => s.serve p (isOp op) go) = .next (u.reply rq x) := by
  rw [onPath_eq h.1, serve_eq h _ (isOp_of_serves h), hg]

/-- A request whose operation sends its own answer. -/
theorem serve_continues {op : Nat} {go : UmReq → State → Option Rsp × State} {u : State} (h : serves s p op rq rest)
    (hg : go rq (taken s p rq rest) = (none, u)) : onPath p s (fun s => s.serve p (isOp op) go) = .next u := by
  rw [onPath_eq h.1, serve_eq h _ (isOp_of_serves h), hg]

/-! ## Sessions (R331, R332) -/

/-- The session that SESSION_OPEN makes, not open yet. -/
def offered (t : State) (rq : UmReq) (nonce : List Byte) : Session :=
  ⟨fieldAt (t.frPayload rq.bs) 0 1, rq.path, false, (t.frPayload rq.bs).drop 1, nonce, [], 0, 0⟩

/-- The nonce of the module, and the state in which the session that it makes is kept. -/
def sessionNonce (t : State) : List Byte := (t.newSession.2.freeBytes 32).1
def sessionKept (t : State) (rq : UmReq) : State :=
  { (t.newSession.2.freeBytes 32).2 with
    um.sessions := Tab.put (t.newSession.2.freeBytes 32).2.um.sessions t.newSession.1 (offered t rq (sessionNonce t)) }

theorem length_sessionNonce : (sessionNonce t).length = 32 := by simp [sessionNonce, State.freeBytes]

theorem find_sessionKept : Tab.find (sessionKept t rq).um.sessions t.newSession.1 = some (offered t rq (sessionNonce t)) := by
  simp [sessionKept, find_put]

theorem doSessionOpen_opens (hl : (t.frPayload rq.bs).length = 33)
    (hv : fieldAt (t.frPayload rq.bs) 0 1 = 2 ∨ fieldAt (t.frPayload rq.bs) 0 1 = 3) (hb : NSet.mem t.um.authBlock (pathNo rq.path) = false)
    (hn : t.um.sessions.length < 8) :
    doSessionOpen rq t = (some { payload := sessionNonce t, sess := t.newSession.1 }, sessionKept t rq) := by
  have hlevel : ¬(fieldAt (t.frPayload rq.bs) 0 1 ≠ 2 ∧ fieldAt (t.frPayload rq.bs) 0 1 ≠ 3) := by omega
  rw [doSessionOpen, if_neg (not_not.mpr hl), if_neg hlevel, if_neg (Bool.eq_false_iff.mp hb), if_neg (Nat.not_le.mpr hn)]
  rfl

/-- The session x as it is once it has been authenticated. -/
def authenticated (t : State) (x : Session) : Session :=
  { x with opened := true, key := hmac (t.keyOf x.level) ([0x53, 0x4B, 0x45, 0x59] ++ x.mnonce ++ x.cnonce) }

section
variable {x : Session} (hl : (t.frPayload rq.bs).length = 48) (hx : Tab.find t.um.sessions (frSession rq.bs) = some x)
  (ho : x.opened = false) (hp : x.path = rq.path)
include hl hx ho hp

theorem doSessionAuth_right (hv : t.frPayload rq.bs = t.authValue (frSession rq.bs) x) : doSessionAuth rq t =
    (none, ({ t with um.sessions := Tab.put t.um.sessions (frSession rq.bs) (authenticated t x) } : State).sendBack rq.path
      (rspHead rq.bs {} (frSession rq.bs) 0 ++ List.replicate 16 0)) := by
  have hlen : ¬(t.frPayload rq.bs).length ≠ 48 := not_not.mpr hl
  have hmine : ¬((x.opened || !(x.path == rq.path)) = true) := by simp [ho, hp]
  have hsame : ¬((t.frPayload rq.bs != t.authValue (frSession rq.bs) x) = true) := by simp [hv]
  simp only [doSessionAuth, hx, if_neg hlen, if_neg hmine, if_neg hsame]
  rfl

theorem doSessionAuth_wrong (hv : t.frPayload rq.bs ≠ t.authValue (frSession rq.bs) x) : doSessionAuth rq t =
    (some (refuse 0x08), ({ t with um.sessions := Tab.del t.um.sessions (frSession rq.bs) } : State).authFail rq.path) := by
  have hlen : ¬(t.frPayload rq.bs).length ≠ 48 := not_not.mpr hl
  have hmine : ¬((x.opened || !(x.path == rq.path)) = true) := by simp [ho, hp]
  simp only [doSessionAuth, hx, if_neg hlen, if_neg hmine, if_pos (bne_iff_ne.mpr hv)]

end

theorem doSessionClose_closes (hn : frSession rq.bs ≠ 0) :
    doSessionClose rq t = (none, (t.reply rq {}).closeSession (frSession rq.bs)) := if_neg hn

theorem closeSession_eq {n : Nat} {x : Session} (h : Tab.find s.um.sessions n = some x) : s.closeSession n = { s with
    um.sessions := Tab.del s.um.sessions n
    um.locks := s.um.locks.filter (fun e => !(e.2.session == n && e.2.path == x.path)) } := by
  simp only [State.closeSession, h]

theorem sessionsOpenAndClose_holds : sessionsOpenAndClose := by
  rintro s p rq rest t rfl
  refine ⟨fun h hl hv hb hn => ⟨_, _, _, length_sessionNonce, serve_answers h (doSessionOpen_opens hl hv ?_ hn), ?_⟩,
    fun x h hl hx ho hp => ⟨fun hv => ?_, fun hv => ?_⟩,
    fun h hn => serve_continues h (doSessionClose_closes hn), fun n x hx => congrArg Host.Outcome.next (closeSession_eq hx),
    fun hp => onPath_eq hp s _⟩
  · rw [path_of_serves h]
    exact hb
  · rw [find_sessionKept, offered, path_of_serves h]
  · rw [← path_of_serves h] at hp
    have hgo := serve_continues h (doSessionAuth_right hl hx ho hp hv)
    rw [path_of_serves h] at hgo
    exact ⟨_, hgo, _, (find_put _ _ _ _).trans (if_pos rfl), rfl, rfl⟩
  · rw [← path_of_serves h] at hp
    have hgo := serve_answers h (doSessionAuth_wrong hl hx ho hp hv)
    rw [path_of_serves h] at hgo
    exact hgo

/-! ## Requests that arrive (R330, R333, R336, R337, R346) -/

/-- A request joins a queue that has a place for it. -/
theorem request_joins {bs : List Byte} (h : (s.umQueue p).length < 32) :
    s.request p bs = { s with um.queues := Tab.put s.um.queues (pathNo p) (s.umQueue p ++ [⟨p, bs⟩]) } := if_neg (Nat.not_le.mpr h)

theorem umQueue_request {bs : List Byte} (h : (s.umQueue p).length < 32) : (s.request p bs).umQueue p = s.umQueue p ++ [⟨p, bs⟩] := by
  rw [request_joins h]
  exact get_put _ _ _ _

theorem fxMgmtMboxGo_busy {v : BitVec 32} (hm : s.mcOn = true) (hl : s.sys.linkUp = true) (hg : s.um.mbox.go = true) :
    fxMgmtMboxGo v s = { s with um.mboxDiscards := s.um.mboxDiscards + 1 } := by
  simp [fxMgmtMboxGo, hm, hl, hg]

theorem fxMgmtMboxGo_goes {v : BitVec 32} (hm : s.mcOn = true) (hl : s.sys.linkUp = true) (hg : s.um.mbox.go = false)
    (hv : v.getLsbD 0 = true) : fxMgmtMboxGo v s =
      ({ s with um.mbox := s.um.mbox.control v } : State).request .mbox (sliceAt s.um.mbox.req 0 256) := by
  simp only [fxMgmtMboxGo, hm, hl, hg, hv, Bool.not_true, Bool.or_self, Bool.false_eq_true, if_false, if_true]
  rfl

/-- The state in which the mailbox of context c has taken a write of its control register. -/
def svcControlled (s : State) (c : Nat) (v : BitVec 32) : State := s.modCtx c (fun x => { x with svc := x.svc.control v })

theorem svc_svcControlled {c : Nat} {v : BitVec 32} : ((svcControlled s c v).ctx c).svc = (s.ctx c).svc.control v :=
  congrArg CtxState.svc (ctx_modCtx s c _)

theorem fxMgmtSvcGo_goes {c : Nat} {v : BitVec 32} (hm : s.mcOn = true) (hl : s.sys.linkUp = true) (hf : s.vfOn c = true)
    (hp : s.pwr.state = 0) (hg : (s.ctx c).svc.go = false) (hv : v.getLsbD 0 = true) : fxMgmtSvcGo c v s =
      (svcControlled s c v).request (.svc c) (sliceAt (s.ctx c).svc.req 0 256) := by
  have hreq : ((svcControlled s c v).ctx c).svc.req = (s.ctx c).svc.req := by
    rw [svc_svcControlled]
    rfl
  rw [← hreq]
  simp only [fxMgmtSvcGo, State.svcControl, hf, hm, hl, wakeBy_active hp, hg, hv, Bool.not_true, Bool.or_self, Bool.false_eq_true, if_false,
    if_true]
  rfl

theorem fxT1sFrame_joins {bs : List Byte} (hm : s.mcOn = true) (hs : frShort bs = false) : fxT1sFrame bs false s = s.request .t1s bs := by
  simp [fxT1sFrame, hm, hs]

theorem fxT1sFrame_short {bs : List Byte} {b : Bool} (hm : s.mcOn = true) (hs : frShort bs = true) :
    fxT1sFrame bs b s = { s with um.drops := s.um.drops + 1 } := by
  simp [fxT1sFrame, hm, hs]

/-! ## Requests that are forwarded (R338) -/

/-- A request with FWD = 1 that no check stops is served. -/
theorem exec_forward_eq (hm : s.mcOn = true) (hq : s.umQueue .t1s = rq :: rest) (hp : rq.path = .t1s) (hf : frFwd rq.bs = true)
    (hc : (({ s with um.queues := Tab.put s.um.queues 0 rest } : State).settleDrains).precheck rq = .pass) {u : State}
    (hg : doForward rq (taken s .t1s rq rest) = (none, u)) : exec (.forward .t1s) s = .next u := by
  refine (onPath_eq (p := .t1s) (fun c h => by cases h) s (fun s => s.serve .t1s frFwd doForward)).trans (congrArg _ ?_)
  have hpath : (!(rq.path == .t1s) || !frFwd rq.bs) = false := by rw [hp, hf]; rfl
  have hpass : (({ s with um.queues := Tab.put s.um.queues (pathNo .t1s) rest } : State).settleDrains).precheck rq = .pass := hc
  unfold State.serve
  simp only [hm, hq, hpath, hpass, Bool.not_true, Bool.false_eq_true, if_false]
  unfold taken at hg
  rw [hg]

theorem doForward_leaves (hs : t.inShape (frDid rq.bs) = true) (hl : t.didLost (frDid rq.bs) = false) (hr : t.reaches (frDid rq.bs) = true) :
    doForward rq t = (none, ({ t with um.fwd := t.um.fwd ++ [(rq.path, rq.bs)] } : State).sendForward (frDid rq.bs) rq.bs) := by
  simp [doForward, hs, hl, hr]

/-- The state in which forwarded request n has been answered or given up. -/
def forwardEnded (s : State) (n : Nat) : State := { s with um.fwd := s.um.fwd.eraseIdx n, um.fwdTags := s.um.fwdTags.eraseIdx n }

theorem endForward_eq {n : Nat} {b : List Byte} (hm : s.mcOn = true) (hn : s.um.fwd[n]? = some (p, b)) (go : UmReq → State → State) :
    s.endForward n go = go ⟨p, b⟩ (forwardEnded s n) := by
  simp only [State.endForward, hm, hn, Bool.not_true, Bool.false_eq_true, if_false]
  rfl

/-! ## Events (R358) -/

theorem fxEvent_leaves {d : Nat} {e : UmEvent} {es : List UmEvent} (hm : s.mcOn = true) (h1 : 1 ≤ d) (h4 : d ≤ 4)
    (hq : Tab.get [] s.um.events d = e :: es) (ho : s.obj 0x1012 d = 1) :
    fxEvent d s = ({ s with um.events := Tab.put s.um.events d es } : State).emit (.t1s (s.eventFrame e)) := by
  simp [fxEvent, hq, ho, hm, Nat.not_lt.mpr h1, Nat.not_lt.mpr h4]

theorem umaselPathsAct_holds : umaselPathsAct := by
  intro s hm
  refine ⟨fun v hl hg => congrArg Host.Outcome.next (fxMgmtMboxGo_busy hm hl hg), fun v hl hg hv hq => ⟨_, rfl, ?_⟩,
    fun c v hc hl hf hp hg hv hq => ⟨_, onCtx_eq hc s _, ?_⟩,
    fun bs hs hq => congrArg Host.Outcome.next ((fxT1sFrame_joins hm hs).trans (request_joins hq)),
    fun bs b hs => congrArg Host.Outcome.next (fxT1sFrame_short hm hs), ?_,
    fun n p b hn => ⟨⟨_, congrArg Host.Outcome.next (endForward_eq hm hn _), rfl⟩, fun bs hs => ?_⟩,
    fun d e rest h1 h4 hq ho => congrArg Host.Outcome.next (fxEvent_leaves hm h1 h4 hq ho)⟩
  · have hwait : (({ s with um.mbox := s.um.mbox.control v } : State).umQueue .mbox).length < 32 := hq
    rw [fxMgmtMboxGo_goes hm hl hg hv]
    refine ⟨?_, umQueue_request hwait⟩
    rw [request_joins hwait]
    exact hv
  · have hwait : ((svcControlled s c v).umQueue (.svc c)).length < 32 := hq
    rw [fxMgmtSvcGo_goes hm hl hf hp hg hv]
    refine ⟨?_, umQueue_request hwait⟩
    rw [request_joins hwait]
    exact (congrArg Mbox.go svc_svcControlled).trans hv
  · rintro rq rest t hq hp hf rfl hc hs hl hr
    exact exec_forward_eq hm hq hp hf hc (doForward_leaves hs hl hr)
  · refine congrArg Host.Outcome.next ((if_neg (Bool.eq_false_iff.mp hs)).trans ?_)
    exact endForward_eq hm hn _

/-- Settles O50, its parts each by the effect of its row once the conditions hold. -/
theorem sessionsAndUmaselPathsAct : Obligations.SessionsAndUmaselPathsAct := by
  unfold Obligations.SessionsAndUmaselPathsAct
  exact ⟨sessionsOpenAndClose_holds, umaselPathsAct_holds⟩

end Sys2Proof.Laws
end

section
/-! # Operations on objects (O49) -/

namespace Sys2Proof.Laws
open Sys2Proof Sys2Proof.Machine Sys2Proof.Claim

variable {s t : State} {p : UmPath} {rq : UmReq} {rest : List UmReq} {x : Rsp}

theorem length_rspHead (b : List Byte) (r : Rsp) (session mseq : Nat) : (rspHead b r session mseq).length = 32 := by
  simp [rspHead]

/-- A response that no session carries leaves T1S as head, empty tag and payload (R333). -/
theorem reply_t1s (hp : rq.path = .t1s) (hc : t.carrier rq = none) (hb : x.bulk = false) :
    t.reply rq x = t.emit (.t1s (rspHead rq.bs x x.sess 0 ++ List.replicate 16 0 ++ x.payload)) := by
  have hout : t.bulkOut x = t := if_neg (Bool.eq_false_iff.mp hb)
  simp only [State.reply, hout, hc, hb, Bool.false_eq_true, if_false, hp]
  rfl

/-- Two responses that leave T1S from one state have payloads of one length. -/
theorem length_payload_of_reply_eq {y : Rsp} (hp : rq.path = .t1s) (hc : t.carrier rq = none) (hx : x.bulk = false) (hy : y.bulk = false)
    (h : t.reply rq x = t.reply rq y) : x.payload.length = y.payload.length := by
  rw [reply_t1s hp hc hx, reply_t1s hp hc hy] at h
  have hframe : rspHead rq.bs x x.sess 0 ++ List.replicate 16 0 ++ x.payload = rspHead rq.bs y y.sess 0 ++ List.replicate 16 0 ++ y.payload :=
    Out.t1s.inj (List.singleton_inj.mp (List.append_cancel_left (congrArg State.out h)))
  have hlen := congrArg List.length hframe
  simpa only [List.length_append, length_rspHead, Nat.add_left_cancel_iff] using hlen

/-- NEXT answers with index and subindex, three bytes (R328). -/
theorem exec_next_eq (h : serves s p 6 rq rest) : ∃ k, exec (.next p) s =
    .next ((taken s p rq rest).reply rq { payload := natLe 2 (k / 256) ++ natLe 1 k }) := by
  exact ⟨(nextObj (frIndex rq.bs) (frSub rq.bs) (frExpert rq.bs)).getD 0xFFFFFF, serve_answers h rfl⟩

/-- Refutes O49: NEXT on T1S with no session, `Tests.fNext`, is answered with a payload of three bytes, where the statement has four. -/
theorem not_objectOperationsAct : ¬ Obligations.ObjectOperationsAct := by
  unfold Obligations.ObjectOperationsAct
  intro h
  have hserves : serves (Tests.atHead .t1s Tests.fNext) .t1s 6 ⟨.t1s, Tests.fNext⟩ [] := Tests.serves_of (by decide +kernel)
  have hcarrier : (taken (Tests.atHead .t1s Tests.fNext) .t1s ⟨.t1s, Tests.fNext⟩ []).carrier ⟨.t1s, Tests.fNext⟩ = none := by
    decide +kernel
  obtain ⟨-, -, -, -, -, hnext, -⟩ := h (Tests.atHead .t1s Tests.fNext) .t1s ⟨.t1s, Tests.fNext⟩ [] _ rfl
  obtain ⟨k, hfour, -⟩ := hnext hserves
  obtain ⟨j, hthree⟩ := exec_next_eq hserves
  have hlen := length_payload_of_reply_eq rfl hcarrier rfl rfl (Host.Outcome.next.inj (hthree.symm.trans hfour))
  simp at hlen

end Sys2Proof.Laws
end

section
/-! # What keeps the state of the hang dump (for O52)

A dump writes its sections to striped memory. The write counts, wakes stacks, sets poison marks and may fail a stack, and none of that changes
whether a dump is held or what caused it. One lemma per operation, in the order of the operations. -/

namespace Sys2Proof.Laws
open Sys2Proof Sys2Proof.Machine

variable {s : State} {l21 : Bool} {stripe n : Nat}

/-- Whether a dump is being written or held, and its cause. -/
def heldDump (s : State) : Nat × Nat := (s.obs.dumpState, s.obs.dumpCause)

theorem heldDump_of_obs {t : State} (h : t.obs = s.obs) : heldDump t = heldDump s :=
  congrArg (fun (o : Obs) => (o.dumpState, o.dumpCause)) h

theorem heldDump_event (code detail : Nat) : heldDump (s.event code detail) = heldDump s :=
  heldDump_of_obs (obs_event code detail)

theorem heldDump_enterSafeHold (code unit : Nat) : heldDump (s.enterSafeHold code unit) = heldDump s := by
  unfold State.enterSafeHold
  split
  · rfl
  · extract_lets t
    exact (heldDump_event _ _).trans (heldDump_of_obs rfl)

theorem heldDump_setPoison (u : Nat) (m : BitVec 8) : heldDump (s.setPoison l21 stripe u m) = heldDump s := by
  unfold State.setPoison
  dsimp only
  split_ifs
  · rfl
  · exact heldDump_enterSafeHold _ _
  · rfl
  · rfl

theorem heldDump_logRebind (kind logical physical : Nat) : heldDump (s.logRebind kind logical physical) = heldDump s := by
  unfold State.logRebind
  extract_lets l t
  exact (heldDump_event _ _).trans (heldDump_of_obs rfl)

/-! ## Stacks -/

theorem heldDump_setStackState (st : Nat) : heldDump (s.setStackState n st) = heldDump s := by
  unfold State.setStackState
  split
  · rfl
  · exact heldDump_event _ _

theorem heldDump_bgFail (i : Nat) : heldDump (s.bgFail i) = heldDump s := heldDump_event _ _

theorem heldDump_forceBypass : heldDump s.forceBypass = heldDump s := by
  unfold State.forceBypass
  refine foldl_kept heldDump (fun _ _ => ?_) _ _
  rfl

theorem heldDump_failStack : heldDump (s.failStack n) = heldDump s := by
  unfold State.failStack
  split
  · rfl
  · extract_lets was t
    have ht : heldDump t = heldDump s := by
      unfold t
      split
      · exact heldDump_bgFail 2
      · split
        · exact heldDump_bgFail 3
        · rfl
    calc heldDump ((t.setStackState n 5).logRebind 1 n n).forceBypass
      _ = heldDump ((t.setStackState n 5).logRebind 1 n n) := heldDump_forceBypass
      _ = heldDump (t.setStackState n 5) := heldDump_logRebind _ _ _
      _ = heldDump t := heldDump_setStackState 5
      _ = heldDump s := ht

theorem heldDump_uncorrError : heldDump (s.uncorrError n) = heldDump s := by
  unfold State.uncorrError
  extract_lets now t
  split
  · exact heldDump_failStack
  · rfl

theorem heldDump_severity (e : ReadErrs) : heldDump (s.severity e n) = heldDump s := by
  unfold State.severity
  split
  · exact heldDump_uncorrError
  · split <;> rfl

theorem heldDump_touch : heldDump (s.touch n) = heldDump s := by
  unfold State.touch
  split <;> rfl

/-! ## Reads and writes of units -/

theorem heldDump_readUnits (is : List Nat) : heldDump (s.readUnits l21 stripe is) = heldDump s := by
  refine foldl_kept heldDump (fun _ _ => ?_) _ _
  exact heldDump_touch

theorem heldDump_readMeeting (is : List Nat) (e : ReadErrs) : heldDump (s.readMeeting l21 stripe is e) = heldDump s :=
  (foldl_kept heldDump (fun _ _ => heldDump_severity e) _ _).trans (heldDump_readUnits is)

theorem heldDump_skipUnit (i : Nat) : heldDump (s.skipUnit l21 stripe i) = heldDump s := by
  unfold State.skipUnit
  extract_lets n t
  split <;> rfl

theorem heldDump_writeUnit (i : Nat) (bs : List Byte) : heldDump (s.writeUnit l21 stripe i bs) = heldDump s := by
  unfold State.writeUnit
  dsimp only
  split
  · exact heldDump_skipUnit i
  · rfl

theorem heldDump_writeStripe (w : StripeWrite) (errs : ReadErrs) : heldDump (s.writeStripe l21 stripe w errs).2 = heldDump s := by
  unfold State.writeStripe
  extract_lets er nd m us e hd full first olds delta need old lost new diff rest pars writes ns rs reads s1 s2 s3 s4
  have h1 : heldDump s1 = heldDump s := by
    show heldDump (if full = true then s else s.readMeeting l21 stripe reads errs) = heldDump s
    split
    · rfl
    · exact heldDump_readMeeting _ _
  clear_value s1
  have h2 : heldDump s2 = heldDump s1 := by
    refine foldl_kept heldDump (fun x p => ?_) writes s1
    exact heldDump_writeUnit p.1 p.2
  clear_value s2
  have h3 : heldDump s3 = heldDump s2 := by
    refine foldl_kept heldDump (fun x u => ?_) us s2
    exact heldDump_setPoison u _
  clear_value s3
  have h4 : heldDump s4 = heldDump s3 := by
    refine foldl_kept heldDump (fun x u => ?_) lost s3
    exact heldDump_setPoison u _
  have hend : heldDump s4 = heldDump s := h4.trans (h3.trans (h2.trans h1))
  split
  · exact hend
  · exact hend

theorem heldDump_lostFor (srcs : List Nat) : heldDump (s.lostFor srcs stripe) = heldDump s := by
  refine foldl_kept heldDump (fun _ _ => ?_) _ _
  split <;> rfl

theorem heldDump_memWrite (pa : Nat) (bs : List Byte) : heldDump (s.memWrite pa bs).2 = heldDump s := by
  unfold State.memWrite State.memWriteP
  refine foldl_kept (fun (y : Bool × State) => heldDump y.2) (fun y g => ?_) _ (false, s)
  dsimp only
  split
  · split
    · exact (heldDump_lostFor _).trans (heldDump_writeStripe _ _)
    · exact heldDump_writeStripe _ _
  · exact heldDump_writeStripe _ _

/-! ## The dump's own sections (R360, R361) -/

theorem obs_dumpQueues : s.dumpQueues.2.obs = s.obs := by
  unfold State.dumpQueues
  refine foldl_kept (fun (y : List Byte × State) => y.2.obs) (fun y c => ?_) _ ([], s)
  refine foldl_kept (fun (y : List Byte × State) => y.2.obs) (fun z m => ?_) _ (_, y.2)
  rfl

/-- A dump that has been written is held, under the cause that began it. -/
theorem heldDump_fxHangDumpComplete (h : s.obs.dumpState = 1) : heldDump (fxHangDumpComplete s) = (2, s.obs.dumpCause) := by
  unfold fxHangDumpComplete
  rw [if_neg (not_not.mpr h)]
  extract_lets q body secs all t crc u
  have ht : heldDump t = heldDump s := heldDump_of_obs obs_dumpQueues
  have hu : heldDump u = heldDump t := heldDump_memWrite dumpBase (t.dumpHeader secs crc.toNat 1 ++ all)
  clear_value u t
  refine (heldDump_event _ _).trans ?_
  have hcause : u.obs.dumpCause = s.obs.dumpCause := congrArg Prod.snd (hu.trans ht)
  exact Prod.ext rfl hcause

end Sys2Proof.Laws
end

section
/-! # Configuration store, firmware, wear, hang dump and timestamps (O52) -/

namespace Sys2Proof.Laws
open Sys2Proof Sys2Proof.Machine Sys2Proof.Claim

variable {s : State} {rq : Req} {idx sub v : Nat}

/-! ## Wear management (R340) -/

theorem selfTestFails_spare {d n : Nat} (h40 : 40 ≤ n) (h48 : n < 48) (hb : ∀ j, j < 40 → (s.core (d * 40 + j)).physIdx ≠ n) :
    s.selfTestFails d n = { s with spares := Tab.put s.spares d (NSet.insert (Tab.get [] s.spares d) n) } := by
  have hnone : (List.range 40).find? (fun j => (s.core (d * 40 + j)).physIdx == n) = none := by
    refine List.find?_eq_none.mpr fun j hj heq => hb j (List.mem_range.mp hj) (beq_iff_eq.mp heq)
  rw [State.selfTestFails, hnone]
  exact if_pos ⟨h40, h48⟩

theorem fxWearManagement_one {d n : Nat} (hw : s.works = true) (hd : cdOk d = true) :
    fxWearManagement [] [(d, n)] s = s.selfTestFails d n := by
  simp [fxWearManagement, hw, hd]

theorem maintenanceActs_holds : maintenanceActs := by
  intro s rq v
  refine ⟨fun h => ⟨_, congrArg Host.Outcome.next (umTry_doAct h _), rfl, rfl⟩,
    fun h => ⟨_, congrArg Host.Outcome.next (umTry_doAct h _), rfl, rfl⟩,
    fun h hs => ⟨_, congrArg Host.Outcome.next (umTryReset_unanswered h hs _), rfl, rfl, rfl, rfl, rfl, rfl, rfl⟩,
    fun h => congrArg Host.Outcome.next (umTry_doAct h _), fun d n hw hd h40 h48 hb => congrArg Host.Outcome.next ?_⟩
  rw [fxWearManagement_one hw hd, selfTestFails_spare h40 h48 hb]

/-! ## Triggers of the hang dump (R359) -/

section
variable {n : Nat} (ho : s.obj 0x5E00 1 / 2 ^ n % 2 = 1) (hh : s.rbd.safeHold = false ∨ n = 5)
include ho hh

/-- A trigger whose bit is set is honoured, in safe hold a request alone. -/
theorem dump_honoured : s.dump n = if s.obs.dumpState = 0 then { s with
      obs.dumpState := 1, obs.dumpCause := n, obs.dumpTrigger := s.sys.ts, obs.dumpOffset := s.obs.tsOffset }
    else { s with obs.dumpMissed := BitVec.ofNat 32 (n % 256 + 256 * (s.obs.dumpMissed.toNat / 256 + 1)) } := by
  have hset : s.obj 0x5E00 1 / 2 ^ n % 2 ≠ 0 := by omega
  have hgo : ¬((decide (s.obj 0x5E00 1 / 2 ^ n % 2 = 0) || (s.rbd.safeHold && n != 5)) = true) := by
    have hcause : (s.rbd.safeHold && n != 5) = false := by
      rcases hh with hh | rfl
      · rw [hh]
        rfl
      · exact Bool.and_false _
    rw [hcause, Bool.or_false, decide_eq_true_eq]
    exact hset
  rw [State.dump, if_neg hgo]

end

theorem exec_hangDumpTrigger_eq {n : Nat} (hm : s.mcOn = true) (hn : n ≤ 5) : exec (.hangDumpTrigger n) s = .next (s.dump n) := by
  have hgo : (s.mcOn && decide (n ≤ 5)) = true := by rw [hm, decide_eq_true hn]; rfl
  exact congrArg Host.Outcome.next (if_pos hgo)

/-! ## Timestamps (R356, R357) -/

theorem fxTsExchange_adds {q t1 t2 t3 t4 : Nat} (ha : s.alive = true) (he : s.obj 0x5100 1 = 1) (hr : s.obj 0x5100 2 ≠ 2)
    (hu : portUp (s.port q).st = true) (hn : Tab.get 0 s.obs.linkN q < 63) : fxTsExchange q t1 t2 t3 t4 s = { s with
      obs.linkN := Tab.put s.obs.linkN q (Tab.get 0 s.obs.linkN q + 1)
      obs.linkOff := Tab.put s.obs.linkOff (1000 + q) (Tab.get 0 s.obs.linkOff (1000 + q) + (((t2 : Int) - t1) - ((t4 : Int) - t3))) } := by
  have hnot : ¬64 ≤ Tab.get 0 s.obs.linkN q := by omega
  have hless : Tab.get 0 s.obs.linkN q + 1 < 64 := by omega
  have hgo : (!s.alive || s.obj 0x5100 1 == 0 || s.obj 0x5100 2 == 2 || !s.tsUsable q || decide (64 ≤ Tab.get 0 s.obs.linkN q)) = false := by
    simp [ha, he, hr, State.tsUsable, hu, hnot]
  simp only [fxTsExchange, hgo, hless, Bool.false_eq_true, if_false, if_true]

theorem actTsMeasure_starts (h : s.obj 0x5100 1 = 1) : actTsMeasure s = (0, s.startMeasure.tellAll Mg.tsMeasure []) :=
  if_neg (by omega)

theorem dumpsAndTimestampsAct_holds : dumpsAndTimestampsAct := by
  intro s rq v
  refine ⟨fun n hm hn ho hh => ⟨fun h0 => ?_, fun h2 => ⟨_, exec_hangDumpTrigger_eq hm hn, ?_⟩⟩,
    fun h => ⟨_, rfl, congrArg Prod.fst (heldDump_fxHangDumpComplete h), congrArg Prod.snd (heldDump_fxHangDumpComplete h)⟩,
    fun h => congrArg Host.Outcome.next (umTry_doAct h _), fun h hs => congrArg Host.Outcome.next ((umTry_eq h _).trans ?_),
    fun h he => ⟨s.startMeasure, congrArg Host.Outcome.next ((umTry_eq h _).trans ?_), rfl, rfl, rfl, rfl, rfl⟩,
    fun q t1 t2 t3 t4 hq ha he hr hu hn => (onPort_eq hq s _).trans (congrArg _ (fxTsExchange_adds ha he hr hu hn))⟩
  · rw [exec_hangDumpTrigger_eq hm hn, dump_honoured ho hh, if_pos h0]
  · have hbusy : s.obs.dumpState ≠ 0 := by omega
    rw [dump_honoured ho hh, if_neg hbusy]
    exact ⟨h2, rfl, rfl⟩
  · rw [actDumpRelease, if_neg hs]
  · rw [actTsMeasure_starts he]

/-- Settles O52; that a dump's end keeps its cause rests on what its write to memory leaves (`heldDump_memWrite`). -/
theorem maintenanceDumpsAndTimestampsAct : Obligations.MaintenanceDumpsAndTimestampsAct := by
  unfold Obligations.MaintenanceDumpsAndTimestampsAct
  exact ⟨maintenanceActs_holds, dumpsAndTimestampsAct_holds⟩

end Sys2Proof.Laws
end

section
/-! # Power gating and standby (O32) -/

namespace Sys2Proof.Laws
open Sys2Proof Sys2Proof.Machine Sys2Proof.Claim

variable {s : State}

/-- A read of registers by firmware is answered whatever the state of the power: only the management controller takes part. -/
theorem exec_memRead_registers {o n : Nat} {e : ReadErrs} (hm : s.mcOn = true) (hn : o + n ≤ 0x100000000) :
    exec (.memRead fwSrc (0xF80000000000 + o) n e) s =
      .next (s.emit (.readData fwSrc (s.regBytes o n) (List.replicate n false) St.ok)) := by
  have hwin : windowAt (0xF80000000000 + o) n = some (.reg o) := by
    rw [windowAt, if_neg (by omega), if_pos (by omega), Nat.add_sub_cancel_left]
  refine congrArg Host.Outcome.next ?_
  simp only [fxMemRead, if_true, hwin, hm]
  rfl

/-- What is emitted changes the state. -/
theorem emit_ne_self (o : Out) : s.emit o ≠ s := fun h => by
  have hlen : (s.out ++ [o]).length = s.out.length := congrArg (fun t => t.out.length) h
  simp at hlen

/-- Refutes O32: in the standby of `Tests.restStandby` MEM_READ by firmware of the first 4 B of its register window (Table 1.7), which lies
outside the compute dies, is answered, where the statement has every MEM_READ without effect. -/
theorem not_gatingAndStandbyAct : ¬ Obligations.GatingAndStandbyAct := by
  unfold Obligations.GatingAndStandbyAct
  rintro ⟨-, hstandby⟩
  obtain ⟨-, -, hrest⟩ := hstandby Tests.restStandby
  obtain ⟨hread, -⟩ := hrest rfl rfl
  have hanswer := exec_memRead_registers (s := Tests.restStandby) (o := 0) (n := 4) (e := noErrs) rfl (by decide)
  exact emit_ne_self _ (Host.Outcome.next.inj (hanswer.symm.trans (hread fwSrc 0xF80000000000 4 noErrs)))

end Sys2Proof.Laws
end

section
/-! # Resets and bring-up (O14) -/

namespace Sys2Proof.Laws
open Sys2Proof Sys2Proof.Machine Sys2Proof.Claim

/-- In recovery boot the check of REFCLK_100M is not repeated (R343). -/
theorem exec_refclkRetry_recovery {s : State} {ok : Bool} (h : s.sys.recoveryBoot = true) : exec (.refclkRetry ok) s = .next s := by
  have hdead : s.alive = false := by simp [State.alive, h]
  simp only [exec, execRefclkRetry, hdead, Bool.false_and, Bool.false_eq_true, if_false]

/-- A module in recovery boot that stands in step 3 with VIN48 there and no PLL locked. The statement takes every state; in a run recovery
boot stands in step 2 (`State.toRecoveryBoot`, R343). -/
def recoveryInStepThree : State := { State.reset with
  sys.vin48 := true
  sys.step := 3
  sys.booting := false
  sys.recoveryBoot := true }

/-- Refutes O14: REFCLK_RETRY in `recoveryInStepThree` leaves step 3 as it is, since a module in recovery boot holds; the clause that wants
step 4 has no premise on recovery boot. -/
theorem not_resetsAndBringUpAct : ¬ Obligations.ResetsAndBringUpAct := by
  unfold Obligations.ResetsAndBringUpAct
  rintro ⟨-, hbringUp⟩
  obtain ⟨-, -, -, hretry, -⟩ := hbringUp recoveryInStepThree rfl rfl rfl
  obtain ⟨t, hexec, -, -, hstep⟩ := hretry rfl rfl rfl
  have hsame : recoveryInStepThree = t := Host.Outcome.next.inj ((exec_refclkRetry_recovery rfl).symm.trans hexec)
  rw [← hsame] at hstep
  exact absurd hstep (by decide)

end Sys2Proof.Laws
end
